-- ==== Sys2Proof/Word.lean ====
section
/-! DEFINITION. The machine's words: 32-bit registers (R6), bytes, and the names the manual gives its fixed sets. -/

namespace Sys2Proof

/-- A 32-bit register or memory word (R6). -/
abbrev Word := BitVec 32

/-- One byte. -/
abbrev Byte := BitVec 8

/-- The two dies (chapter 01): `cs` chassis side, DIE bit 0; `ds` DC-link side, DIE bit 1 (R9). -/
inductive Die where
  | cs
  | ds
deriving DecidableEq, Repr, Inhabited

/-- The other die of the crossing. -/
def Die.other : Die → Die
  | .cs => .ds
  | .ds => .cs

/-- The DIE bit of a fault code (R9) and of an image record (R46). -/
def Die.bit : Die → Nat
  | .cs => 0
  | .ds => 1

end Sys2Proof
end

