-- ==== Sys2Proof/Syntax.lean ====
section
/-! DEFINITION. The commands of the block: one constructor per row of spec/opcode_table.json. A row is an event of the
device (chapter 95): something from outside arrives, a time the manual states has come, or software touches a register
that has a row of its own. The operands are what the event brings with it from outside the block. -/

namespace Sys2Proof

/-- The three host streams of R503 that carry requests. -/
inductive Stream where
  | spi
  | pa
  | broadcast
deriving DecidableEq, Repr, Inhabited

/-- The two Oromin chain ports (R511). -/
inductive Port where
  | pa
  | pb
deriving DecidableEq, Repr, Inhabited

/-- The header of a request frame as it arrived (R500): `len` is the LEN field, `crc` the received CRC-32, `coding`
whether the 8b/10b coding was good (always so on the SPI). -/
structure Req where
  stream : Stream
  dst    : Byte
  src    : Byte
  seq    : Byte
  alive  : Byte
  len    : BitVec 16
  crc    : Word
  coding : Bool
deriving DecidableEq, Repr, Inhabited

/-- A comparator of the DS die (R311, R315). -/
inductive Comp where
  | trip (n : Fin 32)
  | hard (n : Fin 32)
  | gc   (n : Fin 8)
deriving DecidableEq, Repr

/-- An input with hysteresis (R89, R320, R365, R434, R478, R533, R540). -/
inductive InputId where
  | encLine    (ch : Fin 4) (line : Fin 3)
  | tooth      (ch : Fin 2)
  | hall       (g : Fin 2) (line : Fin 3)
  | ssi        (ch : Fin 2)
  | comparator (c : Comp)
  | canRx      (n : Fin 3)
  | contactor  (n : Fin 6)
  | bootstrap  (gd : Fin 8)
  | bridge
  | resetN
  | wake
deriving DecidableEq, Repr

/-- The path by which a value is offered to a buoy: the source kinds of R68, and the charging and throttling units'
own register path (R406, R457), which is a path to a HOST buoy that is not the Keeper's. -/
inductive SrcPath where
  | adc | feedback | can | host | temp | datapath | unitPath
deriving DecidableEq, Repr, Inhabited

/-- The name of one window counter (R78): the element it belongs to, and `grp`, the cause it counts where each cause
has a counter of its own (0 where one counter serves every cause of the element). -/
structure CtrKey where
  die  : Die
  sub  : Nat
  inst : Nat
  unit : Nat
  elem : Nat
  grp  : Nat
deriving DecidableEq, Repr, Inhabited

/-- A CAN frame on the wire (R476, R484). -/
structure CanFrame where
  id   : BitVec 29
  ide  : Bool
  fdf  : Bool
  brs  : Bool
  rtr  : Bool
  dlc  : Fin 16
  data : List Byte
deriving DecidableEq, Repr, Inhabited

/-- The six held extremes of a converter's telemetry (R398). -/
inductive Extreme where
  | vmin | vmax | imin | imax | pmax | tmax
deriving DecidableEq, Repr, Inhabited

/-- A periodic lamp-hours measurement (R459): the path-delay slack of both dies in ps as the monitors give it, or the
resolver amplitude means, which the unit forms itself. -/
inductive LampMeas where
  | slack     (cs ds : BitVec 16)
  | amplitude
deriving DecidableEq, Repr, Inhabited

/-- Single-event disturbance at a pair compare point (R218, R220): the first differing word, and the bits in which
the shadow differs from the primary there. -/
structure Upset where
  word : Fin 35
  mask : Word
deriving DecidableEq, Repr, Inhabited

/-- One pair's result in the injection test (R219): the patterns that failed and the word named. -/
structure InjFail where
  pair : Fin 8
  mask : BitVec 4
  word : Fin 35
deriving DecidableEq, Repr, Inhabited

/-- What a start-up step meets from outside the block (R535): the firmware check of step 2, the entropy and self-test
of step 4, the injection tests of steps 5 and 7, the calibration and samples of step 8 (the excitation amplitudes of the resolvers among them, R111), the path test of step 9, and
the lead of T0 in step 10. -/
structure StepIn where
  fwOk      : Bool
  nonce     : Word
  cmdNonce  : Word
  challenge : Byte
  selfTest  : Bool
  inj       : List InjFail
  calErr    : BitVec 16
  adcCal    : List (Die × Fin 8 × BitVec 16)
  slackCs   : BitVec 16
  slackDs   : BitVec 16
  temps     : List (Fin 28 × BitVec 16)
  excCal    : List (Fin 2 × BitVec 16)
  protMiss  : Option Byte
  t0Lead    : Nat
deriving DecidableEq, Repr, Inhabited

/-- The commands. -/
inductive Instr where
  -- crossing, clocks
  | superframeSend        (die : Die)
  | superframeReceived    (die : Die) (frame : List Byte) (viol : Option (Fin 4))
  | snapshotAdopt         (die : Die) (beam : Fin 8)
  | xloss                 (die : Die)
  | crossingTraining      (ok : Bool) (align : Fin 3)
  | safetyMessageSend     (die : Die)
  | safetyMessageReceived (die : Die) (b0 b1 b2 b3 : Byte)
  | sloss                 (die : Die)
  | pllul                 (die : Die)
  | xtal
  | wrclkWindow           (count : Nat)
  -- power, reset, start-up
  | vwkPowerOn
  | powerOnResetRelease   (die : Die) (inj : List InjFail)
  | supplyOutOfRange      (code : Fin 12) (isOver : Bool) (mv : BitVec 16)
  | resetNLow
  | dsBootEntry
  | startUpStepComplete   (inp : StepIn)
  | stepTmo               (elapsed : Word)
  | page0Start
  | slotCheck
  -- image, staging, keys
  | imgWrite     (q : Req) (offset : Word) (data : List Byte)
  | imgCheck     (q : Req)
  | imgActivate  (q : Req) (slot : Word)
  | sysRestart   (q : Req)
  | stgWrite     (q : Req) (offset : Word) (data : List Byte)
  | stgApply     (q : Req)
  | stageLoadComplete (item : Nat)
  | keyEnrol     (q : Req) (entry roles signer resv : Byte) (xy : List Byte) (sig : List Byte) (nonce : Word)
  | keyRevoke    (q : Req) (entry signer : Byte) (resv : List Byte) (sig : List Byte) (nonce : Word)
  | safeFrame    (q : Req) (frame : List Byte)
  | logRead      (q : Req) (first count : Word)
  | sealForReturn (q : Req) (signer : Byte) (resv : List Byte) (sig : List Byte) (nonce : Word)
  -- host frames, chain, SPI, Keeper
  | hostRead     (q : Req) (addr : Word) (count : BitVec 16)
  | hostWrite    (q : Req) (addr : Word) (words : List Word)
  | enum         (q : Req) (addr : Byte)
  | frameForward (port : Port) (frame : List Byte)
  | spiSend      (frame : List Byte) (complete : Bool)
  | spiRecv
  | spiStatus
  | linkUp       (port : Port)
  | linkDn       (port : Port)
  | klock
  | keeperRestartComplete
  | keeperLoadUpdate (u : Nat)
  | deferredRequestServe
  | kpLoadRead
  -- buoys, window counters
  | buoyUpdate   (b : Fin 512) (path : SrcPath) (m : Word) (e : Byte)
  | buoyTimeout  (b : Fin 512)
  | byWexpWrite  (b : Fin 512) (e : Byte)
  | mirrorStale  (b : Fin 256)
  | windowBinRollover (k : CtrKey)
  -- feedback
  | inputResolved (i : InputId) (level : Bool)
  | unres         (ch : Fin 12)
  | encoderEdge   (ch : Fin 4) (a b z : Bool)
  | wireLevelChange (ch : Fin 4) (line : Fin 3) (same : Bool) (level : Bool)
  | wiredis       (ch : Fin 4) (line : Fin 3)
  | arm           (ch : Fin 12)
  | resync        (ch : Fin 12)
  | toothEdge     (ch : Fin 2) (dirLevel : Bool)
  | hallCodeChange (g : Fin 2) (code : Fin 8)
  | standstill    (ch : Fin 12)
  | feedbackTick
  | resolverUpdate (ch : Fin 2) (sinD cosD excAmp : BitVec 16) (excSeen : Bool)
  | ssiRequest    (ch : Fin 2) (dataHigh : Bool)
  | ssiFrameComplete (ch : Fin 2) (bits : List Bool)
  -- beams
  | beamSourceUpdate (beam : Fin 8)
  | beamReanchor     (beam : Fin 8)
  | beamStaleTimeout (beam : Fin 8)
  | mainsPllUpdate
  | bmphaseRead      (die : Die) (beam : Fin 8)
  -- Light List entries
  | nop        (die : Die) (lane : Fin 4)
  | sample     (die : Die) (lane : Fin 4) (codes : List (BitVec 16))
  | read       (die : Die) (lane : Fin 4)
  | move       (die : Die) (lane : Fin 4)
  | run        (die : Die) (lane : Fin 4)
  | load       (die : Die) (lane : Fin 4)
  | write      (die : Die) (lane : Fin 4)
  | blendRamp  (die : Die) (lane : Fin 4)
  | blendMix   (die : Die) (lane : Fin 4)
  | limitRange (die : Die) (lane : Fin 4)
  | limitSym   (die : Die) (lane : Fin 4)
  | commit     (die : Die) (lane : Fin 4)
  | scan       (die : Die) (lane : Fin 4)
  | snap       (die : Die) (lane : Fin 4)
  | fenceAll   (die : Die) (lane : Fin 4)
  | fenceData  (die : Die) (lane : Fin 4)
  | fenceOut   (die : Die) (lane : Fin 4)
  | mark       (die : Die) (lane : Fin 4)
  | signalKeeper    (die : Die) (lane : Fin 4)
  | signalWatchRoom (die : Die) (lane : Fin 4)
  | entryAccept (die : Die) (codes : List (BitVec 16))
  | entryRetire (die : Die) (upset : Option Upset)
  | restoreComplete (die : Die) (pair : Fin 8) (upset : Option Upset)
  | lhSwapRequest (die : Die) (lane : Fin 4) (page : Fin 16)
  | lhSwapCancel  (die : Die) (lane : Fin 4)
  | pageSwap      (die : Die) (lane : Fin 4)
  | drainComplete (die : Die) (lane : Fin 4)
  | mergeCopyComplete (die : Die) (lane : Fin 4) (pair : Fin 8) (upset : Option Upset)
  | traceReadLow  (die : Die)
  | traceReadHigh (die : Die)
  | lePdbgWrite   (die : Die) (pair : Fin 8) (value : Word)
  | engineHalt    (die : Die) (engine : Fin 16)
  -- PWM
  | carrierBoundary  (die : Die) (group : Fin 16)
  | carrierMidpoint  (die : Die) (group : Fin 16)
  | carrierUnlock    (die : Die) (group : Fin 16)
  | channelHalfStart (die : Die) (ch : Fin 48) (second : Bool)
  | intlk            (die : Die) (ch : Fin 48)
  -- traction
  | waveDutyUpdate    (m : Fin 2)
  | legStepEdge       (ch : Fin 48)
  | electricalTurnEnd (m : Fin 2)
  | candleCommutate   (m : Fin 2)
  | catchTimeout      (m : Fin 2)
  | candto            (m : Fin 2)
  | subexp            (m : Fin 2)
  -- protection
  | comparatorLevelChange (c : Comp) (asserted : Bool)
  | blankingEnd           (c : Comp)
  | chopf
  | speedRuleTick
  | speedRuleHysteresisEnd (m : Fin 2)
  | ptClr        (src : Byte)
  | ptClrAll
  | ptLogReadLow
  | ptLogReadHigh
  -- Watch Room
  | watchRoomEvaluation
  | contactorSettleEnd  (n : Fin 6)
  | contactorDropout    (n : Fin 6)
  | contactorCheckStart
  | degexp
  | lockoutContactorOpen
  | resetArmLapse
  | sbcrcCheck
  | safetyFrameWrite (frame : List Byte)
  | resetArm         (frame : List Byte)
  | resetConfirm     (frame : List Byte)
  | labEnter         (frame : List Byte)
  | labExit          (frame : List Byte)
  | sfkey            (frame : List Byte)
  | rwsDeny          (offset : BitVec 24)
  | wrWdkickWrite    (value : Word) (next : Byte)
  | wdogTimeout      (next : Byte)
  -- converters
  | refrUpdate
  | hiccupExpiry         (i : Fin 4)
  | retryCountReset      (i : Fin 4)
  | telemetryWindowEnd   (i : Fin 4)
  | telemetryExtremeRead (i : Fin 4) (x : Extreme)
  -- charging
  | chargeEvaluation   (p : Fin 2)
  | pretmo             (p : Fin 2)
  | totalTimerExpiry   (p : Fin 2)
  | terminationTimeout (p : Fin 2)
  | chargeStart        (p : Fin 2)
  | chargeStop         (p : Fin 2)
  | chargeClear        (p : Fin 2)
  | revstart
  | revstop
  | acQualified
  | srclost            (byLock : Bool)
  | handoverRampEnd
  | handoverEnd
  | gridWatchArm
  | grid
  -- gearbox
  | gearDutyUpdate (a : Fin 3)
  | overcur        (a : Fin 3)
  | stall          (a : Fin 3)
  | vdsoc          (gd : Fin 8) (high : Bool)
  | bsuv           (gd : Fin 8)
  | supuvBridge
  | gxClr          (mask : Byte) (present : Byte)
  -- thermal, lamp-hours
  | temperatureSample (c : Fin 28) (code : BitVec 16)
  | throttleUpdate
  | lampMeasurement   (x : LampMeas)
  | switchingDelayEdge (ch : Fin 48) (high turnOn : Bool) (delay : BitVec 16)
  | coolingCurveStart (c : Fin 28)
  | coolingCurveEnd   (c : Fin 28)
  | replanTarget
  | laFreezeWrite     (value : Word)
  -- CAN, network time
  | canIntegrationEnd (n : Fin 3)
  | canArbitration    (n : Fin 3)
  | canFrameSent      (n : Fin 3)
  | canBusError       (n : Fin 3) (tx : Bool) (arbLost : Bool) (tec rec : BitVec 16)
  | busOffRecoveryEnd (n : Fin 3)
  | canFrameReceived  (n : Fin 3) (frame : CanFrame) (sofAgo : Nat)
  | txReq             (n : Fin 3) (buf : Fin 3)
  | txCancel          (n : Fin 3) (buf : Fin 3)
  | txBufferWrite     (n : Fin 3) (buf : Fin 3) (offset : Fin 96) (value : Word)
  | pop               (n : Fin 3)
  | flush             (n : Fin 3)
  | recover           (n : Fin 3)
  | referenceMessageDue
  | ntloss
  | slewEnd
  | cnNtsethiWrite    (value : Word)
  | cnNtloRead
  -- check values
  | checkScanBackgroundStart (die : Die) (ch : Fin 8)
  | ckCtrlStart              (die : Die) (ch : Fin 8)
  | scanComplete             (die : Die) (ch : Fin 8) (unc : Option Word)
  | ckExpWrite               (die : Die) (ch : Fin 8) (value : Word)
  -- sleep, recovery of supplies, clocks and pins
  | sysSleep (value : Word)
  | sleepEntryStep
  | wake
  | supplyBackInRange (code : Fin 12)
  | pllRelock (die : Die)
  | crystalRestored
  | bridgeSupplyInRange
  | bootstrapRecovered (gd : Fin 8)
  | wakeLevelChange (level : Bool)
  | resetNRise
deriving DecidableEq, Repr

end Sys2Proof
end

