-- ==== Sys2Proof/Decode.lean ====
section
/-! DEFINITION. Words and commands. The table of operations and events gives no row any bits (every "fields" list of
spec/opcode_table.json is empty): the rows are events of a device, and no word spells one. -/

namespace Sys2Proof

/-- The command a word of the table's bits spells: none, because the table gives no row bits (assumption log 2). -/
def decodeTableWord (_nbits _w : Nat) : Option Instr := none

end Sys2Proof
end

