-- ==== Sys2Proof/Config.lean ====
section
/-! DEFINITION. What the manual leaves open: constants without a body, so that nothing can be proved of their values. -/

namespace Sys2Proof.Config

/-- A value the manual leaves open at some place of the machine. The step applies it to the counter `State.freeCtr`,
which it then advances, so that each use is a fresh free value (assumption log 4). -/
opaque freeWord : Nat → Word

/-- The result of a division by zero where a rule divides by a quantity that can be zero: a function of the place (the
number of the rule) and of the dividend (assumption log 4). -/
opaque divZero : Nat → Rat → Rat

/-- Whether the high level of a tooth wheel's direction input means forward (R107 does not say): assumption log 23. -/
opaque toothHighForward : Bool

/-- Cycles by which a resolver's demodulator delays a sample, taken modulo the 640 cycles of R128 (R110 does not give
it): assumption log 24. -/
opaque resolverDelay : Nat

/-- A byte of the boot area as a read of the store window shows it: the manual gives the area's content but no layout (R38,
R40), so a byte is an open function of that content, given as numbers, and of the offset (assumption log 172). -/
opaque bootByte : List Nat → Nat → Byte

end Sys2Proof.Config
end

