-- ==== Sys2Proof/Machine/Bits.lean ====
section
/-! DEFINITION. Bit fields, sign extension, byte order, rounding and list places, as every chapter uses them. -/

namespace Sys2Proof.Machine

/-- Bits [hi:lo] of a word as a number. -/
def fld (w : Word) (hi lo : Nat) : Nat := (w.toNat >>> lo) % 2 ^ (hi + 1 - lo)

/-- Bit i of a word. -/
def bitOf (w : Word) (i : Nat) : Bool := w.getLsbD i

/-- Two's complement reading of the low n bits of a number (R3). -/
def sx (n v : Nat) : Int :=
  let r := v % 2 ^ n
  if r < 2 ^ (n - 1) then (r : Int) else (r : Int) - (2 ^ n : Nat)

/-- A signed field [hi:lo]. -/
def sfld (w : Word) (hi lo : Nat) : Int := sx (hi + 1 - lo) (fld w hi lo)

/-- A word of a number, wrapping. -/
def wd (n : Nat) : Word := BitVec.ofNat 32 n

/-- A word of an integer, wrapping in two's complement. -/
def wi (i : Int) : Word := BitVec.ofInt 32 i

/-- A truth value at bit position n. -/
def atBit (b : Bool) (n : Nat) : Nat := if b then 2 ^ n else 0

/-- 0 or 1. -/
def b2n (b : Bool) : Nat := if b then 1 else 0

/-- Saturation of an integer to n signed bits. -/
def satS (n : Nat) (i : Int) : Int :=
  let m : Int := (2 ^ (n - 1) : Nat)
  max (-m) (min (m - 1) i)

/-- Whether saturation to n signed bits changes an integer. -/
def satHits (n : Nat) (i : Int) : Bool := satS n i != i

/-- Clamping between two bounds. -/
def clampI (lo hi x : Int) : Int := max lo (min hi x)

/-- A counter that saturates at the largest word. -/
def satInc (w : Word) : Word := if w.toNat = 2 ^ 32 - 1 then w else w + 1

/-- A 16-bit counter that saturates. -/
def satInc16 (w : BitVec 16) : BitVec 16 := if w.toNat = 65535 then w else w + 1

/-- Division by 2^k rounded half away from zero. -/
def shrHalfAway (i : Int) (k : Nat) : Int :=
  let m := i.natAbs
  let r := (m + 2 ^ k / 2) / 2 ^ k
  if i < 0 then -(r : Int) else (r : Int)

/-- A rational rounded half away from zero. -/
def rndAway (q : Rat) : Int :=
  let m := (2 * q.num.natAbs + q.den) / (2 * q.den)
  if q.num < 0 then -(m : Int) else (m : Int)

/-- A quotient of integers rounded half away from zero; 0 for a zero divisor. -/
def divHalfAway (a b : Int) : Int :=
  let m := (2 * a.natAbs + b.natAbs) / (2 * b.natAbs)
  if (a < 0) = (b < 0) then (m : Int) else -(m : Int)

/-- 2^e as a rational. -/
def pow2 (e : Int) : Rat := if e < 0 then 1 / ((2 ^ e.natAbs : Nat) : Rat) else ((2 ^ e.natAbs : Nat) : Rat)

/-- The bytes of a number, low byte first. -/
def leBytes : Nat → Nat → List Byte
  | 0, _ => []
  | n + 1, v => BitVec.ofNat 8 v :: leBytes n (v / 256)

/-- The number that bytes spell, low byte first. -/
def ofLe : List Byte → Nat
  | [] => 0
  | b :: bs => b.toNat + 256 * ofLe bs

/-- The number that bytes spell, high byte first (R43). -/
def ofBe (bs : List Byte) : Nat := ofLe bs.reverse

/-- A word's bytes, byte 0 first (R517). -/
def wordBytes (w : Word) : List Byte := leBytes 4 w.toNat

/-- The bytes of words in order. -/
def bytesOf (ws : List Word) : List Byte := ws.flatMap wordBytes

/-- The words bytes spell, little-endian; a last incomplete word is filled with zeros. -/
def wordsOf : Nat → List Byte → List Word
  | 0, _ => []
  | n + 1, bs => wd (ofLe (bs.take 4)) :: wordsOf n (bs.drop 4)

/-- The element at a place of a list, its default value where there is none. -/
def nth {α : Type} [Inhabited α] (l : List α) (i : Nat) : α := l.getD i default

/-- Word i of a payload. -/
def wat (l : List Word) (i : Nat) : Word := l.getD i 0

/-- A list with the element at one place changed. -/
def upd {α : Type} (l : List α) (i : Nat) (f : α → α) : List α := l.modify i f

/-- Signed difference of two 32-bit counts modulo 2^32 (R27). -/
def cdiff (a b : Word) : Int := (a - b).toInt

/-- Whether a mask has bit n. -/
def hasBit (m n : Nat) : Bool := m.testBit n

/-- A register's bit set. -/
def orBit (w : Word) (n : Nat) : Word := w ||| wd (2 ^ n)

/-- Write 1 to clear (R8). -/
def w1c (w v : Word) : Word := w &&& ~~~v

end Sys2Proof.Machine
end

