-- ==== Sys2Proof/Machine/Crypto.lean ====
section
/-! DEFINITION. The check functions and the cryptography the manual names: CRC-8 (R570), CRC-32 (R517), SHA-256,
ECDSA P-256 verification (R43), AES-128 and AES-128-CMAC (R368, R370). -/

namespace Sys2Proof.Machine

/-! ## CRC-8 and CRC-32 -/

/-- One bit of the CRC-8 of R570. -/
def crc8Bit (c : Byte) : Byte := if c.getLsbD 7 then (c <<< 1) ^^^ 0x2F else c <<< 1

/-- One byte of the CRC-8. -/
def crc8Byte (c b : Byte) : Byte := (List.range 8).foldl (fun c _ => crc8Bit c) (c ^^^ b)

/-- The CRC-8 of R570 over bytes in ascending number. -/
def crc8 (bs : List Byte) : Byte := bs.foldl crc8Byte 0xFF ^^^ 0xFF

/-- One bit of the CRC-32 of R517. -/
def crc32Bit (c : Word) : Word := if c.getLsbD 0 then (c >>> 1) ^^^ 0xC8DF352F else c >>> 1

/-- One byte of the CRC-32. -/
def crc32Byte (c : Word) (b : Byte) : Word := (List.range 8).foldl (fun c _ => crc32Bit c) (c ^^^ b.zeroExtend 32)

/-- The CRC-32 of R517 over bytes. -/
def crc32 (bs : List Byte) : Word := bs.foldl crc32Byte 0xFFFFFFFF ^^^ 0xFFFFFFFF

/-! ## SHA-256 (FIPS 180-4) -/

/-- The round constants of SHA-256. -/
def shaK : List Word :=
    [0x428A2F98, 0x71374491, 0xB5C0FBCF, 0xE9B5DBA5, 0x3956C25B, 0x59F111F1, 0x923F82A4, 0xAB1C5ED5]
    ++ [0xD807AA98, 0x12835B01, 0x243185BE, 0x550C7DC3, 0x72BE5D74, 0x80DEB1FE, 0x9BDC06A7, 0xC19BF174]
    ++ [0xE49B69C1, 0xEFBE4786, 0x0FC19DC6, 0x240CA1CC, 0x2DE92C6F, 0x4A7484AA, 0x5CB0A9DC, 0x76F988DA]
    ++ [0x983E5152, 0xA831C66D, 0xB00327C8, 0xBF597FC7, 0xC6E00BF3, 0xD5A79147, 0x06CA6351, 0x14292967]
    ++ [0x27B70A85, 0x2E1B2138, 0x4D2C6DFC, 0x53380D13, 0x650A7354, 0x766A0ABB, 0x81C2C92E, 0x92722C85]
    ++ [0xA2BFE8A1, 0xA81A664B, 0xC24B8B70, 0xC76C51A3, 0xD192E819, 0xD6990624, 0xF40E3585, 0x106AA070]
    ++ [0x19A4C116, 0x1E376C08, 0x2748774C, 0x34B0BCB5, 0x391C0CB3, 0x4ED8AA4A, 0x5B9CCA4F, 0x682E6FF3]
    ++ [0x748F82EE, 0x78A5636F, 0x84C87814, 0x8CC70208, 0x90BEFFFA, 0xA4506CEB, 0xBEF9A3F7, 0xC67178F2]

/-- The initial hash value of SHA-256. -/
def shaH0 : List Word :=
    [0x6A09E667, 0xBB67AE85, 0x3C6EF372, 0xA54FF53A, 0x510E527F, 0x9B05688C, 0x1F83D9AB, 0x5BE0CD19]

/-- Message padding: a one bit, zeros, the length in bits as 64 bits high byte first. -/
def shaPad (bs : List Byte) : List Byte :=
  let l := bs.length
  let z := (119 - l % 64) % 64
  bs ++ [0x80] ++ List.replicate z 0 ++ (leBytes 8 (8 * l)).reverse

/-- A block's 16 words, high byte first. -/
def shaWords : Nat → List Byte → List Word
  | 0, _ => []
  | n + 1, bs => wd (ofBe (bs.take 4)) :: shaWords n (bs.drop 4)

/-- The message schedule, newest word first. -/
def shaSched : Nat → List Word → List Word
  | 0, w => w
  | n + 1, w =>
    let a := wat w 1
    let b := wat w 14
    let s1 := a.rotateRight 17 ^^^ a.rotateRight 19 ^^^ (a >>> 10)
    let s0 := b.rotateRight 7 ^^^ b.rotateRight 18 ^^^ (b >>> 3)
    shaSched n ((s1 + wat w 6 + s0 + wat w 15) :: w)

/-- One round of the compression function over the working variables a to h. -/
def shaRound (v : List Word) (k : Word × Word) : List Word :=
  match v with
  | [a, b, c, d, e, f, g, h] =>
    let s1 := e.rotateRight 6 ^^^ e.rotateRight 11 ^^^ e.rotateRight 25
    let ch := (e &&& f) ^^^ (~~~e &&& g)
    let t1 := h + s1 + ch + k.1 + k.2
    let s0 := a.rotateRight 2 ^^^ a.rotateRight 13 ^^^ a.rotateRight 22
    let mj := (a &&& b) ^^^ (a &&& c) ^^^ (b &&& c)
    [t1 + s0 + mj, a, b, c, d + t1, e, f, g]
  | _ => v

/-- One block of SHA-256. -/
def shaBlock (h : List Word) (blk : List Byte) : List Word :=
  let w := (shaSched 48 (shaWords 16 blk).reverse).reverse
  List.zipWith (· + ·) h ((List.zip shaK w).foldl shaRound h)

/-- The blocks in order. -/
def shaBlocks : Nat → List Word → List Byte → List Word
  | 0, h, _ => h
  | n + 1, h, bs => shaBlocks n (shaBlock h (bs.take 64)) (bs.drop 64)

/-- The SHA-256 hash as 32 bytes, high byte of the first word first. -/
def sha256 (bs : List Byte) : List Byte :=
  let p := shaPad bs
  (shaBlocks (p.length / 64) shaH0 p).flatMap fun w => (wordBytes w).reverse

/-! ## ECDSA on P-256 -/

/-- The prime of the field of P-256. -/
def p256P : Nat := 0xFFFFFFFF00000001000000000000000000000000FFFFFFFFFFFFFFFFFFFFFFFF
/-- The order of the base point. -/
def p256N : Nat := 0xFFFFFFFF00000000FFFFFFFFFFFFFFFFBCE6FAADA7179E84F3B9CAC2FC632551
/-- The coefficient b of the curve; a is −3. -/
def p256B : Nat := 0x5AC635D8AA3A93E7B3EBBD55769886BC651D06B0CC53B0F63BCE3C3E27D2604B
/-- The base point. -/
def p256Gx : Nat := 0x6B17D1F2E12C4247F8BCE6E563A440F277037D812DEB33A0F4A13945D898C296
/-- The base point. -/
def p256Gy : Nat := 0x4FE342E2FE1A7F9B8EE7EB4A7C0F9E162BCE33576B315ECECBB6406837BF51F5

/-- A power modulo m, by the bits of the exponent from the top. -/
def powMod (m b e : Nat) : Nat → Nat → Nat
  | 0, acc => acc
  | n + 1, acc =>
    let sq := acc * acc % m
    powMod m b e n (if e.testBit n then sq * b % m else sq)

/-- The inverse modulo a prime. -/
def invMod (m a : Nat) : Nat := powMod m (a % m) (m - 2) 256 1

/-- A point in Jacobian coordinates; z = 0 is the point at infinity. -/
structure JPoint where
  x : Nat
  y : Nat
  z : Nat
deriving DecidableEq, Repr

/-- Subtraction in the field. -/
def subP (a b : Nat) : Nat := (a + p256P - b % p256P) % p256P

/-- Doubling. -/
def jDouble (p : JPoint) : JPoint :=
  if p.z = 0 || p.y = 0 then ⟨1, 1, 0⟩ else
    let zz := p.z * p.z % p256P
    let m := 3 * (subP p.x zz * ((p.x + zz) % p256P) % p256P) % p256P
    let yy := p.y * p.y % p256P
    let s := 4 * (p.x * yy % p256P) % p256P
    let x3 := subP (m * m % p256P) (2 * s)
    ⟨x3, subP (m * subP s x3 % p256P) (8 * (yy * yy % p256P)), 2 * (p.y * p.z) % p256P⟩

/-- Addition. -/
def jAdd (p q : JPoint) : JPoint :=
  if p.z = 0 then q else if q.z = 0 then p else
    let z1 := p.z * p.z % p256P
    let z2 := q.z * q.z % p256P
    let u1 := p.x * z2 % p256P
    let u2 := q.x * z1 % p256P
    let s1 := p.y * z2 % p256P * q.z % p256P
    let s2 := q.y * z1 % p256P * p.z % p256P
    if u1 = u2 then (if s1 = s2 then jDouble p else ⟨1, 1, 0⟩) else
      let h := subP u2 u1
      let r := subP s2 s1
      let hh := h * h % p256P
      let hhh := h * hh % p256P
      let v := u1 * hh % p256P
      let x3 := subP (subP (r * r % p256P) hhh) (2 * v)
      ⟨x3, subP (r * subP v x3 % p256P) (s1 * hhh % p256P), p.z * q.z % p256P * h % p256P⟩

/-- u·G + v·Q by the bits of both from the top. -/
def jMul2 (u v : Nat) (g q gq : JPoint) : Nat → JPoint → JPoint
  | 0, acc => acc
  | n + 1, acc =>
    let d := jDouble acc
    jMul2 u v g q gq n
      (if u.testBit n then (if v.testBit n then jAdd d gq else jAdd d g)
       else if v.testBit n then jAdd d q else d)

/-- Whether (x, y) is a point of the curve. -/
def onCurve (x y : Nat) : Bool :=
  x < p256P && y < p256P && y * y % p256P == (x * x % p256P * x + (p256P - 3) * x + p256B) % p256P

/-- ECDSA P-256 verification of a 64-byte signature (r then s, big-endian, R43) over the SHA-256 of a message, with a
key of 64 bytes (x then y, big-endian, R53). -/
def ecdsaVerify (key msg sig : List Byte) : Bool :=
  let x := ofBe (key.take 32)
  let y := ofBe (key.drop 32)
  let r := ofBe (sig.take 32)
  let s := ofBe (sig.drop 32)
  if key.length == 64 && sig.length == 64 && onCurve x y && 1 ≤ r && r < p256N && 1 ≤ s && s < p256N then
    let e := ofBe (sha256 msg)
    let w := invMod p256N s
    let g : JPoint := ⟨p256Gx, p256Gy, 1⟩
    let q : JPoint := ⟨x, y, 1⟩
    let pt := jMul2 (e * w % p256N) (r * w % p256N) g q (jAdd g q) 256 ⟨1, 1, 0⟩
    if pt.z = 0 then false
    else
      let zi := invMod p256P pt.z
      (pt.x * (zi * zi % p256P) % p256P) % p256N == r
  else false

/-! ## AES-128 (FIPS 197) and CMAC (SP 800-38B) -/

/-- The substitution table of AES. -/
def aesSbox : List Byte :=
    [0x63, 0x7C, 0x77, 0x7B, 0xF2, 0x6B, 0x6F, 0xC5, 0x30, 0x01, 0x67, 0x2B, 0xFE, 0xD7, 0xAB, 0x76]
    ++ [0xCA, 0x82, 0xC9, 0x7D, 0xFA, 0x59, 0x47, 0xF0, 0xAD, 0xD4, 0xA2, 0xAF, 0x9C, 0xA4, 0x72, 0xC0]
    ++ [0xB7, 0xFD, 0x93, 0x26, 0x36, 0x3F, 0xF7, 0xCC, 0x34, 0xA5, 0xE5, 0xF1, 0x71, 0xD8, 0x31, 0x15]
    ++ [0x04, 0xC7, 0x23, 0xC3, 0x18, 0x96, 0x05, 0x9A, 0x07, 0x12, 0x80, 0xE2, 0xEB, 0x27, 0xB2, 0x75]
    ++ [0x09, 0x83, 0x2C, 0x1A, 0x1B, 0x6E, 0x5A, 0xA0, 0x52, 0x3B, 0xD6, 0xB3, 0x29, 0xE3, 0x2F, 0x84]
    ++ [0x53, 0xD1, 0x00, 0xED, 0x20, 0xFC, 0xB1, 0x5B, 0x6A, 0xCB, 0xBE, 0x39, 0x4A, 0x4C, 0x58, 0xCF]
    ++ [0xD0, 0xEF, 0xAA, 0xFB, 0x43, 0x4D, 0x33, 0x85, 0x45, 0xF9, 0x02, 0x7F, 0x50, 0x3C, 0x9F, 0xA8]
    ++ [0x51, 0xA3, 0x40, 0x8F, 0x92, 0x9D, 0x38, 0xF5, 0xBC, 0xB6, 0xDA, 0x21, 0x10, 0xFF, 0xF3, 0xD2]
    ++ [0xCD, 0x0C, 0x13, 0xEC, 0x5F, 0x97, 0x44, 0x17, 0xC4, 0xA7, 0x7E, 0x3D, 0x64, 0x5D, 0x19, 0x73]
    ++ [0x60, 0x81, 0x4F, 0xDC, 0x22, 0x2A, 0x90, 0x88, 0x46, 0xEE, 0xB8, 0x14, 0xDE, 0x5E, 0x0B, 0xDB]
    ++ [0xE0, 0x32, 0x3A, 0x0A, 0x49, 0x06, 0x24, 0x5C, 0xC2, 0xD3, 0xAC, 0x62, 0x91, 0x95, 0xE4, 0x79]
    ++ [0xE7, 0xC8, 0x37, 0x6D, 0x8D, 0xD5, 0x4E, 0xA9, 0x6C, 0x56, 0xF4, 0xEA, 0x65, 0x7A, 0xAE, 0x08]
    ++ [0xBA, 0x78, 0x25, 0x2E, 0x1C, 0xA6, 0xB4, 0xC6, 0xE8, 0xDD, 0x74, 0x1F, 0x4B, 0xBD, 0x8B, 0x8A]
    ++ [0x70, 0x3E, 0xB5, 0x66, 0x48, 0x03, 0xF6, 0x0E, 0x61, 0x35, 0x57, 0xB9, 0x86, 0xC1, 0x1D, 0x9E]
    ++ [0xE1, 0xF8, 0x98, 0x11, 0x69, 0xD9, 0x8E, 0x94, 0x9B, 0x1E, 0x87, 0xE9, 0xCE, 0x55, 0x28, 0xDF]
    ++ [0x8C, 0xA1, 0x89, 0x0D, 0xBF, 0xE6, 0x42, 0x68, 0x41, 0x99, 0x2D, 0x0F, 0xB0, 0x54, 0xBB, 0x16]

/-- One substituted byte. -/
def sbox (b : Byte) : Byte := aesSbox.getD b.toNat 0

/-- The inverse substitution. -/
def invSbox (b : Byte) : Byte := BitVec.ofNat 8 (aesSbox.idxOf b)

/-- Multiplication by x in the field of AES. -/
def xtime (b : Byte) : Byte := if b.getLsbD 7 then (b <<< 1) ^^^ 0x1B else b <<< 1

/-- Multiplication by a small constant in the field of AES. -/
def gmul (k : Nat) (b : Byte) : Byte :=
  let b2 := xtime b
  let b4 := xtime b2
  let b8 := xtime b4
  (if k.testBit 0 then b else 0) ^^^ (if k.testBit 1 then b2 else 0) ^^^ (if k.testBit 2 then b4 else 0)
    ^^^ (if k.testBit 3 then b8 else 0)

/-- Bytewise exclusive or. -/
def xorBytes (a b : List Byte) : List Byte := List.zipWith (· ^^^ ·) a b

/-- The next round key from the last one. -/
def aesNextKey (k : List Byte) (rc : Byte) : List Byte :=
  let t := k.drop 12
  let t' := xorBytes [sbox (t.getD 1 0), sbox (t.getD 2 0), sbox (t.getD 3 0), sbox (t.getD 0 0)] [rc, 0, 0, 0]
  let w0 := xorBytes (k.take 4) t'
  let w1 := xorBytes ((k.drop 4).take 4) w0
  let w2 := xorBytes ((k.drop 8).take 4) w1
  w0 ++ w1 ++ w2 ++ xorBytes t w2

/-- The round keys, first to last. -/
def aesKeys : Nat → Byte → List Byte → List (List Byte)
  | 0, _, k => [k]
  | n + 1, rc, k => k :: aesKeys n (xtime rc) (aesNextKey k rc)

/-- The row shift of a 16-byte state held by columns. -/
def shiftRows (s : List Byte) : List Byte := (List.range 16).map fun i => s.getD ((i + 4 * (i % 4)) % 16) 0

/-- Its inverse. -/
def invShiftRows (s : List Byte) : List Byte := (List.range 16).map fun i => s.getD ((i + 12 * (i % 4)) % 16) 0

/-- A column mix with the row (a, b, c, d) of the matrix. -/
def mixWith (a b c d : Nat) (s : List Byte) : List Byte :=
  (List.range 16).map fun i =>
    let col := i / 4 * 4
    let x (j : Nat) : Byte := s.getD (col + (i + j) % 4) 0
    gmul a (x 0) ^^^ gmul b (x 1) ^^^ gmul c (x 2) ^^^ gmul d (x 3)

/-- AES-128 encryption of one block. -/
def aesEnc (key blk : List Byte) : List Byte :=
  let ks := aesKeys 10 1 key
  let s0 := xorBytes blk (ks.getD 0 [])
  let mid := ((ks.drop 1).take 9).foldl (fun s k => xorBytes (mixWith 2 3 1 1 (shiftRows (s.map sbox))) k) s0
  xorBytes (shiftRows (mid.map sbox)) (ks.getD 10 [])

/-- AES-128 decryption of one block. -/
def aesDec (key blk : List Byte) : List Byte :=
  let ks := (aesKeys 10 1 key).reverse
  let s0 := xorBytes blk (ks.getD 0 [])
  let mid := ((ks.drop 1).take 9).foldl
    (fun s k => mixWith 14 11 13 9 (xorBytes ((invShiftRows s).map invSbox) k)) s0
  xorBytes ((invShiftRows mid).map invSbox) (ks.getD 10 [])

/-- Doubling of a 128-bit value in the field of CMAC. -/
def cmacDouble (b : List Byte) : List Byte :=
  let n := ofBe b
  let d := 2 * n % 2 ^ 128
  (leBytes 16 (if n.testBit 127 then Nat.xor d 0x87 else d)).reverse

/-- The chaining of CMAC over the full blocks before the last. -/
def cmacChain (key : List Byte) : Nat → List Byte → List Byte → List Byte × List Byte
  | 0, c, m => (c, m)
  | n + 1, c, m => if m.length ≤ 16 then (c, m) else cmacChain key n (aesEnc key (xorBytes c (m.take 16))) (m.drop 16)

/-- AES-128-CMAC. -/
def aesCmac (key msg : List Byte) : List Byte :=
  let k1 := cmacDouble (aesEnc key (List.replicate 16 0))
  let k2 := cmacDouble k1
  let r := cmacChain key msg.length (List.replicate 16 0) msg
  let lastBlk :=
    if r.2.length == 16 then xorBytes r.2 k1
    else xorBytes (r.2 ++ [0x80] ++ List.replicate (15 - r.2.length) 0) k2
  aesEnc key (xorBytes r.1 lastBlk)

end Sys2Proof.Machine
end

