-- ==== Sys2Proof/Machine/State.lean ====
section
/-! DEFINITION. The state of the block as plain data: every register, FIFO, buffer, counter, mode and pin the manual
gives the device, and the queue of commands that wait. The default of a field is its value right after reset
(`State.reset` takes every default); INVENTORY.md lists the fields with the rule that names each. Times are absolute
Lighthouse cycles of 2.5 ns (`now`), or sixteenths of a cycle where a field says t16. Registers a rule computes from
other state (read-only summaries, configuration words loaded from image records) are computed where they are read
(Regs.lean) and have no second home here. -/

namespace Sys2Proof.Machine

/-- A read of the memory map is answered, refused, or ends the machine: the faults of the block. -/
inductive Fault where
  /-- No path of the model raises it: the manual names no event that stops the block as a whole. Safe. -/
  | none
deriving DecidableEq, Repr

/-- Why a command has no meaning. -/
inductive Refusal where
  /-- The dispatch answers it for a row without a meaning. Safe. -/
  | notModelled (mnemonic : String)
deriving DecidableEq, Repr

/-! ## Commands, answers, configuration -/

/-- The Keeper's answer to the last register access or command (R504 to R506). -/
structure Access where
  status : Nat := 0
  ucode  : Nat := 0
  idx    : BitVec 16 := 0xFFFF
  data   : List Word := []
deriving DecidableEq, Repr, Inhabited

/-- One record of a structural section (R45): its section type, its RTYPE and its payload words. -/
structure Rec where
  sect  : Nat
  rtype : Nat
  w     : List Word
deriving DecidableEq, Repr, Inhabited

/-- A page with content (R48): its place and the words of its page header. -/
structure PageHdr where
  die  : Die
  lane : Nat
  page : Nat
  w0   : Word
  w1   : Word
  w2   : Word
deriving DecidableEq, Repr, Inhabited

/-- The running image (R41 to R51), as loaded at start-up. -/
structure Image where
  valid    : Bool := false
  runslot  : Nat := 3
  seq      : Word := 0
  floor    : Word := 0
  hash     : List Word := List.replicate 8 0
  recs     : List Rec := []
  safety   : List Byte := []
  sbcrc    : Word := 0
  pages    : List PageHdr := []
  engines  : List (Die × Nat) := []
deriving DecidableEq, Repr, Inhabited

/-- One entry of the key table (R53): state 0 EMPTY, 1 ACTIVE, 2 REVOKED; roles IMAGE, SAFETY, STAGE in bits 0 to 2;
the public key x then y, 64 bytes big-endian. -/
structure KeyEntry where
  state : Nat := 0
  roles : BitVec 3 := 0
  xy    : List Byte := []
deriving DecidableEq, Repr, Inhabited

/-- The boot record (R55, R58, R522). -/
structure Boot where
  prefer    : Bool := false
  trial     : Bool := false
  attempted : Bool := false
  floor     : Word := 0
  isSealed  : Bool := false
deriving DecidableEq, Repr, Inhabited

/-- One of the two stored copies of the key table: its generation count and whether its CRC-32 is good (R40, R53). -/
structure KeyCopy where
  gen   : Nat := 0
  crcOk : Bool := true
  keys  : List KeyEntry := List.replicate 4 {}
deriving DecidableEq, Repr, Inhabited

/-- One of the two stored copies of the boot record: its generation count and whether its CRC-32 is good (R40, R58). -/
structure BootCopy where
  gen   : Nat := 0
  crcOk : Bool := true
  boot  : Boot := {}
deriving DecidableEq, Repr, Inhabited

/-- What the boot area says: the boot record and the key table (R40). -/
structure BootArea where
  boot  : Boot := {}
  keys  : List KeyEntry := List.replicate 4 {}
deriving DecidableEq, Repr, Inhabited

/-- What the non-volatile store keeps beside the bytes of the slots and the logs, which stand in `State.mem` (R38):
the key table and the boot record in two copies each, the lockout record (R358), the fault-log and lamp-hours-log positions (R521, R465), the lamp-hours
baselines by quantity and instance (R461; a leg's t_on and t_off, or τ_0) and those of the resolver amplitudes with the image
they belong to, and the physical condition of its 64-bit words: `flips` the number of stored bits in error of a word
(R39), `worn` the words that no longer take a write. -/
structure Nv where
  keysA    : KeyCopy := {}
  keysB    : KeyCopy := {}
  bootA    : BootCopy := {}
  bootB    : BootCopy := {}
  lockRec  : Bool := false
  logNext  : Nat := 0
  lseq     : Nat := 0
  lampPos  : Nat := 0
  lampBase : List (Nat × Nat × Rat × Rat) := []
  resBase  : List (Option Nat) := [none, none]
  resHash  : List Word := []
  flips    : List (Nat × Nat) := []
  worn     : List Nat := []
  returned : List Word := []
deriving DecidableEq, Repr

/-- A staged item being written (R63): a page with its entries, or a parameter block. -/
inductive StageItem where
  | page  (hdr : PageHdr) (bytes : List Byte)
  | param (die : Die) (engine : Nat) (words : List Word)
deriving DecidableEq, Repr

/-- Image management in the Keeper (R58 to R65). -/
structure ImgMgr where
  lastCause  : Nat := 0
  err        : Word := 0
  slotStat   : Word := 0
  fallback   : Bool := false
  noImage    : Bool := true
  staging    : Bool := false
  items      : List StageItem := []
  params     : List (Die × Nat × List Word) := []
  stagedEngs : List (Die × Nat) := []
  stageBuf   : List (Nat × Byte) := []
  checked    : List Bool := [false, false]
  repeated   : Bool := false
deriving DecidableEq, Repr, Inhabited

/-! ## System, supplies, clocks (chapters 01 and 19) -/

/-- Start-up, reset and sleep. -/
structure Sys where
  step      : Nat := 1
  halt      : Bool := false
  haltStep  : Nat := 0
  ready     : Bool := false
  dsReady   : Bool := false
  sleepAcc  : Bool := false
  sleepAt   : Nat := 0
  sleepStep : Nat := 0
  asleep    : Bool := false
  wakePend  : Bool := false
  wakePin   : Bool := true
  wakeUnres : Bool := true
  wakeReq   : Bool := true
  resetLow  : Bool := true
  resetUnres : Bool := true
  csReset   : Bool := true
  dsPor     : Bool := true
  dsBoot    : Bool := true
  dsUp      : Bool := false
  fwFail    : Bool := false
  keeperUp  : Bool := false
  rstCause  : Word := 1
  wkCnt     : Word := 0
  sysEvt    : Word := 0
  almask    : Word := 6
  stepT     : Word := 0
  stepStart : Nat := 0
  validAt   : Nat := 0
  dsStartAt : Nat := 0
  protPath  : Bool := false
deriving DecidableEq, Repr, Inhabited

/-- The supply monitors (R530 to R532): bit = supply code in range; `since` until when a supply that came back still counts as
out of range; `vwkLow` while VWK is below its power-on threshold. -/
structure Supply where
  vwkLow   : Bool := false
  csOk     : BitVec 12 := 0
  dsOk     : BitVec 12 := 0
  dsSeen   : BitVec 12 := 0
  since    : List Nat := List.replicate 12 0
deriving DecidableEq, Repr, Inhabited

/-- The clock monitor and the PLLs (R26, R28). -/
structure Clocks where
  xtalOk  : Bool := false
  csLock  : Bool := false
  dsLock  : Bool := false
  wrMism  : Bool := false
  clkDev  : BitVec 16 := 0
  wrTxOff : Bool := false
  winAt   : Nat := 0
deriving DecidableEq, Repr, Inhabited

/-! ## The crossing (chapter 01) -/

/-- A DS fault event: the four fragment words of R16. -/
structure DsEvent where
  w0 : Word
  w1 : Word
  w2 : Word
  w3 : Word
deriving DecidableEq, Repr, Inhabited

/-- One beam slot of a superframe (R12, R132). -/
structure Snap where
  p0     : Word := 0
  speed  : Word := 0
  t0     : Word := 0
  cyc    : BitVec 16 := 0
  status : BitVec 16 := 0x8000
deriving DecidableEq, Repr, Inhabited

/-- What a DS superframe carried, kept until it is judged (R16): its start, its count, the event (its number in order of
sending) and the fragment, and its converter stage commands. -/
structure SentFrag where
  at_   : Nat
  count : BitVec 16
  evno  : Option Nat
  frag  : Nat
  cmd   : BitVec 8
deriving DecidableEq, Repr, Inhabited

/-- A DS fault event that has started (R16): its number, whether it is a QOVF event, its words. -/
structure FlyEvent where
  no  : Nat
  ovf : Bool
  ev  : DsEvent
deriving DecidableEq, Repr, Inhabited

/-- One die's end of the crossing: sender and receiver, `up` once trained. `acks` are the last accepted superframes with the cycle each was
accepted in, newest first; `rxAt` the start of the last superframe that arrived, `lane` the first lane that reported a
violation since the last acceptance (4: none); `sendNo` and `rxNo` the number, counted without end from training, of the next
superframe to send and of the last one accepted; `snaps` the snapshots of each beam that wait for their adoption cycle. -/
structure Link where
  up         : Bool := false
  sendCount  : BitVec 16 := 0
  sendNo     : Nat := 0
  sendAt     : Nat := 0
  sent       : List Byte := []
  lastCount  : BitVec 16 := 0
  haveCount  : Bool := false
  rxNo       : Nat := 0
  acceptAt   : Nat := 0
  acks       : List (Nat × Byte) := []
  rejected   : List (BitVec 16) := []
  lane       : Nat := 4
  loss       : Bool := false
  aligned    : Bool := false
  errCnt     : Word := 0
  rxAt       : Nat := 0
  snaps      : List (List (Nat × Snap)) := List.replicate 8 []
  safeAlive  : BitVec 4 := 0
  safeSendAt : Nat := 0
  safeSent   : List Byte := []
  rxAlive    : Option (BitVec 4) := none
  safeGoodAt : Nat := 0
  safeRxAt   : Nat := 0
  safeRx     : List Byte := []
  safeUp     : Bool := false
  safeLoss   : Bool := false
  safeErrCnt : Word := 0
deriving DecidableEq, Repr, Inhabited

/-- The crossing as a whole: both ends, the DS fault-event queue and its sending state, the CS assembly, and what each die
last received in the control slot. -/
structure Crossing where
  cs        : Link := {}
  ds        : Link := {}
  trained   : Bool := false
  upAt      : Nat := 0
  attempts  : Nat := 0
  evq       : List DsEvent := []
  fly       : List FlyEvent := []
  again     : List FlyEvent := []
  evnext    : Nat := 0
  sending   : Option (Nat × Nat) := none
  lost      : Nat := 0
  qovfDue   : Bool := false
  judged    : List SentFrag := []
  resumeAt  : Nat := 0
  parts     : List Word := []
  partCount : BitVec 16 := 0
  lastEvent : Option DsEvent := none
  csCmd     : BitVec 8 := 0x55
  cmdAcc    : Option (BitVec 8) := none
  heldRx    : BitVec 4 := 0
  fRx       : Nat := 0
  limchRx   : Nat := 0
  dsTarget  : Nat := 0
  dsLimch   : Nat := 0
deriving DecidableEq, Repr, Inhabited

/-! ## Window counters, fault records (chapters 01 and 03) -/

/-- One window counter (R78 to R81): the events of the current bin and the 15 before it, newest first. -/
structure Ctr where
  key      : CtrKey
  w        : Nat
  n        : Nat
  bins     : List Nat := List.replicate 16 0
  declared : Bool := false
  binAt    : Nat := 0
  code     : BitVec 16 := 0
deriving DecidableEq, Repr, Inhabited

/-- What reports to the Watch Room (R348): a declaration, a release of a counter. -/
inductive WrMsg where
  | declare (key : CtrKey) (code : BitVec 16) (unit elem : Nat) (detail : Word)
  | release (key : CtrKey)
deriving DecidableEq, Repr

/-! ## Buoys (chapter 03) -/

/-- One buoy (R66 to R77) and, for a mirrored one, its copy on the far die, stale until its first refresh (assumption log 175). State 0 VALID, 1 STALE, 2 FAULT,
3 DISABLED. `out` is the output the filter or a held value gives, `prevOut` the output committed before the cycle
`outAt` (R76); `hist` the filter's history, newest first; `relWait` a released FAULT that waits for its first admitted
value (R70); `rdecl`, `rwcount`, `rviol` are the CS die's view of a DS-home buoy's counter (R572). -/
structure Buoy where
  state    : Nat := 3
  out      : Word := 0
  prevOut  : Word := 0
  outAt    : Nat := 0
  last     : Word := 0
  hist     : List Word := []
  y        : Word := 0
  admitted : Bool := false
  lastAt   : Nat := 0
  tmoAt    : Nat := 0
  sampAt   : Nat := 0
  relWait  : Bool := false
  lastViol : Nat := 0
  fvUntil  : Nat := 0
  wmant    : Word := 0
  mval     : Word := 0
  mscale   : Byte := 0
  mstale   : Bool := true
  mAt      : Nat := 0
  rdecl    : Bool := false
  rwcount  : Nat := 0
  rviol    : Nat := 0
deriving DecidableEq, Repr, Inhabited

/-! ## Position and speed feedback (chapter 04) -/

/-- The edge history a speed is computed from (R99): times (newest first) and signed counts. -/
structure SpeedHist where
  edges   : List (Nat × Int) := []
  dir     : Int := 0
  validAt : Nat := 0
  lastAt  : Nat := 0
deriving DecidableEq, Repr, Inhabited

/-- Fields only a tooth-wheel channel uses (R103 to R107). -/
structure Tooth where
  index   : Nat := 0
  prevT   : Nat := 0
  lastT   : Nat := 0
  edges   : Nat := 0
  extra   : Bool := false
deriving DecidableEq, Repr, Inhabited

/-- Fields only a resolver channel uses (R109 to R112); `aSum` and `aN` give the mean amplitude of R459; `th` is the 32-bit angle, `omega` in 1/2^32 turn/s,
`e` in 1/2^64 turn; `excCal` the excitation-feedback amplitude of the start-up calibration, `excSeenAt` the cycle of its last
period; `phase` the demodulation phase in 1/(65,536 × 10^6) excitation period. -/
structure Resolver where
  th       : Nat := 0
  omega    : Int := 0
  e        : Int := 0
  lockRun  : Nat := 0
  ampRun   : Nat := 0
  ampSeen  : Bool := false
  ampCnt   : Bool := false
  excCnt   : Bool := false
  lotCnt   : Bool := false
  aSum     : Nat := 0
  aN       : Nat := 0
  excCal   : BitVec 16 := 0
  excSeenAt : Nat := 0
  phase    : Nat := 0
deriving DecidableEq, Repr, Inhabited

/-- Fields only an SSI channel uses (R113 to R115). -/
structure Ssi where
  reqAt    : Nat := 0
  clkAt    : Nat := 0
  busy     : Bool := false
  field    : Option Word := none
  fieldAt  : Nat := 0
  frames   : Nat := 0
  filt     : Int := 0
deriving DecidableEq, Repr, Inhabited

/-- One feedback channel (R86): levels A, B, Z or the code, and its registers (R120). `upset`: a QJUMP or wire-disagree has made the
position UNCERTAIN since the last ARM (R94). -/
structure Fb where
  unresLines : BitVec 3 := 7
  lines     : BitVec 3 := 0
  pos       : Word := 0
  angle     : Word := 0
  speed     : Word := 0
  spstat    : Nat := 4
  tstamp    : Word := 0
  aux       : Word := 0
  load      : Word := 0
  turn      : Word := 0
  evt       : Word := 0
  uncertain : Bool := true
  upset     : Bool := false
  dirNeg    : Bool := false
  ref       : Bool := false
  armed     : Bool := false
  hallInv   : Bool := false
  wdis      : BitVec 3 := 0
  wdAct     : BitVec 3 := 0
  wdSince   : List Nat := [0, 0, 0]
  wdLevel   : BitVec 3 := 0
  loadRef   : Word := 0
  amp       : Bool := false
  exc       : Bool := false
  lot       : Bool := false
  chkFail   : Bool := false
  restart   : Bool := true
  sector    : Nat := 0
  hallCode  : Nat := 0
  unresAt   : Nat := 0
  hist      : SpeedHist := {}
  tooth     : Tooth := {}
  res       : Resolver := {}
  ssi       : Ssi := {}
deriving DecidableEq, Repr, Inhabited

/-! ## Beams (chapter 05) -/

/-- Network time as it runs from one change of its offset or rate to the next (R490 to R492): the role, the cycle local time counts
from, and the terms of `Net`. -/
structure NetRun where
  role    : Nat
  zero    : Nat
  ofs     : Int
  anchorN : Int
  anchorT : Nat
  r       : Rat
  slew    : Rat
  slewAt  : Option Nat
deriving DecidableEq, Repr

/-- How the phase runs while an anchor is in force: by R124 from the anchor; on the home die of a directly computed beam by R140
from network time, by R141 from the start of page 0, or by R142 from the boundary numbered k − 1 at `bAt` over a period `per`, both
in t16, where `hold` keeps the phase below the next turn until the boundary comes (R244). -/
inductive Law where
  | line
  | net (per off : Nat) (lat : Int) (run : NetRun)
  | free (per start : Nat)
  | carrier (k bAt per : Nat) (hold : Bool)
deriving DecidableEq, Repr, Inhabited

/-- An anchor of R124: phase, cycle count, speed and anchor time, and the furthest the phase may move from it in the
direction of travel (R129; none = no limit), with the law of the phase while it is in force. -/
structure Anchor where
  p0      : Word := 0
  cyc     : BitVec 16 := 0
  speed   : Word := 0
  t0      : Word := 0
  lim     : Option Nat := none
  law     : Law := .line
deriving DecidableEq, Repr, Inhabited

/-- An anchor with the cycle it came into force in, and whether the beam was stale under it (R154, R244). -/
structure Reign where
  since : Nat := 0
  a     : Anchor := {}
  stale : Bool := true
deriving DecidableEq, Repr, Inhabited

/-- What a read of a beam's registers shows beside the anchor: the values at the end of a cycle (R137). -/
structure BeamView where
  stale    : Bool := true
  subst    : Bool := false
  supplier : Option Nat := none
  upd      : BitVec 4 := 0
  far      : BitVec 16 := 0x8000
  evt      : Word := 0
deriving DecidableEq, Repr, Inhabited

/-- One beam on one die (R122, R124, R147): the anchor in force with the cycle it came into force in, the anchors before it that a
crossing still to be found may need, newest first (R154, R155, R157), the status bits, the last edge of an edge source with its
cycle count in the upper bits (R129), and the latched registers of R146. `far` is the status adopted with the last snapshot on the
far die; `supplier` the beam that supplies the phase under ALT (R135); `old` what the registers showed before the changes of cycle
`oldAt` (R137). -/
structure Beam where
  a       : Anchor := {}
  since   : Nat := 0
  olds    : List Reign := []
  old     : BeamView := {}
  oldAt   : Nat := 0
  stale   : Bool := true
  subst   : Bool := false
  upd     : BitVec 4 := 0
  supplier : Option Nat := none
  lastUpd : Nat := 0
  edgeU   : BitVec 48 := 0
  edgeT   : Word := 0
  edgeIn  : Bool := false
  far     : BitVec 16 := 0x8000
  adopted : Bool := false
  evt     : Word := 0
  latSpeed : Word := 0
  latCyc  : Word := 0x80000000
  latRdt  : Word := 0
deriving DecidableEq, Repr, Inhabited

/-- The mains phase-locked loop (R138, R139): fixed-point values, angle in 1/2^64 turn, frequency in 1/2^32 Hz,
voltages in 1/2^16 mantissa; `lockedWas` is LOCKED before the update of cycle `at10`. -/
structure Mains where
  form     : Bool := false
  pendForm : Bool := false
  locked   : Bool := false
  th       : Nat := 0
  freq     : Int := 0
  va       : Int := 0
  vb       : Int := 0
  e        : Int := 0
  fdev     : Int := 0
  amp      : Word := 0
  lockRun  : Nat := 0
  at10     : Nat := 0
  inst     : Nat := 0
  lockedWas : Bool := false
deriving DecidableEq, Repr, Inhabited

/-! ## Lighthouse (chapter 06) -/

/-- An entry in the in-flight window (R150): its words, its place, and the cycles at which it issued, was accepted
and retires. `vals` is what it captured at acceptance (a computed mantissa and exponent, conversion codes, or a beam
phase). -/
structure InFl where
  seqn     : Nat
  lane     : Nat
  page     : Nat
  idx      : Nat
  w        : List Word
  issueAt  : Nat
  acceptAt : Option Nat
  retireAt : Option Nat
  vals     : List Int
deriving DecidableEq, Repr, Inhabited

/-- A held swap request (R174): its rank, page and arrival, and the swap cycle once a crossing has come (R175). -/
structure SwapReq where
  rank : Nat
  page : Nat
  at_  : Nat
  trig : Option Nat
deriving DecidableEq, Repr, Inhabited

/-- One lane (R148, R184, R185). `fresh`: no entry has issued since the page became active; `swept`: nothing but the issue
width has made an entry late since its trigger (R157). -/
structure Lane where
  run      : Bool := false
  page     : Nat := 0
  prev     : Nat := 0
  ptr      : Nat := 0
  watch    : Nat := 0
  trig     : Option Nat := none
  fresh    : Bool := true
  wrapDone : Bool := false
  swept    : Bool := true
  passAt   : Nat := 0
  predIssue : Nat := 0
  predSeq  : Option Nat := none
  predRetire : Nat := 0
  passes   : Word := 0
  held     : Option SwapReq := none
  react    : Nat := 0
  prio     : Bool := false
  lastRef  : Nat := 0
  swTime   : Word := 0
  drain    : Bool := false
  drainPairs : Byte := 0
  drainMerge : Bool := false
  merging  : Bool := false
  mergeAt  : Nat := 0
  drainAt  : Nat := 0
  levt     : Word := 0
  ovrCnt   : Word := 0
  ovrLast  : Word := 0
  ovrMax   : BitVec 16 := 0
  lv       : List (Word × Byte) := List.replicate 16 (0, 0)
  issueCyc : Nat := 0
  issueN   : Nat := 0
deriving DecidableEq, Repr, Inhabited

/-- One die's Lighthouse. -/
structure Lh where
  lanes   : List Lane := List.replicate 4 {}
  infl    : List InFl := []
  seqn    : Nat := 0
  hwm     : Nat := 0
  trace   : List (BitVec 64) := []
  lost    : Bool := false
  trcHi   : Word := 0
  sig0    : Word := 0
  sig1    : Word := 0
  p0time  : Word := 0
  adc     : List (List Word) := List.replicate 8 (List.replicate 16 0)
  adcAt   : List (List Nat) := List.replicate 8 (List.replicate 16 0)
  adcFree : List Nat := List.replicate 8 0
deriving DecidableEq, Repr, Inhabited

/-! ## Engines and pairs (chapters 07 and 08) -/

/-- One Lantern engine (R186 to R214): inputs, latch, active copy, state mantissas 0 to 21 (r_s, y_m, b0 to b15, I,
D, x_p, w) and the four block exponents (SLEW, ERR, PID, OLIM). `staged` is the parameter block written last, `stagedDue` that its
boundary has passed while a RUN was in flight, `laterBlk` a block written after that (R177). -/
structure Eng where
  inp      : List Word := List.replicate 8 0
  latch    : Word := 0
  act      : List Word := List.replicate 32 0
  actSet   : Nat := 0
  initPend : Bool := false
  settle   : Nat := 0
  st       : List Word := List.replicate 22 0
  bexp     : List Byte := List.replicate 4 0
  evt      : Word := 0
  resid    : Word := 0
  runCnt   : Word := 0
  runT     : Word := 0
  istopped : Bool := false
  osath    : Bool := false
  osatl    : Bool := false
  sath     : Bool := false
  satl     : Bool := false
  busy     : Bool := false
  staged   : Option (List Word) := none
  stagedDue : Bool := false
  laterBlk : Option (List Word) := none
  cpAge    : Nat := 0
deriving DecidableEq, Repr, Inhabited

/-- One engine pair (R215, R236, R237): mode 0 LOCKED, 1 SPLIT, 2 MERGING, 3 BROKEN, 7 NONE. `apart`: the engines compute
independently, since a split or a merge that failed. -/
structure Pair where
  mode     : Nat := 7
  disabled : Bool := false
  isRecover : Bool := false
  holdCnt  : Nat := 0
  dbg      : Word := 0
  haltE    : Bool := false
  haltO    : Bool := false
  dbgBroken : Bool := false
  apart    : Bool := false
  evt      : Word := 0
  misCnt   : Word := 0
  misLast  : Word := 0
  injDone  : Bool := false
  injMask  : BitVec 4 := 0
  injWord  : Nat := 0
  restoring : Bool := false
  restoreAt : Nat := 0
deriving DecidableEq, Repr, Inhabited

/-! ## PWM (chapter 09) -/

/-- A shadow with its written flag (R248): when the flag was set and when the last write came, and the values before the
last two cycles of writing, for the cut-off of R250. -/
structure Shadow where
  val   : Word := 0
  wr    : Bool := false
  wrAt  : Nat := 0
  at_   : Nat := 0
  p1    : Word := 0
  at1   : Nat := 0
  p2    : Word := 0
deriving DecidableEq, Repr, Inhabited

/-- One carrier group (R239 to R246, R270, R271). `bAt` and `pbAt` are the last boundary and the one before in t16, `pper`
the period between them. -/
structure Grp where
  run     : Bool := false
  per     : Nat := 0
  persh   : Shadow := {}
  k       : Nat := 0
  bt      : Word := 0
  bAt     : Nat := 0
  pbAt    : Nat := 0
  pper    : Nat := 0
  lfsr    : BitVec 16 := 0
  unlock  : Bool := false
  held    : Bool := false
  splCnt  : Word := 0
  evt     : Word := 0
  limHit  : Bool := false
  xWatch  : Nat := 0
  xAt     : Option Nat := none
deriving DecidableEq, Repr, Inhabited

/-- An edge of a reference after trim and pulse rules (R257): its time in 1/16 cycle, where the raw edge lies that it stands for,
the raw level from it on, whether it is emitted (a removed pulse's edges are not, R260), what the signal owes and expects from it
on (the fields of `Shp`), how far the pulse it ends was extended (R261), and the accumulators and debts of the signal's outputs
before its pulse was judged, which come back where the edge is not placed after all (R574). -/
structure SEdge where
  t    : Nat
  rt   : Nat
  raw  : Bool
  emit : Bool
  grow : Int := 0
  skip : Nat := 0
  due  : Nat := 0
  late : Nat := 0
  undo : List (Bool × Nat × Nat) := []
deriving DecidableEq, Repr, Inhabited

/-- A reference signal of a channel, S or S_A and S_B (R256): raw and emitted level, until when a removed pulse lasts, the growth
its running pulse still owes at its trailing edge and the raw end it was judged with, the start of that pulse, and the edges
placed ahead. -/
structure Shp where
  raw     : Bool := false
  lvl     : Bool := false
  skipEnd : Nat := 0
  grow    : Int := 0
  due     : Nat := 0
  start   : Nat := 0
  edges   : List SEdge := []
deriving DecidableEq, Repr, Inhabited

/-- A half-period of a channel to come (R242): its start in 1/16 cycle, whether it is the second half, and the start
and length of the channel's own period it belongs to. -/
structure Half where
  t      : Nat
  second : Bool
  c0     : Nat
  per    : Nat
deriving DecidableEq, Repr, Inhabited

/-- One PWM channel (R238 to R264, R270, R272). Override codes: 0 NONE, 1 INHIBIT, 2 LOWON, 3 HIGHON. `hMin` and
`lMin` are the earliest times an output that the chain asks for may be on (dead time), `oMin` that of the output an override
asks for, `ovrAt` when the override last left NONE or changed, `hOnAt` and `lOnAt` an output's last turn-on before the running one, `hLast` and `lLast` when it was last on; `fresh`
from a first transfer before the channel's own first period to that period, `took` from a transfer to the half after it. -/
structure Chan where
  da     : Nat := 0
  db     : Nat := 0
  phs    : Nat := 0
  dash   : Shadow := {}
  dbsh   : Shadow := {}
  phssh  : Shadow := {}
  commit : Bool := false
  commitAt : Nat := 0
  commitLast : Nat := 0
  active : Bool := false
  ovr    : Nat := 0
  ovrAt  : Nat := 0
  intOff : Bool := false
  relWait : Bool := false
  fresh  : Bool := false
  took   : Bool := false
  flt    : Bool := false
  shA    : Shp := {}
  shB    : Shp := {}
  hMin   : Nat := 0
  lMin   : Nat := 0
  oMin   : Nat := 0
  hOnAt  : Nat := 0
  lOnAt  : Nat := 0
  hLast  : Nat := 0
  lLast  : Nat := 0
  halves : List Half := []
  hEnd   : Nat := 0
  c0     : Nat := 0
  cper   : Nat := 0
  cduty  : Nat := 0
  carryH : Nat := 0
  carryL : Nat := 0
  debtH  : Nat := 0
  debtL  : Nat := 0
  evt    : Word := 0
  intCnt : Word := 0
  dtr    : Nat := 0
  dtf    : Nat := 0
  minp   : Nat := 0
  trim   : Int := 0
  pdtr   : Nat := 0
  pdtf   : Nat := 0
  pminp  : Nat := 0
  ptrim  : Int := 0
  limHold : Bool := false
  wrHold : Bool := false
  onAcc  : Nat := 0
  accFrom : Nat := 0
  onTime : Nat := 0
  onPer  : Nat := 0
deriving DecidableEq, Repr, Inhabited

/-- One die's PWM unit. -/
structure Pwm where
  grps  : List Grp := List.replicate 16 {}
  chans : List Chan := List.replicate 48 {}
deriving DecidableEq, Repr, Inhabited

/-! ## Traction waveform unit (chapter 10) -/

/-- The WAVE inputs of one machine (R275). -/
structure WaveIn where
  vd    : Word := 0
  vq    : Word := 0
  fillw : Word := 0
  adv   : Word := 0
  grade : Word := 0
  mode  : Word := 0
  csect : Word := 0
  cdir  : Word := 0
  chop  : Word := 0
  ia0   : Word := 0
  ib0   : Word := 0
  ia1   : Word := 0
  ib1   : Word := 0
deriving DecidableEq, Repr, Inhabited

/-- One machine of the traction unit (R273 to R309). `inpWas` are the inputs before those of the cycle `inpAt` (R304). `samp` and `sampPrev` are the acceptance cycles of the last two SAMPLEs of
CURADC with the beam phase then (R286); `pend` the mode and fill weight taken in u − 3 for the update point u (R277). -/
structure Mach where
  inp      : WaveIn := {}
  inpWas   : WaveIn := {}
  inpAt    : Nat := 0
  mode     : Nat := 0
  fillUse  : Word := 0
  pend     : Option (Nat × Word) := none
  id0      : Int := 0
  iq0      : Int := 0
  id1      : Int := 0
  iq1      : Int := 0
  id       : Word := 0
  iq       : Word := 0
  vdl      : Word := 0
  vql      : Word := 0
  satAH    : Bool := false
  satAL    : Bool := false
  satDH    : Bool := false
  satDL    : Bool := false
  satQH    : Bool := false
  satQL    : Bool := false
  evt      : Word := 0
  openPh   : BitVec 6 := 0
  degraded : Bool := false
  peaks    : List Nat := List.replicate 6 0
  pbAc     : List Int := []
  pbDc     : List Int := []
  pbres    : Int := 0
  subAct   : Bool := false
  subAt    : Nat := 0
  subT     : Nat := 0
  subDone  : Bool := false
  turnCyc  : BitVec 16 := 0
  posLost  : Bool := false
  badEntry : Bool := false
  samp     : Option (Nat × Word) := none
  sampPrev : Option (Nat × Word) := none
deriving DecidableEq, Repr, Inhabited

/-- The Candle mode and crossing estimate of one machine (R289 to R294). -/
structure Candle where
  pattern  : Nat := 7
  catching : Bool := false
  caught   : Bool := false
  modeAt   : Nat := 0
  consist  : Nat := 0
  lastM    : Option Nat := none
  lastX    : Nat := 0
  dt       : Nat := 0
  dir      : Int := 0
  cspd     : Int := 0
  cvalid   : Bool := false
  driving  : Bool := false
  driveAt  : Nat := 0
  driveT   : Nat := 0
  timedOut : Bool := false
  commuteAt : Nat := 0
  commutes : Nat := 0
  pend     : Option Nat := none
  chopped  : Bool := false
  prevSign : List Int := [0, 0, 0]
deriving DecidableEq, Repr, Inhabited

/-- One leg (R279, R280, R310): `hEdges` are the times in 1/16 cycle of H edges placed ahead (TRIM). -/
structure Leg where
  h     : Bool := false
  hEdges : List Nat := []
  rsel  : Bool := false
  float : Bool := true
  chopped : Bool := false
  edgT  : Word := 0
  comp  : Nat := 0
  compsh : Shadow := {}
deriving DecidableEq, Repr, Inhabited

/-! ## Comparators and leg protection (chapter 11) -/

/-- One comparator (R311 to R320): raw and live level, resolution, code in force with the code before it, blanking. -/
structure CompSt where
  raw    : Bool := true
  live   : Bool := true
  unres  : Bool := true
  enabled : Bool := true
  code   : BitVec 10 := 0
  slope  : BitVec 16 := 0
  blank  : Nat := 0
  blankUntil : Nat := 0
  evt    : Word := 0
deriving DecidableEq, Repr, Inhabited

/-- A latched source (R323): its level, suspect set (bit 0 low side, bit 1 high side), PTSEQ, whether a PERMIT
has come since, and the cycle it latched in (R338). -/
structure Latch where
  src     : Nat
  level   : Nat
  suspect : Nat
  seqn    : Nat
  permit  : Bool
  at_     : Nat
deriving DecidableEq, Repr, Inhabited

/-- The safe state of one machine (R327, R330): 0 NONE, 1 pulse inhibit, 2 ASC low, 3 ASC high. -/
structure MSafe where
  st    : Nat := 0
  conf0 : Bool := false
  conf1 : Bool := false
  belowAt : Option Nat := none
deriving DecidableEq, Repr, Inhabited

/-- The leg-protection unit. -/
structure Prot where
  trip    : List CompSt := List.replicate 32 {}
  hard    : List CompSt := List.replicate 32 {}
  gc      : List CompSt := List.replicate 8 {}
  omux    : List Word := List.replicate 4 0x7F7F7F7F
  latches : List Latch := []
  ptseq   : Nat := 0
  wrLevel : Nat := 4
  wrCode  : Byte := 0
  wrArg   : BitVec 4 := 0
  wrFrac  : Byte := 0
  wrValid : Bool := false
  severity : Nat := 4
  msafe   : List MSafe := [{}, {}]
  ov1     : Bool := false
  ov1At   : Nat := 0
  chopOn  : Bool := false
  chopAt  : Nat := 0
  chopCur : Bool := false
  chopCnt : Word := 0
  clrStat : Word := 0
  log     : List (Word × Word) := []
  logLost : Bool := false
  logHi   : Word := 0
  ticked  : Nat := 0
deriving DecidableEq, Repr, Inhabited

/-! ## Watch Room (chapter 12) -/

/-- An open fault of class A or B (R352): the counter that declared it. -/
structure OpenFault where
  key   : CtrKey
  code  : BitVec 16
  cls   : Nat
  react : Nat
  released : Bool
  detail : Word
deriving DecidableEq, Repr, Inhabited

/-- One contactor (R365, R366): `changed` once its command has changed, from when on its checks follow every settle time. -/
structure Contactor where
  ctc      : Bool := false
  level    : Bool := false
  unres    : Bool := true
  settle   : Option Nat := none
  changed  : Bool := false
  cmdAt    : Nat := 0
  seen     : Bool := false
  openAt   : Option Nat := none
  closedAt : Option Nat := none
  time     : BitVec 16 := 0
  weld     : Bool := false
  noclose  : Bool := false
deriving DecidableEq, Repr, Inhabited

/-- One speed, position or direction monitor's running state (R360 to R364). -/
structure Monitor where
  v        : Option Rat := none
  p        : BitVec 16 := 0
  viol     : Bool := false
  srcLoss  : Bool := false
  diverge  : Bool := false
  divAt    : Option Nat := none
  stillAt  : Option Nat := none
  acc      : Rat := 0
  out      : Bool := false
deriving DecidableEq, Repr

/-- By which way a safety frame came, and so where its status goes: the Keeper alone, a host request, a CAN FD controller (R368,
R369, R488, R508). -/
inductive FramePath where
  | keeper
  | host (q : Req)
  | can (n : Nat)
deriving DecidableEq, Repr

/-- A safety frame that has reached the Watch Room since its last evaluation (R347). -/
structure SafeFrame where
  bytes : List Byte
  path  : FramePath
deriving DecidableEq, Repr

/-- The Watch Room. `lockOpen`: the contactors have been opened since the entry to LOCKOUT (R358); `inbox` what has been
reported since the last evaluation, `frames` the safety frames that have arrived since then, `writes` the accepted WRITE frames
(R371), `sev6Rx` that a report of severity 6 has come since then (R359). -/
structure Wr where
  state    : Nat := 0
  par      : List Byte := []
  parCrc   : Word := 0
  loaded   : Bool := false
  sbBad    : Bool := false
  selfOk   : Bool := false
  uid0     : Word := 0
  uid1     : Word := 0
  nonce    : Word := 0
  fresh    : Word := 0
  sfstat   : Word := 0
  sfcnt    : Word := 0
  key      : Option (List Byte) := none
  keyset   : Bool := false
  degAt    : Option Nat := none
  degCode  : BitVec 16 := 0
  degReact : Nat := 0
  lockCode : BitVec 16 := 0
  lreact   : Nat := 0
  lockAt   : Nat := 0
  lockOpen : Bool := true
  evt      : Word := 0
  chal     : Byte := 0
  wdAt     : Nat := 0
  slssel   : Word := 0
  slpsel   : Word := 0
  dirperm  : Word := 0
  ctcmd    : Word := 0
  cmd      : Byte := 0xC3
  cmdArg   : BitVec 4 := 0
  cmdFrac  : Byte := 0
  lab      : Bool := false
  armed    : Option Nat := none
  confirm  : Bool := false
  noTorq   : Bool := false
  resetWait : Bool := false
  evalAt   : Nat := 0
  sbAt     : Nat := 0
  inbox    : List WrMsg := []
  opened   : List OpenFault := []
  writes   : List (Nat × Word) := []
  frames   : List SafeFrame := []
  sls      : List Monitor := List.replicate 4 ⟨none, 0, false, false, false, none, none, 0, false⟩
  slp      : List Monitor := List.replicate 4 ⟨none, 0, false, false, false, none, none, 0, false⟩
  sdi      : List Monitor := List.replicate 2 ⟨none, 0, false, false, false, none, none, 0, false⟩
  ct       : List Contactor := List.replicate 6 {}
  ov3Rx    : Bool := false
  sev6Rx   : Bool := false
  checks   : Bool := false
deriving DecidableEq, Repr

/-! ## Converters (chapter 13) -/

/-- One telemetry quantity (R397, R398). -/
structure Tele where
  sum  : Int := 0
  cnt  : Nat := 0
  avg  : Word := 0
  lo   : Word := 0x7FFFFFFF
  hi   : Word := 0x80000000
deriving DecidableEq, Repr, Inhabited

/-- One converter instance (R382 to R404). -/
structure Conv where
  state   : Nat := 0
  ref     : Word := 0
  enable  : Bool := false
  refr    : Word := 0
  retry   : Nat := 0
  hcnt    : Nat := 0
  hitNow  : Bool := false
  limHit  : Bool := false
  tssAt   : Nat := 0
  hiccAt  : Nat := 0
  hiccDone : Bool := false
  cleanAt : Nat := 0
  sawZero : Bool := true
  wrInh   : Bool := false
  evt     : Word := 0
  limCnt  : Word := 0
  wcnt    : Word := 0
  winAt   : Nat := 0
  tv      : Tele := {}
  ti      : Tele := {}
  tp      : Tele := {}
  tt      : Tele := {}
deriving DecidableEq, Repr, Inhabited

/-! ## Charging (chapter 14) -/

/-- One charge port (R405 to R414, R429, R430). -/
structure Port_ where
  phase   : Nat := 0
  heldPh  : Nat := 0
  lastEnd : Nat := 0
  retried : Bool := false
  evt     : Word := 0
  en      : Bool := false
  iset    : Word := 0
  vset    : Word := 0
  tcred   : Rat := 0
  treal   : Nat := 0
  tpre    : Nat := 0
  tterm   : Nat := 0
  fact    : Nat := 65536
  limch   : Nat := 0
  coolCh  : Nat := 0
  evalAt  : Nat := 0
deriving DecidableEq, Repr

/-- The AC port, the ideal diode and the command answer (R415 to R421, R429). -/
structure Ac where
  acqual   : Bool := false
  qualAt   : Option Nat := none
  handover : Bool := false
  lossAt   : Nat := 0
  rampFrom : Word := 0
  ramping  : Bool := false
  reverse  : Bool := false
  revAt    : Nat := 0
  grid     : Bool := false
  lastPres : Option Nat := none
  lowAt    : Option Nat := none
  gdevAt   : Option Nat := none
  lockDrop : Bool := false
  evt      : Word := 0
  cmdStat  : Word := 0
  supp     : Bool := false
  suppCnt  : BitVec 16 := 0
deriving DecidableEq, Repr, Inhabited

/-! ## Gearbox (chapter 15) -/

/-- One pre-driver (R432 to R434). -/
structure Gd where
  vdsoc : Bool := false
  uvUnres : Bool := true
  uv    : Bool := true
deriving DecidableEq, Repr, Inhabited

/-- One actuator (R435 to R447). -/
structure Act where
  drive   : Word := 0
  ilim    : Word := 0
  pattern : Nat := 7
  float   : Bool := false
  limit   : Bool := false
  hitNow  : Bool := false
  ocDone  : Bool := false
  stalled : Bool := false
  sawZero : Bool := false
  limAt   : Option Nat := none
  posAt   : Nat := 0
  driveAt : Nat := 0
  evt     : Word := 0
deriving DecidableEq, Repr, Inhabited

/-! ## Temperature, throttling, lamp-hours (chapter 16) -/

/-- One temperature channel (R448 to R455); readings in 1/16 degree. -/
structure Temp where
  val     : BitVec 16 := 0
  unknown : Bool := true
  broken  : Bool := false
  limit   : Bool := false
  hot     : Bool := false
  ivl     : Nat := 0
  nextAt  : Nat := 0
  evt     : Word := 0
  knee    : BitVec 16 := 0
  fact    : Nat := 0
  curveAt : Option Nat := none
  t0v     : Int := 0
  tau0    : Option Rat := none
  tau     : Option Rat := none
  ambSum  : Int := 0
  ambN    : Nat := 0
deriving DecidableEq, Repr

/-- The switching delays of one leg channel (R459, R475), units of 156.25 ps: the last 1,024 of each output, newest first,
and the baselines of t_on and t_off (R461). -/
structure LegDelay where
  hOn  : List Nat := []
  hOff : List Nat := []
  lOn  : List Nat := []
  lOff : List Nat := []
  base : Option (Rat × Rat) := none
deriving DecidableEq, Repr

/-- A quantity instance the lamp-hours unit may re-plan (R49, R462, R463). -/
structure Fence where
  qty    : Nat
  inst   : Nat
  value  : Int
  target : Option Int
  base   : Option Int
  hit    : Bool
deriving DecidableEq, Repr, Inhabited

/-- The lamp-hours unit and the throttling factors (R455 to R475): `fCs` is F, `fDs` the DS die's own target; `inhAt` since
when traction has been inhibited, `commitAt` the cycle of the last commit point. -/
structure Lamp where
  freeze  : Bool := false
  evt     : Word := 0
  rpCnt   : Word := 0
  last    : List Word := List.replicate 8 0
  slackCs : BitVec 16 := 0
  slackDs : BitVec 16 := 0
  calErr  : BitVec 16 := 0
  res0    : BitVec 16 := 0
  res1    : BitVec 16 := 0
  ctMax   : BitVec 16 := 0
  gband   : Nat := 0
  gbandNext : Nat := 0
  fences  : List Fence := []
  inhAt   : Option Nat := none
  commitAt : Nat := 0
  fCs     : Nat := 0
  fInit   : Bool := false
  limch   : Nat := 0
  csTarget : Nat := 0
  csLimch : Nat := 0
  fDs     : Nat := 0
  dsLimch : Nat := 0
  replanAt : Nat := 0
  slackAt : Nat := 0
  ampAt   : Nat := 0
  thrAt   : Nat := 0
  legs    : List LegDelay := List.replicate 48 ⟨[], [], [], [], none⟩
deriving DecidableEq, Repr

/-! ## CAN and network time (chapter 17) -/

/-- One transmit buffer (R479 to R482, R497). -/
structure TxBuf where
  hdr    : Word := 0
  dlc    : Word := 0
  data   : List Word := List.replicate 16 0
  status : Nat := 0
  cancel : Bool := false
  retx   : Nat := 0
  ts     : Nat := 0
deriving DecidableEq, Repr, Inhabited

/-- A frame in the receive FIFO (R485). -/
structure RxFrame where
  frame    : CanFrame
  filter   : Nat
  protFail : Bool
  ts       : Nat
deriving DecidableEq, Repr, Inhabited

/-- One CAN FD controller (R476 to R498): state 0 OFF, 1 INTEGRATING, 2 ACTIVE, 3 PASSIVE, 4 BUSOFF,
5 RECOVERING. -/
structure Can where
  state   : Nat := 0
  rxUnres : Bool := true
  boWait  : Bool := false
  tec     : Nat := 0
  rec_    : Nat := 0
  boCnt   : Nat := 0
  evt     : Word := 0
  tx      : List TxBuf := List.replicate 3 {}
  fifo    : List RxFrame := []
  lost    : BitVec 16 := 0
  alive   : List (Option Nat) := List.replicate 64 none
  devq    : List (Bool × List Byte) := []
  devRef  : Bool := false
  sofN    : Nat := 0
deriving DecidableEq, Repr, Inhabited

/-- Network time (R490 to R492): `ofs` in ns, the anchor in 1/2^32 ns; `syncAt` the cycle SYNC last changed in. -/
structure Net where
  ofs     : Int := 0
  anchorN : Int := 0
  anchorT : Nat := 0
  r       : Rat := 0
  slew    : Rat := 0
  slewAt  : Option Nat := none
  sync    : Bool := false
  syncAt  : Nat := 0
  good    : Nat := 0
  holdover : Bool := false
  seq     : Byte := 0
  err     : Int := 0
  evalAt  : Nat := 0
  capture : Option (Nat × Int) := none
  refAt   : Nat := 0
  prevSof : Nat := 0
  prevOk  : Bool := false
  setLo   : Word := 0
  latHi   : Word := 0
deriving DecidableEq, Repr

/-! ## Host, chain, Keeper, check values (chapter 18) -/

/-- A request the Keeper defers under load (R516): a LOG_READ with the stream and sequence to answer. -/
structure Deferred where
  req   : Req
  first : Word
  count : Word
deriving DecidableEq, Repr, Inhabited

/-- Host access and the chain (R499 to R514, R527). -/
structure HostIf where
  addr     : Option Byte := none
  aliveSpi : Option Byte := none
  alivePa  : Option Byte := none
  aliveBc  : Option Byte := none
  outSpi   : Byte := 0
  outPa    : Byte := 0
  evt      : Word := 0
  errCnt   : Word := 0
  bcStat   : Word := 0
  cnonce   : Word := 0
  paUp     : Bool := false
  pbUp     : Bool := false
  reqs     : List (List Byte) := []
  resps    : List (List Byte) := []
  spiDisc  : Bool := false
  outPaq   : List (List Byte) := []
  outPbq   : List (List Byte) := []
  cfgLoaded : Bool := false
deriving DecidableEq, Repr, Inhabited

/-- The Keeper's load and lockstep (R515, R516, R529). -/
structure Keeper where
  u        : Nat := 0
  peak     : Nat := 0
  shed2    : Bool := false
  defer3   : Bool := false
  queue    : List Deferred := []
  restarts : BitVec 16 := 0
  restarting : Bool := false
  evt      : Word := 0
  loadAt   : Nat := 0
  seqNo    : BitVec 16 := 0
  early    : List (List Word) := []
  slotDue  : Bool := false
deriving DecidableEq, Repr, Inhabited

/-- One check-value channel (R518 to R520, R528). -/
structure Ck where
  exp     : Word := 0
  res     : Word := 0
  done    : BitVec 16 := 0
  mismatch : Bool := false
  hold    : Bool := false
  running : Bool := false
  has     : Bool := false
  learnt  : Bool := false
  evt     : Word := 0
  bgAt    : Nat := 0
deriving DecidableEq, Repr, Inhabited

/-! ## The whole -/

/-- The state of the block. -/
structure State where
  pending : List Instr := []
  now     : Nat := 0
  freeCtr : Nat := 0
  csOfs   : Word := 0
  dsOfs   : Word := 0
  t0      : Option Nat := none
  netZero : Nat := 0
  fwRev   : Word := 0
  mem     : List Host.Cell := []
  acc     : Access := {}
  sys     : Sys := {}
  sup     : Supply := {}
  clk     : Clocks := {}
  x       : Crossing := {}
  nv      : Nv := {}
  img     : Image := {}
  im      : ImgMgr := {}
  csLoaded : Bool := false
  dsLoaded : Bool := false
  ctrs    : List Ctr := []
  buoys   : List Buoy := List.replicate 512 {}
  fb      : List Fb := List.replicate 12 {}
  fbTick  : Nat := 0
  beamsCs : List Beam := List.replicate 8 {}
  beamsDs : List Beam := List.replicate 8 {}
  mains   : Mains := {}
  lhCs    : Lh := {}
  lhDs    : Lh := {}
  engCs   : List Eng := List.replicate 8 {}
  engDs   : List Eng := List.replicate 16 {}
  pairCs  : List Pair := List.replicate 4 {}
  pairDs  : List Pair := List.replicate 8 {}
  pwmCs   : Pwm := { grps := List.replicate 8 {}, chans := List.replicate 16 {} }
  pwmDs   : Pwm := {}
  mach    : List Mach := [{}, {}]
  candle  : List Candle := [{}, {}]
  legs    : List Leg := List.replicate 48 {}
  prot    : Prot := {}
  wr      : Wr := {}
  conv    : List Conv := List.replicate 4 {}
  cvTick  : Nat := 0
  ports   : List Port_ := List.replicate 2 {}
  ac      : Ac := {}
  gd      : List Gd := List.replicate 8 {}
  bridgeUnres : Bool := true
  bridgeBad : Bool := true
  gact    : List Act := List.replicate 3 {}
  temp    : List Temp := List.replicate 28 {}
  lamp    : Lamp := {}
  can     : List Can := List.replicate 3 {}
  net     : Net := {}
  host    : HostIf := {}
  kp      : Keeper := {}
  ckCs    : List Ck := List.replicate 8 {}
  ckDs    : List Ck := List.replicate 4 {}
deriving DecidableEq, Repr

/-- The machine right after a VWK power-on (R531, R533): step 1, every register at its stated reset value, memory with
nothing listed, nothing in the queue. -/
def State.reset : State := {}

end Sys2Proof.Machine
end

