-- ==== Sys2Proof/Machine/Ops.lean ====
section
/-! DEFINITION. The named operations every chapter uses: memory, time, the running image's records, places in State,
free values, network time. -/

namespace Sys2Proof.Machine

/-! ## Memory (R34, R38) -/

/-- The byte at an address; an unlisted address reads 0 (assumption log 5). -/
def memGet : List Host.Cell → Nat → Byte
  | [], _ => 0
  | c :: m, a => if c.1 = a then c.2 else memGet m a

/-- The memory with one byte written; the list stays sorted and holds no zero. -/
def memPut : List Host.Cell → Nat → Byte → List Host.Cell
  | [], a, b => if b = 0 then [] else [(a, b)]
  | c :: m, a, b =>
    if c.1 < a then c :: memPut m a b
    else if c.1 = a then (if b = 0 then m else (a, b) :: m)
    else if b = 0 then c :: m else (a, b) :: c :: m

/-- Consecutive bytes written. -/
def memPutBytes (m : List Host.Cell) (a : Nat) : List Byte → List Host.Cell
  | [] => m
  | b :: bs => memPutBytes (memPut m a b) (a + 1) bs

/-- Consecutive bytes read. -/
def memGetBytes (m : List Host.Cell) (a n : Nat) : List Byte := (List.range n).map fun i => memGet m (a + i)

/-- A little-endian word read (R6). -/
def memWord (m : List Host.Cell) (a : Nat) : Word := wd (ofLe (memGetBytes m a 4))

/-- Consecutive words written. -/
def memPutWords (m : List Host.Cell) (a : Nat) (ws : List Word) : List Host.Cell := memPutBytes m a (bytesOf ws)

/-- The memory with `n` bytes from an address on unlisted. -/
def memErase (m : List Host.Cell) (a n : Nat) : List Host.Cell := m.filter fun c => c.1 < a || a + n ≤ c.1

/-- The canonical form of memory: addresses strictly rising, no listed byte equal to what an unlisted address reads. -/
def Memory.wf (m : List Host.Cell) : Bool :=
  m.all (fun c => c.2 != 0) && (m.zip m.tail).all fun p => p.1.1 < p.2.1

/-- Base of the non-volatile store's window (R38). -/
def storeBase : Nat := 0x38000000

/-- Base of a slot in the window: 0 A, 1 B (R38). -/
def slotBase (slot : Nat) : Nat := storeBase + (if slot = 0 then 0x010000 else 0x310000)

/-- Size of a slot. -/
def slotSize : Nat := 0x300000

/-- Base of a die's Light List RAM (R34). -/
def llBase : Die → Nat
  | .ds => 0x30000000
  | .cs => 0x30010000

/-- Entries of a die's Light List. -/
def llEntries : Die → Nat
  | .ds => 4096
  | .cs => 1024

/-- Base of an engine's parameter RAM. -/
def parBase (d : Die) (n : Nat) : Nat := (match d with | .ds => 0x30100000 | .cs => 0x30110000) + 0x1000 * n

/-- Base of an engine's checkpoint RAM. -/
def cpBase (d : Die) (n : Nat) : Nat := (match d with | .ds => 0x30200000 | .cs => 0x30210000) + 0x1000 * n

/-! ## Time -/

/-- The time a command states has come: the clock never runs back. -/
def State.advanceTo (s : State) (t : Nat) : State := { s with now := max s.now t }

/-- A die's Lighthouse cycle count at an absolute cycle (R27). -/
def countAt (s : State) (d : Die) (t : Nat) : Word :=
  wd t + (match d with | .cs => s.csOfs | .ds => s.dsOfs)

/-- A die's Lighthouse cycle count now. -/
def count (s : State) (d : Die) : Word := countAt s d s.now

/-- Lighthouse cycles in a microsecond. -/
def usec : Nat := 400

/-- Lighthouse cycles in a millisecond. -/
def msec : Nat := 400000

/-! ## Free values -/

/-- The next free value: what the manual leaves open (assumption log 4). -/
def State.free (s : State) : Word := Config.freeWord s.freeCtr

/-- The state after a free value was used. -/
def State.useFree (s : State) : State := { s with freeCtr := s.freeCtr + 1 }

/-! ## Places in State by die -/

def State.beams (s : State) : Die → List Beam
  | .cs => s.beamsCs
  | .ds => s.beamsDs

def State.setBeams (s : State) (d : Die) (v : List Beam) : State :=
  match d with
  | .cs => { s with beamsCs := v }
  | .ds => { s with beamsDs := v }

def State.lh (s : State) : Die → Lh
  | .cs => s.lhCs
  | .ds => s.lhDs

def State.setLh (s : State) (d : Die) (v : Lh) : State :=
  match d with
  | .cs => { s with lhCs := v }
  | .ds => { s with lhDs := v }

def State.engs (s : State) : Die → List Eng
  | .cs => s.engCs
  | .ds => s.engDs

def State.setEngs (s : State) (d : Die) (v : List Eng) : State :=
  match d with
  | .cs => { s with engCs := v }
  | .ds => { s with engDs := v }

def State.pairs (s : State) : Die → List Pair
  | .cs => s.pairCs
  | .ds => s.pairDs

def State.setPairs (s : State) (d : Die) (v : List Pair) : State :=
  match d with
  | .cs => { s with pairCs := v }
  | .ds => { s with pairDs := v }

def State.pwm (s : State) : Die → Pwm
  | .cs => s.pwmCs
  | .ds => s.pwmDs

def State.setPwm (s : State) (d : Die) (v : Pwm) : State :=
  match d with
  | .cs => { s with pwmCs := v }
  | .ds => { s with pwmDs := v }

def State.link (s : State) : Die → Link
  | .cs => s.x.cs
  | .ds => s.x.ds

def State.setLink (s : State) (d : Die) (v : Link) : State :=
  match d with
  | .cs => { s with x := { s.x with cs := v } }
  | .ds => { s with x := { s.x with ds := v } }

def State.cks (s : State) : Die → List Ck
  | .cs => s.ckCs
  | .ds => s.ckDs

def State.setCks (s : State) (d : Die) (v : List Ck) : State :=
  match d with
  | .cs => { s with ckCs := v }
  | .ds => { s with ckDs := v }

/-- What the registers of a beam show beside its anchor (R137). -/
def Beam.view (m : Beam) : BeamView :=
  { stale := m.stale, subst := m.subst, supplier := m.supplier, upd := m.upd, far := m.far, evt := m.evt }

/-- A beam changed in a cycle keeps what it showed at the end of the cycle before (R137). -/
def Beam.turn (old : Beam) (t : Nat) (m : Beam) : Beam :=
  if m.view = old.view || old.oldAt = t then m else { m with old := old.view, oldAt := t }

/-- One beam changed. -/
def State.modBeam (s : State) (d : Die) (n : Nat) (f : Beam → Beam) : State :=
  s.setBeams d (upd (s.beams d) n fun m => m.turn s.now (f m))

/-- One lane changed. -/
def State.modLane (s : State) (d : Die) (n : Nat) (f : Lane → Lane) : State :=
  s.setLh d { s.lh d with lanes := upd (s.lh d).lanes n f }

/-- One engine changed. -/
def State.modEng (s : State) (d : Die) (n : Nat) (f : Eng → Eng) : State := s.setEngs d (upd (s.engs d) n f)

/-- One pair changed. -/
def State.modPair (s : State) (d : Die) (n : Nat) (f : Pair → Pair) : State := s.setPairs d (upd (s.pairs d) n f)

/-- One carrier group changed. -/
def State.modGrp (s : State) (d : Die) (n : Nat) (f : Grp → Grp) : State :=
  s.setPwm d { s.pwm d with grps := upd (s.pwm d).grps n f }

/-- One channel changed. -/
def State.modChan (s : State) (d : Die) (n : Nat) (f : Chan → Chan) : State :=
  s.setPwm d { s.pwm d with chans := upd (s.pwm d).chans n f }

/-- One feedback channel changed. -/
def State.modFb (s : State) (n : Nat) (f : Fb → Fb) : State := { s with fb := upd s.fb n f }

/-- One buoy changed. -/
def State.modBuoy (s : State) (n : Nat) (f : Buoy → Buoy) : State := { s with buoys := upd s.buoys n f }

/-- One machine changed. -/
def State.modMach (s : State) (n : Nat) (f : Mach → Mach) : State := { s with mach := upd s.mach n f }

/-- One Candle unit changed. -/
def State.modCandle (s : State) (n : Nat) (f : Candle → Candle) : State := { s with candle := upd s.candle n f }

/-- One converter changed. -/
def State.modConv (s : State) (n : Nat) (f : Conv → Conv) : State := { s with conv := upd s.conv n f }

/-- One port changed. -/
def State.modPort (s : State) (n : Nat) (f : Port_ → Port_) : State := { s with ports := upd s.ports n f }

/-- One actuator changed. -/
def State.modAct (s : State) (n : Nat) (f : Act → Act) : State := { s with gact := upd s.gact n f }

/-- One temperature channel changed. -/
def State.modTemp (s : State) (n : Nat) (f : Temp → Temp) : State := { s with temp := upd s.temp n f }

/-- One CAN controller changed. -/
def State.modCan (s : State) (n : Nat) (f : Can → Can) : State := { s with can := upd s.can n f }

/-- One leg changed. -/
def State.modLeg (s : State) (n : Nat) (f : Leg → Leg) : State := { s with legs := upd s.legs n f }

/-! ## The running image's records (R45) -/

/-- Section types (R44). -/
def sROUTE : Nat := 1
def sBUOY : Nat := 2
def sENGINE : Nat := 3
def sPOWER : Nat := 4
def sGUARD : Nat := 5
def sREACT : Nat := 6
def sFENCE : Nat := 8
def sBEAM : Nat := 9
def sFEEDBACK : Nat := 10
def sNET : Nat := 11
def sCONV : Nat := 12
def sCHARGE : Nat := 13
def sGEAR : Nat := 14
def sTHERMAL : Nat := 15
def sWINDOW : Nat := 16
def sPAGETAB : Nat := 17

/-- The payloads of the records of one type, in order. -/
def recsOf (rs : List Rec) (sect rtype : Nat) : List (List Word) :=
  (rs.filter fun r => r.sect == sect && r.rtype == rtype).map (·.w)

/-- The first record of one type whose payload word 0 has the value `v` in [hi:lo]. -/
def recBy (rs : List Rec) (sect rtype hi lo v : Nat) : Option (List Word) :=
  (recsOf rs sect rtype).find? fun w => fld (wat w 0) hi lo == v

/-- A record's payload, or no words where there is none. -/
def recW (rs : List Rec) (sect rtype hi lo v : Nat) : List Word := (recBy rs sect rtype hi lo v).getD []

/-- The records in force on a die: the CS records from step 3, the DS records from step 7 (R535). -/
def recsIn (s : State) : Die → List Rec
  | .cs => if s.csLoaded then s.img.recs else []
  | .ds => if s.dsLoaded then s.img.recs else []

/-- Whether page 0 has started on a die. -/
def State.runs (s : State) : Die → Bool
  | .cs => s.sys.ready
  | .ds => s.sys.dsReady

/-- The cycle in which a die's local count equals T0: the start of its page 0 (R173). -/
def p0At (s : State) (d : Die) : Nat :=
  let t := s.t0.getD 0
  match d with
  | .cs => t
  | .ds => ((t : Int) - (s.dsOfs - s.csOfs).toInt).toNat

/-! ## Network time (R490, R492) -/

/-- The controller with the time role and the role: 0 none, 1 master, 2 follower. -/
def timeRole (s : State) : Nat × Nat :=
  match ((recsOf (recsIn s .cs) sNET 1).find? fun w => fld (wat w 0) 13 12 != 0) with
  | some w => (fld (wat w 0) 25 24, fld (wat w 0) 13 12)
  | none => (0, 0)

/-- The local time L in ns at an absolute cycle (R490). -/
def localNs (s : State) (t : Nat) : Int := (((t - s.netZero) * 5 / 2 : Nat) : Int)

/-- Network time as it runs now. -/
def netRun (s : State) : NetRun :=
  { role := (timeRole s).2, zero := s.netZero, ofs := s.net.ofs, anchorN := s.net.anchorN, anchorT := s.net.anchorT
    r := s.net.r, slew := s.net.slew, slewAt := s.net.slewAt }

/-- A follower's time at a cycle in 1/2^32 ns: from its anchor at 1 + r, with the slew while it lasts (R492). -/
def NetRun.followN (n : NetRun) (t : Int) : Int :=
  let slewT : Int := match n.slewAt with | some e => min t e - n.anchorT | none => 0
  n.anchorN + (((5 * 2 ^ 31 : Nat) : Rat) * ((t - n.anchorT : Int) * (1 + n.r) + slewT * n.slew)).floor

/-- The network time N in ns at an absolute cycle (R490). -/
def NetRun.ns (n : NetRun) (t : Int) : Int :=
  let l : Int := (t - n.zero) * 5 / 2
  match n.role with
  | 1 => l + n.ofs
  | 2 => if n.anchorT = 0 then l else n.followN t / (2 ^ 32 : Nat)
  | _ => l

/-- The network time N in ns now or later (R490). -/
def netNs (s : State) (t : Nat) : Int := (netRun s).ns t

/-- SYNC set to a value in a cycle; the cycle of its last change is kept. -/
def Net.withSync (n : Net) (v : Bool) (t : Nat) : Net :=
  if n.sync = v then n else { n with sync := v, syncAt := if n.syncAt = t then 0 else t }

/-- The two words of a 64-bit time. -/
def lo32 (i : Int) : Word := wi i
def hi32 (i : Int) : Word := wi (i / (2 ^ 32 : Nat))

/-! ## The boot area (R40) -/

/-- The first 64-bit word of the quarter of the boot area that holds a copy: 0 and 1 the key table, 2 and 3 the boot record (R38
and R40 give no layout: assumption log 172). -/
def bootWord (k : Nat) : Nat := (storeBase + 0x4000 * k) / 8

/-- Whether a 64-bit word of the store lies in a copy of the boot area. -/
def inCopy (k w : Nat) : Bool := decide (bootWord k ≤ w) && decide (w < bootWord (k + 1))

/-- Whether a copy can be read: its CRC is good and none of its words is uncorrectable (R39, R40). -/
def copyGood (s : State) (k : Nat) (crcOk : Bool) : Bool := crcOk && !s.nv.flips.any fun f => inCopy k f.1 && decide (2 ≤ f.2)

/-- Whether the second copy is used: the one whose CRC is good, of two good ones the one of higher generation; of two bad ones
the first, which R40 leaves open (assumption log 172). -/
def useB (a b : Bool) (genA genB : Nat) : Bool := if !b then false else if !a then true else decide (genA < genB)

/-- The key table in force (R40). -/
def keysNow (s : State) : KeyCopy :=
  if useB (copyGood s 0 s.nv.keysA.crcOk) (copyGood s 1 s.nv.keysB.crcOk) s.nv.keysA.gen s.nv.keysB.gen then s.nv.keysB else s.nv.keysA

/-- The boot record in force (R40). -/
def recNow (s : State) : BootCopy :=
  if useB (copyGood s 2 s.nv.bootA.crcOk) (copyGood s 3 s.nv.bootB.crcOk) s.nv.bootA.gen s.nv.bootB.gen then s.nv.bootB else s.nv.bootA

/-- The boot area in force. -/
def bootNow (s : State) : BootArea := { boot := (recNow s).boot, keys := (keysNow s).keys }

/-! ## The Keeper's answer -/

/-- The status of R505 with UCODE (R506) as the answer of a register access or command; ADDR and XING name the word, the
first. -/
def State.answer (s : State) (status ucode : Nat) (data : List Word) : State :=
  { s with acc := { status := status, ucode := ucode, idx := if status = 1 || status = 2 then 0 else 0xFFFF, data := data } }

/-- A served access. -/
def State.ok (s : State) (data : List Word) : State := s.answer 0 0 data

/-- Whether the crossing cannot carry an access to the DS die (R35). -/
def xingDown (s : State) : Bool := !s.x.trained || s.sys.dsBoot || s.x.cs.loss || s.x.ds.loss

/-- A register access by software goes through the Keeper: nothing answers while it does not run (R515); class 2 is
answered BUSY while shed (R516), a DS address XING while the crossing cannot carry it (R35). -/
def regGate (s : State) (d : Die) (f : State → State) : State :=
  if !s.sys.keeperUp || s.kp.restarting then s
  else if s.kp.shed2 then s.answer 3 0 []
  else if d == .ds && xingDown s then s.answer 2 0 []
  else f s

/-- REFUSED with UCODE. -/
def State.refuse (s : State) (ucode : Nat) : State :=
  { s with acc := { status := 4, ucode := ucode, idx := 0, data := [] } }

/-- The bar on writes and commands as a whole: a sealed device refuses them (R522), in the no-image state their type is not
allowed (R60), class 2 is shed (R516), during sleep entry they are refused (R543). -/
def writeBar (s : State) : Option (Nat × Nat) :=
  if (bootNow s).boot.isSealed then some (4, 2)
  else if s.im.noImage then some (7, 0)
  else if s.kp.shed2 then some (3, 0)
  else if s.sys.sleepAcc then some (4, 2)
  else none

/-- A register write by software through the Keeper. -/
def writeGate (s : State) (d : Die) (f : State → State) : State :=
  if !s.sys.keeperUp || s.kp.restarting then s
  else match writeBar s with
    | some (st, u) => if st = 4 then s.refuse u else s.answer st u []
    | none => regGate s d f

end Sys2Proof.Machine
end

