-- ==== Sys2Proof/Machine/Flags.lean ====
section
/-! DEFINITION. Events, window counters, declarations and fault records (R9, R16, R29 to R33, R78 to R81, R350, R521). -/

namespace Sys2Proof.Machine

/-! ## Fault codes (R9) -/

/-- A fault code of its fields. -/
def faultCode (d : Die) (sub inst cause : Nat) : BitVec 16 :=
  BitVec.ofNat 16 (d.bit * 32768 + sub % 32 * 1024 + inst % 16 * 64 + cause % 64)

/-- The CAUSE, SUBSYS, INST and DIE fields of a code. -/
def codeCause (c : BitVec 16) : Nat := c.toNat % 64
def codeSub (c : BitVec 16) : Nat := c.toNat / 1024 % 32
def codeInst (c : BitVec 16) : Nat := c.toNat / 64 % 16
def codeDie (c : BitVec 16) : Die := if c.toNat < 32768 then .cs else .ds

/-- INST of an instance in a subsystem whose highest instance number is `top` (R29). -/
def instOf (top n : Nat) : Nat :=
  if top < 16 then n else if top < 32 then n / 2 else if top < 64 then n / 4
  else if top < 128 then n / 8 else if top < 256 then n / 16 else n / 32

/-! ## The Watch Room's parameters as the classification reads them (R376, R377) -/

/-- A word of the Watch Room's parameter copy. -/
def wrPar (s : State) (off : Nat) : Word := wd (ofLe ((s.wr.par.drop off).take 4))

/-- The record of SLS, SLP and SDI monitors, contactors and class-table entries: their byte offsets (R376). -/
def slsOff (k : Nat) : Nat := 0x090 + 0x20 * k
def slpOff (k : Nat) : Nat := 0x110 + 0x20 * k
def sdiOff (k : Nat) : Nat := 0x190 + 0x10 * k
def ctOff (n : Nat) : Nat := 0x1B0 + 8 * n
def clsOff (i : Nat) : Nat := 0x1E4 + 8 * i

/-- NCLASS. -/
def nClass (s : State) : Nat := min 128 (fld (wrPar s 0x1E0) 7 0)

/-- DEFCLASS: 0 none, 1 A, 2 B, 3 C. -/
def defClass (s : State) : Nat := fld (wrPar s 8) 1 0

/-- The index of the first class-table entry that matches a code (R350). -/
def classEntry (s : State) (code : BitVec 16) : Option Nat :=
  (List.range (nClass s)).find? fun i =>
    let w := wrPar s (clsOff i)
    let mask := fld w 15 0
    Nat.land (fld w 31 16) mask == Nat.land code.toNat mask

/-- SIGCLASS of a SIGNAL event (R376). -/
def sigClass (s : State) (n : Nat) : Nat :=
  let b := (s.wr.par.getD (0x07C + n / 4) 0).toNat
  b / 4 ^ (n % 4) % 4

/-- The fixed classes of R350 by subsystem and cause. -/
def fixedClass (sub cause : Nat) : Option Nat :=
  if sub = 1 && (cause = 2 || cause = 4 || cause = 6) then some 1
  else if sub = 0 && (cause = 1 || cause = 3) then some 1
  else if sub = 15 && (cause = 1 || cause = 0x0A || cause = 0x0D) then some 1
  else if sub = 15 && (cause = 0x0B || cause = 0x0C || cause = 0x0E) then some 2
  else none

/-- The class of a declaration: 0 none, 1 A, 2 B, 3 C (R350, R376, R377). -/
def classOf (s : State) (code : BitVec 16) (elem : Nat) : Nat :=
  let sub := codeSub code
  let cause := codeCause code
  match fixedClass sub cause with
  | some c => c
  | none =>
    if sub = 15 && cause = 5 then fld (wrPar s (slsOff elem)) 17 16
    else if sub = 15 && cause = 6 then fld (wrPar s (slpOff elem)) 17 16
    else if sub = 15 && cause = 7 then fld (wrPar s (sdiOff elem)) 17 16
    else if sub = 15 && cause = 0x0F then sigClass s elem
    else match classEntry s code with
      | some i => fld (wrPar s (clsOff i + 4)) 31 30
      | none => defClass s

/-- The REACT of a declaration (R357, R377): WELD carries 3, the other fixed causes 0; a code that no entry matches
carries 0 (assumption log 12). -/
def reactOf (s : State) (code : BitVec 16) (elem : Nat) : Nat :=
  let sub := codeSub code
  let cause := codeCause code
  if sub = 15 && cause = 0x0A then 3
  else match fixedClass sub cause with
    | some _ => 0
    | none =>
      if sub = 15 && cause = 5 then fld (wrPar s (slsOff elem)) 1 0
      else if sub = 15 && cause = 6 then fld (wrPar s (slpOff elem)) 1 0
      else if sub = 15 && cause = 7 then fld (wrPar s (sdiOff elem)) 1 0
      else match classEntry s code with
        | some i => fld (wrPar s (clsOff i + 4)) 29 28
        | none => 0

/-! ## Window counters (R78 to R81) -/

/-- An event offered to a window counter: the counter, the cause, W in ms and N, MACRO and DETAIL of the record it may
raise, ELEMENT and INST where one counter serves several, and whether the counter counts before page 0 (R79). -/
structure Ev where
  key    : CtrKey
  cause  : Nat
  w      : Nat := 1
  n      : Nat := 1
  macroN : Nat := 0
  detail : Word := 0
  elemN  : Option Nat := none
  instN  : Option Nat := none
  early  : Bool := true

/-- ELEMENT of an event's record. -/
def Ev.elem (e : Ev) : Nat := e.elemN.getD e.key.elem

/-- The fault code of an event. -/
def Ev.code (e : Ev) : BitVec 16 := faultCode e.key.die e.key.sub (e.instN.getD e.key.inst) e.cause

/-- Cycles of one bin: W/16 (R79). -/
def Ctr.binLen (c : Ctr) : Nat := c.w * 25000

/-- The count: the events of the current bin and the 15 before it, saturating at 255 (R79). -/
def Ctr.count (c : Ctr) : Nat := min 255 c.bins.sum

/-- k bin boundaries pass. -/
def Ctr.shift (c : Ctr) (k : Nat) : Ctr :=
  { c with bins := (List.replicate (min k 16) 0 ++ c.bins).take 16, binAt := c.binAt + k * c.binLen }

/-- The bin boundaries up to a cycle pass. -/
def Ctr.roll (c : Ctr) (t : Nat) : Ctr := if c.binLen = 0 then c else c.shift ((t - c.binAt) / c.binLen)

/-- Whether a counter is the fixed kind: declared, with nothing left to count, it is released (R81). -/
def Ctr.releases (c : Ctr) : Bool := c.declared && c.count == 0

/-- The counter of a key. -/
def ctrOf (s : State) (k : CtrKey) : Option Ctr := s.ctrs.find? fun c => c.key == k

/-- WCOUNT as a register reads it. -/
def wcount (s : State) (k : CtrKey) : Nat := match ctrOf s k with | some c => (c.roll s.now).count | none => 0

/-- DECLARED as a register reads it: declared and not yet released (R81). -/
def isDeclared (s : State) (k : CtrKey) : Bool :=
  match ctrOf s k with | some c => c.declared && (c.roll s.now).count != 0 | none => false

/-- The counters with one put in its place. -/
def putCtr (l : List Ctr) (c : Ctr) : List Ctr :=
  if l.any (fun x => x.key == c.key) then l.map (fun x => if x.key == c.key then c else x) else l ++ [c]

/-- When the bins of a counter start: page 0, or the start of its unit for the exceptions of R79: the crossing with its
training, the DS die with the end of its power-on reset or boot state, the CS die with the end of its supply wait (assumption
log 13). -/
def binStart (s : State) (e : Ev) : Nat :=
  if !e.early then (match s.t0 with | some t => t | none => s.now)
  else if e.key.sub = 1 && s.x.upAt ≠ 0 then s.x.upAt
  else match e.key.die with
    | .cs => s.sys.validAt
    | .ds => s.sys.dsStartAt

/-- A counter that has counted nothing yet, in the bin that runs now. -/
def freshCtr (s : State) (e : Ev) : Ctr :=
  let st := binStart s e
  let len := e.w * 25000
  { key := e.key, w := e.w, n := e.n, binAt := if len = 0 then st else st + (s.now - st) / len * len }

/-! ## Fault records (R33) and the fault log (R521) -/

/-- Records in the ring. -/
def logSize : Nat := 30720

/-- Address of a record of the log. -/
def logAddr (idx : Nat) : Nat := storeBase + 0x610000 + 32 * (idx % logSize)

/-- The lowest index still held. -/
def logLowest (s : State) : Nat := s.nv.logNext - logSize

/-- Whether the store takes a write: VCS_NV in range (R532), the words not worn. -/
def storeTakes (s : State) (a n : Nat) : Bool :=
  s.sup.csOk.getLsbD 2 && !(s.nv.worn.any fun w => a / 8 ≤ w && w ≤ (a + n - 1) / 8)

/-- A record of seven words with its CHECK word (R33) appended to the log, once the Keeper runs; before that it is kept, in the order
of events (R79). -/
def logAppend (s : State) (w : List Word) : State :=
  let s := { s with sys := { s.sys with sysEvt := orBit s.sys.sysEvt 3 } }
  if s.sys.keeperUp then
    if storeTakes s (logAddr s.nv.logNext) 32 then
      { s with mem := memPutWords s.mem (logAddr s.nv.logNext) (w.take 7 ++ [crc32 (bytesOf (w.take 7))])
               nv := { s.nv with logNext := s.nv.logNext + 1 } }
    else s
  else { s with kp := { s.kp with early := s.kp.early ++ [w] } }

/-- The severity level last reported in a valid DS-to-CS safety message; 0 before the first (R33). -/
def csSeverity (s : State) : Nat := match s.x.cs.safeRx with | b :: _ => b.toNat / 32 | [] => 0

/-- The level as word 5 holds it: 1 to 6, 0 if none. -/
def recWord5 (sever cls : Nat) (lasting remote : Bool) : Word :=
  wd (sever * 2 ^ 28 + cls * 2 ^ 26 + atBit lasting 25 + atBit remote 24)

/-- The first seven words of a fault record (R33). -/
def faultWords (seqn : BitVec 16) (code : BitVec 16) (unit mac elem wc : Nat) (cyc : Word) (nt : Int) (w5 detail : Word) :
    List Word :=
  [wd (seqn.toNat * 65536 + code.toNat), wd (unit % 256 * 2 ^ 24 + mac % 256 * 2 ^ 16 + elem % 256 * 256 + wc % 256), cyc,
   lo32 nt, hi32 nt, w5, detail]

/-- The record of a CS declaration, appended, and the report to the Watch Room (R80, R348). -/
def csDeclare (s : State) (e : Ev) (wc : Nat) : State :=
  let cls := classOf s e.code e.elem
  let w := faultWords s.kp.seqNo e.code e.key.unit e.macroN e.elem wc (count s .cs) (netNs s s.now)
    (recWord5 (csSeverity s) cls true false) e.detail
  let s := { s with kp := { s.kp with seqNo := s.kp.seqNo + 1 } }
  let s := logAppend s w
  { s with wr := { s.wr with inbox := s.wr.inbox ++ [.declare e.key e.code e.key.unit e.elem e.detail] } }

/-- KIND of a DS event (R16). -/
def kSingle : Nat := 0
def kDeclare : Nat := 1
def kRelease : Nat := 2

/-- The four words of a DS event (R16). -/
def dsWords (s : State) (code : BitVec 16) (elem wc unit mac kind : Nat) (detail : Word) : DsEvent :=
  { w0 := wd (code.toNat * 65536 + elem % 256 * 256 + wc % 256)
    w1 := wd (unit % 256 * 2 ^ 24 + mac % 256 * 2 ^ 16 + s.prot.severity % 8 * 2 ^ 13 + kind * 2 ^ 11)
    w2 := count s .ds
    w3 := detail }

/-- Places taken in the DS fault-event queue: the events that wait, and those that have started and are not yet known to have
arrived (R16 leaves open whether the latter still take places: assumption log 167). -/
def queueLen (s : State) : Nat := s.x.evq.length + ((s.x.fly ++ s.x.again).filter fun e => !e.ovf).length

/-- A DS event enters the queue of 64; one that finds it full is lost and a QOVF event is due (R16, R31). -/
def dsEvent (s : State) (code : BitVec 16) (elem wc unit mac kind : Nat) (detail : Word) : State :=
  if queueLen s < 64 then
    { s with x := { s.x with evq := s.x.evq ++ [dsWords s code elem wc unit mac kind detail] } }
  else { s with x := { s.x with lost := min (2 ^ 32 - 1) (s.x.lost + 1), qovfDue := true } }

/-- A single event that a chapter sends from the DS die to the Watch Room (R16). -/
def dsSingle (s : State) (e : Ev) : State :=
  dsEvent s e.code e.elem 0 e.key.unit e.macroN kSingle e.detail

/-- A declaration of a counter (R80). -/
def declare (s : State) (e : Ev) (wc : Nat) : State :=
  match e.key.die with
  | .cs => csDeclare s e wc
  | .ds => dsEvent s e.code e.elem wc e.key.unit e.macroN kDeclare e.detail

/-- A release of a counter (R81). -/
def release (s : State) (c : Ctr) : State :=
  match c.key.die with
  | .cs => { s with wr := { s.wr with inbox := s.wr.inbox ++ [.release c.key] } }
  | .ds => dsEvent s c.code c.key.elem 0 c.key.unit 0 kRelease 0

/-- A counter whose W and N were set anew since it last counted: it keeps its events, and the bins of the new length start now
(R50, R63; assumption log 177). -/
def Ctr.retime (c : Ctr) (t w n : Nat) : Ctr := if c.w = w then { c with n := n } else { c with w := w, n := n, binAt := t }

/-- One event counted: the bins up to now pass first, an event in the cycle of a boundary falling in the new bin; the
event that brings the count to N declares (R79 to R81). -/
def countOnce (s : State) (e : Ev) : State :=
  if e.early || s.runs e.key.die then
    let c0 := (((ctrOf s e.key).getD (freshCtr s e)).roll s.now).retime s.now e.w e.n
    let rel := c0.releases
    let s := if rel then release s c0 else s
    let c1 : Ctr := { c0 with declared := c0.declared && !rel, bins := (c0.bins.headD 0 + 1) :: c0.bins.tail }
    let hit := !c1.declared && e.n ≤ c1.count
    let c2 : Ctr := { c1 with declared := c1.declared || hit, code := e.code }
    let s := { s with ctrs := putCtr s.ctrs c2 }
    if hit then declare s e c2.count else s
  else s

/-- The host unit's counter parameters: HCCFG word 1, or the defaults of R514. -/
def hcWin (s : State) : Nat × Nat :=
  match (if s.host.cfgLoaded then recsOf s.img.recs sNET 0x10 else []) with
  | w :: _ => (fld (wat w 1) 31 16, fld (wat w 1) 7 0)
  | [] => (1000, 16)

/-- An event of subsystem 18 (R525). -/
def hcEv (s : State) (cause inst : Nat) (detail : Word) : Ev :=
  { key := ⟨.cs, 18, inst, 0, inst, cause⟩, cause := cause, w := (hcWin s).1, n := (hcWin s).2, detail := detail, early := false }

/-- An event of the non-volatile store; the manual gives its DETAIL no content, so it is a free value (R39, assumption
log 4). -/
def nvEv (s : State) (cause w n : Nat) : Ev :=
  { key := ⟨.cs, 22, 0, 0, 0, cause⟩, cause := cause, w := w, n := n, detail := s.free }

/-- After records were appended: LOGWRAP is counted when the log has wrapped on the way (R521), NVWRITE when the store did not
take a record (R39). -/
def logWatch (s s' : State) : State :=
  if s'.nv.logNext ≠ s.nv.logNext && s'.nv.logNext % logSize = 1 && logSize < s'.nv.logNext then
    countOnce { s' with host := { s'.host with evt := orBit s'.host.evt 5 } } (hcEv s' 5 0 (wd (logLowest s')))
  else if s'.kp.seqNo ≠ s.kp.seqNo && s'.sys.keeperUp && s'.nv.logNext = s.nv.logNext then
    countOnce s'.useFree (nvEv s' 3 1 1)
  else s'

/-- One event counted. -/
def countEvent (s : State) (e : Ev) : State := logWatch s (countOnce s e)

/-- A fault record of the next sequence number appended (R33). -/
def logFault (s : State) (w : List Word) : State :=
  logWatch s (logAppend { s with kp := { s.kp with seqNo := s.kp.seqNo + 1 } } w)

/-- A cause this manual raises directly: a fixed counter of its own, W = 1 ms and N = 1 (R79). -/
def direct (d : Die) (sub inst unit elem cause : Nat) (detail : Word) : Ev :=
  { key := ⟨d, sub, inst, unit, elem, cause⟩, cause := cause, detail := detail }

/-- A SIGNAL event that has reached the Watch Room is counted in its fixed counter (R183, R376, R379). -/
def wrSignal (s : State) (n : Nat) : State :=
  countEvent { s with wr := { s.wr with evt := orBit s.wr.evt 15 } } (direct .cs 15 (n / 4) 0 n 0x0F (wd n))

/-- The parameters of a device-level counter: its WPARAM record or the default (R50). -/
def wparam (s : State) (sub cause w n : Nat) : Nat × Nat :=
  match (recsOf (recsIn s .cs) sWINDOW 1).find? fun r => fld (wat r 0) 31 24 == cause && fld (wat r 0) 23 16 == sub with
  | some r => (2 ^ fld (wat r 0) 7 0, fld (wat r 0) 15 8)
  | none => (w, n)

end Sys2Proof.Machine
end

