-- ==== Sys2Proof/Machine/Phase.lean ====
section
/-! DEFINITION. The phase of a beam at a cycle (R122 to R130, R140 to R142) and the crossings of an angle (R154, R157,
R175, R244). Phases are carried unwrapped: whole turns of 2^32 counts on top of the 32-bit phase. -/

namespace Sys2Proof.Machine

/-! ## Feedback configuration (R118, R121) -/

/-- Whether a feedback channel has a record. -/
def fbOn (s : State) (c : Nat) : Bool :=
  (recsIn s .cs).any fun r => r.sect == sFEEDBACK && fld (wat r.w 0) 3 0 == c

/-- A channel's CFG word (R118). -/
def fbCfg (s : State) (c i : Nat) : Word :=
  match (recsIn s .cs).find? fun r => r.sect == sFEEDBACK && fld (wat r.w 0) 3 0 == c with
  | some r => wat r.w (i + 1)
  | none => 0

/-- Counts per turn of an edge channel: CPT of encoders and hall groups, TEETH of tooth wheels. -/
def fbCounts (s : State) (c : Nat) : Nat :=
  if 2 ≤ c && c ≤ 5 then fld (fbCfg s c 0) 23 0
  else if c = 6 || c = 7 then fld (fbCfg s c 0) 10 0
  else fld (fbCfg s c 1) 23 0

/-- The clamp count c of R100 and R106: one, or GAPM + 1 where a synchronised tooth wheel expects the gap next. -/
def fbClampCount (s : State) (c : Nat) : Nat :=
  let f := nth s.fb c
  let cfg := fbCfg s c 0
  if (c = 6 || c = 7) && f.ref && fld cfg 16 16 == 0 then
    let gap := fld cfg 21 20
    let last := fbCounts s c - gap - 1
    if (!f.dirNeg && f.tooth.index == last) || (f.dirNeg && f.tooth.index == 0) then gap + 1 else 1
  else 1

/-! ## Beam configuration (R143) -/

/-- The BEAMDEF of a beam. -/
def bmDef (s : State) (b : Nat) : Option (List Word) :=
  recBy (if s.csLoaded || s.dsLoaded then s.img.recs else []) sBEAM 1 2 0 b

/-- A BEAMDEF word; 0 without a record. -/
def bmW (s : State) (b i : Nat) : Word := wat ((bmDef s b).getD []) i

/-- Whether a beam has a record. -/
def bmOn (s : State) (b : Nat) : Bool := (bmDef s b).isSome

def bmSrc (s : State) (b : Nat) : Nat := fld (bmW s b 0) 31 28
def bmInst (s : State) (b : Nat) : Nat := fld (bmW s b 0) 27 20
def bmHome (s : State) (b : Nat) : Die := if bitOf (bmW s b 0) 16 then .ds else .cs
def bmNeg (s : State) (b : Nat) : Bool := bitOf (bmW s b 0) 15
def bmPP (s : State) (b : Nat) : Nat := fld (bmW s b 0) 12 8
def bmOffset (s : State) (b : Nat) : Word := bmW s b 1
def bmLatcomp (s : State) (b : Nat) : Int := sfld (bmW s b 2) 31 16
def bmStaletime (s : State) (b : Nat) : Nat := fld (bmW s b 2) 15 0
def bmJumplim (s : State) (b : Nat) : Nat := fld (bmW s b 3) 31 16
def bmPolbuoy (s : State) (b : Nat) : Option Nat := if bitOf (bmW s b 3) 9 then some (fld (bmW s b 3) 8 0) else none
def bmPeriod (s : State) (b : Nat) : Nat := (bmW s b 5).toNat

/-! ## Phase -/

/-- Counts a phase moves in n cycles at a speed, rounded toward minus infinity (R124). -/
def moved (speed : Word) (n : Int) : Int := speed.toInt * n * (2 ^ 24 : Nat) / (400000000 : Nat)

/-- The displacement from an anchor after n cycles, held at the edge limit (R129). -/
def anchorDisp (a : Anchor) (n : Int) : Int :=
  let d := moved a.speed n
  match a.lim with
  | none => d
  | some l => if 0 ≤ a.speed.toInt then min d l else max d (-(l : Int))

/-- Whether the phase stands at the edge limit (R129). -/
def anchorLimited (a : Anchor) (n : Int) : Bool :=
  match a.lim with
  | none => false
  | some l => if 0 ≤ a.speed.toInt then decide ((l : Int) ≤ anchorDisp a n) else decide (anchorDisp a n ≤ -(l : Int))

/-- The unwrapped phase of an anchor n cycles after its time. -/
def anchorU (a : Anchor) (n : Int) : Int := a.cyc.toInt * (2 ^ 32 : Nat) + a.p0.toNat + anchorDisp a n

/-- Cycles of a die's count at an absolute cycle since an anchor time (R124). -/
def sinceT0 (s : State) (d : Die) (a : Anchor) (t : Int) : Int :=
  cdiff (countAt s d s.now) a.t0 + (t - s.now)

/-- The carrier group a CARRIER beam follows: its die and number (R123). -/
def bmGroup (s : State) (b : Nat) : Die × Nat :=
  (if (bmInst s b).testBit 7 then .ds else .cs, bmInst s b % 16)

/-- Network time less LATCOMP in half nanoseconds at an absolute cycle (R140). -/
def NetRun.half (n : NetRun) (lat t : Int) : Int := 2 * n.ns t - 5 * lat

/-- The unwrapped phase of a beam on its home die by the direct laws (R140 to R142); a NETTIME beam's has OFFSET added, as R126. -/
def Law.u (l : Law) (t : Int) : Int :=
  match l with
  | .line => 0
  | .net per off lat run => if per = 0 then 0 else run.half lat t * (2 ^ 32 : Nat) / ((2 * per : Nat) : Int) + off
  | .free per start => if per = 0 then 0 else (t - start) * (2 ^ 32 : Nat) / (per : Int)
  | .carrier k bAt per hold =>
    let x := if per = 0 then 0 else (16 * t - bAt) * (2 ^ 32 : Nat) / (per : Int)
    ((k : Int) - 1) * (2 ^ 32 : Nat) + (if hold then min x (2 ^ 32 - 1) else x)

/-- The unwrapped phase at an absolute cycle on a die while an anchor is in force (R124, R140 to R142). -/
def anchorAt (s : State) (d : Die) (a : Anchor) (t : Int) : Int :=
  match a.law with
  | .line => anchorU a (sinceT0 s d a t)
  | l => l.u t

/-- The cycle count then: a NETTIME beam's is floor(T / NTPER), whatever its OFFSET (R130, R140). -/
def anchorCyc (s : State) (d : Die) (a : Anchor) (t : Int) : BitVec 16 :=
  match a.law with
  | .net per _ lat run => BitVec.ofInt 16 (if per = 0 then 0 else run.half lat t / ((2 * per : Nat) : Int))
  | _ => BitVec.ofInt 16 (anchorAt s d a t / (2 ^ 32 : Nat))

/-- Whether a beam is computed directly on this die (R573): a NETTIME beam not while its stale policy holds it. -/
def bmDirect (s : State) (d : Die) (b : Nat) : Bool :=
  bmSrc s b ∈ [2, 3, 4] && bmHome s b == d && !(bmSrc s b == 2 && (nth (s.beams d) b).stale)

/-- The speed of a directly computed beam (R140, R141, R142). -/
def directSpeed (s : State) (b : Nat) : Word :=
  match bmSrc s b with
  | 2 => wi (satS 32 (divHalfAway (256 * 1000000000) (bmPeriod s b)))
  | 3 => wi (satS 32 (divHalfAway (256 * 400000000) (bmPeriod s b)))
  | _ =>
    let (gd, g) := bmGroup s b
    let gr := nth (s.pwm gd).grps g
    if gr.per = 0 then 0 else wi (satS 32 (divHalfAway (256 * 6400000000) gr.per))

/-- The anchor in force at a cycle, as far back as they are kept. -/
def Beam.reign (m : Beam) (t : Int) : Reign :=
  if (m.since : Int) ≤ t then ⟨m.since, m.a, m.stale⟩
  else match m.olds.find? fun r => (r.since : Int) ≤ t with
    | some r => r
    | none => m.olds.getLast?.getD ⟨m.since, m.a, m.stale⟩

/-- The unwrapped phase of a beam on a die at an absolute cycle, with the anchor in force (R124). -/
def beamU (s : State) (d : Die) (b : Nat) (t : Int) : Int := anchorAt s d (nth (s.beams d) b).a t

/-- The same with the anchor that was in force at that cycle. -/
def beamUWas (s : State) (d : Die) (b : Nat) (t : Int) : Int := anchorAt s d ((nth (s.beams d) b).reign t).a t

/-- Phase (R122). -/
def beamPhase (s : State) (d : Die) (b : Nat) (t : Int) : Word := if bmOn s b then wi (beamU s d b t) else 0

/-- Cycle count (R122, R130). -/
def beamCyc (s : State) (d : Die) (b : Nat) (t : Int) : BitVec 16 :=
  if bmOn s b then anchorCyc s d (nth (s.beams d) b).a t else 0

/-- Speed (R122). -/
def beamSpeed (s : State) (d : Die) (b : Nat) : Word := if bmOn s b then (nth (s.beams d) b).a.speed else 0

/-- Whether the phase is held at the edge limit (R129). -/
def beamLimited (s : State) (d : Die) (b : Nat) (t : Int) : Bool :=
  let a := (nth (s.beams d) b).a
  a.law == .line && anchorLimited a (sinceT0 s d a t)

/-- LOCKED: the PLL of a MAINS beam, synchronised network time of a NETTIME beam (R147). -/
def beamLocked (s : State) (b : Nat) : Bool :=
  match bmSrc s b with
  | 1 => s.mains.locked
  | 2 => s.net.sync
  | _ => false

/-- The status half-word on the home die with MIRROR = 0, as the beam slot carries it (R132, R147). -/
def homeStatus (s : State) (b : Nat) (t : Int) : BitVec 16 :=
  let d := bmHome s b
  let m := nth (s.beams d) b
  let stale := m.stale && !(bmSrc s b == 3 || bmSrc s b == 4)
  BitVec.ofNat 16 (atBit stale 15 + atBit m.subst 14 + atBit (beamLimited s d b t) 13 + atBit (beamLocked s b) 12
    + atBit (d == .ds) 11 + bmSrc s b % 16 * 16 + m.upd.toNat)

/-- The status half-word on a die (R122, R146, R147): without a record 0x8000; the far die shows the adopted status
with MIRROR, and STALE while it holds the beam stale (R136). -/
def beamStatus (s : State) (d : Die) (b : Nat) (t : Int) : BitVec 16 :=
  if !bmOn s b then 0x8000
  else if bmHome s b == d then homeStatus s b t
  else
    let m := nth (s.beams d) b
    let st := m.far ||| 0x0400
    if m.stale then st ||| 0x8000 else st

/-- Whether a beam is stale on a die. -/
def beamStale (s : State) (d : Die) (b : Nat) : Bool := (beamStatus s d b s.now).getLsbD 15

/-! ## Crossings -/

/-- A signed 32-bit difference, a step of exactly half a turn counting forward (R130). -/
def sdiff32 (x : Int) : Int :=
  let r := x % (2 ^ 32 : Nat)
  if r ≤ (2 ^ 31 : Nat) then r else r - (2 ^ 32 : Nat)

/-- Whether the step from q0 to q1 crosses the angle A going forward (R154). -/
def crossFwd (q0 q1 : Int) (a : Nat) : Bool :=
  let d := sx 32 ((q1 - q0) % (2 ^ 32 : Nat)).toNat
  let g := ((a : Int) - q0) % (2 ^ 32 : Nat)
  0 < d && 0 < g && g ≤ d

/-- Whether the step sweeps over the angle in either direction (R175). -/
def crossAny (q0 q1 : Int) (a : Nat) : Bool :=
  let d := sx 32 ((q1 - q0) % (2 ^ 32 : Nat)).toNat
  let g := ((a : Int) - q0) % (2 ^ 32 : Nat)
  let h := (q0 - (a : Int)) % (2 ^ 32 : Nat)
  (0 < d && 0 < g && g ≤ d) || (d < 0 && 0 < h && h ≤ -d)

/-- The least cycle in [lo, lo + 2^n) at which a rising phase has reached a target, if it has by the end. -/
def searchUp (u : Int → Int) (target : Int) : Nat → Int → Option Int
  | 0, lo => if target ≤ u lo then some lo else none
  | n + 1, lo =>
    match (if target ≤ u (lo + (2 ^ n : Nat) - 1) then searchUp u target n lo else none) with
    | some t => some t
    | none => searchUp u target n (lo + (2 ^ n : Nat))

/-- The first cycle in [w, w + 2^31) at which a phase, moving one way, crosses A: forward, or backward too where
`both`. -/
def firstCross (u : Int → Int) (a : Nat) (w : Int) (both : Bool) : Option Int :=
  let q0 := u (w - 1)
  let qe := u (w + (2 ^ 31 : Nat))
  let turn : Int := (2 ^ 32 : Nat)
  if q0 < qe then
    let g := ((a : Int) - q0) % turn
    searchUp u (q0 + (if g = 0 then turn else g)) 31 w
  else if both && qe < q0 then
    let g := (q0 - (a : Int)) % turn
    searchUp (fun t => -u t) (-(q0 - (if g = 0 then turn else g))) 31 w
  else none

/-- The first crossing of an angle at or after cycle w over anchors in force one after another, oldest first: in the steps under one
anchor, which `good` must allow, and in the step from one to the next, which `goodStep` must allow (R154, R155). -/
def crossIn (u : Anchor → Int → Int) (a : Nat) (w : Int) (both : Bool) (good : Reign → Bool) (goodStep : Reign → Reign → Bool) :
    List Reign → Option Int
  | [] => none
  | x :: rest =>
    let t := if good x then firstCross (u x.a) a (max w (x.since + 1)) both else none
    match rest with
    | [] => t
    | y :: _ =>
      match t.filter (· < (y.since : Int)) with
      | some t => some t
      | none =>
        if w ≤ y.since && goodStep x y && (if both then crossAny else crossFwd) (u x.a ((y.since : Int) - 1)) (u y.a y.since) a
        then some y.since
        else crossIn u a w both good goodStep rest

/-- The anchors of a beam on a die, oldest first. -/
def Beam.reigns (m : Beam) : List Reign := m.olds.reverse ++ [⟨m.since, m.a, m.stale⟩]

/-- The first crossing of an angle by a beam's phase for cycle t − F, with the anchor in force at t, at or after cycle w (R154,
R155). -/
def crossFrom (s : State) (d : Die) (b : Nat) (a : Nat) (f : Int) (w : Nat) (both : Bool) : Option Nat :=
  (crossIn (fun x t => anchorAt s d x (t - f)) a w both (fun _ => true) (fun _ _ => true) (nth (s.beams d) b).reigns).map Int.toNat

/-- The angle a beam's phase moved in the step into a cycle, in magnitude (R157). -/
def stepSize (s : State) (d : Die) (b : Nat) (t : Nat) : Nat :=
  (sdiff32 (beamUWas s d b t - beamUWas s d b ((t : Int) - 1))).natAbs

end Sys2Proof.Machine
end

