-- ==== Sys2Proof/Machine/Anchor.lean ====
section
/-! DEFINITION. Pages and entries of the Light List (R47, R48, R148, R151), the trigger a lane waits for (R153 to R156),
and the replacement of a beam's anchor with what waits on it. -/

namespace Sys2Proof.Machine

/-! ## Pages (R47, R48, R148) -/

/-- Lanes of a die. -/
def laneCount : Die → Nat
  | .cs => 2
  | .ds => 4

/-- The PAGEDEF of a page. -/
def pageDef (s : State) (d : Die) (l p : Nat) : Option (List Word) :=
  (recsOf s.img.recs sPAGETAB 1).find? fun w =>
    fld (wat w 0) 24 24 == d.bit && fld (wat w 0) 17 16 == l && fld (wat w 0) 3 0 == p

/-- The header of a page that has content (R47). -/
def pageHdr (s : State) (d : Die) (l p : Nat) : Option PageHdr :=
  s.img.pages.find? fun h => h.die == d && h.lane == l && h.page == p

/-- COUNT of a page. -/
def pageCount (s : State) (d : Die) (l p : Nat) : Nat :=
  match pageHdr s d l p with | some h => fld h.w0 31 16 | none => 0

/-- Address of entry k of a page (R34, R148). -/
def entryAddr (s : State) (d : Die) (l p k : Nat) : Nat :=
  llBase d + 16 * (fld (wat ((pageDef s d l p).getD []) 1) 27 16 + k)

/-! ## Entries (R151) -/

/-- The four words of an entry. -/
structure Entry where
  w0 : Word
  w1 : Word
  w2 : Word
  w3 : Word
deriving DecidableEq, Repr, Inhabited

/-- Entry k of a page as the Light List RAM holds it. -/
def entryAt (s : State) (d : Die) (l p k : Nat) : Entry :=
  let a := entryAddr s d l p k
  ⟨memWord s.mem a, memWord s.mem (a + 4), memWord s.mem (a + 8), memWord s.mem (a + 12)⟩

def Entry.angle (e : Entry) : Nat := fld e.w0 31 16
def Entry.fine (e : Entry) : Int := sfld e.w0 15 0
def Entry.delay (e : Entry) : Nat := e.w0.toNat
def Entry.mode (e : Entry) : Nat := fld e.w1 31 30
def Entry.beam (e : Entry) : Nat := fld e.w1 29 27
def Entry.opcode (e : Entry) : Nat := fld e.w1 23 16
def Entry.ord (e : Entry) : Bool := bitOf e.w1 15
def Entry.immb (e : Entry) : Bool := bitOf e.w1 14
def Entry.immc (e : Entry) : Bool := bitOf e.w1 13
def Entry.fn (e : Entry) : Nat := fld e.w1 11 8
def Entry.mod (e : Entry) : Nat := fld e.w1 7 0
def Entry.opb (e : Entry) : Nat := fld e.w2 31 16
def Entry.opa (e : Entry) : Nat := fld e.w2 15 0
def Entry.chk (e : Entry) : Nat := fld e.w3 31 24
def Entry.opc (e : Entry) : Nat := fld e.w3 15 0

/-- Whether CHK is the CRC-8 over bytes 0 to 14 (R152). -/
def Entry.chkOk (e : Entry) : Bool := (crc8 ((bytesOf [e.w0, e.w1, e.w2, e.w3]).take 15)).toNat == e.chk

/-- FINE in cycles, rounded half away from zero (R154). -/
def Entry.fineCycles (e : Entry) : Int := divHalfAway (2 * e.fine) 5

/-- The entry a lane issues next. -/
def nextEntry (s : State) (d : Die) (l : Nat) : Entry :=
  let ln := nth (s.lh d).lanes l
  entryAt s d l ln.page ln.ptr

/-! ## Triggers (R153 to R156) -/

/-- The trigger cycle of the entry a lane waits to issue, where it is known: the crossing already noted, or by mode. A
CHAIN entry whose predecessor is still in flight has none yet. -/
def laneTrigger (s : State) (d : Die) (l : Nat) : Option Nat :=
  let ln := nth (s.lh d).lanes l
  let e := nextEntry s d l
  match e.mode with
  | 0 => match ln.trig with
    | some t => some t
    | none => crossFrom s d e.beam (e.angle * 65536) e.fineCycles ln.watch false
  | 1 => some (ln.passAt + e.delay)
  | 2 => some (ln.predIssue + e.delay)
  | _ => match ln.predSeq with
    | some _ => none
    | none => some (ln.predRetire + e.delay)

/-- SWBEAM and SWANGLE of a lane's active page (R48). -/
def swapPoint (s : State) (d : Die) (l : Nat) : Nat × Nat :=
  match pageHdr s d l (nth (s.lh d).lanes l).page with
  | some h => (fld h.w0 10 8, fld h.w1 15 0 * 65536)
  | none => (0, 0)

/-- The swap cycle of a held request, where a crossing comes (R175). -/
def swapCycle (s : State) (d : Die) (l : Nat) : Option Nat :=
  match (nth (s.lh d).lanes l).held with
  | none => none
  | some r => match r.trig with
    | some t => some t
    | none =>
      let (b, a) := swapPoint s d l
      crossFrom s d b a 0 (r.at_ + 1) true

/-! ## Carrier groups that follow a beam (R244) -/

/-- The CGROUP record of a group (R266). -/
def grpRec (s : State) (d : Die) (g : Nat) : Option (List Word) :=
  recBy (recsIn s d) sPOWER 1 24 16 (d.bit * 256 + g)

def grpW (s : State) (d : Die) (g i : Nat) : Word := wat ((grpRec s d g).getD []) i

/-- PSRC: 0 FIXED, 1 SHADOW, 2 BEAM, 3 DITHER. -/
def grpPsrc (s : State) (d : Die) (g : Nat) : Nat := fld (grpW s d g 0) 5 4

/-- The least of two optional cycles. -/
def minOpt : Option Nat → Option Nat → Option Nat
  | some a, some b => some (min a b)
  | some a, none => some a
  | none, o => o

/-- Whether a carrier group can follow its beam under an anchor: not stale, the speed positive (R244). -/
def Reign.leads (r : Reign) : Bool := !r.stale && decide (0 < r.a.speed.toInt)

/-- The next forward crossing of any lock angle A_k at or after the group's watch cycle that is a boundary: while unlocked one under
an anchor the group can follow, while locked one up to the cycle in which it no longer can (R244, R255). -/
def grpCross (s : State) (d : Die) (g : Nat) : Option Nat :=
  let gr := nth (s.pwm d).grps g
  match gr.xAt with
  | some t => some t
  | none =>
    let w4 := grpW s d g 4
    let n := fld w4 31 24
    let m := nth (s.beams d) (fld w4 18 16)
    let step (x y : Reign) : Bool := if gr.unlock then y.leads else x.leads
    (List.range n).foldl (fun acc k =>
      minOpt acc ((crossIn (fun x t => anchorAt s d x t) ((fld w4 15 0 * 65536 + k * 2 ^ 32 / n) % 2 ^ 32) gr.xWatch false
        Reign.leads step m.reigns).map Int.toNat)) none

/-! ## Replacing an anchor -/

/-- The crossing a lane waits for is noted, if it came before now; else the lane goes on watching from now. -/
def noteLane (s : State) (d : Die) (b l : Nat) (ln : Lane) : Lane :=
  let e := nextEntry s d l
  let ln1 :=
    if ln.run && e.mode = 0 && e.beam = b && ln.trig = none then
      match crossFrom s d b (e.angle * 65536) e.fineCycles ln.watch false with
      | some t => if t < s.now then { ln with trig := some t } else { ln with watch := max ln.watch s.now }
      | none => { ln with watch := max ln.watch s.now }
    else ln
  match ln1.held with
  | some r =>
    let (sb, a) := swapPoint s d l
    if sb = b && r.trig = none then
      match crossFrom s d b a 0 (r.at_ + 1) true with
      | some t => if t < s.now then { ln1 with held := some { r with trig := some t } }
          else { ln1 with held := some { r with at_ := max r.at_ (s.now - 1) } }
      | none => { ln1 with held := some { r with at_ := max r.at_ (s.now - 1) } }
    else ln1
  | none => ln1

/-- The same for a carrier group that follows the beam. -/
def noteGrp (s : State) (d : Die) (b g : Nat) (gr : Grp) : Grp :=
  if grpPsrc s d g = 2 && fld (grpW s d g 4) 18 16 = b && gr.xAt = none && (grpRec s d g).isSome then
    match grpCross s d g with
    | some t => if t < s.now then { gr with xAt := some t } else { gr with xWatch := max gr.xWatch s.now }
    | none => { gr with xWatch := max gr.xWatch s.now }
  else gr

/-- What waits on a beam notes the crossings that came before now. -/
def noteBeam (s : State) (d : Die) (b : Nat) : State :=
  let lh := s.lh d
  let s1 := s.setLh d { lh with lanes := lh.lanes.mapIdx fun l ln => noteLane s d b l ln }
  s1.setPwm d { s.pwm d with grps := (s.pwm d).grps.mapIdx fun g gr => noteGrp s d b g gr }

/-- The earliest cycle from which a lane may still look for a crossing: that of a trigger or a swap that is past and has not yet
been taken, of a drain or a merge copy that ends; otherwise now (R155, R157, R178). -/
def laneNeed (s : State) (d : Die) (l : Nat) : Nat :=
  let ln := nth (s.lh d).lanes l
  if !ln.run then s.now
  else
    let a := (laneTrigger s d l).getD s.now
    let b := (swapCycle s d l).getD s.now
    min (min s.now (min a b)) (if ln.drain then ln.drainAt else if ln.merging then ln.mergeAt else s.now)

/-- The same for a carrier group that follows a beam (R244). -/
def grpNeed (s : State) (d : Die) (g : Nat) : Nat :=
  if grpPsrc s d g = 2 && (grpRec s d g).isSome then min s.now ((grpCross s d g).getD s.now) else s.now

/-- The earliest cycle whose phase a die may still need. -/
def phaseNeed (s : State) (d : Die) : Nat :=
  let l := (List.range (laneCount d)).foldl (fun t l => min t (laneNeed s d l)) (s.now - 1)
  (List.range (s.pwm d).grps.length).foldl (fun t g => min t (grpNeed s d g)) l

/-- The anchors still needed from a cycle on: those in force since then, and the one before them. -/
def keptReigns (olds : List Reign) (t : Nat) : List Reign :=
  olds.takeWhile (fun r => t ≤ r.since) ++ (olds.dropWhile fun r => t ≤ r.since).take 1

/-- An anchor takes the place of the one in force, in the cycle now; of several in one cycle the last stands (R137). -/
def setAnchor (s : State) (d : Die) (b : Nat) (a : Anchor) : State :=
  let s := noteBeam s d b
  let need := phaseNeed s d
  s.modBeam d b fun m =>
    { m with a := a, since := s.now
             olds := if m.since = s.now then m.olds else keptReigns (⟨m.since, m.a, m.stale⟩ :: m.olds) need }

/-- The anchor in force goes on in a new reign, so that a change of STALE now does not touch what was before. -/
def reignOn (s : State) (d : Die) (b : Nat) : State := setAnchor s d b (nth (s.beams d) b).a

end Sys2Proof.Machine
end

