-- ==== Sys2Proof/Machine/PwmCore.lean ====
section
/-! DEFINITION. The PWM channels from reference to gate command (R238 to R242, R256 to R264, R574): configuration,
outputs at an instant, pulse rules, overrides. Times are in 1/16 Lighthouse cycle (156.25 ps). -/

namespace Sys2Proof.Machine

/-! ## Shadows and COMMIT (R247 to R250) -/

/-- A write to a shadow that retires in a cycle: it sets the written flag (R248). -/
def Shadow.write (x : Shadow) (t : Nat) (v : Word) : Shadow :=
  if x.at_ = t then { x with val := v, wr := true, wrAt := if x.wr then x.wrAt else t }
  else { val := v, wr := true, wrAt := if x.wr then x.wrAt else t, at_ := t, p1 := x.val, at1 := x.at_, p2 := x.p1 }

/-- The shadow as it stood at the end of a cycle (R250). -/
def Shadow.asOf (x : Shadow) (c : Nat) : Word := if x.at_ ≤ c then x.val else if x.at1 ≤ c then x.p1 else x.p2

/-- The written flag as it stood at the end of a cycle. -/
def Shadow.wrAsOf (x : Shadow) (c : Nat) : Bool := x.wr && x.wrAt ≤ c

/-- A transfer consumes the flag; a write later than the cut-off is kept for the next update point. -/
def Shadow.take (x : Shadow) (c : Nat) : Shadow := { x with wr := x.wr && c < x.at_, wrAt := x.at_ }

/-- A COMMIT that retires in a cycle (R249). -/
def Chan.setCommit (x : Chan) (t : Nat) : Chan :=
  { x with commit := true, commitAt := if x.commit then x.commitAt else t, commitLast := t }

/-- COMMIT pending as it stood at the end of a cycle. -/
def Chan.commitAsOf (x : Chan) (c : Nat) : Bool := x.commit && x.commitAt ≤ c

/-- A transfer consumes the COMMIT. -/
def Chan.takeCommit (x : Chan) (c : Nat) : Chan := { x with commit := x.commit && c < x.commitLast, commitAt := x.commitLast }

/-! ## Configuration (R266, R267) -/

/-- The CHAN record of a channel. -/
def chanRec (s : State) (d : Die) (c : Nat) : Option (List Word) :=
  recBy (recsIn s d) sPOWER 2 24 16 (d.bit * 256 + c)

def chanW (s : State) (d : Die) (c i : Nat) : Word := wat ((chanRec s d c).getD []) i

/-- The carrier group of a channel. -/
def chanGrp (s : State) (d : Die) (c : Nat) : Nat := fld (chanW s d c 0) 11 8
/-- UPD: 1 BOUNDARY, 2 MID, 3 BOTH. -/
def chanUpd (s : State) (d : Die) (c : Nat) : Nat := fld (chanW s d c 0) 5 4
/-- OMODE: 0 COMPL, 1 INDEP, 2 HIGHONLY. -/
def chanOmode (s : State) (d : Die) (c : Nat) : Nat := fld (chanW s d c 0) 3 2
/-- MPRULE: 0 DROP, 1 STRETCH, 2 CARRY. -/
def chanRule (s : State) (d : Die) (c : Nat) : Nat := fld (chanW s d c 0) 1 0

/-- Channels of a die. -/
def chanCount : Die → Nat
  | .cs => 16
  | .ds => 48

/-- Carrier groups of a die. -/
def grpCount : Die → Nat
  | .cs => 8
  | .ds => 16

/-- The members of a group in ascending order (R239). -/
def members (s : State) (d : Die) (g : Nat) : List Nat :=
  (List.range (chanCount d)).filter fun c => (chanRec s d c).isSome && chanGrp s d c == g

/-- The member number of a channel in its group. -/
def memberNo (s : State) (d : Die) (c : Nat) : Nat := (members s d (chanGrp s d c)).idxOf c

/-- SHAPE: 0 UP, 1 DOWN, 2 UPDOWN. -/
def grpShape (s : State) (d : Die) (g : Nat) : Nat := fld (grpW s d g 0) 9 8

/-- How a channel's reference becomes gate commands: its mode, rule, carrier shape and the unit its edges lie on (R238). -/
structure ChanMode where
  omode : Nat
  rule  : Nat
  shape : Nat
  unit  : Nat

/-- Edge resolution of a die in 1/16 cycle (R238). -/
def edgeUnit : Die → Nat
  | .cs => 16
  | .ds => 1

def chanMode (s : State) (d : Die) (c : Nat) : ChanMode :=
  ⟨chanOmode s d c, chanRule s d c, grpShape s d (chanGrp s d c), edgeUnit d⟩

/-- The turn-on delays of a mode: DTR and DTF in COMPL, none otherwise (R256). -/
def Chan.dtH (c : Chan) (m : ChanMode) : Nat := if m.omode = 0 then c.dtr else 0
def Chan.dtL (c : Chan) (m : ChanMode) : Nat := if m.omode = 0 then c.dtf else 0

/-! ## Outputs at an instant -/

/-- Whether the chain of R257 asks for no output: no pair in force, a wait, FLOAT. -/
def Chan.idle (c : Chan) : Bool := !c.active || c.intOff || c.relWait || c.fresh || c.flt

/-- The high side at an instant, by the override or by the levels in force (R259, R263). -/
def Chan.hiAt (c : Chan) (t : Nat) : Bool :=
  if c.ovr = 0 then !c.idle && c.shA.lvl && c.hMin ≤ t else c.ovr == 3 && c.oMin ≤ t

/-- The low side. -/
def Chan.loAt (c : Chan) (m : ChanMode) (t : Nat) : Bool :=
  if c.ovr = 0 then
    !c.idle && (match m.omode with | 0 => !c.shA.lvl | 1 => c.shB.lvl | _ => false) && c.lMin ≤ t
  else c.ovr == 2 && c.oMin ≤ t

/-- When the output that is on turned on: by its dead time, or by the override's wait. -/
def Chan.hOn (c : Chan) : Nat := if c.ovr = 0 then c.hMin else c.oMin
def Chan.lOn (c : Chan) : Nat := if c.ovr = 0 then c.lMin else c.oMin

/-- The time an output has been on is added to the period's sum; the moments it was last on are kept. -/
def Chan.mark (c : Chan) (m : ChanMode) (t : Nat) : Chan :=
  let hi := c.hiAt t
  let lo := c.loAt m t
  { c with
    onAcc := if hi then c.onAcc + (t - max c.accFrom c.hOn) else c.onAcc
    accFrom := max c.accFrom t
    hLast := if hi then t else c.hLast
    lLast := if lo then t else c.lLast
    hOnAt := if hi then c.hOn else c.hOnAt
    lOnAt := if lo then c.lOn else c.lOnAt }

/-- A reference after an edge: what it owes and expects is the edge's. -/
def Shp.past (x : Shp) (e : SEdge) : Shp :=
  { x with raw := e.raw, lvl := if e.emit then e.raw else x.lvl, start := if e.emit then e.t else x.start
           grow := e.grow, skipEnd := e.skip, due := e.due }

/-- An edge of S or S_A takes effect: the other side off at once, its own side on after the dead time (R259). -/
def Chan.edgeA (c : Chan) (m : ChanMode) (e : SEdge) : Chan :=
  let c := c.mark m e.t
  let c := { c with shA := c.shA.past e }
  if e.emit then
    if e.raw then { c with hMin := e.t + c.dtH m }
    else if m.omode = 0 then { c with lMin := e.t + c.dtL m } else c
  else c

/-- An edge of S_B takes effect. -/
def Chan.edgeB (c : Chan) (m : ChanMode) (e : SEdge) : Chan :=
  let c := c.mark m e.t
  { c with shB := c.shB.past e, lMin := if e.emit && e.raw then e.t else c.lMin }

/-- Every edge placed up to an instant takes effect. -/
def Chan.settle (c : Chan) (m : ChanMode) (t : Nat) : Chan :=
  let c1 := (c.shA.edges.filter (·.t ≤ t)).foldl (fun c e => c.edgeA m e) c
  let c2 := (c.shB.edges.filter (·.t ≤ t)).foldl (fun c e => c.edgeB m e) c1
  { c2 with shA := { c2.shA with edges := c2.shA.edges.filter fun e => t < e.t }
            shB := { c2.shB with edges := c2.shB.edges.filter fun e => t < e.t } }

/-- When the high side last turned on, up to an instant. -/
def Chan.lastOnH (c : Chan) (t : Nat) : Nat := if c.hiAt t then c.hOn else c.hOnAt

/-- When the low side last turned on. -/
def Chan.lastOnL (c : Chan) (m : ChanMode) (t : Nat) : Nat := if c.loAt m t then c.lOn else c.lOnAt

/-- Now in 1/16 cycle. -/
def now16 (s : State) : Nat := 16 * s.now

/-- A channel with the edges up to now taken. -/
def chanNow (s : State) (d : Die) (c : Nat) : Chan := (nth (s.pwm d).chans c).settle (chanMode s d c) (now16 s)

/-! ## Pulse rules (R260, R261, R574) -/

/-- CEVT bits (R270). -/
def evDROPPED : Nat := 16
def evSTRETCHED : Nat := 17
def evCARRIED : Nat := 18
def evCARRYSAT : Nat := 19
def evLATEEXT : Nat := 20

/-- The dead time of a pulse of a level, or none where intervals of that level are no pulses (R260). -/
def Chan.pulseDt (c : Chan) (m : ChanMode) (lvl : Bool) : Option Nat :=
  if m.omode = 0 then some (if lvl then c.dtr else c.dtf) else if lvl then some 0 else none

/-- What judging a pulse decides: emitted or not, its growth at the leading and at the trailing edge. -/
structure Judged where
  emit  : Bool
  lead  : Int
  trail : Int

/-- How a pulse grows by its carrier's shape: UP at the trailing edge, DOWN at the leading edge, UPDOWN on both sides
(R260); a pulse an H edge starts only at its trailing edge. At a leading edge no more than there is room for. A pulse that a
debt shortens does so at the same edges (R261). -/
def growBy (m : ChanMode) (atH : Bool) (g room : Int) : Judged :=
  let want := if atH || m.shape = 0 then 0 else if m.shape = 1 then g else g / (2 * m.unit : Nat) * (m.unit : Int)
  let lead := min want room
  ⟨true, lead, g - lead⟩

/-- Accumulator and debt of an output (R260, R261). -/
def Chan.accOf (c : Chan) (low : Bool) : Nat := if low then c.carryL else c.carryH
def Chan.debtOf (c : Chan) (low : Bool) : Nat := if low then c.debtL else c.debtH

/-- Both set; they stay clear under FLOAT (R289). -/
def Chan.setAcc (c : Chan) (low : Bool) (acc debt : Nat) : Chan :=
  if c.flt then c else if low then { c with carryL := acc, debtL := debt } else { c with carryH := acc, debtH := debt }

/-- Both accumulators and debts cleared (R260, R289). -/
def Chan.clearAcc (c : Chan) : Chan := { c with carryH := 0, carryL := 0, debtH := 0, debtL := 0 }

/-- A pulse of time T judged by the channel's rule (R260); `sideB` for S_B, whose accumulator is the low side's. Under CARRY the
debt of a late extension is taken from its time (R261). -/
def judge (c : Chan) (m : ChanMode) (lvl sideB atH : Bool) (width room : Nat) : Chan × Judged :=
  match c.pulseDt m lvl with
  | none => (c, ⟨decide (0 < width), 0, 0⟩)
  | some dt =>
    let low := sideB || !lvl
    let t1 := if m.rule = 2 then width + c.accOf low - c.debtOf low else width
    let short := t1 < c.minp + dt || t1 ≤ dt
    let sat (c : Chan) (v : Nat) : Chan := if c.cper < v then { c with evt := orBit c.evt evCARRYSAT } else c
    if m.rule = 2 then
      if short then
        (sat ({ c with evt := orBit c.evt evCARRIED }.setAcc low (min t1 c.cper) 0) t1, ⟨false, 0, 0⟩)
      else
        let out := min t1 c.cper
        let rest := t1 - out
        (sat (c.setAcc low (min rest c.cper) 0) rest, growBy m atH ((out : Int) - width) room)
    else if short then
      if m.rule = 1 then
        ({ c with evt := orBit c.evt evSTRETCHED }, growBy m atH ((c.minp + dt : Nat) - (width : Int)) room)
      else ({ c with evt := orBit c.evt evDROPPED }, ⟨false, 0, 0⟩)
    else (c, ⟨true, 0, 0⟩)

/-- Scheduling of one reference: the channel with its events and accumulators, and the signal as it stands after the last edge
placed. -/
structure Sched where
  c    : Chan
  sh   : Shp
  out  : List SEdge

/-- What scheduling goes by: side B or not, at an H edge or not, the moment of judgement, and whether the ends of pulses that
were judged before may have moved (a transfer, an H edge). -/
structure Plan where
  sideB : Bool
  atH   : Bool
  now   : Nat
  moved : Bool

/-- Accumulators and debts of the outputs a reference drives, as they are. -/
def Chan.accs (c : Chan) (m : ChanMode) (sideB : Bool) : List (Bool × Nat × Nat) :=
  (if m.omode = 0 then [false, true] else [sideB]).map fun low => (low, c.accOf low, c.debtOf low)

/-- The extension of a pulse, owed by the same output's next pulse under CARRY (R261). -/
def Chan.addDebt (c : Chan) (m : ChanMode) (low : Bool) (n : Nat) : Chan :=
  if m.rule = 2 then c.setAcc low (c.accOf low) (c.debtOf low + n) else c

/-- The end of the running level where the raw reference leaves it at t, and how far a late change extends it: with the growth its
pulse owes, unless the end has moved, and a pulse that has started not before MINP after its start (R261, R574). -/
def runEnd (m : ChanMode) (p : Plan) (x : Sched) (t : Nat) : Nat × Nat :=
  let te := if p.moved && t != x.sh.due then t else ((t : Int) + x.sh.grow).toNat
  match x.c.pulseDt m x.sh.lvl with
  | none => (max te x.sh.start, 0)
  | some dt =>
    let least := x.sh.start + dt + x.c.minp
    if x.sh.start != 0 && te < least then (least, least - te) else (te, 0)

/-- The raw reference changes to a level at t and keeps it for `width`; the running level ends at `tEnd`, extended by `late`. The
pulse that begins is judged (R260, R574); one that is removed, or that is over before the running level ends, is not emitted.
Growth at the leading edge reaches no further than the moment of judgement and the start of the running level, and does not cut
a pulse that itself ends later than the reference has it. -/
def beginPulse (m : ChanMode) (p : Plan) (x : Sched) (t tEnd late : Nat) (lvl : Bool) (width : Nat) : Sched :=
  let old := p.sideB || !x.sh.lvl
  let c := if late = 0 then x.c else { x.c with evt := orBit x.c.evt evLATEEXT }.addDebt m old late
  let (c, j) := judge c m lvl p.sideB p.atH (width - (tEnd - t)) (if t < tEnd then 0 else tEnd - max p.now x.sh.start)
  let undo := x.c.accs m p.sideB
  let e : SEdge :=
    if j.emit then ⟨max ((tEnd : Int) - j.lead).toNat p.now, t, lvl, true, j.trail, 0, t + width, late, undo⟩
    else ⟨t, t, lvl, false, 0, t + width, 0, 0, undo⟩
  { c := c, sh := x.sh.past e
    out := (if j.emit then x.out.map fun o => { o with t := min o.t e.t } else x.out) ++ [e] }

/-- A raw edge at t to a level, the raw signal keeping that level for `width` afterwards. -/
def schedEdge (m : ChanMode) (p : Plan) (x : Sched) (t : Nat) (lvl : Bool) (width : Nat) : Sched :=
  if x.sh.raw = lvl then x
  else if x.sh.lvl = lvl then
    let e : SEdge := { t := t, rt := t, raw := lvl, emit := false }
    { x with sh := x.sh.past e, out := x.out ++ [e] }
  else
    let (tEnd, late) := runEnd m p x t
    beginPulse m p x t tEnd late lvl width

/-- The interval over which S is high within a channel's own period (R241, R258): start and end after TRIM. -/
def highSpan (shape per duty : Nat) (trim : Int) : Nat × Nat :=
  let dd := min duty per
  if dd = 0 then (0, 0) else if dd = per then (0, per) else
    let (a, b) := match shape with
      | 0 => (0, dd)
      | 1 => (per - dd, per)
      | _ => ((per - dd) / 2, (per + dd) / 2)
    let sh (x : Nat) : Nat := (clampI 0 per ((x : Int) + trim)).toNat
    (sh a, sh b)

/-- The raw level of S at an instant of the channel's period, and how long it keeps the level after an edge there, by
the pair in force for the half. -/
def rawAt (c0 : Nat) (span : Nat × Nat) (t : Nat) : Bool := c0 + span.1 ≤ t && t < c0 + span.2

/-- The raw edges of the pattern between two instants, with the widths that follow them. -/
def rawEdges (c0 per : Nat) (span : Nat × Nat) (lo hi : Nat) (inv : Bool) : List (Nat × Bool × Nat) :=
  if span.1 = span.2 then [] else
    let a := c0 + span.1
    let b := c0 + span.2
    (if lo < a && a < hi then [(a, !inv, span.2 - span.1)] else [])
      ++ (if lo < b && b < hi then [(b, inv, per - (span.2 - span.1))] else [])

/-- How long the raw level at an instant lasts by the pattern: to the next edge of this period or the next. -/
def rawWidth (c0 per : Nat) (span : Nat × Nat) (t : Nat) : Nat :=
  if span.1 = span.2 then per
  else if t < c0 + span.1 then c0 + span.1 - t
  else if t < c0 + span.2 then c0 + span.2 - t
  else c0 + per + span.1 - t

/-- An edge ahead that is not placed after all: the judgement of its pulse is taken back (R574). -/
def Chan.takeBack (c : Chan) (e : SEdge) : Chan := e.undo.foldl (fun c u => c.setAcc u.1 u.2.1 u.2.2) c

/-- The end of a started pulse that lies past its raw end and past an instant: it takes precedence over the next half (R574). -/
def Shp.keptEnd (x : Shp) (t : Nat) : Option SEdge := x.edges.find? fun e => e.emit && e.rt < t

/-- One reference scheduled for a half, or for the rest of one from an H edge on (`atH`), whose pulse runs to the next edge of the
pattern or to the end of the half: the edges not yet placed go, but for the end of a started pulse past its raw end, from which
the half's edges take effect; a level that differs from the pattern's at the start changes there, unless a removed pulse lasts
(R242, R253, R574). The answer is the signal as it was, with the edges ahead. -/
def schedHalf (c : Chan) (m : ChanMode) (sh : Shp) (p : Plan) (h : Half) (hEnd : Nat) (span : Nat × Nat) (inv : Bool) :
    Chan × Shp :=
  let lvl := rawAt h.c0 span h.t != inv
  let width := if p.atH then (match rawEdges h.c0 h.per span h.t hEnd inv with | e :: _ => e.1 | [] => max hEnd h.t) - h.t
    else rawWidth h.c0 h.per span h.t
  let x0 : Sched := { c := sh.edges.reverse.foldl Chan.takeBack c, sh := { sh with edges := [] }, out := [] }
  let x0 := if sh.raw != sh.lvl && sh.skipEnd ≤ h.t then schedEdge m p x0 h.t sh.lvl 0 else x0
  let x1 := match sh.keptEnd h.t with
    | some e => if lvl = sh.lvl then x0 else beginPulse m p x0 (h.t - 1) e.t e.late lvl (width + 1)
    | none => schedEdge m p x0 h.t lvl width
  let x2 := (rawEdges h.c0 h.per span h.t hEnd inv).foldl (fun x e => schedEdge m p x e.1 e.2.1 e.2.2) x1
  (x2.c, { sh with edges := x2.out })

/-! ## Overrides (R263, R264) -/

/-- A channel's references and accumulators cleared, its outputs as they are at an instant remembered. -/
def Chan.clear (c : Chan) (m : ChanMode) (t : Nat) : Chan :=
  { ((c.settle m t).mark m t).clearAcc with shA := {}, shB := {} }

/-- The side an override asks for: it stays on where it is on and the other side has been off for its dead time; otherwise it
turns on at the later of now and then (R263). -/
def overrideOn (on : Bool) (onAt t wait : Nat) : Nat := if on && wait ≤ t then onAt else max t wait

/-- The override input changes (R263, R264). The chain runs on below it; its accumulators are cleared at the onset, and at the
release the references with them. DTR and DTF here are the values in use, in every output mode. -/
def Chan.setOvr (c : Chan) (m : ChanMode) (t v : Nat) : Chan :=
  if c.ovr = v then c
  else if v = 0 then { c.clear m t with ovr := 0, relWait := true }
  else
    let c := (c.settle m t).mark m t
    let c := if c.ovr = 0 then c.clearAcc else c
    let o := match v with
      | 2 => overrideOn (c.loAt m t) c.lOn t (c.hLast + c.dtf)
      | 3 => overrideOn (c.hiAt t) c.hOn t (c.lLast + c.dtr)
      | _ => c.oMin
    { c with ovr := v, ovrAt := t, oMin := o, relWait := false }

/-- The override of a channel set (R263). -/
def setOvr (s : State) (d : Die) (c v : Nat) : State :=
  s.modChan d c fun x => x.setOvr (chanMode s d c) (now16 s) v

/-- FLOAT of a leg channel (R289): both outputs off at once and the accumulators cleared; on release the side the
reference asks for turns on DTR or DTF after the release. -/
def Chan.setFloat (c : Chan) (m : ChanMode) (t : Nat) (v : Bool) : Chan :=
  if c.flt = v then c
  else
    let c := (c.settle m t).mark m t
    let c := { c.clearAcc with flt := v }
    if v then c else { c with hMin := max c.hMin (t + c.dtr), lMin := max c.lMin (t + c.dtf) }

/-- The reference is held low from an instant on (R293, R388, R439): the high side turns off at once, whatever the pulse
rules have placed. -/
def Chan.holdLow (c : Chan) (m : ChanMode) (t : Nat) : Chan :=
  let c := c.settle m t
  let c := c.shA.edges.reverse.foldl Chan.takeBack c
  let c := if c.shA.raw || c.shA.lvl then c.edgeA m { t := t, rt := t, raw := false, emit := true } else c
  { c with shA := { c.shA with edges := [], skipEnd := 0, grow := 0 } }

/-- A channel's reference held low until its next half-period (R388), or until its group's next boundary where `hold`
(R293, R439). -/
def holdLow (s : State) (d : Die) (c : Nat) (hold : Bool) : State :=
  s.modChan d c fun x =>
    let y := x.holdLow (chanMode s d c) (now16 s)
    { y with limHold := y.limHold || hold }

/-! ## Legs, phases and machines (R46, R273) -/

/-- The LEG record of a DS channel. -/
def legRec (s : State) (c : Nat) : Option (List Word) := recBy (recsIn s .ds) sPOWER 0x10 5 0 c

def isLeg (s : State) (c : Nat) : Bool := (legRec s c).isSome
def legPhase (s : State) (c : Nat) : Nat := fld (wat ((legRec s c).getD []) 1) 3 0
def legPos (s : State) (c : Nat) : Nat := fld (wat ((legRec s c).getD []) 1) 9 8

/-- The machine of a phase, and the legs it has. -/
def phaseMach (s : State) (p : Nat) : Nat := fld (wat (recW (recsIn s .ds) sPOWER 0x11 3 0 p) 0) 8 8
def phaseLegs (s : State) (p : Nat) : Nat := fld (wat (recW (recsIn s .ds) sPOWER 0x11 3 0 p) 1) 2 0
def legMach (s : State) (c : Nat) : Nat := phaseMach s (legPhase s c)

/-- The MACHINE record. -/
def machRec (s : State) (m : Nat) : Option (List Word) := recBy (recsIn s .ds) sPOWER 0x12 0 0 m
def machOn (s : State) (m : Nat) : Bool := (machRec s m).isSome
def machPhases (s : State) (m : Nat) : Nat := fld (wat ((machRec s m).getD []) 1) 2 0
def machBeam (s : State) (m : Nat) : Nat := fld (wat ((machRec s m).getD []) 1) 10 8

/-- A WFMACH word (R274). -/
def wfW (s : State) (m i : Nat) : Word := wat (recW (recsIn s .ds) sPOWER 0x13 0 0 m) i

/-- The machine's lowest phase; set and position of a phase (R273). -/
def machFirst (s : State) (m : Nat) : Nat :=
  ((List.range 6).find? fun p => (recBy (recsIn s .ds) sPOWER 0x11 3 0 p).isSome && phaseMach s p == m).getD 0
def phaseSet (s : State) (p : Nat) : Nat := (p - machFirst s (phaseMach s p)) / 3
def phaseIdx (s : State) (p : Nat) : Nat := (p - machFirst s (phaseMach s p)) % 3

/-- The leg channels of a machine, of one of its sets, and of a phase. -/
def machLegs (s : State) (m : Nat) : List Nat :=
  (List.range 48).filter fun c => isLeg s c && legMach s c == m
def setLegs (s : State) (m st : Nat) : List Nat := (machLegs s m).filter fun c => phaseSet s (legPhase s c) == st
def phaseLegsOf (s : State) (p : Nat) : List Nat := (List.range 48).filter fun c => isLeg s c && legPhase s c == p

end Sys2Proof.Machine
end

