-- ==== Sys2Proof/Machine/BuoyCore.lean ====
section
/-! DEFINITION. Buoy records and outputs (R66 to R77, R82), and exact values as mantissa and exponent (R69, R161). -/

namespace Sys2Proof.Machine

/-! ## Values (R69, R161) -/

/-- An exact rational as a mantissa at an exponent, rounded half away from zero. -/
def mantOf (q : Rat) (e : Int) : Int := rndAway (q / pow2 e)

/-- An integer mantissa moved from one exponent to another, rounded half away from zero. -/
def rescale (m : Int) (from_ to_ : Int) : Int :=
  if to_ ≤ from_ then m * (2 ^ (from_ - to_).natAbs : Nat) else shrHalfAway m (to_ - from_).natAbs

/-- A value of the machine: mantissa × 2^exponent. -/
structure Val where
  m : Int
  e : Int
deriving DecidableEq, Repr

/-- The number a value stands for. -/
def Val.rat (v : Val) : Rat := (v.m : Rat) * pow2 v.e

/-- A quotient; where the divisor is zero, the free value of its rule. -/
def quo (rule : Nat) (a b : Rat) : Rat := if b = 0 then Config.divZero rule a else a / b

/-! ## Records (R82) -/

/-- The BUOYDEF of a buoy. -/
def byDef (s : State) (n : Nat) : Option (List Word) :=
  recBy (if s.csLoaded || s.dsLoaded then s.img.recs else []) sBUOY 1 8 0 n

def byW (s : State) (n i : Nat) : Word := wat ((byDef s n).getD []) i
def byOn (s : State) (n : Nat) : Bool := (byDef s n).isSome
def bySrc (s : State) (n : Nat) : Nat := fld (byW s n 0) 31 24
def byInst (s : State) (n : Nat) : Nat := fld (byW s n 0) 23 16
def byScale (s : State) (n : Nat) : Int := sfld (byW s n 1) 31 24
def byFilt (s : State) (n : Nat) : Nat := fld (byW s n 1) 23 22
def byFparam (s : State) (n : Nat) : Nat := fld (byW s n 1) 19 16
def byPolicy (s : State) (n : Nat) : Nat := fld (byW s n 1) 15 14
def byMirror (s : State) (n : Nat) : Bool := bitOf (byW s n 1) 13
def byHome (s : State) (n : Nat) : Die := if bitOf (byW s n 1) 12 then .ds else .cs
def byAlt (s : State) (n : Nat) : Nat := fld (byW s n 1) 8 0
def byMin (s : State) (n : Nat) : Int := (byW s n 2).toInt
def byMax (s : State) (n : Nat) : Int := (byW s n 3).toInt
def byRate (s : State) (n : Nat) : Nat := (byW s n 4).toNat
def byTmo (s : State) (n : Nat) : Nat := fld (byW s n 5) 15 8
def byWn (s : State) (n : Nat) : Nat := fld (byW s n 5) 7 0
def byWms (s : State) (n : Nat) : Nat := fld (byW s n 6) 15 0
def byValue (s : State) (n : Nat) : Word := byW s n 7

/-- The update period P in Lighthouse cycles (R82). -/
def byPeriod (s : State) (n : Nat) : Nat := fld (byW s n 5) 27 16 * 10 ^ (fld (byW s n 5) 29 28) * usec

/-! ## Outputs (R73 to R75) -/

/-- The output of a buoy that is not under ALT, at a cycle. -/
def outAtCycle (s : State) (n t : Nat) : Word :=
  let b := nth s.buoys n
  if !byOn s n || b.state = 3 then 0
  else if b.state = 0 then (if byPolicy s n = 3 && t < b.fvUntil then byValue s n else b.out)
  else match byPolicy s n with
    | 0 => if b.admitted then b.out else byValue s n
    | 2 => b.out
    | _ => byValue s n

/-- The output of a buoy that is not under ALT. -/
def plainOut (s : State) (n : Nat) : Word := outAtCycle s n s.now

/-- A substitute's output at the SCALE of the buoy it serves (R75). -/
def altScaled (s : State) (n : Nat) (o : Word) : Word := wi (satS 32 (rescale o.toInt (byScale s (byAlt s n)) (byScale s n)))

/-- The output with the policy applied: under ALT the substitute's, at this buoy's SCALE (R75). -/
def curOut (s : State) (n : Nat) : Word :=
  let b := nth s.buoys n
  if (b.state = 1 || b.state = 2) && byPolicy s n = 2 then altScaled s n (plainOut s (byAlt s n)) else plainOut s n

/-- Whether ALT is in force (R75). -/
def underAlt (s : State) (n : Nat) : Bool :=
  let b := nth s.buoys n
  byOn s n && (b.state == 1 || b.state == 2) && byPolicy s n == 2

/-- The output as committed at the end of the previous cycle (R76). -/
def committed (s : State) (n : Nat) : Word :=
  let b := nth s.buoys n
  if b.outAt = s.now && s.now ≠ 0 then b.prevOut
  else if underAlt s n then
    let a := nth s.buoys (byAlt s n)
    altScaled s n (if a.outAt = s.now && s.now ≠ 0 then a.prevOut else outAtCycle s (byAlt s n) (s.now - 1))
  else outAtCycle s n (s.now - 1)

/-- A buoy as a consumer on a die reads it: the home output, or the mirrored copy (R77). -/
def buoyRead (s : State) (d : Die) (n : Nat) : Val :=
  if byHome s n == d then ⟨(committed s n).toInt, byScale s n⟩
  else
    let b := nth s.buoys n
    if n < 256 && byMirror s n then ⟨b.mval.toInt, sx 8 b.mscale.toNat⟩ else ⟨0, 0⟩

/-- The output of a buoy now, as its own die sees it. -/
def buoyVal (s : State) (n : Nat) : Val := ⟨(curOut s n).toInt, byScale s n⟩

/-- The output of a buoy as a die holds it now: its own, or the mirrored copy (R77). -/
def viewNow (s : State) (d : Die) (n : Nat) : Val :=
  if byHome s n == d then buoyVal s n
  else
    let b := nth s.buoys n
    if n < 256 && byMirror s n then ⟨b.mval.toInt, sx 8 b.mscale.toNat⟩ else ⟨0, 0⟩

/-- Whether a die may not use a buoy's value: STALE or FAULT on its home die as far as the die sees it, or its copy stale
(R73, R77, R391, R572). -/
def unusable (s : State) (d : Die) (n : Nat) : Bool :=
  let b := nth s.buoys n
  if !byOn s n then true
  else if byHome s n == d then b.state == 1 || b.state == 2
  else b.mstale || !byMirror s n

/-- BY_STAT.SUBACTIVE (R75). -/
def subActive (s : State) (n : Nat) : Bool := underAlt s n

/-- The window counter of a buoy (R84). -/
def byKey (s : State) (n : Nat) : CtrKey := ⟨byHome s n, 14, n / 32, n / 256, n % 256, 0⟩

end Sys2Proof.Machine
end

