-- ==== Sys2Proof/Machine/Real.lean ====
section
/-! DEFINITION. Sine, cosine, square root and natural logarithm. The manual states them exactly; the model computes
them in fixed point, 96 fraction bits inside and 64 in the result (assumption log 9). -/

namespace Sys2Proof.Machine

/-- π with 96 fraction bits. -/
def piQ : Nat := 0x3243F6A8885A308D313198A2E

/-- ln 2 with 96 fraction bits. -/
def ln2Q : Nat := 0xB17217F7D1CF79ABC9E3B398

/-- The series x − x³/3! + … (or 1 − x²/2! + …) on a value with 96 fraction bits: `term` is the term last added, `k`
its order. -/
def trigSeries (xx : Int) : Nat → Nat → Int → Int → Int
  | 0, _, _, acc => acc
  | n + 1, k, term, acc =>
    let t := -(term * xx / (2 ^ 96 : Nat)) / (((k + 1) * (k + 2) : Nat) : Int)
    trigSeries xx n (k + 2) t (acc + t)

/-- sin of x for x in 0 to π/2, both with 96 fraction bits. -/
def sinQ (x : Int) : Int := trigSeries (x * x / (2 ^ 96 : Nat)) 16 1 x x

/-- The sine of an angle in 1/2^64 turn, with 64 fraction bits. -/
def sinTurn (a : Nat) : Int :=
  let t := a % 2 ^ 64
  let q := t / 2 ^ 62
  let r := t % 2 ^ 62
  let rad (n : Nat) : Int := ((n * piQ / 2 ^ 63 : Nat) : Int)
  let v := match q with
    | 0 => sinQ (rad r)
    | 1 => sinQ (rad (2 ^ 62 - r))
    | 2 => -sinQ (rad r)
    | _ => -sinQ (rad (2 ^ 62 - r))
  (v + (2 ^ 31 : Nat)) / (2 ^ 32 : Nat)

/-- The cosine. -/
def cosTurn (a : Nat) : Int := sinTurn (a + 2 ^ 62)

/-- Sine as a rational. -/
def sinR (a : Nat) : Rat := (sinTurn a : Rat) / ((2 ^ 64 : Nat) : Rat)

/-- Cosine as a rational. -/
def cosR (a : Nat) : Rat := (cosTurn a : Rat) / ((2 ^ 64 : Nat) : Rat)

/-- The bits of an integer square root from the top. -/
def isqrtGo (n : Nat) : Nat → Nat → Nat
  | 0, acc => acc
  | k + 1, acc => isqrtGo n k (if (acc + 2 ^ k) * (acc + 2 ^ k) ≤ n then acc + 2 ^ k else acc)

/-- The integer square root of a number below 2^512, rounded down. -/
def isqrt (n : Nat) : Nat := isqrtGo n 256 0

/-- The square root of a rational, with 96 fraction bits, rounded down; 0 for a negative one. -/
def sqrtR (q : Rat) : Rat :=
  if q.num ≤ 0 then 0 else (isqrt (q.num.natAbs * 2 ^ 192 / q.den) : Rat) / ((2 ^ 96 : Nat) : Rat)

/-- The series of 2·artanh(z) = ln((1 + z)/(1 − z)) on a value with 96 fraction bits. -/
def atanhSeries (zz : Int) : Nat → Nat → Int → Int → Int
  | 0, _, _, acc => acc
  | n + 1, k, p, acc =>
    let p' := p * zz / (2 ^ 96 : Nat)
    atanhSeries zz n (k + 2) p' (acc + p' / (((k + 2 : Nat)) : Int))

/-- The natural logarithm of a rational at least 1, as a rational; 0 below. -/
def lnR (q : Rat) : Rat :=
  if q ≤ 1 then 0 else
    let e := Nat.log2 (q.num.natAbs / q.den)
    let m := q / ((2 ^ e : Nat) : Rat)
    let z : Int := ((m - 1) / (m + 1) * ((2 ^ 96 : Nat) : Rat)).floor
    let s := 2 * atanhSeries (z * z / (2 ^ 96 : Nat)) 60 1 z z
    (((e * ln2Q : Nat) : Int) + s : Int) / ((2 ^ 96 : Nat) : Rat)

end Sys2Proof.Machine
end

