-- ==== Sys2Proof/Machine/SpeedCore.lean ====
section
/-! DEFINITION. The speeds the safe state rests on (R295) and swap requests (R174). -/

namespace Sys2Proof.Machine

/-- V_dc of a machine: the DCBUOY output as a number, in V. -/
def machVdc (s : State) (m : Nat) : Rat := (buoyRead s .ds (fld (wfW s m 4) 8 0)).rat

/-- The uncontrolled-generation speed in turn/s (R295). -/
def fug (s : State) (m : Nat) : Rat :=
  let psi : Rat := ((wfW s m 3).toNat : Rat) / 1000000
  quo 295 (((fld (wfW s m 12) 8 0 : Nat) : Rat) / 256 * machVdc s m)
    (2 * ((piQ : Rat) / ((2 ^ 96 : Nat) : Rat)) * sqrtR 3 * psi)

/-- WF_FUG: f_ug in 1/256 turn/s, saturated. -/
def fugReg (s : State) (m : Nat) : Int := satS 32 (rndAway (fug s m * 256))

/-- The beam whose companion buoy is a beam's companion's ALT buoy (R135). -/
def altBeam (s : State) (b : Nat) : Option Nat :=
  match bmPolbuoy s b with
  | none => none
  | some p => (List.range 8).find? fun b' => b' != b && bmOn s b' && bmPolbuoy s b' == some (byAlt s p)

/-- Position valid: the machine's beam not stale on the DS die, or under ALT from a beam that is not (R295). -/
def posValid (s : State) (m : Nat) : Bool :=
  let b := machBeam s m
  let st := beamStatus s .ds b s.now
  machOn s m && bmOn s b &&
    (!st.getLsbD 15 ||
      (st.getLsbD 14 && (match bmPolbuoy s b with | some p => byPolicy s p == 2 | none => false) &&
        match altBeam s b with
        | some b' => !(beamStatus s .ds b' s.now).getLsbD 15
        | none => false))

/-- The phase-voltage buoys of set 0 (R274). -/
def vBuoy (s : State) (m k : Nat) : Nat := fld (wfW s m 5) (9 * k + 8) (9 * k)

/-- Whether the Candle estimate is known: valid, and the three phase-voltage buoys VALID (R291). -/
def candleKnown (s : State) (m : Nat) : Bool :=
  (nth s.candle m).cvalid && [0, 1, 2].all fun k => (nth s.buoys (vBuoy s m k)).state == 0

/-- The machine speed f_m in 1/256 turn/s: the beam speed while the position is valid, the Candle estimate while it is,
otherwise unknown (R295); while crossing loss is declared, the speed of the last accepted snapshot of a beam at home on
the CS die (R18, R327). -/
def fm (s : State) (m : Nat) : Option Int :=
  let b := machBeam s m
  if s.x.ds.loss && bmHome s b == .cs && bmOn s b && (nth s.beamsDs b).adopted then some (nth s.beamsDs b).a.speed.toInt
  else if posValid s m then some (beamSpeed s .ds b).toInt
  else
    if candleKnown s m then some (nth s.candle m).cspd else none

/-- Whether |f_m| is known and below f_ug (R327, R336). -/
def fmBelow (s : State) (m : Nat) : Bool :=
  match fm s m with
  | some f => ((f.natAbs : Nat) : Rat) / 256 < fug s m
  | none => false

/-- A page has content (R47). -/
def hasContent (s : State) (d : Die) (l p : Nat) : Bool := (pageDef s d l p).isSome && (pageHdr s d l p).isSome

/-- Whether a page is LOADING (R63). -/
def pageLoading (s : State) (d : Die) (l p : Nat) : Bool :=
  s.im.items.any fun it => match it with
    | .page h _ => h.die == d && h.lane == l && h.page == p
    | .param _ _ _ => false

/-- A swap request of a rank replaces a held one of equal or lower rank; one of rank 2 or more for a page without
content, or for one that is LOADING, is not made (R63, R174). -/
def swapRequest (s : State) (d : Die) (l rank page : Nat) : State :=
  let ln := nth (s.lh d).lanes l
  if ln.run && hasContent s d l page && !pageLoading s d l page && (match ln.held with | some r => r.rank ≤ rank | none => true) then
    s.modLane d l fun x => { x with held := some ⟨rank, page, s.now, none⟩ }
  else s

end Sys2Proof.Machine
end

