-- ==== Sys2Proof/Machine/ConvCore.lean ====
section
/-! DEFINITION. Converter instances: their records (R382, R400), the channels of their stages, and the override a
stage's channels take from the instance's state or from the stage command (R384, R395, R396). -/

namespace Sys2Proof.Machine

/-- The CONVDEF of an instance as a die holds it. -/
def cvRec (s : State) (d : Die) (i : Nat) : Option (List Word) := recBy (recsIn s d) sCONV 1 27 26 i

/-- A word of it. -/
def cvW (s : State) (d : Die) (i j : Nat) : Word := wat ((cvRec s d i).getD []) j

def cvOn (s : State) (i : Nat) : Bool := (cvRec s .ds i).isSome
def cvMode (s : State) (i : Nat) : Nat := fld (cvW s .ds i 0) 25 24
def cvPDie (s : State) (d : Die) (i : Nat) : Die := if bitOf (cvW s d i 0) 20 then .ds else .cs
def cvPGroup (s : State) (d : Die) (i : Nat) : Nat := fld (cvW s d i 0) 19 16
def cvOStage (s : State) (d : Die) (i : Nat) : Bool := bitOf (cvW s d i 0) 12
def cvODie (s : State) (d : Die) (i : Nat) : Die := if bitOf (cvW s d i 0) 8 then .ds else .cs
def cvOGroup (s : State) (d : Die) (i : Nat) : Nat := fld (cvW s d i 0) 3 0
def cvTch (s : State) (i : Nat) : Nat := fld (cvW s .ds i 1) 23 20
def cvIBuoy (s : State) (i : Nat) : Nat := fld (cvW s .ds i 1) 17 9
def cvVBuoy (s : State) (i : Nat) : Nat := fld (cvW s .ds i 1) 8 0
def cvCrow (s : State) (d : Die) (i : Nat) : Nat := fld (cvW s d i 2) 23 16
def cvLimSrc (s : State) (i : Nat) : Bool := bitOf (cvW s .ds i 2) 12
def cvLimGc (s : State) (i : Nat) : Nat := fld (cvW s .ds i 2) 10 8
def cvPrebias (s : State) (i : Nat) : Bool := bitOf (cvW s .ds i 2) 0
def cvOvp (s : State) (i : Nat) : Int := (cvW s .ds i 3).toInt
def cvIlim (s : State) (i : Nat) : Int := (cvW s .ds i 4).toInt
def cvSsrate (s : State) (i : Nat) : Int := (cvW s .ds i 5).toInt

/-- The instance whose primary or output stage is a group of a die, and whether it is the stage that carries the
crowbar: the output stage, or the primary of an instance without one (R382). -/
def cvOfGroup (s : State) (d : Die) (g : Nat) : Option (Nat × Bool) :=
  (List.range 4).findSome? fun i =>
    if (cvRec s d i).isNone then none
    else if cvPDie s d i == d && cvPGroup s d i == g then some (i, !cvOStage s d i)
    else if cvOStage s d i && cvODie s d i == d && cvOGroup s d i == g then some (i, true)
    else none

/-- The instance of a channel, and whether the channel is one of CROWMASK. -/
def cvOfChan (s : State) (d : Die) (c : Nat) : Option (Nat × Bool) :=
  if (chanRec s d c).isNone then none
  else (cvOfGroup s d (chanGrp s d c)).map fun (i, crow) => (i, crow && hasBit (cvCrow s d i) (memberNo s d c))

/-- The channels of an instance on a die: both stages (R382, R393). -/
def convChans (s : State) (d : Die) (i : Nat) : List Nat :=
  (List.range (chanCount d)).filter fun c => match cvOfChan s d c with | some (j, _) => j == i | none => false

/-- The override the state of R384 gives a channel: 1 INHIBIT, 2 LOWON. -/
def cvStateOvr (st : Nat) (crow : Bool) : Nat :=
  if st = 1 || st = 2 then 0 else if st = 5 && crow then 2 else 1

/-- The stage command in force on the CS die for an instance: 0 RUN, 1 INHIBIT, 2 CROWBAR (R395); while crossing loss
is declared a stage under CROWBAR keeps it and every other is at INHIBIT (R396). -/
def csStageCmd (s : State) (i : Nat) : Nat :=
  let c := s.x.csCmd.toNat / 4 ^ i % 4
  if s.x.cs.loss && c ≠ 2 then 1 else c

/-- The override of a CS channel (R395): the Watch Room's hold, then the stage command. -/
def csOvr (s : State) (c : Nat) : Nat :=
  if (nth s.pwmCs.chans c).wrHold then 1
  else match cvOfChan s .cs c with
    | some (i, crow) =>
      let cmd := csStageCmd s i
      if cmd = 0 then 0 else if cmd = 2 && crow then 2 else 1
    | none => 0

/-- Every configured CS channel takes its override, from page 0 on (R60). -/
def applyCsOverrides (s : State) : State :=
  if s.sys.dsReady then
    { s with pwmCs := { s.pwmCs with
        chans := s.pwmCs.chans.mapIdx fun c x =>
          if (chanRec s .cs c).isSome then x.setOvr (chanMode s .cs c) (now16 s) (csOvr s c) else x } }
  else s

/-- The stage command of an instance's state (R384, R395). -/
def cvStageCmd (st : Nat) : Nat := if st = 1 || st = 2 then 0 else if st = 5 then 2 else 1

end Sys2Proof.Machine
end

