-- ==== Sys2Proof/Machine/ProtCore.lean ====
section
/-! DEFINITION. The leg-protection unit: comparators, sources and latches, severity, speed rule, overrides, chopper
(R311 to R338). -/

namespace Sys2Proof.Machine

/-! ## Records (R46, R339, R340) -/

/-- The CPDEF of a comparator: kind 0 shunt, 1 general. -/
def cpDef (s : State) (kind n : Nat) : Option (List Word) :=
  (recsOf (recsIn s .ds) sGUARD 2).find? fun w => fld (wat w 0) 8 8 == kind && fld (wat w 0) 4 0 == n

def cpW (s : State) (kind n i : Nat) : Word := wat ((cpDef s kind n).getD []) i

/-- SCALE of a comparator, in thousandths of its unit per code (R317). -/
def cpScale (s : State) (kind n : Nat) : Nat := fld (cpW s kind n 1) 31 16

/-- The DAC code of a mantissa at −8 in the comparator's unit, within the limits word w of its CPDEF gives (R317). -/
def thrCode (s : State) (kind n w : Nat) (v : Int) : BitVec 10 :=
  BitVec.ofInt 10 (clampI (fld (cpW s kind n w) 9 0) (fld (cpW s kind n w) 25 16)
    (rndAway (quo 317 ((v : Rat) / 256 * 1000) (cpScale s kind n : Nat))))

/-- ROLE of a general comparator: 0 GUARD, 1 OV1, 2 OV2, 3 CHOPI, 4 PEAK, 5 CHOP (R316). -/
def gcRole (s : State) (g : Nat) : Nat := fld (cpW s 1 g 0) 31 28

/-- The general comparator of a role. -/
def gcOf (s : State) (role : Nat) : Option Nat :=
  (List.range 8).find? fun g => (cpDef s 1 g).isSome && gcRole s g == role

/-- The leg channels a comparator guards (R46). -/
def guarded (s : State) (kind n : Nat) : List Nat :=
  ((recsOf (recsIn s .ds) sGUARD 1).filter fun w => fld (wat w 0) 8 8 == kind && fld (wat w 0) 4 0 == n).map
    fun w => fld (wat w 1) 5 0

/-- The REACTROW of a source. -/
def reactRow (s : State) (src : Nat) : Option (List Word) := recBy (recsIn s .ds) sREACT 1 31 24 src

/-- A PTCFG word (R340). -/
def ptCfg (s : State) (i : Nat) : Word := wat ((recsOf (recsIn s .ds) sREACT 3).headD []) i

def chopEn (s : State) : Bool := bitOf (ptCfg s 0) 31
def chopCh (s : State) : Nat := fld (ptCfg s 0) 29 24
def ascGrp (s : State) (m : Nat) : Nat := if m = 0 then fld (ptCfg s 0) 17 16 else fld (ptCfg s 0) 19 18
def vdcBuoy (s : State) : Nat := fld (ptCfg s 0) 8 0

/-- SRC of a comparator (R322). -/
def compSrc : Comp → Nat
  | .trip n => n.val
  | .hard n => 0x20 + n.val
  | .gc n => 0x40 + n.val

/-- Kind and number of a comparator (R339). -/
def compPlace : Comp → Nat × Nat
  | .trip n => (0, n.val)
  | .hard n => (0, n.val)
  | .gc n => (1, n.val)

def compSt (s : State) : Comp → CompSt
  | .trip n => nth s.prot.trip n.val
  | .hard n => nth s.prot.hard n.val
  | .gc n => nth s.prot.gc n.val

def modComp (s : State) (c : Comp) (f : CompSt → CompSt) : State :=
  match c with
  | .trip n => { s with prot := { s.prot with trip := upd s.prot.trip n.val f } }
  | .hard n => { s with prot := { s.prot with hard := upd s.prot.hard n.val f } }
  | .gc n => { s with prot := { s.prot with gc := upd s.prot.gc n.val f } }

/-- Fixed levels of sources (R322). -/
def fixedLevel (src : Nat) : Option Nat :=
  if src = 0x50 || src = 0x51 || src = 0x53 then some 5
  else if src = 0x52 then some 1
  else if src = 0x54 then some 6
  else if src = 0x58 || src = 0x59 || src = 0x5A then some 4
  else none

/-- The level a source latches at: fixed, or its REACTROW's. -/
def srcLevel (s : State) (src : Nat) : Option Nat :=
  match fixedLevel src with
  | some l => some l
  | none => (reactRow s src).map fun w => fld (wat w 0) 18 16

/-- FRAC of a source's row. -/
def srcFrac (s : State) (src : Nat) : Nat := fld (wat ((reactRow s src).getD []) 0) 7 0

/-- CONFINE of a source's row. -/
def srcConfine (s : State) (src : Nat) : Bool := bitOf (wat ((reactRow s src).getD []) 0) 8

/-- The machine of a waveform source. -/
def srcMach (src : Nat) : Option Nat :=
  if 0x60 ≤ src && src ≤ 0x66 then some 0 else if 0x70 ≤ src && src ≤ 0x76 then some 1 else none

/-- The converter instance of a source. -/
def srcConv (src : Nat) : Option Nat := if 0x80 ≤ src && src ≤ 0x9F then some ((src - 0x80) / 8) else none

/-- Whether a source is a TRIP, HARD or GUARD source. -/
def isCompSrc (src : Nat) : Bool := src < 0x48

/-- The legs or channels in a source's scope (R322). -/
def srcScope (s : State) (src : Nat) : List Nat :=
  if src < 0x20 then guarded s 0 src
  else if src < 0x40 then guarded s 0 (src - 0x20)
  else if src < 0x48 then guarded s 1 (src - 0x40)
  else match srcMach src with
    | some m => machLegs s m
    | none => match srcConv src with
      | some i => convChans s .ds i
      | none => []

/-! ## Latches and severity (R325, R326, R330) -/

def isLatched (s : State) (src : Nat) : Bool := s.prot.latches.any fun l => l.src == src

/-- Whether a latch is confined to one set of its machine (R330). -/
def isConfined (s : State) (l : Latch) : Bool :=
  (l.src == 0x63 || l.src == 0x73) && srcConfine s l.src &&
    (let m := if l.src = 0x63 then 0 else 1
     let x := nth s.prot.msafe m
     x.conf0 || x.conf1)

/-- The highest latched level; 1 with none latched. A confined latch contributes level 2. -/
def latLevel (s : State) : Nat :=
  s.prot.latches.foldl (fun a l => max a (if isConfined s l then 2 else l.level)) 1

/-- The level that the latched sources alone show in PT_STAT. -/
def severityOf (s : State) : Nat := max (latLevel s) s.prot.wrLevel

/-- The torque-limit fraction in force at level 2, 1/256 (R325). -/
def limFrac (s : State) : Nat :=
  let a := s.prot.latches.foldl (fun a l => if l.level = 2 then min a (srcFrac s l.src) else a) 256
  let b := if s.prot.wrValid && s.prot.wrCode = 0xA5 then min a s.prot.wrFrac.toNat else a
  (List.range 2).foldl (fun a m =>
    let x := nth s.prot.msafe m
    if x.conf0 || x.conf1 then min a (fld (wfW s m 10) 31 24) else a) b

/-- Suspects of the latched sources and of the SAFE_GROUP command in force: bit 0 low side, bit 1 high side (R329). -/
def liveSuspects (s : State) : Nat :=
  let a := s.prot.latches.foldl (fun a l => Nat.lor a l.suspect) 0
  if s.prot.wrValid && s.prot.wrCode = 0x3C then Nat.lor a (s.prot.wrArg.toNat % 4) else a

/-- The groups that ASCs in force hold (R329). -/
def heldGroups (s : State) : Nat :=
  s.prot.msafe.foldl (fun a x => if x.st = 2 then Nat.lor a 1 else if x.st = 3 then Nat.lor a 2 else a) 0

/-- The suspect set. -/
def suspectSet (s : State) : Nat := Nat.lor (liveSuspects s) (heldGroups s)

/-- Whether the set has come to hold both groups: two opposite suspects, or a suspect opposite to a held group (R329;
assumption log 21). -/
def oppGroups (s : State) : Bool :=
  let v := liveSuspects s
  v = 3 || (v = 1 && hasBit (heldGroups s) 1) || (v = 2 && hasBit (heldGroups s) 0)

/-! ## Outputs (R263, R324, R325, R332) -/

/-- Whether the chopper is commanded on (R332, R333). -/
def chopCmd (s : State) : Bool := s.prot.ov1 && chopEn s && !isLatched s 0x52

/-- Override code of a machine's safe state: pulse inhibit, ASC low, ASC high. -/
def ovrOfSafe (st : Nat) : Nat := if st = 1 then 1 else if st = 2 then 2 else if st = 3 then 3 else 0

/-- Whether a latch inhibits a channel by its scope: any TRIP, HARD or GUARD latch that guards it (R324), any latch of
level 3 or higher of a converter whose channel it is, any latch of level 3 (R325). -/
def scopeInhibit (s : State) (c : Nat) : Bool :=
  s.prot.latches.any fun l =>
    (isCompSrc l.src || (srcConv l.src).isSome && 3 ≤ l.level || l.level == 3) && (srcScope s l.src).contains c

/-- The override a DS channel takes at the severity in force: the chopper (R332), the converter channels (R393), the
legs (R324, R325, R327, R330). -/
def wantOvr (s : State) (c : Nat) : Nat :=
  let sev := s.prot.severity
  if chopEn s && c = chopCh s then (if s.prot.chopOn then 3 else 1)
  else if sev = 6 then 1
  else match cvOfChan s .ds c with
    | some (i, crow) =>
      let st := (nth s.conv i).state
      if st = 5 && crow then 2 else if scopeInhibit s c then 1 else cvStateOvr st crow
    | none =>
      let legSt :=
        if isLeg s c then
          let x := nth s.prot.msafe (legMach s c)
          let inConf := if phaseSet s (legPhase s c) = 0 then x.conf0 else x.conf1
          if 4 ≤ sev || inConf then ovrOfSafe x.st else 0
        else 0
      if legSt ≠ 0 then legSt else if scopeInhibit s c then 1 else 0

/-- Whether traction is inhibited: every configured machine in MODE OFF, or every leg channel at INHIBIT (R463). -/
def tractionInhibited (s : State) : Bool :=
  ([0, 1].all fun m => !machOn s m || (nth s.mach m).mode == 0)
    || (List.range 48).all fun c => !isLeg s c || (nth s.pwmDs.chans c).ovr == 1

/-- Since when traction is inhibited; a cooling curve is discarded when it no longer is (R460). -/
def inhNote (s : State) : State :=
  if tractionInhibited s then { s with lamp := { s.lamp with inhAt := some (s.lamp.inhAt.getD s.now) } }
  else { s with lamp := { s.lamp with inhAt := none }, temp := s.temp.map fun x => { x with curveAt := none } }

/-- Every configured DS channel takes its override; none before page 0 (R60). -/
def applyOverrides (s : State) : State :=
  if s.sys.dsReady then
    inhNote { s with pwmDs := { s.pwmDs with
        chans := s.pwmDs.chans.mapIdx fun c x =>
          if (chanRec s .ds c).isSome then x.setOvr (chanMode s .ds c) (now16 s) (wantOvr s c) else x } }
  else s

/-! ## The speed rule (R327) -/

/-- The group a machine's ASC takes: the suspect group if one is latched, else ASCGRP (R327, R329). -/
def ascState (s : State) (m : Nat) : Nat :=
  let v := suspectSet s
  if v = 1 then 2 else if v = 2 then 3 else if ascGrp s m = 2 then 3 else 2

/-- A machine's safe state at a level: the speed rule decides afresh on every entry to level 4, from above too. -/
def enterSafe (s : State) (lvl m : Nat) (entered : Bool) (x : MSafe) : MSafe :=
  let asc := if x.st = 2 || x.st = 3 then x.st else ascState s m
  let conf := x.conf0 || x.conf1
  if lvl = 5 then { x with st := asc, belowAt := none }
  else if lvl = 4 || (conf && lvl < 4) then
    if x.st = 0 || (entered && lvl = 4) then { x with st := if fmBelow s m then 1 else asc, belowAt := none } else x
  else { x with st := 0, belowAt := none }

/-- The machines' safe states at a level (R325, R327): level 6 inhibits every channel itself. -/
def applySafe (s : State) (lvl : Nat) (entered : Bool) : State :=
  { s with prot := { s.prot with
      msafe := s.prot.msafe.mapIdx fun m x => if machOn s m then enterSafe s lvl m entered x else x } }

/-! ## Reaction pages (R335) -/

/-- The RPAGE of the highest level that is at most a level, for a lane: its level and page. -/
def rpageFor (s : State) (l lvl : Nat) : Option (Nat × Nat) :=
  ((recsOf (recsIn s .ds) sREACT 2).filter fun w => fld (wat w 0) 17 16 == l && fld (wat w 1) 2 0 ≤ lvl).foldl
    (fun acc w =>
      let v := fld (wat w 1) 2 0
      match acc with
      | some (a, p) => if a < v then some (v, fld (wat w 0) 3 0) else some (a, p)
      | none => some (v, fld (wat w 0) 3 0)) none

/-- The reaction page of one lane requested at a rise to a level. -/
def requestReaction (s : State) (lvl l : Nat) : State :=
  match rpageFor s l lvl with
  | some (v, p) =>
    let ln := nth s.lhDs.lanes l
    let heldR := match ln.held with | some r => r.rank | none => 0
    if max ln.react heldR < v then swapRequest s .ds l lvl p else s
  | none => s

/-! ## The severity changes (R326, R335, R337) -/

/-- The severity without what confined reactions contribute, which request no page (R335). -/
def pageLevel (s : State) : Nat :=
  max (s.prot.latches.foldl (fun a l => if isConfined s l then a else max a l.level) 1) s.prot.wrLevel

/-- The severity in force follows the latches, the Watch Room's request and the confined reactions: on a rise the
reaction pages are requested, on a return to level 1 the PRIO condition ends. -/
def setSeverity (s : State) : State :=
  let old := s.prot.severity
  let new := severityOf s
  let s1 := { s with prot := { s.prot with severity := new } }
  let s2 := applySafe s1 new (decide (old ≠ new))
  let s3 := if old < new && new ≤ pageLevel s && s.sys.dsReady then [0, 1, 2, 3].foldl (fun s l => requestReaction s new l) s2 else s2
  let s4 := if new = 1 && old ≠ 1 then
      { s3 with lhDs := { s3.lhDs with lanes := s3.lhDs.lanes.map fun ln => { ln with prio := false } } }
    else s3
  applyOverrides s4

/-! ## Latching (R323) -/

/-- A latch enters the log of 32 records (R345). -/
def logLatch (s : State) (l : Latch) : State :=
  if s.prot.log.length < 32 then
    { s with prot := { s.prot with
        log := s.prot.log ++ [(count s .ds, wd (l.seqn * 65536 + l.src * 256 + l.level * 16 + l.suspect * 4))] } }
  else { s with prot := { s.prot with logLost := true } }

/-- One source latches, with its suspects: sequence number and log; already latched it stays. -/
def addLatch (s : State) (src suspect : Nat) : State :=
  match srcLevel s src with
  | none => s
  | some lvl =>
    if isLatched s src || !s.sys.dsReady then s
    else
      let l : Latch := { src := src, level := lvl, suspect := suspect, seqn := (s.prot.ptseq + 1) % 65536, permit := false, at_ := s.now }
      logLatch { s with prot := { s.prot with ptseq := l.seqn, latches := s.prot.latches ++ [l] } } l

/-- The DETAIL of a comparator source (R342). -/
def latchDetail (s : State) (src : Nat) : Word :=
  match s.prot.latches.find? fun l => l.src == src with
  | some l => wd (l.seqn * 65536 + l.suspect * 256 + l.level)
  | none => 0

/-- The key of a source's window counter (R303, R323, R342, R343, R402). -/
def srcKey (src cause : Nat) : CtrKey :=
  if src < 0x20 then ⟨.ds, 5, src / 2, 0, src, cause⟩
  else if src < 0x40 then ⟨.ds, 5, (src - 0x20) / 2, 0, src - 0x20, cause⟩
  else if src < 0x48 then ⟨.ds, 5, src - 0x40, 1, src - 0x40, cause⟩
  else match srcConv src with
    | some i => ⟨.ds, 8, i, 0, i, cause⟩
    | none => ⟨.ds, 6, 0, 0, 0, cause⟩

/-- The cause of a comparator source (R342). -/
def compCause (src : Nat) : Nat := if src < 0x20 then 1 else if src < 0x40 then 2 else 3

/-- The cause of a fixed source of subsystem 6 (R343); 0 where it has no counter. -/
def fixedCause (src : Nat) : Nat := if 0x50 ≤ src && src ≤ 0x54 then src - 0x4F else 0

/-- The event of a comparator source counted in its own counter (R323, R342). -/
def countComp (s : State) (src cause : Nat) : State :=
  let r := (reactRow s src).getD []
  let fixedU := cause = 4
  countEvent s { key := srcKey src cause, cause := cause
                 w := if fixedU then 1 else fld (wat r 1) 31 16
                 n := if fixedU then 1 else fld (wat r 1) 7 0
                 detail := latchDetail s src, early := fixedU }

/-- The event of a fixed source counted (R343). -/
def countFixed (s : State) (src : Nat) (d : Nat) : State :=
  let c := fixedCause src
  if c = 0 then s
  else
    let seqn := match s.prot.latches.find? fun l => l.src == src with | some l => l.seqn | none => s.prot.ptseq
    countEvent s (direct .ds 6 0 0 0 c (wd (seqn * 65536 + d % 65536)))

/-- Whether OPPGRP is to latch now. -/
def oppDue (s : State) : Bool := oppGroups s && !isLatched s 0x54 && s.sys.dsReady

/-- Suspect of one leg of a TRIP, HARD or GUARD latch (R328): bit 0 low side, bit 1 high side. -/
def legSuspect (s : State) (c : Nat) : Nat :=
  let m := chanMode s .ds c
  let x := chanNow s .ds c
  let t := now16 s
  let hOn := x.lastOnH t
  let lOn := x.lastOnL m t
  let recentH := x.hiAt t || (t ≤ x.hLast + 1280 && x.hLast ≠ 0)
  let recentL := x.loAt m t || (t ≤ x.lLast + 1280 && x.lLast ≠ 0)
  if lOn ≤ hOn && recentH then 1
  else if hOn ≤ lOn && recentL then 2
  else 0

/-- The suspects of a comparator source over the legs it guards. -/
def compSuspects (s : State) (src : Nat) : Nat := (srcScope s src).foldl (fun a c => Nat.lor a (legSuspect s c)) 0

/-- A confined reaction ends when any source of level 4 or higher latches, or the other set is found open (R330). -/
def endConfined (s : State) : State :=
  if s.prot.latches.any fun l => 4 ≤ l.level && !isConfined s l then
    { s with prot := { s.prot with msafe := s.prot.msafe.map fun x => { x with conf0 := false, conf1 := false } } }
  else s

/-- OPPGRP latches when the suspect set holds both groups (R329): the severity follows, then the event is counted (R16). -/
def checkOpp (s : State) (by_ : Nat) : State :=
  if oppDue s then countFixed (setSeverity (endConfined (addLatch s 0x54 0))) 0x54 by_ else s

/-- A source latches and everything that follows: OPPGRP (R329), the end of confined reactions, the severity (R326); then
the events are counted, so that a record holds the severity in force after the event (R16). -/
def latchWith (s : State) (src suspect : Nat) (cnt : State → State) : State :=
  let s1 := addLatch s src suspect
  let opp := oppDue s1
  let s2 := endConfined (if opp then addLatch s1 0x54 0 else s1)
  let s3 := cnt (setSeverity s2)
  if opp then countFixed s3 0x54 src else s3

/-- A comparator source latches and counts (R323); in the cycle of page 0 with cause UNRES and no suspect (R321). -/
def latchComp (s : State) (src : Nat) (atPage0 : Bool) : State :=
  if (srcLevel s src).isNone || !s.sys.dsReady then s
  else latchWith s src (if atPage0 then 0 else compSuspects s src) fun s => countComp s src (if atPage0 then 4 else compCause src)

/-- A fixed source latches and counts. -/
def latchFixed (s : State) (src : Nat) (detail : Nat) : State :=
  if s.sys.dsReady then latchWith s src 0 fun s => countFixed s src detail else s

/-- A source without suspect latches; `cnt` counts its event where the source's own unit keeps the counter. -/
def latchPlain (s : State) (src : Nat) (cnt : State → State) : State :=
  if s.sys.dsReady then latchWith s src 0 cnt else cnt s

/-! ## The chopper (R332) -/

/-- The chopper's command follows OV1, CHOPEN and CHOPF. -/
def setChop (s : State) : State :=
  let on := chopCmd s
  if on = s.prot.chopOn then s
  else applyOverrides { s with prot := { s.prot with
      chopOn := on, chopAt := s.now
      chopCur := if on then false else s.prot.chopCur
      chopCnt := if on then s.prot.chopCnt + (if s.prot.chopCnt.toNat < 65535 then 1 else 0) else s.prot.chopCnt } }

/-! ## Comparator levels (R311 to R315, R320) -/

/-- BLANK ns in 1/16 cycle, times 10 (1 ns = 6.4 units). -/
def blank64 (ns : Nat) : Nat := 64 * ns

/-- The channels whose turn-ons blank a comparator, and whether only high-side turn-ons do (R313, R316). -/
def blankers (s : State) (c : Comp) : List Nat × Bool :=
  let (kind, n) := (compPlace c)
  match c with
  | .hard _ => ([], false)
  | .trip _ => (guarded s kind n, false)
  | .gc _ => match gcRole s n with
    | 0 => (guarded s 1 n, false)
    | 3 => (if chopEn s then [chopCh s] else [], false)
    | 4 => ([fld (cpW s 1 n 5) 13 8], true)
    | 5 => (((List.range 2).filter fun m => fld (wfW s m 7) 2 0 == n && machOn s m).flatMap (setLegs s · 0), false)
    | _ => ([], false)

/-- The last turn-on that starts a comparator's blanking, in 1/16 cycle. -/
def blankStart (s : State) (c : Comp) : Nat :=
  let (chs, hiOnly) := blankers s c
  let t := now16 s
  chs.foldl (fun a ch =>
    let x := chanNow s .ds ch
    max a (max (x.lastOnH t) (if hiOnly then 0 else x.lastOnL (chanMode s .ds ch) t))) 0

/-- Whether a comparator is inside its blanking window (R313, R315). -/
def blanked (s : State) (c : Comp) : Bool :=
  let b := blankStart s c
  b ≠ 0 && 10 * (now16 s - b) < blank64 (compSt s c).blank

/-- Whether VDS_ANA has every DS comparator taken as asserted: out of range, or back for less than 100 µs (R532). -/
def anaForced (s : State) : Bool := !s.sup.dsOk.getLsbD 9 || decide (s.now < s.sup.since.getD 9 0)

/-- A comparator's live level: its fault side while UNRESOLVED or forced, deasserted while disabled, else its raw level less
the blanking window (R312, R313, R320, R532). -/
def liveNow (s : State) (c : Comp) : Bool :=
  let x := compSt s c
  if !x.enabled then false else if x.unres || anaForced s then true else x.raw && !blanked s c

/-- The live level of a general comparator. -/
def gcLive (s : State) (g : Nat) : Bool := if h : g < 8 then liveNow s (.gc ⟨g, h⟩) else false

/-- TRIP of a leg that an override holds on (R331): the channel, if any; a latch of this very cycle does not hold it yet (R338). -/
def ascTripLeg (s : State) (c : Comp) : Option Nat :=
  match c with
  | .trip n => (guarded s 0 n.val).find? fun ch =>
      let x := nth s.pwmDs.chans ch
      (x.ovr == 2 || x.ovr == 3) && decide (x.ovrAt < now16 s)
  | _ => none

/-- CP_EVT bit of an event of subsystem 5. -/
def cpEvtBit (s : State) (c : Comp) (cause : Nat) : State :=
  match c with
  | .hard n => modComp s (.trip n) fun x => { x with evt := orBit x.evt cause }
  | _ => modComp s c fun x => { x with evt := orBit x.evt cause }

/-- What the protection unit does at the assertion of a live level of a comparator that is a source (R323, R331). -/
def compAsserts (s : State) (c : Comp) : State :=
  match ascTripLeg s c with
  | some ch =>
    let n := (compPlace c).2
    countEvent (cpEvtBit s c 5)
      { key := ⟨.ds, 5, n / 2, 0, n, 5⟩, cause := 5, w := fld (ptCfg s 4) 31 16, n := fld (ptCfg s 4) 7 0
        detail := wd ch, early := false }
  | none => latchComp (if s.sys.dsReady && (srcLevel s (compSrc c)).isSome then cpEvtBit s c (compCause (compSrc c)) else s) (compSrc c) false

/-- OV1 becomes active or inactive (R332); the comparator's DAC is switched. -/
def ov1Change (s : State) (g : Nat) (active : Bool) : State :=
  if s.prot.ov1 = active then s
  else
    let code := if active then fld (ptCfg s 1) 9 0 else fld (cpW s 1 g 4) 9 0
    let s1 := { s with prot := { s.prot with ov1 := active, ov1At := s.now, gc := upd s.prot.gc g fun x => { x with code := BitVec.ofNat 10 code } } }
    let s2 := if active && (isLatched s1 0x52 || !chopEn s1) then latchFixed s1 0x53 (b2n (!chopEn s1)) else s1
    setChop s2

end Sys2Proof.Machine
end

