-- ==== Sys2Proof/Machine/TractCore.lean ====
section
/-! DEFINITION. The traction waveform unit's events, speeds and fractions as other units use them (R286 to R303, R307). -/

namespace Sys2Proof.Machine

/-! ## Events (R303, R307, R330) -/

/-- A confined reaction begins or ends with an OPENPH of a set (R330): the set's legs alone take the safe state while the
other set has no open phase; one that has ended does not begin again while the source stays latched. -/
def confine (s : State) (m st : Nat) : State :=
  let src := 0x63 + 16 * m
  let y := nth s.prot.msafe m
  if !srcConfine s src || (isLatched s src && !y.conf0 && !y.conf1) then s
  else
    let o := (nth s.mach m).openPh.toNat
    let set0 := o % 8
    let set1 := o / 8 % 8
    let only := if st = 0 then set1 = 0 else set0 = 0
    let f (x : MSafe) : MSafe :=
      if only then (if st = 0 then { x with conf0 := true } else { x with conf1 := true })
      else { x with conf0 := false, conf1 := false }
    { s with prot := { s.prot with msafe := upd s.prot.msafe m f } }

/-- An event of a machine: its event bit, its protection source, its window counter. -/
def wfEvent (s : State) (m cause elem : Nat) (detail : Word) : State :=
  let s1 := s.modMach m fun x => { x with evt := orBit x.evt cause }
  latchPlain s1 (0x5F + 16 * m + cause) fun s =>
    countEvent s { key := ⟨.ds, 7, m, 0, 0, cause⟩, cause := cause, elemN := some elem
                   w := fld (wfW s m 13) 31 16, n := fld (wfW s m 13) 7 0, detail := detail, early := false }

/-- POSLOSS (R299, R302). -/
def posLoss (s : State) (m : Nat) : State := wfEvent s m 1 0 (wd (machBeam s m))

/-- Position valid is watched in MODE RUN: its loss counts POSLOSS once (R302). -/
def posCheck (s : State) : State :=
  [0, 1].foldl (fun s m =>
    let x := nth s.mach m
    if machOn s m && s.sys.dsReady && x.mode = 1 then
      let v := posValid s m
      if v && x.posLost then s.modMach m fun x => { x with posLost := false }
      else if !v && !x.posLost then posLoss (s.modMach m fun x => { x with posLost := true }) m
      else s
    else s) s

/-! ## Quantities -/

/-- V_dc with the floor VDCMIN (R274, R284). -/
def vdcFloor (s : State) (m : Nat) : Rat := max (machVdc s m) ((fld (wfW s m 12) 31 16 : Nat) : Rat)

/-- The throttling factor used on the DS die (R457). -/
def dsFactor (s : State) : Nat := min s.x.fRx s.lamp.fDs

/-- The current buoys a machine names (R274): set 0's and set 1's. -/
def curBuoys (s : State) (m : Nat) : List Nat :=
  let w14 := wfW s m 14
  let w15 := wfW s m 15
  (if bitOf w14 31 then [fld w14 24 16, fld w14 8 0] else []) ++ (if bitOf w15 31 then [fld w15 24 16, fld w15 8 0] else [])

/-- The torque-limit fraction in force in 1/65,536 (R298). -/
def tlf (s : State) (m : Nat) : Nat :=
  let x := nth s.mach m
  let sub := let f := fld (wfW s m 9) 31 24; if f = 0 then 77 else f
  if 3 ≤ s.prot.severity then 0
  else
    let a := dsFactor s
    let a := if s.prot.severity = 2 then min a (limFrac s * 256) else a
    let a := if x.subAct then min a (sub * 256) else a
    let a := if x.degraded then min a (fld (wfW s m 10) 31 24 * 256) else a
    let a := if x.openPh ≠ 0 && !x.degraded then 0 else a
    min 65536 a

/-- Substitution of a named current buoy is watched (R300): the first substituted one starts the time, all VALID again
resets it. -/
def subCheck (s : State) : State :=
  [0, 1].foldl (fun s m =>
    if machOn s m && s.sys.dsReady then
      let bs := curBuoys s m
      let act := bs.any (subActive s ·)
      let allOk := bs.all fun b => (nth s.buoys b).state == 0
      let x := nth s.mach m
      if act && !x.subAct then s.modMach m fun x => { x with subAct := true, subAt := s.now }
      else if !act && x.subAct then
        s.modMach m fun x => { x with subAct := false, subT := if allOk then 0 else x.subT + (s.now - x.subAt), subDone := x.subDone && !allOk }
      else if allOk && x.subT ≠ 0 then s.modMach m fun x => { x with subT := 0, subDone := false }
      else s
    else s) s

/-- The substitution time in cycles (R300). -/
def subTime (s : State) (m : Nat) : Nat :=
  let x := nth s.mach m
  x.subT + (if x.subAct then s.now - x.subAt else 0)

/-! ## Candle patterns (R290) -/

/-- High, low and floating phase of a pattern. -/
def patHigh (c : Nat) : Nat := [2, 0, 0, 1, 1, 2].getD c 0
def patLow (c : Nat) : Nat := [1, 1, 2, 2, 0, 0].getD c 0
def patFloat (c : Nat) : Nat := [0, 2, 1, 0, 2, 1].getD c 0

/-- The legs of position k in set 0 of a machine. -/
def posLegs (s : State) (m k : Nat) : List Nat := (setLegs s m 0).filter fun c => phaseIdx s (legPhase s c) == k

/-- Whether every leg of a set floats. -/
def setFloats (s : State) (m st : Nat) : Bool := (setLegs s m st).all fun c => (nth s.legs c).float

/-- A crossing of the back-EMF numbered c (R291, R292): consistency, estimate, catch count, UGEN (R296), the commutation
it brings half an interval later. -/
def candleCross (s : State) (m c : Nat) : State :=
  let x := nth s.candle m
  let mode := (nth s.mach m).mode
  let step := match x.lastM with | some p => (c + 6 - p) % 6 | none => 0
  let dir : Int := if step = 1 then 1 else if step = 5 then -1 else 0
  let dt := s.now - x.lastX
  let ok := dir ≠ 0 && dt ≠ 0
  let catching := mode = 2 && x.catching
  let bad := x.lastM.isSome && !ok && catching
  let expect := match x.lastM with
    | some p => if x.dir = 0 then s.free.toNat % 6 else ((p : Int) + x.dir).toNat % 6
    | none => 0
  let s := if bad && x.dir = 0 then s.useFree else s
  let f : Int := if ok then rndAway ((dir : Rat) * (256 * 400000000) / ((6 * dt : Nat) : Rat)) else x.cspd
  let s := s.modCandle m fun x =>
    { x with lastM := some c, lastX := s.now, dt := if ok then dt else x.dt, dir := if ok then dir else x.dir
             cspd := f, cvalid := x.cvalid || ok
             consist := if ok then x.consist + 1 else 1 }
  let s := if bad then wfEvent s m 7 0 (wd (expect * 256 + c)) else s
  let y := nth s.candle m
  let observing := !y.driving
  let fast := match fm s m with | some v => fug s m * 256 ≤ ((v.natAbs : Nat) : Rat) | none => false
  let caughtNow := catching && observing && ok && fld (wfW s m 8) 31 24 ≤ y.consist
  let slowEst := ((f.natAbs : Nat) : Rat) < fug s m * 256
  let floats := (mode = 0 && (setFloats s m 0 || setFloats s m 1)) || (catching && observing)
  let ugen := (floats && fast) || (caughtNow && !slowEst)
  let s := if ugen then wfEvent s m 2 0 (wi ((fm s m).getD f)) else s
  let cdir := (nth s.mach m).inp.cdir.toInt
  if (caughtNow && slowEst && cdir ≠ 0) || (catching && y.driving && ok) then
    s.modCandle m fun x => { x with pend := some (s.now + dt / 2) }
  else s

/-- A phase-voltage buoy of set 0 was updated (R291): the sign of its voltage against the reference, and a crossing where
it changed. -/
def bemfUpdate (s : State) (m k : Nat) : State :=
  let x := nth s.candle m
  let v (i : Nat) : Rat := (buoyVal s (vBuoy s m i)).rat
  let allFloat := setFloats s m 0
  let watched := allFloat || (x.pattern ≤ 5 && patFloat x.pattern = k)
  let valid := [0, 1, 2].all fun i => (nth s.buoys (vBuoy s m i)).state == 0
  if !watched || !valid then s.modCandle m fun x => { x with prevSign := x.prevSign.set k 0 }
  else
    let r : Rat := if allFloat then (v 0 + v 1 + v 2) / 3 else vdcFloor s m / 2
    let sg : Int := if v k < r then -1 else 1
    let old := x.prevSign.getD k 0
    let s := s.modCandle m fun x => { x with prevSign := x.prevSign.set k sg }
    if old = -1 && sg = 1 then candleCross s m (2 * k % 6)
    else if old = 1 && sg = -1 then candleCross s m ((2 * k + 3) % 6)
    else s

end Sys2Proof.Machine
end

