-- ==== Sys2Proof/Machine/BeamCore.lean ====
section
/-! DEFINITION. Stale beams (R134, R135), the anchors of directly computed beams (R573) and source updates (R126 to R131). -/

namespace Sys2Proof.Machine

/-- The window counter event of a beam (R145). -/
def bmEvent (s : State) (d : Die) (b cause : Nat) (detail : Word) : State :=
  let s := s.modBeam d b fun m => { m with evt := orBit m.evt cause }
  countEvent s { key := ⟨d, 12, b, 0, b, cause⟩, cause := cause, w := fld (bmW s b 4) 31 16, n := fld (bmW s b 4) 7 0
                 detail := detail, early := false }

/-- Whether a beam's source gives updates that STALETIME watches: a resolver, an SSI channel or the mains (R134). -/
def bmTimed (s : State) (b : Nat) : Bool :=
  bmSrc s b == 1 || (bmSrc s b == 0 && bmInst s b ∈ [0, 1, 8, 9])

/-- The first condition of R134 present on a beam's home die, in table order. -/
def staleCond (s : State) (b : Nat) : Option Nat :=
  let src := bmSrc s b
  let m := nth (s.beams (bmHome s b)) b
  let f := nth s.fb (bmInst s b)
  if src = 0 && (f.uncertain || f.spstat = 4 || f.spstat = 5) then some 0
  else if bmTimed s b && bmStaletime s b ≠ 0 && bmStaletime s b * usec ≤ s.now - m.lastUpd then some 1
  else if src = 1 && !s.mains.form && !s.mains.locked then some 2
  else if src = 2 && !s.net.sync then some 3
  else match bmPolbuoy s b with
    | some p => let x := nth s.buoys p; if (x.state = 1 || x.state = 2) && src ≠ 3 && src ≠ 4 then some 4 else none
    | none => none

/-- A beam's anchor at its current phase, cycle count and speed. -/
def hereAnchor (s : State) (d : Die) (b : Nat) : Anchor :=
  { p0 := beamPhase s d b s.now, cyc := beamCyc s d b s.now, speed := beamSpeed s d b, t0 := count s d, lim := none }

/-- An anchor that the far die must get too: UPD advances (R132, R573). -/
def setUpd (s : State) (d : Die) (b : Nat) (a : Anchor) : State :=
  (setAnchor s d b a).modBeam d b fun m => { m with upd := m.upd + 1 }

/-- The beams that take their phase from a beam under ALT take its new anchor, whatever its state (R135). -/
def moveFollowers (s : State) (d : Die) (b : Nat) : State :=
  let a := (nth (s.beams d) b).a
  ((List.range 8).filter fun b' => b' != b && (nth (s.beams d) b').supplier == some b).foldl (fun s b' => setUpd s d b' a) s

/-- A new anchor that is a source update. -/
def updAnchor (s : State) (d : Die) (b : Nat) (a : Anchor) : State := moveFollowers (setUpd s d b a) d b

/-- The policy of R135 applied at the entry into STALE: 0 HOLD, 1 SUBST, 2 ALT, 3 FAULTVAL of the companion buoy. -/
def stalePolicy (s : State) (d : Die) (b : Nat) : State :=
  let here := hereAnchor s d b
  let run (s : State) (a : Anchor) (sup : Option Nat) : State :=
    moveFollowers ((setAnchor s d b a).modBeam d b fun m => { m with subst := true, supplier := sup }) d b
  match bmPolbuoy s b with
  | none => run s here none
  | some p =>
    if byPolicy s p = 1 || byPolicy s p = 3 then
      run s { here with speed := wi (satS 32 (rndAway (((byValue s p).toInt : Rat) * pow2 (byScale s p)))) } none
    else if byPolicy s p = 2 then
      match altBeam s b with
      | some x => run s (nth (s.beams d) x).a (some x)
      | none => run s here none
    else run s here none

/-- A beam goes stale on its home die with the condition found. -/
def enterStale (s : State) (b cond : Nat) : State :=
  let d := bmHome s b
  let s1 := stalePolicy s d b
  let s2 := s1.modBeam d b fun m => { m with stale := true }
  if s.runs d then bmEvent s2 d b 1 (wd cond) else s2

/-- The stale evaluation of every beam on its home die (R134, R137). -/
def staleCheck (s : State) : State :=
  let one (s : State) (b : Nat) : State :=
    if bmOn s b && !(nth (s.beams (bmHome s b)) b).stale && bmSrc s b ≠ 3 && bmSrc s b ≠ 4 then
      match staleCond s b with
      | some c => enterStale s b c
      | none => s
    else s
  posCheck ((List.range 8).foldl one s)

/-- A beam leaves STALE. -/
def notStale (s : State) (b : Nat) : State :=
  (reignOn s (bmHome s b) b).modBeam (bmHome s b) b fun m => { m with stale := false, subst := false, supplier := none }

/-- A beam leaves STALE at a source update that finds no condition (R134). -/
def leaveStale (s : State) (b : Nat) : State :=
  if (nth (s.beams (bmHome s b)) b).stale && (staleCond s b).isNone then notStale s b else s

/-- The anchor that describes a directly computed beam at this cycle, with the law it runs by (R573). -/
def directAnchor (s : State) (b : Nat) : Anchor :=
  let d := bmHome s b
  let law : Law := match bmSrc s b with
    | 2 => .net (bmPeriod s b) (bmOffset s b).toNat (bmLatcomp s b) (netRun s)
    | 3 => .free (bmPeriod s b) (p0At s d)
    | _ =>
      let (gd, g) := bmGroup s b
      let gr := nth (s.pwm gd).grps g
      .carrier gr.k gr.bAt gr.per (grpPsrc s gd g == 2)
  let a : Anchor := { speed := directSpeed s b, law := law }
  if bmSrc s b = 4 then
    let (gd, g) := bmGroup s b
    let gr := nth (s.pwm gd).grps g
    { a with p0 := 0, cyc := BitVec.ofInt 16 ((gr.k : Int) - 1), t0 := gr.bt }
  else { a with p0 := wi (law.u s.now), cyc := anchorCyc s d a s.now, t0 := count s d }

/-- The cycle count nearest to the extrapolated one for a new phase: the step is a signed 32-bit difference (R130). -/
def stepU (u : Int) (p : Word) : Int := u + sdiff32 ((p.toNat : Int) - u)

/-- The jump check of a source update: the step from the extrapolated phase to the new one against JUMPLIM, but for the first update
after the beam has left STALE (R131). -/
def jumpCheck (s : State) (b : Nat) (left : Bool) (step : Int) : State :=
  if !left && bmJumplim s b ≠ 0 && bmJumplim s b * 65536 < step.natAbs && s.runs (bmHome s b) then
    bmEvent s (bmHome s b) b 2 (wi (shrHalfAway step 16))
  else s

/-- A directly computed beam's anchor is replaced as a source update (R573): the jump check, the leave of STALE, the anchor, and the
policy again while a NETTIME beam stays STALE (R137). -/
def directUpdate (s : State) (b : Nat) : State :=
  let d := bmHome s b
  let a := directAnchor s b
  let u := beamU s d b s.now
  let wasStale := (nth (s.beams d) b).stale
  let s := s.modBeam d b fun m => { m with lastUpd := s.now, adopted := true }
  let s := if wasStale && (bmSrc s b = 3 || bmSrc s b = 4) then notStale s b else leaveStale s b
  let s := jumpCheck s b (wasStale && !(nth (s.beams d) b).stale) (stepU u (wi (anchorAt s d a s.now)) - u)
  let s := updAnchor (s.modBeam d b fun m => { m with supplier := none }) d b a
  if (nth (s.beams d) b).stale then stalePolicy s d b else s

/-- A change of the rate of network time: the beams that run on it go on by the new rate, without a source update (R492, R573). -/
def nettimeRate (s : State) : State :=
  (List.range 8).foldl (fun s b =>
    match (nth (s.beams .cs) b).a with
    | { p0, cyc, speed, t0, lim, law := .net per off lat _ } =>
      setAnchor s .cs b { p0 := p0, cyc := cyc, speed := speed, t0 := t0, lim := lim, law := .net per off lat (netRun s) }
    | _ => s) s

/-- Every NETTIME beam takes a step of network time (R140, R573). -/
def nettimeStep (s : State) : State :=
  (List.range 8).foldl (fun s b => if bmOn s b && bmSrc s b = 2 then directUpdate s b else s) s

/-- The unwrapped phase that a source update of a phase at a local cycle count t0 stands for (R130). -/
def updateU (s : State) (b : Nat) (phase t0 : Word) : Int :=
  let d := bmHome s b
  stepU (beamU s d b (s.now + cdiff t0 (count s d))) phase

/-- A source update of phase and speed that stands for a local cycle count t0 (R127, R130, R131): the jump check, the
anchor, the leave of STALE. -/
def sourceUpdate (s : State) (b : Nat) (phase speed t0 : Word) (lim : Option Nat) : State :=
  let d := bmHome s b
  let m := nth (s.beams d) b
  let at_ : Int := s.now + cdiff t0 (count s d)
  let u := beamU s d b at_
  let v := updateU s b phase t0
  let wasStale := m.stale
  let s := s.modBeam d b fun m => { m with lastUpd := s.now, adopted := true }
  let s := leaveStale s b
  let left := wasStale && !(nth (s.beams d) b).stale
  let s := jumpCheck s b left (v - u)
  let s := s.modBeam d b fun m => { m with supplier := none }
  let s := updAnchor s d b { p0 := phase, cyc := BitVec.ofInt 16 (v / (2 ^ 32 : Nat)), speed := speed, t0 := t0
                             lim := if (nth (s.beams d) b).stale then none else lim }
  if (nth (s.beams d) b).stale then stalePolicy s d b else s

end Sys2Proof.Machine
end

