-- ==== Sys2Proof/Machine/UnitCore.lean ====
section
/-! DEFINITION. What the converter, gearbox and charging units do at a buoy update: telemetry samples and the crowbar
(R388, R392, R397), the actuator current limit (R439), SUPP (R416). -/

namespace Sys2Proof.Machine

/-! ## Converters -/

/-- A telemetry sample (R397, R398): sum and extremes. -/
def Tele.sample (x : Tele) (v : Int) : Tele :=
  { x with sum := x.sum + v, cnt := x.cnt + 1
           lo := wi (min x.lo.toInt v), hi := wi (max x.hi.toInt v) }

/-- The event of a converter cause that is counted in the counter of CONVDEF word 8 (R402). -/
def cvEvent (s : State) (i cause : Nat) (detail : Word) : State :=
  let s := s.modConv i fun x => { x with evt := orBit x.evt cause }
  countEvent s { key := ⟨.ds, 8, i, 0, i, cause⟩, cause := cause, w := fld (cvW s .ds i 8) 31 16, n := fld (cvW s .ds i 8) 7 0
                 detail := detail, early := false }

/-- A protection source of a converter latches and counts in its REACTROW's counter (R323, R402). -/
def cvLatch (s : State) (i cause : Nat) (detail : Word) : State :=
  let src := 0x80 + 8 * i + cause
  let r := (reactRow s src).getD []
  let s := s.modConv i fun x => { x with evt := orBit x.evt cause }
  latchPlain s src fun s =>
    countEvent s { key := srcKey src cause, cause := cause, w := fld (wat r 1) 31 16, n := fld (wat r 1) 7 0
                   detail := detail, early := false }

/-- An instance takes a state; REFR is 0 outside SOFTSTART and RUN (R384, R386). -/
def cvEnter (s : State) (i st : Nat) : State :=
  applyOverrides (s.modConv i fun x => { x with state := st, refr := if st = 1 || st = 2 then x.refr else 0 })

/-- An instance goes to OFF; it starts again only after ENABLE has read 0 at an evaluation, `seen` if at this one (R389, R391). -/
def cvOff (s : State) (i : Nat) (seen : Bool) : State := (cvEnter s i 0).modConv i fun x => { x with sawZero := seen }

/-- The converter unit receives an update of a buoy (R388, R392, R397). -/
def cvOnUpdate (s : State) (n : Nat) : State :=
  [0, 1, 2, 3].foldl (fun s i =>
    if !cvOn s i || !s.sys.dsReady then s
    else
      let v := (viewNow s .ds (cvVBuoy s i)).m
      let c := (viewNow s .ds (cvIBuoy s i)).m
      let s := if cvIBuoy s i = n then
          s.modConv i fun x => { x with ti := x.ti.sample c
                                        hitNow := x.hitNow || (cvLimSrc s i && decide (cvIlim s i ≤ c.natAbs)) }
        else s
      if cvVBuoy s i = n then
        let s := s.modConv i fun x => { x with tv := x.tv.sample v, tp := x.tp.sample (satS 32 (v * c)) }
        if cvOvp s i < v then cvLatch (cvEnter s i 5) i 1 (wi v) else s
      else s) s

/-! ## Gearbox (R432 to R443) -/

/-- The GXDRV of a pre-driver and the ACTDEF of an actuator. -/
def gxDrv (s : State) (g : Nat) : Option (List Word) := recBy (recsIn s .cs) sGEAR 1 18 16 g
def gxChan (s : State) (g : Nat) : Nat := fld (wat ((gxDrv s g).getD []) 0) 11 8
def gxAct (s : State) (g : Nat) : Nat := fld (wat ((gxDrv s g).getD []) 0) 1 0
def gxMode (s : State) (g : Nat) : Nat := fld (wat ((gxDrv s g).getD []) 1) 28 28
def actDef (s : State) (a : Nat) : Option (List Word) := recBy (recsIn s .cs) sGEAR 2 1 0 a
def actW (s : State) (a i : Nat) : Word := wat ((actDef s a).getD []) i

/-- The pre-drivers of an actuator in position order, ascending by number (assumption log 22), and their channels. -/
def actDrvs (s : State) (a : Nat) : List Nat := (List.range 8).filter fun g => (gxDrv s g).isSome && gxAct s g == a
def actChans (s : State) (a : Nat) : List Nat := (actDrvs s a).map (gxChan s ·)
def actGroup (s : State) (a : Nat) : Nat := chanGrp s .cs ((actChans s a).headD 0)
def actBldc (s : State) (a : Nat) : Bool := fld (actW s a 0) 29 28 == 0
def actPosCh (s : State) (a : Nat) : Nat := fld (actW s a 0) 11 8
def actFaulty (s : State) (a : Nat) : Bool := (actDrvs s a).any fun g => (nth s.gd g).vdsoc

/-- An event of an actuator (R445). -/
def actEvent (s : State) (a cause : Nat) (detail : Word) : State :=
  let s := s.modAct a fun x => { x with evt := orBit x.evt cause }
  countEvent s { key := ⟨.cs, 20, a, 1, a, cause⟩, cause := cause, w := fld (actW s a 4) 31 16, n := fld (actW s a 4) 7 0
                 detail := detail, early := false }

/-- The current limit of an actuator at an update of ICURBUOY; with a VDSOC latch a hit is not counted (R439, R442). -/
def gxOnUpdate (s : State) (n : Nat) : State :=
  [0, 1, 2].foldl (fun s a =>
    if (actDef s a).isNone || fld (actW s a 1) 8 0 ≠ n || !s.sys.ready then s
    else
      let i := (viewNow s .cs n).rat
      let hit := ((nth s.gact a).ilim.toInt : Rat) * pow2 (-8) < (if i < 0 then -i else i)
      if hit && !actFaulty s a then
        let s := s.modAct a fun x => { x with hitNow := true, limAt := some (x.limAt.getD s.now) }
        (actChans s a).foldl (fun s c => holdLow s .cs c true) s
      else s.modAct a fun x => { x with limAt := none, ocDone := false }) s

/-- DRIVE as the unit uses it: 0 while STALL holds it (R439). -/
def actDrive (s : State) (a : Nat) : Int :=
  let x := nth s.gact a
  if x.stalled then 0 else x.drive.toInt

/-- The Candle pattern of a BLDC actuator (R437, R438): 7 while nothing is driven or the hall code is invalid. -/
def actPattern (s : State) (a : Nat) : Nat :=
  let f := nth s.fb (actPosCh s a)
  let hofs := fld (actW s a 0) 19 16
  let d := actDrive s a
  if !actBldc s a || f.hallInv || f.unresLines ≠ 0 || d = 0 then 7
  else if 0 < d then (f.sector + hofs) % 6 else (f.sector + hofs + 3) % 6

/-- The FLOATs of an actuator follow its pattern at once (R437, R438, R289). -/
def actFloat (s : State) (a : Nat) : State :=
  let p := actPattern s a
  let s := s.modAct a fun x => { x with pattern := p, float := actBldc s a && p == 7 }
  (List.range (actChans s a).length).foldl (fun s k =>
    let c := (actChans s a).getD k 0
    let fl := actBldc s a && (p = 7 || patFloat p = k)
    s.modChan .cs c fun x => x.setFloat (chanMode s .cs c) (now16 s) fl) s

/-- A hall step of an actuator's position channel: FLOAT at once, COMMIT pending on its members (R437). -/
def actHallStep (s : State) (ch : Nat) : State :=
  [0, 1, 2].foldl (fun s a =>
    if (actDef s a).isSome && actBldc s a && actPosCh s a = ch then
      (actChans (actFloat s a) a).foldl (fun s c =>
        s.modChan .cs c fun x => x.setCommit s.now) (actFloat s a)
    else s) s

/-! ## Charging (R415, R416, R425) -/

/-- The CHPORT of a port and the CHAC record. -/
def chRec (s : State) (p : Nat) : Option (List Word) := recBy (recsIn s .cs) sCHARGE 1 24 24 p
def chW (s : State) (p i : Nat) : Word := wat ((chRec s p).getD []) i
def chAc (s : State) : Option (List Word) := (recsOf (recsIn s .cs) sCHARGE 2).head?
def chAcW (s : State) (i : Nat) : Word := wat ((chAc s).getD []) i

def chBms (s : State) (p : Nat) : Bool := bitOf (chW s p 0) 20
def chVBuoy (s : State) (p : Nat) : Nat := fld (chW s p 0) 8 0
def chVlimBuoy (s : State) (p : Nat) : Nat := fld (chW s p 1) 26 18
def chIlimBuoy (s : State) (p : Nat) : Nat := fld (chW s p 1) 17 9
def chIBuoy (s : State) (p : Nat) : Nat := fld (chW s p 1) 8 0
def chEnBuoy (s : State) (p : Nat) : Nat := fld (chW s p 2) 26 18
def chIsetBuoy (s : State) (p : Nat) : Nat := fld (chW s p 2) 17 9
def chVsetBuoy (s : State) (p : Nat) : Nat := fld (chW s p 2) 8 0

/-- The output buoys of the charging unit and the throttling factor's buoy: HOST buoys with the unit's own path (R406,
R457). -/
def unitBuoys (s : State) : List Nat :=
  ([0, 1].flatMap fun p => if (chRec s p).isSome then [chEnBuoy s p, chIsetBuoy s p, chVsetBuoy s p] else [])
    ++ (match recsOf (recsIn s .cs) sTHERMAL 2 with
        | w :: _ => if bitOf (wat w 2) 9 then [fld (wat w 2) 8 0] else []
        | [] => [])

/-- SUPP follows the output of the LV port's IBUOY; each rise counts (R416). -/
def suppCheck (s : State) : State :=
  let v := (chRec s 0).isSome && decide ((viewNow s .cs (chIBuoy s 0)).m < 0)
  if v = s.ac.supp then s
  else { s with ac := { s.ac with supp := v, suppCnt := if v then satInc16 s.ac.suppCnt else s.ac.suppCnt } }

end Sys2Proof.Machine
end

