-- ==== Sys2Proof/Machine/Offer.lean ====
section
/-! DEFINITION. A value is offered to a buoy (R67, R69 to R76), and what follows from an update on other units. -/

namespace Sys2Proof.Machine

/-- LASTVIOL codes and causes (R84, R85). -/
def vRANGE : Nat := 1
def vRATE : Nat := 2
def vTIMEOUT : Nat := 3

/-- A buoy's output before this cycle's events is kept for the readers of the cycle (R76). -/
def byTouch (s : State) (n : Nat) : State :=
  let b := nth s.buoys n
  if b.outAt = s.now && s.now ≠ 0 then s else
    let o := committed s n
    s.modBuoy n fun b => { b with prevOut := o, outAt := s.now }

/-- The window counter's bins up to now pass first (R76); a release lets a FAULT end with the next admitted value (R74,
R81). -/
def byRoll (s : State) (n : Nat) : State :=
  match ctrOf s (byKey s n) with
  | none => s
  | some c0 =>
    let c := c0.roll s.now
    let rel := c.releases
    let s := { s with ctrs := putCtr s.ctrs { c with declared := c.declared && !rel } }
    if rel then (release s c).modBuoy n fun b => { b with relWait := b.relWait || b.state == 2 } else s

/-- An event of a buoy: LASTVIOL, the counter; reaching N puts the buoy into FAULT (R73, R80). -/
def byEvent (s : State) (n viol : Nat) (detail : Word) : State :=
  let s := s.modBuoy n fun b => { b with lastViol := viol }
  let was := isDeclared s (byKey s n)
  let s := countEvent s { key := byKey s n, cause := viol, w := byWms s n, n := byWn s n, detail := detail, early := false }
  if !was && isDeclared s (byKey s n) then s.modBuoy n fun b => { b with state := 2, relWait := false } else s

/-- The filter of R71 on an admitted value, or seeded with one first. -/
def byFilter (s : State) (n : Nat) (seed : Option Word) (x : Word) (b : Buoy) : Buoy :=
  let k := byFparam s n
  let b := match seed with | some v => { b with hist := List.replicate (2 ^ k) v, y := v } | none => b
  match byFilt s n with
  | 1 =>
    let h := (x :: b.hist).take (2 ^ k)
    { b with hist := h, out := wi ((h.foldl (fun a v => a + v.toInt) 0) / (2 ^ k : Nat)) }
  | 2 =>
    let y := wi (b.y.toInt + (x.toInt - b.y.toInt) / (2 ^ k : Nat))
    { b with y := y, out := y }
  | _ => { b with out := x }

/-- Periods P since the last admitted update, or the start of page 0, rounded up (R70, R84). -/
def byPeriods (s : State) (n : Nat) : Nat :=
  let b := nth s.buoys n
  let from_ := if b.admitted then b.lastAt else s.t0.getD 0
  let p := byPeriod s n
  if p = 0 then 0 else (s.now - from_ + p - 1) / p

/-- What follows from a change of a buoy's state or output on the units that watch it. -/
def byFollow (s : State) : State := staleCheck (suppCheck (subCheck s))

/-- What follows from an update that its die's units receive: over-voltage level 3 (R334), back-EMF (R291), the converter
unit (R392), the gearbox unit (R439). -/
def byReceived (s : State) (d : Die) (n : Nat) : State :=
  match d with
  | .ds =>
    let s := if vdcBuoy s = n && (recsOf (recsIn s .ds) sREACT 3).length ≠ 0 && (ptCfg s 2).toInt < (viewNow s .ds n).m && s.sys.dsReady then
        let v := (wi (viewNow s .ds n).m).toNat % 65536
        let new := !isLatched s 0x51
        let s := latchFixed s 0x51 v
        if new then
          let q := match s.prot.latches.find? fun l => l.src == 0x51 with | some l => l.seqn | none => 0
          dsSingle s (direct .ds 6 0 0 0 2 (wd (q * 65536 + v)))
        else s
      else s
    let s := [0, 1].foldl (fun s m =>
      if machOn s m then [0, 1, 2].foldl (fun s k => if vBuoy s m k = n then bemfUpdate s m k else s) s else s) s
    cvOnUpdate s n
  | .cs => gxOnUpdate s n

/-- A value arrives at a buoy (R70), which in FAULT keeps the output it has (R74): `m` at exponent `e`, shifted to SCALE where the source has an exponent of its own. -/
def offer (s : State) (n : Nat) (m : Int) (e : Int) : State :=
  if !byOn s n then s
  else
    let s := byTouch (byRoll s n) n
    let b := nth s.buoys n
    let raw := rescale m e (byScale s n)
    let sat := satHits 32 raw
    let x := satS 32 raw
    let per := byPeriod s n
    let rejectWith (viol : Nat) : State :=
      let s := byEvent s n viol (wi x)
      let s := if byPolicy s n = 3 then s.modBuoy n fun b => { b with fvUntil := s.now + per } else s
      byFollow s
    if sat || x < byMin s n || byMax s n < x then rejectWith vRANGE
    else
      let noRate := !b.admitted || (b.state = 2 && b.relWait)
      let k := min (byTmo s n) (max 1 (byPeriods s n))
      if !noRate && byRate s n ≠ 0 && byRate s n * k < (x - b.last.toInt).natAbs then rejectWith vRATE
      else
        let now := curOut s n
        let seed : Option Word := if b.state = 2 && b.relWait then some (curOut s n) else if !b.admitted then some (wi x) else none
        let s := s.modBuoy n fun b =>
          let c := { b with last := wi x, lastAt := s.now, sampAt := s.now, tmoAt := s.now + byTmo s n * per, admitted := true }
          if b.state = 2 && !b.relWait then (if b.admitted then c else { c with out := now })
          else { byFilter s n seed (wi x) c with state := 0, relWait := false }
        byFollow (byReceived s (byHome s n) n)

/-- An integer source offers a value at the buoy's SCALE (R69). -/
def offerInt (s : State) (n : Nat) (m : Int) : State := offer s n m (byScale s n)

/-- Every buoy of a source kind and instance is offered a value (R68). -/
def offerAll (s : State) (src inst : Nat) (m : Int) : State :=
  ((List.range 512).filter fun n => byOn s n && bySrc s n == src && bySrcInst s n == inst).foldl (fun s n => offerInt s n m) s
where
  /-- SRCINST of a buoy. -/
  bySrcInst (s : State) (n : Nat) : Nat := byInst s n

end Sys2Proof.Machine
end

