-- ==== Sys2Proof/Machine/AcCore.lean ====
section
/-! DEFINITION. The charging unit's inputs and outputs, its watch on the AC port, and what its commands and timers share
(R405 to R421). -/

namespace Sys2Proof.Machine

/-- A port's state. -/
def portAt (s : State) (p : Nat) : Port_ := s.ports.getD p ⟨0, 0, 0, false, 0, false, 0, 0, 0, 0, 0, 0, 65536, 0, 0, 0⟩

/-- The AC port's state changed. -/
def State.modAc (s : State) (f : Ac → Ac) : State := { s with ac := f s.ac }

/-! ## Targets (R407, R408) -/

/-- F on the CS die (R456). -/
def chF (s : State) : Rat := (s.lamp.fCs : Rat) / 65536

/-- A buoy's output at the exponent of another buoy's SCALE. -/
def buoyAt (s : State) (n ref : Nat) : Rat := (viewNow s .cs n).rat * pow2 (-(byScale s ref))

/-- V and I of a port, mantissas at their buoys' SCALE. -/
def chV (s : State) (p : Nat) : Rat := ((viewNow s .cs (chVBuoy s p)).m : Rat)
def chI (s : State) (p : Nat) : Rat := ((viewNow s .cs (chIBuoy s p)).m : Rat)

/-- A CHPORT level. -/
def chLvl (s : State) (p i : Nat) : Rat := ((chW s p i).toInt : Rat)

/-- VREG_eff (R408). -/
def chVreg (s : State) (p : Nat) : Rat :=
  if chBms s p then min (chLvl s p 5) (max 0 (buoyAt s (chVlimBuoy s p) (chVBuoy s p))) else chLvl s p 5

/-- The phase current (R408). -/
def chPhaseCur (s : State) (p ph : Nat) : Rat := chLvl s p (if ph = 1 then 8 else if ph = 2 then 9 else 10)

/-- I_cmd in a phase (R408). -/
def chIcmd (s : State) (p ph : Nat) : Rat :=
  if chBms s p then min (chPhaseCur s p ph) (max 0 (buoyAt s (chIlimBuoy s p) (chIBuoy s p))) else chPhaseCur s p ph

/-- IDLEEN. -/
def chIdleEn (s : State) (p : Nat) : Bool := bitOf (chW s p 0) 16

/-- The first of a port's input buoys that is unusable (R410). -/
def chBad (s : State) (p : Nat) : Option Nat :=
  ([chVBuoy s p, chIBuoy s p] ++ if chBms s p then [chVlimBuoy s p, chIlimBuoy s p] else []).find? fun b => unusable s .cs b

/-- The start rule (R409). -/
def chStartPhase (s : State) (p : Nat) : Nat :=
  let v := chV s p
  if v < chLvl s p 3 then 1 else if v < chLvl s p 4 then 2 else if v < chVreg s p then 3 else 4

/-- HOTIME, HRAMP, GDTIME, GSETTLE and LOSSDET in cycles (R426). -/
def acHotime (s : State) : Nat := fld (chAcW s 1) 31 16 * msec
def acHramp (s : State) : Nat := fld (chAcW s 1) 15 0 * msec
def acGdtime (s : State) : Nat := fld (chAcW s 0) 15 8 * msec
def acGsettle (s : State) : Nat := fld (chAcW s 0) 7 0 * 10 * msec
def acLossdet (s : State) : Nat := fld (chAcW s 7) 15 0 * msec

/-! ## Outputs (R406, R407, R417 to R420) -/

/-- ISETBUOY during a hand-over: linear to 0 over HRAMP, with a STOP at 0 at once (R418, R423). -/
def acRamp (s : State) : Int :=
  let el := s.now - s.ac.lossAt
  if acHramp s ≤ el then 0
  else rndAway ((s.ac.rampFrom.toInt : Rat) * (1 - quo 418 el (acHramp s)))

/-- ENBUOY, ISETBUOY and VSETBUOY of a port. -/
def chOutputs (s : State) (p : Nat) : Bool × Int × Int :=
  let x := portAt s p
  if p = 1 && s.ac.handover && s.ac.ramping then (x.en, acRamp s, x.vset.toInt)
  else if p = 1 && s.ac.reverse then
    (true, rndAway (((chAcW s 9).toInt : Rat) * chF s), (chAcW s 8).toInt)
  else if p = 1 && !s.ac.acqual then (false, 0, 0)
  else if 1 ≤ x.phase && x.phase ≤ 5 then
    (true, rndAway (chIcmd s p x.phase * chF s), rndAway (chVreg s p))
  else if chIdleEn s p then (true, rndAway (chLvl s p 10 * chF s), (chW s p 7).toInt)
  else (false, 0, 0)

/-- ENBUOY offered. -/
def chOfferEn (s : State) (p : Nat) (en : Bool) : State :=
  offerInt (s.modPort p fun x => { x with en := en }) (chEnBuoy s p) (b2n en)

/-- The three values offered, if the port is configured and page 0 has started. -/
def chOffer (s : State) (p : Nat) : State :=
  if (chRec s p).isNone || !s.sys.ready then s
  else
    let (en, i, v) := chOutputs s p
    let s := chOfferEn s p en
    let s := offerInt (s.modPort p fun x => { x with iset := wi (satS 32 i) }) (chIsetBuoy s p) i
    offerInt (s.modPort p fun x => { x with vset := wi (satS 32 v) }) (chVsetBuoy s p) v

/-- ENBUOY offered at once where a rule sets it to 0 between evaluations (R406). -/
def chDrop (s : State) (p : Nat) : State :=
  if (chRec s p).isSome && s.sys.ready && (portAt s p).en && !(chOutputs s p).1 then chOfferEn s p false else s

/-! ## Events (R428) -/

/-- An event of a charge port in a fixed counter. -/
def chEvent (s : State) (p cause : Nat) (detail : Word) : State :=
  countEvent (s.modPort p fun x => { x with evt := orBit x.evt cause }) (direct .cs 19 p 0 p cause detail)

/-- An INLOST event, in the port's own counter. -/
def chInlost (s : State) (p buoy : Nat) : State :=
  countEvent (s.modPort p fun x => { x with evt := orBit x.evt 4 })
    { key := ⟨.cs, 19, p, 0, p, 4⟩, cause := 4, w := fld (chW s p 13) 15 0, n := fld (chW s p 14) 7 0
      detail := wd buoy, early := false }

/-- An event of the AC port. -/
def acEvent (s : State) (cause : Nat) (detail : Word) : State :=
  countEvent (s.modAc fun x => { x with evt := orBit x.evt cause }) (direct .cs 19 2 0 2 cause detail)

/-! ## The AC port (R417 to R421) -/

/-- PRESENT. -/
def acPresent (s : State) : Bool := (chAc s).isSome && decide ((chAcW s 3).toInt ≤ s.mains.amp.toInt)

/-- The conditions of qualification, outside reverse supply and hand-over (R417). -/
def acGood (s : State) : Bool :=
  !s.ac.reverse && !s.ac.handover && !s.mains.form && s.mains.locked
    && decide (s.mains.fdev.natAbs ≤ fld (chAcW s 6) 31 16)
    && decide ((chAcW s 4).toInt ≤ s.mains.amp.toInt) && decide (s.mains.amp.toInt ≤ (chAcW s 5).toInt)

/-- The deviation of R421. -/
def acDeviates (s : State) : Bool :=
  decide (fld (chAcW s 7) 31 16 < s.mains.e.natAbs) || decide (fld (chAcW s 6) 15 0 < s.mains.fdev.natAbs)

/-- Whether the unit acts on a loss: the HV port in a phase other than IDLE and FAULT, no hand-over running (R418, R419). -/
def acActs (s : State) : Bool :=
  !s.ac.handover && !s.ac.reverse && (portAt s 1).phase ≠ 0 && (portAt s 1).phase ≠ 9

/-- What the unit sees at an update of the mains PLL: presence, qualification, amplitude, grid; `lost` where LOCKED has just
cleared in TRACK. A loss of lock that starts a hand-over leaves the outputs to it. -/
def acWatch (s : State) (lost : Bool) : State :=
  if (chAc s).isNone then s
  else
    let t := s.now
    let s := s.modAc fun x =>
      { x with
        lastPres := if acPresent s then some t else x.lastPres
        lowAt := if s.mains.amp.toInt < (chAcW s 2).toInt then some (x.lowAt.getD t) else none
        lockDrop := lost && !s.ac.reverse
        qualAt := if acGood s then some (x.qualAt.getD t) else none
        acqual := x.acqual && acGood s
        gdevAt := if x.reverse && x.grid && acDeviates s then some (x.gdevAt.getD t) else none }
    if s.ac.lockDrop && acActs s then s else chDrop s 1

/-- The PLL to TRACK, REVERSE to 0, HV ENBUOY to 0 (R420, R421). -/
def acRevstop (s : State) : State :=
  let s := { s with mains := { s.mains with pendForm := false } }
  let s := s.modAc fun x => { x with reverse := false, grid := false, gdevAt := none }
  if (chRec s 1).isSome && s.sys.ready then chOfferEn s 1 false else s

/-- The answer to a command of R422: the access status and CH_CMDSTAT; status 0 OK, 1 STATE, 2 NOQUAL, 3 BMS, 4 SOURCE. -/
def chAnswer (s : State) (port st : Nat) : State :=
  let s := s.modAc fun x => { x with cmdStat := wd (st * 2 ^ 24 + port) }
  if st = 0 then s.ok [] else s.refuse st

/-- A session begins, or is retried: timers reset, the start phase (R409, R414). -/
def chBegin (s : State) (p : Nat) (retried : Bool) : State :=
  s.modPort p fun x =>
    { x with phase := chStartPhase s p, retried := retried, tcred := 0, treal := 0, tpre := 0, tterm := 0 }

/-- A port enters FAULT (R412, R414). -/
def chFault (s : State) (p cause : Nat) (detail : Word) : State :=
  let s := s.modPort p fun x =>
    { x with heldPh := if x.phase = 7 then x.heldPh else x.phase, phase := 9, lastEnd := 3 }
  chDrop (chEvent s p cause detail) p

end Sys2Proof.Machine
end

