-- ==== Sys2Proof/Machine/FbCore.lean ====
section
/-! DEFINITION. Speed from edges (R99 to R102), angles and offers of the feedback channels (R97, R116, R117). -/

namespace Sys2Proof.Machine

/-- An event of a feedback channel: each cause has one counter per channel (R117). -/
def fbEvent (s : State) (c cause elem : Nat) (detail : Word) : State :=
  let s := s.modFb c fun f => { f with evt := orBit f.evt cause }
  countEvent s { key := ⟨.cs, 13, c, 0, 0, cause⟩, cause := cause, elemN := some elem
                 w := fld (fbCfg s c 7) 31 16, n := fld (fbCfg s c 7) 7 0, detail := detail, early := false }

/-- GLITCH of a channel (R88, R121). -/
def fbGlitch (s : State) (c : Nat) : Nat :=
  if 2 ≤ c && c ≤ 5 then fld (fbCfg s c 2) 21 16
  else if c = 6 || c = 7 then fld (fbCfg s c 1) 5 0
  else if c = 8 || c = 9 then fld (fbCfg s c 1) 21 16
  else fld (fbCfg s c 0) 29 24

/-- The cycle of the first of the samples that an accepted edge needed (R88). -/
def edgeTime (s : State) (c : Nat) : Nat := s.now - fbGlitch s c

/-- CNTWIN in cycles. -/
def fbWin (s : State) (c : Nat) : Nat := fld (fbCfg s c 5) 7 0 * 4000

/-- TSTILL in cycles (R101). -/
def fbStill (s : State) (c : Nat) : Nat :=
  let t := fld (fbCfg s c 5) 25 16
  (if t = 0 then 50 else t) * msec

/-- The period-based speed in counts per second: the last k intervals (R99). -/
def speedP (h : SpeedHist) (perk : Nat) : Rat :=
  let k := min perk (h.edges.length - 1)
  match h.edges.head?, h.edges[k]? with
  | some a, some b =>
    if k = 0 || a.1 ≤ b.1 then 0
    else (((h.edges.take k).foldl (fun x e => x + e.2) 0 : Int) : Rat) * 400000000 / ((a.1 - b.1 : Nat) : Rat)
  | _, _ => 0

/-- The count-based speed over the last CNTWIN (R99). -/
def speedC (h : SpeedHist) (win t : Nat) : Rat :=
  if win = 0 then 0
  else (((h.edges.filter fun e => t < e.1 + win).foldl (fun x e => x + e.2) 0 : Int) : Rat) * 400000000 / (win : Rat)

/-- The blended speed in counts per second at a cycle (R99). -/
def speedV (s : State) (c t : Nat) : Rat :=
  let f := nth s.fb c
  let h := f.hist
  let cfg6 := fbCfg s c 6
  let lo := fld cfg6 15 0
  let hi := fld cfg6 31 16
  let vp := speedP h (fld (fbCfg s c 5) 12 8)
  let turn : Rat := vp / (max 1 (fbCounts s c) : Nat)
  let mag : Rat := (if turn < 0 then -turn else turn) * 16
  let w : Rat :=
    if t - h.validAt < fbWin s c || (lo = 0xFFFF && hi = 0xFFFF) then 0
    else if mag ≤ lo then 0 else if (hi : Rat) ≤ mag then 1 else (mag - lo) / ((hi : Rat) - lo)
  (1 - w) * vp + w * speedC h (fbWin s c) t

/-- Counts per second in the unit of R102, rounded half away from zero. -/
def speedReg (s : State) (c : Nat) (v : Rat) : Word := wi (satS 32 (rndAway (v * 256 / (max 1 (fbCounts s c) : Nat))))

/-- A speed limited to one clamp count over the time since the last edge (R100). -/
def speedClamp (s : State) (c t : Nat) (v : Rat) : Rat :=
  let dt := t - (nth s.fb c).hist.lastAt
  if dt = 0 then v
  else
    let m : Rat := (fbClampCount s c : Rat) * 400000000 / (dt : Rat)
    if v < 0 then max v (-m) else min v m

/-- The edges that later speeds can need: the last 16, and those within CNTWIN (R99). -/
def keptEdges (edges : List (Nat × Int)) (win te : Nat) : List (Nat × Int) :=
  edges.take 16 ++ (edges.drop 16).takeWhile fun e => te < e.1 + win

/-- A count of an edge channel goes through the speed rules (R99, R101): status, history and speed. -/
def speedEdge (s : State) (c te : Nat) (n : Int) : State :=
  let f := nth s.fb c
  let dir : Int := if n < 0 then -1 else 1
  let first (st : Nat) : SpeedHist × Nat := ({ edges := [(te, n)], dir := dir, validAt := te, lastAt := te }, st)
  let (h, st) :=
    if f.spstat = 2 || f.spstat = 3 then
      if f.hist.dir = dir then ({ f.hist with edges := (te, n) :: f.hist.edges, validAt := te, lastAt := te }, 0) else first 3
    else if f.spstat = 0 then
      if f.hist.dir = dir then
        ({ f.hist with edges := (te, n) :: keptEdges f.hist.edges (fbWin s c) te, lastAt := te }, 0)
      else first 3
    else first 2
  let s := s.modFb c fun f => { f with hist := h, spstat := st, dirNeg := dir < 0 }
  let v : Word := if st = 0 then speedReg s c (speedV s c te) else 0
  s.modFb c fun f => { f with speed := v, tstamp := countAt s .cs te }

/-- ANGLE of a channel (R97, R103). For a hall group the spec gives no formula; it is (PF_POS mod CPT) × 2^32 / CPT, rounded down
(DESIGN CHOICE, assumption log 176). -/
def fbAngle (s : State) (c : Nat) : Word :=
  let f := nth s.fb c
  let n := max 1 (fbCounts s c)
  if 2 ≤ c && c ≤ 5 then
    if fld (fbCfg s c 2) 1 0 = 3 then wd (f.pos.toNat * 2 ^ 32 / n)
    else
      let ref := if fld (fbCfg s c 2) 1 0 = 2 then f.loadRef else fbCfg s c 1
      wd ((((f.pos.toNat : Int) - (ref.toNat : Int)) % (n : Int)).toNat * 2 ^ 32 / n)
  else if c = 6 || c = 7 then wd (f.tooth.index * 2 ^ 32 / n) + fbCfg s c 2
  else if c = 10 || c = 11 then wd (f.pos.toNat % n * 2 ^ 32 / n)
  else f.angle

/-- The angle register follows the position. -/
def fbSetAngle (s : State) (c : Nat) : State := let a := fbAngle s c; s.modFb c fun f => { f with angle := a }

/-- The causes of a channel's counters. -/
def fbKeys (c : Nat) : List CtrKey := (List.range 13).map fun k => ⟨.cs, 13, c, 0, 0, k⟩

/-- Inputs of a channel with hysteresis (R88, R89): three lines of an encoder or hall group, one of a tooth wheel or SSI
channel. -/
def fbLines (c : Nat) : Nat := if c < 2 then 0 else if 6 ≤ c && c ≤ 9 then 1 else 7

/-- The unresolved inputs of a channel, in line order (R120). -/
def fbUnres (s : State) (c : Nat) : Nat := Nat.land (nth s.fb c).unresLines.toNat (fbLines c)

/-- PF_STAT (R120). -/
def fbStat (s : State) (c : Nat) : Word :=
  if !fbOn s c then 0x714
  else
    let f := nth s.fb c
    let wc := (fbKeys c).foldl (fun a k => max a (wcount s k)) 0
    wd (wc * 2 ^ 24 + atBit ((fbKeys c).any (isDeclared s ·)) 23 + atBit f.chkFail 19 + atBit f.lot 18 + atBit f.exc 17
      + atBit f.amp 16 + f.wdis.toNat * 4096 + fbUnres s c * 256 + atBit f.hallInv 7 + atBit f.dirNeg 6
      + atBit f.ref 5 + atBit f.uncertain 4 + f.spstat)

/-- The quantities of a channel are offered to their buoys (R116): the items named. -/
def fbOffer (s : State) (c : Nat) (items : List Nat) : State :=
  items.foldl (fun s i =>
    let f := nth s.fb c
    let v : Int := match i with
      | 0 => f.angle.toInt
      | 1 => f.speed.toInt
      | 2 => f.pos.toInt
      | 3 => (fbStat s c).toInt
      | _ => f.aux.toInt
    offerAll s 1 (16 * c + i) v) s

/-- Lines A and B of an encoder in trouble: UNRESOLVED (R89) or wire-disagree (R93). -/
def encBad (f : Fb) : Bool := f.unresLines.toNat % 4 ≠ 0 || f.wdis.toNat % 4 ≠ 0

/-- The smaller of r and r − CPT (R96). -/
def idxError (pos ref : Word) (cpt : Nat) : Int :=
  let n : Int := (max 1 cpt : Nat)
  let r := ((pos.toNat : Int) - (ref.toNat : Int)) % n
  if r.natAbs ≤ (r - n).natAbs then r else r - n

end Sys2Proof.Machine
end

