-- ==== Sys2Proof/Machine/Beams.lean ====
section
/-! DEFINITION. The meanings of the beam rows (chapter 05). -/

namespace Sys2Proof.Machine

/-! ## Source updates (R126 to R131) -/

/-- ±PF_ANGLE × PP + OFFSET (R126). -/
def fbPhase (s : State) (b : Nat) (angle : Word) : Word :=
  let x := wd (angle.toNat * bmPP s b)
  (if bmNeg s b then -x else x) + bmOffset s b

/-- ±PF_SPEED × PP, saturated (R126). -/
def fbSpeed (s : State) (b : Nat) (speed : Word) : Word :=
  let x := speed.toInt * bmPP s b
  wi (clampI (-(2 ^ 31 - 1)) (2 ^ 31 - 1) (if bmNeg s b then -x else x))

/-- PP × c channel counts in beam counts (R129). -/
def edgeRoom (s : State) (b : Nat) : Nat :=
  bmPP s b * fbClampCount s (bmInst s b) * 2 ^ 32 / max 1 (fbCounts s (bmInst s b))

/-- A speed-only update of an edge source: the anchor at the current phase, brought back to the edge limit where the beam
ran past it while stale, and the current cycle, with the new speed and what is left of the room beyond the last edge
(R129). -/
def speedOnly (s : State) (b : Nat) (speed : Word) : State :=
  let d := bmHome s b
  let here := hereAnchor s d b
  let m := nth (s.beams d) b
  let u : Int := beamU s d b s.now
  let sg : Int := if speed.toInt < 0 then -1 else 1
  let gone : Int := sg * (BitVec.ofInt 48 u - m.edgeU).toInt
  let s := s.modBeam d b fun m => { m with lastUpd := s.now }
  let s := (leaveStale s b).modBeam d b fun m => { m with supplier := none }
  let bounded := m.edgeIn && !(nth (s.beams d) b).stale
  let v := if bounded then u - sg * max 0 (gone - edgeRoom s b) else u
  let s := updAnchor s d b { here with
    p0 := wi v, cyc := BitVec.ofInt 16 (v / (2 ^ 32 : Nat)), speed := speed
    lim := if bounded then some ((edgeRoom s b : Int) - max 0 gone).toNat else none }
  if (nth (s.beams d) b).stale then stalePolicy s d b else s

/-- A source update of a FEEDBACK beam (R126 to R129): angle and speed at a new timestamp, for an edge source without a
new edge the speed alone; the first update of all takes the angle. -/
def fbSourceUpdate (s : State) (b : Nat) : State :=
  let d := bmHome s b
  let c := bmInst s b
  let f := nth s.fb c
  let m := nth (s.beams d) b
  let isEdge : Bool := 2 ≤ c && c ≤ 7
  let speed := fbSpeed s b f.speed
  if m.adopted && m.edgeT = f.tstamp then (if isEdge then speedOnly s b speed else s)
  else
    let ph := fbPhase s b f.angle
    let t0 := f.tstamp - wi (bmLatcomp s b)
    let v := updateU s b ph t0
    let s := sourceUpdate s b ph speed t0 (if isEdge then some (edgeRoom s b) else none)
    s.modBeam d b fun m => { m with edgeU := BitVec.ofInt 48 v, edgeT := f.tstamp, edgeIn := isEdge && f.spstat != 4 }

/-- Phase of the mains PLL (R138): θ of the detector is 0 at the positive peak, the beam's phase at the positive-going
zero crossing a quarter turn before. -/
def mainsPhase (s : State) (b : Nat) : Word := wd (s.mains.th / 2 ^ 32 + 2 ^ 30) + bmOffset s b

/-- A source update of the MAINS beam, stamped with the sample instant (R128, R138). -/
def mainsSourceUpdate (s : State) (b : Nat) : State :=
  sourceUpdate s b (mainsPhase s b) (wi (satS 32 (shrHalfAway s.mains.freq 24)))
    (countAt s .cs s.mains.inst - wi (bmLatcomp s b)) none

/-- BEAM_SOURCE_UPDATE: the source of a beam gives an update (R124, R126 to R131, R134, R137, R573). -/
def execBeamSourceUpdate (beam : Fin 8) (s : State) : Host.Outcome State Fault Refusal :=
  .next (
    let b := beam.val
    if !bmOn s b || !s.runs (bmHome s b) then s
    else staleCheck (match bmSrc s b with
      | 0 => fbSourceUpdate s b
      | 1 => mainsSourceUpdate s b
      | _ => directUpdate s b))

/-! ## Re-anchoring (R125, R573) -/

/-- The anchor moved on by 2^20 cycles: phase, cycle count and time of that cycle by R124, the speed and the law of the phase
unchanged (R125). -/
def anchorOn (a : Anchor) : Anchor :=
  let n : Int := (2 ^ 20 : Nat)
  let u := anchorU a n
  { a with p0 := wi u, cyc := BitVec.ofInt 16 (u / (2 ^ 32 : Nat)), t0 := a.t0 + wd (2 ^ 20)
           lim := a.lim.map fun l => l - (anchorDisp a n).natAbs }

/-- The cycle in which a die's anchor of a beam is 2^20 cycles old, on the home die of a FREE or NETTIME beam counted from its last
replacement (R125, R573); none where the die does not run or holds no anchor. -/
def reanchorDue (s : State) (d : Die) (b : Nat) : Option Nat :=
  let m := nth (s.beams d) b
  if !s.runs d || (bmHome s b != d && !m.adopted) then none
  else if bmHome s b == d && (bmSrc s b = 2 || bmSrc s b = 3) then some (m.lastUpd + 2 ^ 20)
  else some ((s.now : Int) + 2 ^ 20 - sinceT0 s d m.a s.now).toNat

/-- A die re-anchors a beam that is due; counts of the dies may differ by one (R27, R125). -/
def reanchorOn (s : State) (d : Die) (b : Nat) : State :=
  match reanchorDue s d b with
  | none => s
  | some t =>
    if bmHome s b == d && (bmSrc s b = 2 || bmSrc s b = 3) then (if t ≤ s.now then directUpdate s b else s)
    else if t ≤ s.now + 2 then setAnchor s d b (anchorOn (nth (s.beams d) b).a) else s

/-- BEAM_REANCHOR: on one of the dies 2^20 cycles have passed without a source update (R125); for FREE and NETTIME beams the home
die's anchor is replaced as a source update instead (R573). -/
def execBeamReanchor (beam : Fin 8) (s : State) : Host.Outcome State Fault Refusal :=
  .next (
    let b := beam.val
    let d := bmHome s b
    if !bmOn s b then s
    else match minOpt (reanchorDue s d b) (reanchorDue s d.other b) with
      | none => s
      | some t => reanchorOn (reanchorOn (s.advanceTo t) d b) d.other b)

/-! ## Stale (R134, R135) -/

/-- BEAM_STALE_TIMEOUT: a resolver, SSI or MAINS source has given no update for STALETIME (R134, R135). -/
def execBeamStaleTimeout (beam : Fin 8) (s : State) : Host.Outcome State Fault Refusal :=
  .next (
    let b := beam.val
    if bmOn s b && bmTimed s b && bmStaletime s b ≠ 0 && s.runs (bmHome s b) then
      staleCheck (s.advanceTo ((nth (s.beams (bmHome s b)) b).lastUpd + bmStaletime s b * usec))
    else s)

/-! ## The mains loop (R138, R139) -/

/-- The MAINS beam. -/
def mainsBeam (s : State) : Option Nat := (List.range 8).find? fun b => bmOn s b && bmSrc s b == 1

/-- Nominal frequency of the mains beam in Hz. -/
def mainsNom (s : State) (b : Nat) : Nat := if bitOf (bmW s b 6) 19 then 60 else 50

/-- One step of the generalised integrator and the detector (R138; assumption log 25): the components, the phase error in
turns, the amplitude, the port's frequency. -/
structure MainsDet where
  va  : Int
  vb  : Int
  e   : Rat
  amp : Rat
  f   : Rat

def mainsDetect (s : State) (b : Nat) : MainsDet :=
  let x := s.mains
  let n := fld (bmW s b 6) 8 0
  let v : Rat := (((committed s n).toInt * 65536 : Int) : Rat)
  let t : Rat := 1 / 100000
  let f : Rat := (x.freq : Rat) / ((2 ^ 32 : Nat) : Rat)
  let w := 2 * ((piQ : Rat) / ((2 ^ 96 : Nat) : Rat)) * f
  let va := rndAway ((x.va : Rat) + t * w * ((1414 : Rat) / 1000 * (v - x.va) - x.vb))
  let vb := rndAway ((x.vb : Rat) + t * w * va)
  let m := sqrtR ((va * va + vb * vb : Int) : Rat)
  let m0 := sqrtR ((x.va * x.va + x.vb * x.vb : Int) : Rat)
  let twoPi := 2 * ((piQ : Rat) / ((2 ^ 96 : Nat) : Rat))
  { va := va, vb := vb
    e := quo 138 ((vb : Rat) * cosR x.th - (va : Rat) * sinR x.th) (twoPi * m)
    amp := m
    f := quo 139 ((x.va * vb - x.vb * va : Int) : Rat) (twoPi * t * m * m0) }

/-- One update of the loop: in TRACK the error steers frequency and θ, in FORM the frequency is the nominal one (R138,
R139). The mode set since the last update takes effect first. -/
def mainsStep (s : State) (b : Nat) : Mains :=
  let x0 := s.mains
  let nom := mainsNom s b
  let q32 : Int := (2 ^ 32 : Nat)
  let entering := x0.form && !x0.pendForm
  let x : Mains := { x0 with form := x0.pendForm
                             freq := if x0.at10 = 0 || x0.pendForm then nom * q32 else x0.freq
                             locked := x0.locked && !entering, lockRun := if entering then 0 else x0.lockRun }
  let d := mainsDetect { s with mains := x } b
  let mbw : Rat := 2 * ((piQ : Rat) / ((2 ^ 96 : Nat) : Rat)) * (fld (bmW s b 6) 31 24 : Nat)
  let t : Rat := 1 / 100000
  let fr : Int := fld (bmW s b 6) 23 20
  let freq := if x.form then nom * q32
    else clampI ((nom - fr) * q32) ((nom + fr) * q32) (x.freq + rndAway (mbw * mbw * d.e * t * (q32 : Rat)))
  let rate : Rat := (freq : Rat) / (q32 : Rat) + (if x.form then 0 else (1414 : Rat) / 1000 * mbw * d.e)
  let inBand : Bool := let tol : Rat := (fld (bmW s b 6) 18 12 : Nat) / 1024; -tol < d.e && d.e < tol
  let run := if inBand then min (100 * 255) (x.lockRun + 1) else 0
  { x with
    freq := freq, va := d.va, vb := d.vb
    th := (((x.th : Int) + rndAway (rate * t * ((2 ^ 64 : Nat) : Rat))) % (2 ^ 64 : Nat)).toNat
    e := clampI (-32768) 32767 (rndAway (d.e * 65536))
    fdev := clampI (-32768) 32767 (if x.form then rndAway ((d.f - nom) * 256) else shrHalfAway (freq - nom * q32) 24)
    amp := wi (satS 32 (rndAway (d.amp / 65536)))
    lockRun := run, locked := inBand && (x.locked || 100 * fld (bmW s b 5) 7 0 ≤ run) }

/-- MAINS_PLL_UPDATE: every 10 µs the loop updates and evaluates lock; a loss of LOCKED in TRACK counts MNLOCK (R138,
R139, R145). -/
def execMainsPllUpdate (s : State) : Host.Outcome State Fault Refusal :=
  .next (match mainsBeam s with
    | none => s
    | some b =>
      if !s.sys.ready then s
      else
        let s := s.advanceTo ((if s.mains.at10 = 0 then s.t0.getD 0 else s.mains.at10) + 4000)
        let was := s.mains.locked && !(s.mains.form && !s.mains.pendForm)
        let x := { mainsStep s b with lockedWas := s.mains.locked, at10 := s.now, inst := (nth s.buoys (fld (bmW s b 6) 8 0)).sampAt }
        let s := { s with mains := x }
        let s := if was && !x.locked && !x.form then bmEvent s .cs b 3 (wi x.e) else s
        acWatch (staleCheck s) (was && !x.locked && !x.form))

/-! ## Reads (R137, R146) -/

/-- A beam as it was at the end of the cycle before. -/
def Beam.committed (m : Beam) (now : Nat) : Beam :=
  let r := m.reign ((now : Int) - 1)
  let m := { m with a := r.a }
  if m.oldAt = now then
    { m with stale := m.old.stale, subst := m.old.subst, supplier := m.old.supplier, upd := m.old.upd, far := m.old.far, evt := m.old.evt }
  else m

/-- The state with a die's beams, and what their LOCKED bits show, as they were at the end of the cycle before (R137). -/
def beamsCommitted (s : State) (d : Die) : State :=
  let s := s.setBeams d ((s.beams d).map fun m => m.committed s.now)
  { s with mains := if s.mains.at10 = s.now then { s.mains with locked := s.mains.lockedWas } else s.mains
           net := if s.net.syncAt = s.now then { s.net with sync := !s.net.sync } else s.net }

/-- A read of the phase register latches the speed, cycle count and status that go with it, all of the end of the cycle before
(R137), and the count of the latching read (R146). -/
def bmLatch (s : State) (d : Die) (b : Nat) : State :=
  let c := beamsCommitted s d
  let t : Int := (s.now : Int) - 1
  s.modBeam d b fun m =>
    { m with latSpeed := beamSpeed c d b
             latCyc := wd ((beamStatus c d b t).toNat * 65536 + (beamCyc c d b t).toNat)
             latRdt := countAt s d s.now }

/-- BMPHASE_READ: a read of PF_BMPHASE (CS) or LH_BMPHASE (DS) returns the phase at the end of the cycle before and
latches what goes with it (R137, R146). -/
def execBmphaseRead (die : Die) (beam : Fin 8) (s : State) : Host.Outcome State Fault Refusal :=
  .next (regGate s die fun s =>
    (bmLatch s die beam.val).ok [beamPhase (beamsCommitted s die) die beam.val ((s.now : Int) - 1)])

end Sys2Proof.Machine
end

