-- ==== Sys2Proof/Machine/Buoys.lean ====
section
/-! DEFINITION. The meanings of the buoy and window-counter rows (chapter 03). -/

namespace Sys2Proof.Machine

/-- Whether a path belongs to a buoy's source (R67, R68, R406). -/
def pathOk (s : State) (n : Nat) (p : SrcPath) : Bool :=
  let src := bySrc s n
  let unit := (unitBuoys s).contains n
  match p with
  | .adc => src == 0
  | .feedback => src == 1
  | .can => src == 2
  | .host => src == 3 && !unit
  | .temp => src == 4
  | .datapath => src == 5
  | .unitPath => src == 3 && unit

/-- Whether a path carries an exponent of its own (R69). -/
def pathExp (p : SrcPath) : Bool := match p with | .host | .datapath | .unitPath => true | _ => false

/-- BUOY_UPDATE: a value arrives at a buoy by a path; by any path but the source's it has no effect (R67, R70). -/
def execBuoyUpdate (b : Fin 512) (path : SrcPath) (m : Word) (e : Byte) (s : State) :
    Host.Outcome State Fault Refusal :=
  .next (if pathOk s b.val path then offer s b.val m.toInt (if pathExp path then e.toInt else byScale s b.val) else s)

/-- Periods P since the last admitted update as DETAIL of TIMEOUT counts them (R84). -/
def tmoDetail (s : State) (n : Nat) : Word := wd (byPeriods s n)

/-- When a buoy's next timeout expires (R72). -/
def byDue (s : State) (n : Nat) : Nat :=
  let b := nth s.buoys n
  if b.admitted || b.tmoAt ≠ 0 then b.tmoAt else s.t0.getD 0 + byTmo s n * byPeriod s n

/-- BUOY_TIMEOUT: no update has been admitted for TMO × P: a TIMEOUT event, VALID becomes STALE (R72 to R74). -/
def execBuoyTimeout (b : Fin 512) (s : State) : Host.Outcome State Fault Refusal :=
  .next (
    let n := b.val
    if byOn s n && s.runs (byHome s n) then
      let due := byDue s n
      let s := s.advanceTo due
      let s := byTouch (byRoll s n) n
      let s := s.modBuoy n fun b => { b with state := if b.state = 0 then 1 else b.state, tmoAt := due + byTmo s n * byPeriod s n }
      byFollow (byEvent s n vTIMEOUT (tmoDetail s n))
    else s)

/-- BY_WEXP_WRITE: the Keeper offers BY_WMANT × 2^E to a HOST buoy as one update; refused with SRC for any other buoy
(R67, R76, R85, R406). -/
def execByWexpWrite (b : Fin 512) (e : Byte) (s : State) : Host.Outcome State Fault Refusal :=
  .next (writeGate s .cs fun s =>
    if byOn s b.val && pathOk s b.val .host then (offer s b.val (nth s.buoys b.val).wmant.toInt e.toInt).ok []
    else s.refuse 0x10)

/-- Superframes between two refreshes of a mirrored buoy (R15). -/
def mirInterval (s : State) (d : Die) : Nat :=
  let n := ((List.range 256).filter fun k => byOn s k && byMirror s k && byHome s k == d).length
  (n + 6) / 7

/-- MIRROR_STALE: a mirrored copy that has not been refreshed within four times its refresh interval goes stale and
holds its value (R77). -/
def execMirrorStale (b : Fin 256) (s : State) : Host.Outcome State Fault Refusal :=
  .next (
    let n := b.val
    if byOn s n && byMirror s n && !(nth s.buoys n).mstale then
      let s := s.advanceTo ((nth s.buoys n).mAt + 4 * mirInterval s (byHome s n) * 80)
      byFollow (s.modBuoy n fun b => { b with mstale := true })
    else s)

/-- What a released buoy counter changes on its buoy (R74, R81). -/
def relBuoy (s : State) (k : CtrKey) : State :=
  if k.sub = 14 then
    let n := k.unit * 256 + k.elem
    s.modBuoy n fun b => { b with relWait := b.relWait || b.state == 2 }
  else s

/-- WINDOW_BIN_ROLLOVER: a counter moves to its next bin; a declared one whose count falls to 0 is released (R79, R81). -/
def execWindowBinRollover (k : CtrKey) (s : State) : Host.Outcome State Fault Refusal :=
  .next (match ctrOf s k with
    | none => s
    | some c =>
      let s := s.advanceTo (c.binAt + c.binLen)
      let c := c.roll s.now
      let rel := c.releases
      let s := { s with ctrs := putCtr s.ctrs { c with declared := c.declared && !rel } }
      if rel then byFollow (relBuoy (release s c) k) else s)

end Sys2Proof.Machine
end

