-- ==== Sys2Proof/Machine/StoreCore.lean ====
section
/-! DEFINITION. The non-volatile store as the Keeper reads and writes it (R38, R39, R532). -/

namespace Sys2Proof.Machine

/-- An event of the store counted (R39). -/
def nvEvent (s : State) (cause w n : Nat) : State := countEvent s.useFree (nvEv s cause w n)

/-- A store write of bytes at an address of the window: refused while VCS_NV is out of range; each 64-bit word is read back,
and one that does not hold what was written fails the write with NVWRITE. -/
def storeWrite (s : State) (a : Nat) (bs : List Byte) : State × Bool :=
  if bs.length = 0 then (s, true)
  else if !s.sup.csOk.getLsbD 2 then (nvEvent s 3 1 1, false)
  else
    let put (m : List Host.Cell) (i : Nat) : List Host.Cell :=
      if s.nv.worn.contains ((a + i) / 8) then m else memPut m (a + i) (bs.getD i 0)
    let mem := (List.range bs.length).foldl put s.mem
    let good := (List.range bs.length).all fun i => memGet mem (a + i) == bs.getD i 0
    let flips := s.nv.flips.filter fun f => f.1 < a / 8 || (a + bs.length - 1) / 8 < f.1
    let s := { s with mem := mem, nv := { s.nv with flips := flips } }
    if good then (s, true) else (nvEvent s 3 1 1, false)

/-- The state of a 64-bit word's code: 0 good, 1 corrected, 2 uncorrectable. -/
def wordState (s : State) (w : Nat) : Nat :=
  match s.nv.flips.find? fun f => f.1 == w with
  | some (_, n) => if n = 0 then 0 else if n = 1 then 1 else 2
  | none => 0

/-- The content of the boot area as numbers: each copy of the boot record and of the key table with its generation count. -/
def bootImage (s : State) : List Nat :=
  let rec_ (c : BootCopy) : List Nat :=
    [c.gen, b2n c.crcOk, b2n c.boot.prefer, b2n c.boot.trial, b2n c.boot.attempted, c.boot.floor.toNat, b2n c.boot.isSealed]
  let tab (c : KeyCopy) : List Nat := [c.gen, b2n c.crcOk] ++ c.keys.flatMap fun k => [k.state, k.roles.toNat] ++ k.xy.map (·.toNat)
  tab s.nv.keysA ++ tab s.nv.keysB ++ rec_ s.nv.bootA ++ rec_ s.nv.bootB

/-- A byte of the store as it is stored: of the boot area by its content, elsewhere the byte of memory (R38). -/
def storeByte (s : State) (a : Nat) : Byte :=
  if storeBase ≤ a && a < storeBase + 0x10000 then Config.bootByte (bootImage s) (a - storeBase) else memGet s.mem a

/-- The words of a range that were read through the code: a corrected word counts NVCORR, an uncorrectable one raises NVUNC
(R39). -/
def codeEvents (s : State) (lo hi : Nat) : State :=
  let (wc, nc) := wparam s 22 1 60000 16
  (s.nv.flips.filter fun f => lo ≤ f.1 && f.1 < hi).foldl (fun s f =>
    if f.2 = 0 then s else if f.2 = 1 then nvEvent s 1 wc nc else nvEvent s 2 1 1) s

/-- A store read of n bytes: a corrected word counts NVCORR, an uncorrectable one raises NVUNC and reads as free values; the
word, if any, that is uncorrectable. -/
def storeRead (s : State) (a n : Nat) : State × List Byte × Option Nat :=
  if n = 0 then (s, [], none)
  else
    let ws := (List.range ((a + n - 1) / 8 - a / 8 + 1)).map (a / 8 + ·)
    let (wc, nc) := wparam s 22 1 60000 16
    let s1 := ws.foldl (fun s w => if wordState s w = 1 then nvEvent s 1 wc nc else s) s
    let s2 := ws.foldl (fun s w => if wordState s w = 2 then nvEvent s 2 1 1 else s) s1
    let bad := ws.find? fun w => wordState s w == 2
    let byte (i : Nat) : Byte :=
      if wordState s ((a + i) / 8) = 2 then (Config.freeWord (s2.freeCtr + i)).truncate 8 else storeByte s (a + i)
    let s3 := if bad.isSome then { s2 with freeCtr := s2.freeCtr + n } else s2
    (s3, (List.range n).map byte, bad)

end Sys2Proof.Machine
end

