-- ==== Sys2Proof/Machine/EngCore.lean ====
section
/-! DEFINITION. A Lantern engine as it computes (chapter 07) and a pair as it compares and recovers (chapter 08). -/

namespace Sys2Proof.Machine

/-! ## Records and parameter blocks (R46, R207, R208, R233) -/

/-- The PAIR record of a pair. -/
def pairRec (s : State) (d : Die) (p : Nat) : Option (List Word) :=
  (recsOf (recsIn s d) sENGINE 1).find? fun w => fld (wat w 0) 24 24 == d.bit && fld (wat w 0) 18 16 == p

def pairSafe (s : State) (d : Die) (p : Nat) : Bool := bitOf (wat ((pairRec s d p).getD []) 0) 1
def pairSplit0 (s : State) (d : Die) (p : Nat) : Bool := bitOf (wat ((pairRec s d p).getD []) 0) 0
def pairLane (s : State) (d : Die) (p : Nat) : Nat := fld (wat ((pairRec s d p).getD []) 1) 1 0

/-- Pairs and engines of a die. -/
def pairCount : Die → Nat
  | .cs => 4
  | .ds => 8

def engCount : Die → Nat
  | .cs => 8
  | .ds => 16

/-- Whether the engines of a pair compute as one: merged, or broken out of lockstep by a debug halt (R231; assumption
log 26). -/
def twin (s : State) (d : Die) (p : Nat) : Bool :=
  let x := nth (s.pairs d) p
  x.mode == 0 || (x.mode == 3 && !x.apart)

/-- The engine whose parameter block an engine uses (R189). -/
def blkOf (s : State) (d : Die) (e : Nat) : Nat := if twin s d (e / 2) then e / 2 * 2 else e

/-- Word i of the block in effect for an engine. -/
def blkW (s : State) (d : Die) (e i : Nat) : Word := memWord s.mem (parBase d (blkOf s d e) + 4 * i)

/-- IEXPi and OEXP. -/
def iexp (s : State) (d : Die) (e i : Nat) : Int := sfld (blkW s d e (i / 4)) (8 * (i % 4) + 7) (8 * (i % 4))
def oexp (s : State) (d : Die) (e : Nat) : Int := sfld (blkW s d e 2) 7 0

/-- The words of set n of an engine's block. -/
def setWords (s : State) (d : Die) (e n : Nat) : List Word := (List.range 32).map fun k => blkW s d e (64 + 32 * n + k)

/-- Stages of a set (R163, R190). -/
def stagesOf (act : List Word) : Nat :=
  let w := wat act 0
  if bitOf w 31 then 1 else 1 + b2n (bitOf w 0) + b2n (bitOf w 1) + b2n (bitOf w 2)

/-- A coefficient: mantissa word and shift byte (R191). -/
def coef (act : List Word) (i sw hi lo : Nat) : Rat := ((wat act i).toInt : Rat) * pow2 (sfld (wat act sw) hi lo - 31)

/-! ## Number format (R194, R195) -/

/-- floor(log2) of a positive rational. -/
def log2R (q : Rat) : Int :=
  let a : Int := (Nat.log2 q.num.natAbs : Int) - (Nat.log2 q.den : Int)
  if pow2 a ≤ q then a else a - 1

/-- A link value rounded to 48 bits, and whether it overflowed (R194). -/
def link (q : Rat) : Rat × Bool :=
  if q = 0 then (0, false)
  else
    let a : Rat := if q < 0 then -q else q
    let e0 := log2R a - 45
    let m0 := mantOf q e0
    let (m, e) := if m0.natAbs = 2 ^ 46 then ((if m0 < 0 then -(2 ^ 45) else 2 ^ 45 : Int), e0 + 1) else (m0, e0)
    if 127 < e then (((if m < 0 then -(2 ^ 46 - 1) else 2 ^ 46 - 1 : Int) : Rat) * pow2 127, true)
    else if e < -128 then (0, false)
    else ((m : Rat) * pow2 e, false)

/-- A block's exponent and mantissas, and whether it overflowed (R195). -/
def normBlock (vs : List Rat) (old : Int) : Int × List Int × Bool :=
  if vs.all (· == 0) then (old, vs.map fun _ => 0, false)
  else
    match (List.range 64).find? fun k => vs.all fun v => (mantOf v ((k : Int) - 32)).natAbs < 2 ^ 30 with
    | some k => ((k : Int) - 32, vs.map (mantOf · ((k : Int) - 32)), false)
    | none => (31, vs.map fun v => clampI (-(2 ^ 31 - 1)) (2 ^ 31 - 1) (mantOf v 31), true)

/-! ## The control law (R196 to R199, R204) -/

/-- State variables as values. -/
structure EngSt where
  rs : Rat
  ym : Rat
  b  : List Rat
  i  : Rat
  d  : Rat
  xp : Rat
  w  : Rat

/-- The block exponents in order SLEW, ERR, PID, OLIM. -/
def bexpOf (e : Eng) (k : Nat) : Int := (nth e.bexp k).toInt

/-- The state variables an engine holds. -/
def stOf (e : Eng) : EngSt :=
  let v (j k : Nat) : Rat := ((wat e.st j).toInt : Rat) * pow2 (bexpOf e k)
  { rs := v 0 0, ym := v 1 1, b := (List.range 16).map fun k => v (2 + k) 1, i := v 18 2, d := v 19 2, xp := v 20 2, w := v 21 3 }

/-- The external saturation flags SATH and SATL of an engine's SATSRC (R198). -/
def satFlags (s : State) (d : Die) (e : Nat) (act : List Word) : Bool × Bool :=
  if d == .cs || 4 ≤ e then (false, false)
  else
    let m0 := nth s.mach 0
    let m1 := nth s.mach 1
    match fld (wat act 0) 23 20 with
    | 1 => (m0.satDH, m0.satDL)
    | 2 => (m0.satQH, m0.satQL)
    | 3 => (m1.satDH, m1.satDL)
    | 4 => (m1.satQH, m1.satQL)
    | 5 => (m0.satAH, m0.satAL)
    | 6 => (m1.satAH, m1.satAL)
    | _ => (false, false)

/-- What one RUN computes: the engine after it, the PLAUS detail if the residual fails, the stages marked (R212). -/
structure RunOut where
  eng   : Eng
  plaus : Option Word
  marks : Nat
  lsat  : Bool

/-- Clamping of rationals. -/
def clampR (lo hi x : Rat) : Rat := max lo (min hi x)

/-- One RUN of an engine on captured inputs and saturation flags (R196). -/
def runEval (x : Eng) (ie : Nat → Int) (oe : Int) (inp : List Int) (satH satL : Bool) : RunOut :=
  let act := x.act
  let w0 := wat act 0
  let isModel := bitOf w0 31
  let v (k : Nat) : Rat := ((inp.getD k 0 : Int) : Rat) * pow2 (ie k)
  let kp := coef act 1 10 7 0
  let ki := coef act 2 10 15 8
  let kd := coef act 3 10 23 16
  let ad := coef act 4 10 31 24
  let kb := coef act 5 11 7 0
  let kf := coef act 6 11 15 8
  let am := coef act 7 11 23 16
  let gm := coef act 8 11 31 24
  let lm := coef act 9 12 7 0
  let at_ (i : Nat) (e : Int) : Rat := ((wat act i).toInt : Rat) * pow2 e
  let (g, _) := link (clampR 0 2 (v 7))
  let don := bitOf w0 4
  let s0 := stOf x
  let s1 : EngSt := if x.initPend then
      { rs := v 1, ym := v 1, b := List.replicate 16 (v 1), i := v 5, d := 0, xp := if don then -(v 1) else 0, w := 0 }
    else s0
  let settle0 := if x.initPend then fld w0 19 12 else x.settle
  let rs := if bitOf w0 0 then s1.rs + clampR (-(at_ 14 (ie 0))) (at_ 13 (ie 0)) (v 0 - s1.rs) else v 0
  let (e, oE) := link (rs - v 1)
  -- model
  let model := bitOf w0 6
  let (um, o1) := link (if isModel then v 6 else (x.latch.toInt : Rat) * pow2 oe)
  let b := (gm * um) :: s1.b.take 15
  let (gd, o2) := link (b.getD (fld w0 27 24) 0)
  let (yh, o3) := link (s1.ym + am * (gd - s1.ym))
  let (rho, o4) := link (v 1 - yh)
  let rth := at_ 17 (ie 1)
  let ym := yh + lm * clampR (-rth) rth rho
  let plaus := model && settle0 = 0 && (rth < rho || rho < -rth)
  let resid := wi (satS 32 (mantOf rho (ie 1)))
  -- PID
  let enpid := bitOf w0 1
  let (xx, o5) := link (if don then -(v 1) else e)
  let (di0, o6) := link (g * ki * e)
  let stop := bitOf w0 5 && ((0 < di0 && (s1.w < 0 || satH)) || (di0 < 0 && (0 < s1.w || satL)))
  let di := if stop then 0 else di0
  let i := s1.i + di + kb * s1.w
  let dd := ad * s1.d + g * kd * (xx - s1.xp)
  let (vp, o7) := link (g * kp * e + i + dd)
  let vv := if enpid then vp else e
  let (uu, o8) := link (vv + kf * v 2)
  -- OLIM
  let enol := bitOf w0 2
  let (hi, o9) := link (min (at_ 16 oe) (v 3))
  let (lo, o10) := link (max (at_ 15 oe) (v 4))
  let (u, o11) := link (if enol then min (max uu lo) hi else uu)
  let w := if enol then u - uu else 0
  let s2 : EngSt :=
    { rs := rs, ym := if model then ym else s1.ym, b := if model then b else s1.b
      i := if enpid && !isModel then i else s1.i
      d := if enpid && !isModel then dd else s1.d
      xp := if isModel then s1.xp else if enpid then xx else e
      w := if isModel then s1.w else w }
  let (b0, m0, f0) := normBlock [s2.rs] (bexpOf x 0)
  let (b1, m1, f1) := normBlock (s2.ym :: s2.b) (bexpOf x 1)
  let (b2, m2, f2) := normBlock [s2.i, s2.d, s2.xp] (bexpOf x 2)
  let (b3, m3, f3) := normBlock [s2.w] (bexpOf x 3)
  let out := mantOf (if isModel then ym else u) oe
  let lsat := satHits 32 out
  let loop (q : Bool) : Bool := q && !isModel
  let withheld := loop (enpid && stop)
  let clipped := loop (w != 0)
  let evt0 := x.evt
  let evt1 := if lsat then orBit evt0 16 else evt0
  let evt2 := if withheld then orBit evt1 17 else evt1
  let evt3 := if clipped then orBit evt2 18 else evt2
  let marks := atBit f0 0 + atBit (f1 || oE || (model && (o1 || o2 || o3 || o4))) 1
    + atBit (f2 || loop (enpid && (o5 || o6 || o7)) || loop o8) 2 + atBit (f3 || loop (enol && (o9 || o10)) || loop o11) 3
  { eng := { x with
      latch := wi (satS 32 out), st := (m0 ++ m1 ++ m2 ++ m3).map wi
      bexp := [b0, b1, b2, b3].map (BitVec.ofInt 8), initPend := false
      settle := if model then settle0 - 1 else settle0, evt := evt3
      resid := if model then resid else x.resid
      runCnt := x.runCnt + 1, istopped := withheld, osath := clipped && decide (w < 0), osatl := clipped && decide (0 < w)
      cpAge := x.cpAge + 1 }
    plaus := if plaus then some resid else none
    marks := marks, lsat := lsat }

/-! ## Which engines an entry applies to (R167, R187, R231) -/

/-- Whether an engine is halted. -/
def engHalted (s : State) (d : Die) (e : Nat) : Bool :=
  let x := nth (s.pairs d) (e / 2)
  if e % 2 = 0 then x.haltE else x.haltO

/-- Whether an entry may name an engine: a PAIR record, not disabled, not halted, and the even engine of a pair that
computes as one. -/
def engUsable (s : State) (d : Die) (e : Nat) : Bool :=
  let x := nth (s.pairs d) (e / 2)
  e < engCount d && x.mode != 7 && !x.disabled && !engHalted s d e && !(twin s d (e / 2) && e % 2 == 1)

/-- The engines of an operation on a named engine: both of a pair that computes as one, but for a halted one. -/
def engSet (s : State) (d : Die) (e : Nat) : List Nat :=
  if twin s d (e / 2) then [e / 2 * 2, e / 2 * 2 + 1].filter fun k => !engHalted s d k else [e]

/-- Whether the pair's comparator is on. -/
def compares (s : State) (d : Die) (e : Nat) : Bool := (nth (s.pairs d) (e / 2)).mode == 0

/-! ## Checkpoints (R223, R225) -/

/-- The 38 words of a checkpoint of an engine at a cycle count. -/
def ckptWords (x : Eng) (t : Word) : List Word :=
  let b (k : Nat) : Nat := (nth x.bexp k).toNat
  let body := [wd (2 ^ 31 + x.actSet % 8 * 2 ^ 20 + atBit x.initPend 10 + x.settle % 256), t, x.runCnt,
      wd (b 3 * 2 ^ 24 + b 2 * 65536 + b 1 * 256 + b 0)] ++ x.st ++ List.replicate (32 - x.st.length) 0 ++ [x.latch]
  body ++ [crc32 (bytesOf body)]

/-- A checkpoint as the RAM holds it. -/
def ckptAt (s : State) (d : Die) (e : Nat) : List Word := (List.range 38).map fun k => memWord s.mem (cpBase d e + 4 * k)

/-- Whether a checkpoint is usable (R221): VALID, its CRC-32, its age. -/
def ckptUsable (s : State) (d : Die) (e : Nat) : Bool :=
  let w := ckptAt s d e
  let maxAge := fld (blkW s d (e / 2 * 2) 9) 15 0
  bitOf (wat w 0) 31 && crc32 (bytesOf (w.take 37)) == wat w 37
    && (maxAge == 0 || decide ((nth (s.engs d) e).cpAge ≤ maxAge))

/-- A checkpoint written at a cycle. -/
def writeCkpt (s : State) (d : Die) (e : Nat) : State :=
  let s1 := { s with mem := memPutWords s.mem (cpBase d e) (ckptWords (nth (s.engs d) e) (count s d)) }
  s1.modEng d e fun x => { x with cpAge := 0 }

/-! ## Events (R212, R235) -/

/-- PLAUS or STOVF of an engine. -/
def engEvent (s : State) (d : Die) (e cause : Nat) (detail : Word) : State :=
  let s := s.modEng d e fun x => { x with evt := orBit x.evt cause }
  countEvent s { key := ⟨d, 3, e, 0, e, cause⟩, cause := cause, w := fld (blkW s d e 3) 31 16, n := fld (blkW s d e 3) 7 0
                 detail := detail, early := false }

/-- A fixed cause of a pair. -/
def pairFixed (s : State) (d : Die) (p cause : Nat) (detail : Word) : State :=
  let s := s.modPair d p fun x => { x with evt := orBit x.evt cause }
  countEvent s (direct d 24 p 0 (2 * p) cause detail)

/-- A MISMATCH event of a pair, sent to the Watch Room too (R220, R235). -/
def misEvent (s : State) (d : Die) (p : Nat) (detail : Word) : State :=
  let s := s.modPair d p fun x => { x with evt := orBit x.evt 1, misCnt := satInc x.misCnt, misLast := detail }
  let ev : Ev := { key := ⟨d, 24, p, 0, 2 * p, 1⟩, cause := 1, w := fld (blkW s d (2 * p) 8) 31 16
                   n := fld (blkW s d (2 * p) 8) 7 0, detail := detail, early := false }
  let s := countEvent s ev
  match d with | .ds => dsSingle s ev | .cs => s

/-- DETAIL of a MISMATCH (R235). -/
def misDetail (point word hold : Nat) (unusable : Bool) : Word :=
  wd (point * 2 ^ 28 + atBit unusable 27 + word * 65536 + hold)

/-- The flag word of a compare (R218). The spec names what it holds and no places; only whether two words agree counts (DESIGN
CHOICE, assumption log 180). -/
def flagWord (x : Eng) (plaus stovf lsat : Bool) : Word :=
  wd (atBit x.initPend 0 + atBit x.istopped 1 + atBit x.osath 2 + atBit x.osatl 3 + x.actSet % 8 * 16 + x.settle % 256 * 256
    + atBit plaus 16 + atBit stovf 17 + atBit lsat 18)

/-- The words an engine gives the comparator at a RUN, SNAP, restore or merge point, by word index (R218). -/
def runWords (x : Eng) (flags : Word) : List (Nat × Word) :=
  (0, x.latch) :: ((List.range 32).map fun j => (j + 1, x.st.getD j 0)) ++ [(33, wd (ofLe x.bexp)), (34, flags)]

/-- The words at a LOAD point. -/
def loadWords (x : Eng) : List (Nat × Word) :=
  ((List.range 32).map fun j => (j + 1, wat x.act j)) ++ [(34, flagWord x false false false)]

/-- The first word index in which the shadow's words, with a disturbance on them, differ from the primary's (R218). -/
def firstDiff (a b : List (Nat × Word)) (u : Option Upset) : Option Nat :=
  let upset (w : Nat × Word) : Word := match u with | some u => if u.word.val = w.1 then w.2 ^^^ u.mask else w.2 | none => w.2
  ((a.zip b).find? fun x => x.1.2 != upset x.2).map (·.1.1)

/-- The compare of the two engines of a pair as they stand. -/
def pairDiff (s : State) (d : Die) (p : Nat) (u : Option Upset) : Option Nat :=
  let w (e : Nat) : List (Nat × Word) := let x := nth (s.engs d) e; runWords x (flagWord x false false false)
  firstDiff (w (2 * p)) (w (2 * p + 1)) u

/-- A failed compare (R220, R222): the event, the hold, the restore from the next cycle on, FAILVAL at HOLDMAX. -/
def mismatch (s : State) (d : Die) (p point word : Nat) (unusable : Bool) : State :=
  let x := nth (s.pairs d) p
  let hold := if point = 1 then min 255 (x.holdCnt + 1) else x.holdCnt
  let s := s.modPair d p fun x =>
    { x with isRecover := true, holdCnt := hold, restoring := true, restoreAt := s.now + 16 }
  let s := misEvent s d p (misDetail point word hold unusable)
  if point = 1 && hold = fld (blkW s d (2 * p) 10) 7 0 && x.holdCnt ≠ hold then
    let v := blkW s d (2 * p) 11
    pairFixed ((s.modEng d (2 * p) fun e => { e with latch := v }).modEng d (2 * p + 1) fun e => { e with latch := v })
      d p 2 (wd hold)
  else s

/-! ## Staged blocks (R63, R177, R209, R230) -/

/-- The engine's registers follow a new block: the active copy from the set of the same number, inputs and latch at the
new exponents. -/
def reblock (s0 s1 : State) (d : Die) (e : Nat) (x : Eng) : Eng :=
  { x with
    act := setWords s1 d e x.actSet
    inp := (List.range 8).map fun i => wi (satS 32 (rescale (wat x.inp i).toInt (iexp s0 d e i) (iexp s1 d e i)))
    latch := wi (satS 32 (rescale x.latch.toInt (oexp s0 d e) (oexp s1 d e))) }

/-- The windows of an engine's counters as its block in effect gives them (R205, R233). -/
def retimeEng (s : State) (d : Die) (e : Nat) : State :=
  let b3 := blkW s d e 3
  let b8 := blkW s d (e / 2 * 2) 8
  { s with ctrs := s.ctrs.map fun c =>
      if c.key.die == d && c.key.sub = 3 && c.key.inst = e then c.retime s.now (fld b3 31 16) (fld b3 7 0)
      else if c.key == ⟨d, 24, e / 2, 0, e / 2 * 2, 1⟩ then c.retime s.now (fld b8 31 16) (fld b8 7 0)
      else c }

/-- A staged block takes effect (R209), its counters' windows with it (R233); one written after its boundary waits for the next
(R8, R177). -/
def takeStaged (s : State) (d : Die) (e : Nat) : State :=
  match (nth (s.engs d) e).staged with
  | none => s
  | some ws =>
    let s1 := { s with mem := memPutWords s.mem (parBase d e) ws }
    let users := (List.range (engCount d)).filter fun k => blkOf s d k == e
    let s2 := users.foldl (fun s' k => retimeEng (s'.modEng d k (reblock s s1 d k)) d k) s1
    s2.modEng d e fun x => { x with staged := x.laterBlk, stagedDue := false, laterBlk := none }

/-- Whether a RUN of an engine is in flight: accepted and not retired (R177). -/
def runFlies (s : State) (d : Die) (e : Nat) : Bool :=
  (s.lh d).infl.any fun x =>
    x.acceptAt.isSome && fld (wat x.w 1) 23 16 == 4 && (engSet s d (fld (wat x.w 2) 15 0 % 16)).contains e

/-- A page boundary of a lane passes (R177): staged blocks of its engines take effect, or are due when the RUN in flight
or the restore ends. -/
def stagedBoundary (s : State) (d : Die) (l : Nat) : State :=
  (List.range (engCount d)).foldl (fun s e =>
    if (pairRec s d (e / 2)).isSome && pairLane s d (e / 2) = l && (nth (s.engs d) e).staged.isSome then
      let b := blkOf s d e
      if runFlies s d b || runFlies s d e || (nth (s.pairs d) (e / 2)).restoring then
        s.modEng d e fun x => { x with staged := x.laterBlk <|> x.staged, stagedDue := true, laterBlk := none }
      else takeStaged s d e
    else s) s

/-- What was due at the end of a RUN or a restore. -/
def stagedDue (s : State) (d : Die) (p : Nat) : State :=
  [2 * p, 2 * p + 1].foldl (fun s e => if (nth (s.engs d) e).stagedDue then takeStaged s d e else s) s

/-! ## Restore (R221) -/

/-- An engine loads the state of a checkpoint. -/
def loadCkpt (s : State) (d : Die) (w : List Word) (e : Nat) (x : Eng) : Eng :=
  let b (k : Nat) : Byte := BitVec.ofNat 8 (fld (wat w 3) (8 * k + 7) (8 * k))
  let set := fld (wat w 0) 22 20
  { x with st := ((w.drop 4).take 32).take 22, bexp := [b 0, b 1, b 2, b 3], initPend := bitOf (wat w 0) 10
           settle := fld (wat w 0) 7 0, actSet := set, act := setWords s d e set }

/-- The restore of a pair as it ends: the primary's checkpoint where it was usable at the start, else a cleared state. -/
def restorePair (s : State) (d : Die) (p : Nat) (usable : Bool) : State :=
  let w := ckptAt s d (2 * p)
  let f (e : Nat) (x : Eng) : Eng :=
    if usable then loadCkpt s d w e x
    else { x with st := List.replicate 22 0, bexp := List.replicate 4 0, initPend := true, act := setWords s d e x.actSet }
  (s.modEng d (2 * p) (f (2 * p))).modEng d (2 * p + 1) (f (2 * p + 1))

/-! ## Split and merge (R227 to R229) -/

/-- The inputs at the start of page 0 or of a split (R186). -/
def startInputs (s : State) (d : Die) (e : Nat) : List Word :=
  [0, 0, 0, wd (2 ^ 31 - 1), wd (2 ^ 31), 0, 0, wi (rescale 1 0 (iexp s d e 7))]

/-- A pair splits (R228), a merged or a BROKEN one; one already split stays as it is. -/
def splitPair (s : State) (d : Die) (p : Nat) : State :=
  let x := nth (s.pairs d) p
  if x.mode = 1 || x.mode = 7 then s
  else
    let s := s.modPair d p fun x => { x with mode := 1, dbgBroken := false, apart := true, isRecover := false, holdCnt := 0 }
    let o := 2 * p + 1
    s.modEng d o fun x =>
      let set := fld (blkW s d o 2) 10 8
      { x with inp := startInputs s d o, actSet := set, act := setWords s d o set, initPend := bitOf (blkW s d o 2) 12 }

/-- The shadow takes the primary's state (R229). -/
def copyTwin (s : State) (d : Die) (p : Nat) : State :=
  let e := nth (s.engs d) (2 * p)
  s.modEng d (2 * p + 1) fun x =>
    { x with st := e.st, bexp := e.bexp, latch := e.latch, inp := e.inp, act := e.act, actSet := e.actSet
             initPend := e.initPend, settle := e.settle }

end Sys2Proof.Machine
end

