-- ==== Sys2Proof/Machine/PwmRef.lean ====
section
/-! DEFINITION. The reference of a channel in a half-period and its edges (R241, R242, R246, R253, R264, R282, R290, R574):
what a half takes as it starts, and what is placed afresh when a leg's step state or Candle level changes within it. -/

namespace Sys2Proof.Machine

/-- A duty at P0 rescaled to a period, in BEAM and DITHER groups (R246). -/
def scaledDuty (s : State) (d : Die) (g base per : Nat) : Nat :=
  if 2 ≤ grpPsrc s d g then
    (rndAway (((base * per : Nat) : Rat) / (((grpW s d g 1).toNat : Nat) : Rat))).toNat
  else base

/-- Edges of a CS channel lie on whole Lighthouse cycles (R238): rounded down. -/
def dieFloor (d : Die) (x : Nat) : Nat := x / edgeUnit d * edgeUnit d

/-- The interval S is high over, on the die's edge grid (R238, R241, R258). -/
def dieSpan (d : Die) (shape per duty : Nat) (trim : Int) : Nat × Nat :=
  let (a, b) := highSpan shape per duty trim
  (dieFloor d a, dieFloor d b)

/-- The Candle level of a set-0 leg in MODE CATCH or STEP: high only in the high phase, and there not while chopped
(R290, R293). -/
def candLevel (s : State) (c : Nat) : Option Bool :=
  let m := legMach s c
  let mode := (nth s.mach m).mode
  if isLeg s c && (mode = 2 || mode = 3) && phaseSet s (legPhase s c) = 0 then
    let x := nth s.candle m
    some (decide (x.pattern ≤ 5) && patHigh x.pattern == phaseIdx s (legPhase s c) && !x.chopped)
  else none

/-- The step state as the reference uses it: held at 0 while the fill weight in force is 1 (R282). -/
def legH (s : State) (c : Nat) : Bool := (nth s.legs c).h && (nth s.mach (legMach s c)).fillUse.toNat != 65536

/-- The step state at an instant: an edge that is placed ahead has not come yet (R280). -/
def legHAt (s : State) (c t : Nat) : Bool :=
  legH s c != (((nth s.legs c).hEdges.filter (t < ·)).length % 2 == 1 && (nth s.mach (legMach s c)).fillUse.toNat != 65536)

/-- What S of a channel is made from from an instant on: the duty of R before R246, the level R is combined with, and whether R
takes COMP (R282, R290). -/
def halfRef (s : State) (d : Die) (c t : Nat) : Nat × Bool × Bool :=
  let x := nth (s.pwm d).chans c
  match d with
  | .cs => (x.da, false, false)
  | .ds =>
    if isLeg s c then
      match candLevel s c with
      | some lv => (0, lv, false)
      | none =>
        let h := legHAt s c t
        (if (nth s.mach (legMach s c)).fillUse = 0 then 0 else if h then (nth s.legs c).comp else x.da, h, h)
    else (x.da, false, false)

/-- The level a reference starts with where the outputs resume: a pulse that starts there is judged like any other (R260, R574). -/
def resumeShp (c : Chan) (m : ChanMode) (sideB lvl : Bool) (t width : Nat) : Chan × Shp :=
  let (c1, j) := judge c m lvl sideB false width 0
  (c1, if j.emit then { raw := lvl, lvl := lvl, start := t, grow := j.trail, due := t + width }
       else { raw := lvl, lvl := !lvl, skipEnd := t + width })

/-- The references of a half, or of the rest of one, placed from the pair in force (R242, R253, R574): the spans of both and the
level the first is combined with. `waits` where the outputs were off till then: the side the reference asks for turns on after its
dead time in COMPL and after an override (R259, R264). A BEAM group's S is low once its period has passed (R244). -/
def Chan.placeHalf (y : Chan) (m : ChanMode) (h : Half) (spanA spanB : Nat × Nat) (inv beam waits wait : Bool) : Chan :=
  let sa := if y.limHold then (0, 0) else spanA
  let iv := inv && !y.limHold
  let p (sideB : Bool) : Plan := ⟨sideB, false, h.t, y.took || y.limHold⟩
  let y := if waits then
      let (ya, a) := resumeShp y m false (rawAt h.c0 sa h.t != iv) h.t (rawWidth h.c0 h.per sa h.t)
      let (yb, b) := if m.omode = 1 then
          resumeShp ya m true (rawAt h.c0 spanB h.t) h.t (rawWidth h.c0 h.per spanB h.t) else (ya, {})
      { yb with shA := a, shB := b, fresh := false
                hMin := if wait then max h.t (y.lLast + y.dtr) else h.t
                lMin := if wait then max h.t (y.hLast + y.dtf) else h.t }
    else y
  let (y1, a) := schedHalf y m y.shA (p false) h y.hEnd sa iv
  let a := if beam && y.hEnd = h.c0 + h.per && (a.edges.foldl (fun l e => if e.emit then e.raw else l) a.lvl) then
      { a with edges := a.edges ++ [{ t := y.hEnd, rt := y.hEnd, raw := false, emit := true }] } else a
  let y2 := { y1 with shA := a, took := false }
  if m.omode = 1 then
    let (y3, b) := schedHalf y2 m y2.shB (p true) h y.hEnd spanB false
    { y3 with shB := b }
  else y2

/-- What the channel's own boundary changes: the on-time of the period that ended, the re-planned values (R255, R464), the
end of INTOFF and RELWAIT (R262, R264). -/
def Chan.ownBoundary (x : Chan) (m : ChanMode) (h : Half) : Chan :=
  let y := x.mark m h.t
  { y with onTime := y.onAcc, onPer := if x.c0 = 0 then 0 else h.t - x.c0, onAcc := 0
           dtr := x.pdtr, dtf := x.pdtf, minp := x.pminp, trim := x.ptrim, intOff := false, relWait := false }

/-- A half of a channel starts (R242, R253, R264, R574); below an override the chain runs on (R263). -/
def Chan.startHalf (x : Chan) (m : ChanMode) (h : Half) (spanA spanB : Nat × Nat) (inv beam : Bool) : Chan :=
  let hEnd := if h.second then h.c0 + h.per else h.t + h.per / 2
  let waits := x.fresh || (!h.second && (x.intOff || x.relWait))
  let y0 := if h.second then x else x.ownBoundary m h
  let y := { y0 with c0 := h.c0, cper := h.per, hEnd := hEnd, fresh := false }
  if !y.active || y.intOff || y.relWait then y
  else y.placeHalf m h spanA spanB inv beam waits (m.omode == 0 || x.relWait)

/-- The rest of the half from an instant on, after a change of the level that R is combined with (R280, R574). -/
def Chan.replan (x : Chan) (m : ChanMode) (t : Nat) (spanA : Nat × Nat) (inv : Bool) : Chan :=
  if !x.active || x.intOff || x.relWait || x.fresh || x.limHold then x
  else
    let y := x.settle m (t - 1)
    let (y1, a) := schedHalf y m y.shA ⟨false, true, t, true⟩ ⟨t, false, y.c0, y.cper⟩ (max y.hEnd (t + 1)) spanA inv
    { x with
      evt := y1.evt, carryH := y1.carryH, carryL := y1.carryL, debtH := y1.debtH, debtL := y1.debtL
      shA := { x.shA with edges := x.shA.edges.filter (·.t < t) ++ a.edges } }

/-- What a half of a channel is placed from: the rescaled duty, the spans of its references and the level the first is combined
with, and whether R takes COMP (R241, R246, R258, R282). -/
structure HalfRef where
  duty  : Nat
  spanA : Nat × Nat
  spanB : Nat × Nat
  inv   : Bool
  rsel  : Bool

def halfRefs (s : State) (d : Die) (c per : Nat) (trim : Int) (t : Nat) : HalfRef :=
  let g := chanGrp s d c
  let sh := grpShape s d g
  let (da, inv, rsel) := halfRef s d c t
  let duty := scaledDuty s d g da per
  ⟨duty, dieSpan d sh per duty trim, dieSpan d sh per (scaledDuty s d g (nth (s.pwm d).chans c).db per) trim, inv, rsel⟩

/-- A channel takes what a half was placed from. -/
def noteHalf (s : State) (d : Die) (c : Nat) (r : HalfRef) : State :=
  let s := match d with
    | .ds => if isLeg s c then s.modLeg c fun x => { x with rsel := r.rsel } else s
    | .cs => s
  s.modChan d c fun x => { x with cduty := r.duty }

/-- A channel's first transfer within a running half of its own period: it drives its outputs from the pair in force from there on
(R254). -/
def driveFirst (s : State) (d : Die) (c t : Nat) : State :=
  let x := nth (s.pwm d).chans c
  if x.fresh && t < x.hEnd && !x.intOff && !x.relWait then
    let m := chanMode s d c
    let r := halfRefs s d c x.cper x.trim t
    (noteHalf s d c r).modChan d c fun x =>
      x.placeHalf m ⟨t, false, x.c0, x.cper⟩ r.spanA r.spanB r.inv (grpPsrc s d (chanGrp s d c) == 2) true (m.omode == 0)
  else s

/-- A leg's reference placed afresh from an instant on, with the duty its half took (R282). -/
def replanLeg (s : State) (c t : Nat) : State :=
  let (_, inv, _) := halfRef s .ds c t
  let m := chanMode s .ds c
  let cand := (candLevel s c).isSome
  s.modChan .ds c fun x =>
    let duty := if cand then 0 else x.cduty
    x.replan m t (dieSpan .ds m.shape x.cper duty x.trim) inv

/-- A leg's reference placed afresh from now on with the duty of the pair in force, where MODE or FILLW changes what it is made
from (R277, R282). -/
def replanPair (s : State) (c : Nat) : State :=
  let x := nth s.pwmDs.chans c
  let r := halfRefs s .ds c x.cper x.trim (now16 s)
  (noteHalf s .ds c r).modChan .ds c fun x => x.replan (chanMode s .ds c) (now16 s) r.spanA r.inv

/-- A half of a channel starts; H edges placed beyond its start follow where they were placed (R242, R280). -/
def startHalf (s : State) (d : Die) (c : Nat) (h : Half) : State :=
  let x := nth (s.pwm d).chans c
  let m := chanMode s d c
  let r := halfRefs s d c h.per (if h.second then x.trim else x.ptrim) h.t
  let s := (noteHalf s d c r).modChan d c fun x =>
    let y := (x.settle m (h.t - 1)).startHalf m h r.spanA r.spanB r.inv (grpPsrc s d (chanGrp s d c) == 2)
    { y with halves := x.halves.filter fun z => z.t ≠ h.t }
  match d with
  | .cs => s
  | .ds =>
    let es := (nth s.legs c).hEdges.filter (h.t < ·)
    es.foldl (fun s t => replanLeg s c t) (s.modLeg c fun l => { l with hEdges := es })

/-! ## Float of a machine's legs (R289, R290, R299) -/

/-- Whether a leg floats: in MODE OFF all, in CATCH and STEP set 1 and the floating phase or, without a pattern, all of set
0, in RUN after an entry without a valid position until a boundary with one. -/
def wantFloat (s : State) (c : Nat) : Bool :=
  let m := legMach s c
  let x := nth s.mach m
  let k := nth s.candle m
  let p := legPhase s c
  match x.mode with
  | 0 => true
  | 1 => x.badEntry
  | _ => phaseSet s p != 0 || decide (5 < k.pattern) || patFloat k.pattern == phaseIdx s p

/-- The FLOAT of every leg of a machine follows its mode and pattern. -/
def applyFloat (s : State) (m : Nat) : State :=
  (machLegs s m).foldl (fun s c =>
    let f := wantFloat s c
    let s := s.modLeg c fun x => { x with float := f }
    s.modChan .ds c fun x => x.setFloat (chanMode s .ds c) (now16 s) f) s

/-- The Candle levels of set 0 as they are now (R290, R293). -/
def replanSet0 (s : State) (m : Nat) : State := (setLegs s m 0).foldl (fun s c => replanLeg s c (now16 s)) s

/-! ## Candle drive (R292 to R294) -/

/-- The chop comparator of a machine. -/
def chopComp (s : State) (m : Nat) : Nat := fld (wfW s m 7) 2 0

/-- The machine whose Candle mode sets the threshold of a general comparator (R293). -/
def chopMach (s : State) (g : Nat) : Option Nat :=
  [0, 1].find? fun m => machOn s m && 2 ≤ (nth s.mach m).mode && chopComp s m = g

/-- The code in force of a general comparator: in Candle mode min(CHOP, CHOPMAX × TLF) as the PROT space converts it (R293). -/
def gcCode (s : State) (g : Nat) : BitVec 10 :=
  match chopMach s g with
  | some m =>
    let a : Rat := (((nth s.mach m).inp.chop.toInt : Int) : Rat) / 65536
    let b : Rat := ((fld (wfW s m 7) 31 16 : Nat) : Rat) * ((tlf s m : Nat) : Rat) / 65536
    thrCode s 1 g 2 (rndAway (min a b * 256))
  | none => (nth s.prot.gc g).code

/-- The chop follows a high live level of CHOPGC while a pattern is applied (R293). -/
def chopCheck (s : State) (m : Nat) : State :=
  let mode := (nth s.mach m).mode
  let k := nth s.candle m
  if (mode = 2 || mode = 3) && k.pattern ≤ 5 && !k.chopped && gcLive s (chopComp s m) then
    let s := s.modCandle m fun x => { x with chopped := true }
    let hi := posLegs s m (patHigh k.pattern)
    let s := hi.foldl (fun s c => s.modLeg c fun x => { x with chopped := true }) s
    replanSet0 s m
  else s

/-- The chop ends at a boundary of the machine's leg groups (R293). -/
def chopEnd (s : State) (m : Nat) : State :=
  if (nth s.candle m).chopped then
    let s := s.modCandle m fun x => { x with chopped := false }
    let s := (machLegs s m).foldl (fun s c => s.modLeg c fun x => { x with chopped := false }) s
    chopCheck (replanSet0 s m) m
  else s

/-- The time a pattern has been applied (R293). -/
def driveTime (s : State) (m : Nat) : Nat :=
  let k := nth s.candle m
  k.driveT + (if k.pattern ≤ 5 then s.now - k.driveAt else 0)

/-- A pattern is applied, 7 for none: the drive timer runs while one is (R293). Where it takes the place of another, the new high
phase is chopped only by a later high level (R304), but while the comparator is UNRESOLVED it never turns on (R293). -/
def setPattern (s : State) (m p : Nat) : State :=
  let old := (nth s.candle m).pattern
  let s := s.modCandle m fun k =>
    { k with driveT := k.driveT + (if k.pattern ≤ 5 then s.now - k.driveAt else 0), driveAt := s.now, pattern := p
             chopped := false }
  let s := (machLegs s m).foldl (fun s c => s.modLeg c fun x => { x with chopped := false }) s
  let s := replanSet0 (applyFloat s m) m
  if 5 < old || (nth s.prot.gc (chopComp s m)).unres then chopCheck s m else s

/-- In MODE STEP the pattern is CSECT, from the cycle in which its write retires (R276, R294). -/
def stepPattern (s : State) (m : Nat) : State :=
  let p := (nth s.mach m).inp.csect.toNat % 6
  if (nth s.mach m).mode = 3 && !(nth s.candle m).timedOut && (nth s.candle m).pattern ≠ p then setPattern s m p else s

/-! ## MODE takes effect (R277, R289 to R294, R299, R304, R305) -/

/-- A machine's mode governs from an update point on. -/
def enterMode (s : State) (m mode : Nat) : State :=
  let old := (nth s.mach m).mode
  if old = mode then s
  else
    let g := chopComp s m
    let code := gcCode s g
    let s := if 2 ≤ old && chopMach s g = some m then
        { s with prot := { s.prot with gc := upd s.prot.gc g fun c => { c with code := code } } } else s
    let s := inhNote (s.modMach m fun x => { x with mode := mode, badEntry := false, posLost := false })
    let s := s.modCandle m fun k =>
      { k with catching := mode == 2, caught := false, consist := if mode = 2 then 0 else k.consist
               modeAt := s.now, driving := false, pend := none, commutes := 0
               driveT := 0, driveAt := s.now, pattern := 7, chopped := false
               timedOut := k.timedOut && (mode == 2 || mode == 3)
               cvalid := k.cvalid && mode != 0
               lastM := if mode = 2 then none else k.lastM }
    let s := if 2 ≤ old then (setLegs s m 0).foldl replanPair s else s
    match mode with
    | 1 =>
      if posValid s m then applyFloat s m
      else posLoss (applyFloat (s.modMach m fun x => { x with badEntry := true, posLost := true }) m) m
    | 3 => stepPattern (setPattern s m 7) m
    | _ => setPattern s m 7

/-- An update point of a machine's leg groups: what was taken in u − 3 takes effect (R277, R282). R has duty 0 while FILLW is 0, and
H counts for nothing while it is 1, from u on. -/
def machUpdate (s : State) (m : Nat) : State :=
  match (nth s.mach m).pend with
  | none => s
  | some (mode, fill) =>
    let old := (nth s.mach m).fillUse
    let s := s.modMach m fun x => { x with pend := none, fillUse := fill }
    let s := enterMode s m mode
    if (old == 0) != (fill == 0) then (machLegs s m).foldl replanPair s
    else if (old.toNat == 65536) != (fill.toNat == 65536) then
      (machLegs s m).foldl (fun s c => if (nth s.legs c).h then replanLeg s c (now16 s) else s) s
    else s

/-- A boundary of a machine's leg groups: a float after an entry without position ends where it is valid (R299), the chop
ends (R293). -/
def machBoundary (s : State) (m : Nat) : State :=
  let s := if (nth s.mach m).badEntry && posValid s m then
      applyFloat (s.modMach m fun x => { x with badEntry := false, posLost := false }) m else s
  chopEnd s m

end Sys2Proof.Machine
end

