-- ==== Sys2Proof/Machine/WaveCore.lean ====
section
/-! DEFINITION. The WAVE operand space (R275, R276, R281): its reads, its writes and what an IA or IB write computes
(R286 to R288), and TLF and EMF as operands (R297, R298). -/

namespace Sys2Proof.Machine

/-- Angle of phase (σ, k) in 1/2^64 turn (R273). -/
def phaseAlpha (s : State) (m st k : Nat) : Nat := k * (2 ^ 64 / 3) + st * fld (wfW s m 1) 31 16 * 2 ^ 48

/-- 2π × (θ − α) as an angle in 1/2^64 turn. -/
def angleOff (s : State) (m st k : Nat) (th : Nat) : Nat := th * 2 ^ 32 + 2 ^ 66 - phaseAlpha s m st k

/-- EMF in volts (R297). -/
def emfOf (s : State) (m : Nat) : Rat :=
  if posValid s m then
    2 * ((piQ : Rat) / ((2 ^ 96 : Nat) : Rat)) * ((beamSpeed s .ds (machBeam s m)).toInt : Rat) / 256
      * ((wfW s m 3).toNat : Rat) / 1000000
  else 0

/-- Exponent of a WAVE item. -/
def waveExp (item : Nat) : Int :=
  if item = 0 || item = 1 || item = 15 then -12 else if 5 ≤ item && item ≤ 7 then 0 else -16

/-- A read of a WAVE item. -/
def waveRead (s : State) (m item : Nat) : Val :=
  let x := nth s.mach m
  let i := x.inp
  let v : Int := match item with
    | 0 => i.vd.toInt
    | 1 => i.vq.toInt
    | 2 => i.fillw.toInt
    | 3 => i.adv.toInt
    | 4 => i.grade.toInt
    | 5 => i.mode.toInt
    | 6 => i.csect.toInt
    | 7 => i.cdir.toInt
    | 8 => i.chop.toInt
    | 9 => i.ia0.toInt
    | 10 => i.ib0.toInt
    | 11 => i.ia1.toInt
    | 12 => i.ib1.toInt
    | 13 => x.id.toInt
    | 14 => x.iq.toInt
    | 15 => satS 32 (mantOf (emfOf s m) (-12))
    | _ => tlf s m
  ⟨v, waveExp item⟩

/-- The three phase currents of a set, mantissas at −16. -/
def setCurrents (x : WaveIn) (st : Nat) : List Int :=
  let (a, b) := if st = 0 then (x.ia0.toInt, x.ib0.toInt) else (x.ia1.toInt, x.ib1.toInt)
  [a, b, -(a + b)]

/-- d and q currents of a set at an angle, in 1/2^48 A (R286). -/
def dqOf (s : State) (m st : Nat) (th : Word) (i : List Int) : Int × Int :=
  let sum (f : Nat → Rat) : Rat := (List.range 3).foldl (fun a k => a + ((i.getD k 0 : Int) : Rat) * f (angleOff s m st k th.toNat)) 0
  let sc : Rat := ((2 ^ 32 : Nat) : Rat) * 2 / 3
  (rndAway (sc * sum cosR), rndAway (-(sc * sum sinR)))

/-- The mean on-level of a phase of set 0 in the last carrier period, over its legs (R287). -/
def onLevel (s : State) (m k : Nat) : Rat :=
  let legs := posLegs s m k
  let f (c : Nat) : Rat := let x := nth s.pwmDs.chans c; if x.onPer = 0 then 0 else (x.onTime : Rat) / (x.onPer : Rat)
  if legs.length = 0 then 0 else legs.foldl (fun a c => a + f c) 0 / (legs.length : Rat)

/-- The power balance at an IB0 write, in MODE RUN with the beam valid (R287): powers in 1/2^16 W. -/
def powerBalance (s : State) (m : Nat) : State :=
  let x := nth s.mach m
  if x.mode ≠ 1 || beamStale s .ds (machBeam s m) then s
  else
    let vdc := vdcFloor s m
    let i := setCurrents x.inp 0
    let pac := vdc * (List.range 3).foldl (fun a k => a + onLevel s m k * ((i.getD k 0 : Int) : Rat)) 0
    let pdc := vdc * (buoyRead s .ds (fld (wfW s m 4) 24 16)).rat * 65536
    let ac := (rndAway pac :: x.pbAc).take 16
    let dc := (rndAway pdc :: x.pbDc).take 16
    let mean (l : List Int) : Rat := ((l.foldl (· + ·) 0 : Int) : Rat) / (l.length : Rat) / 65536
    let r := mean ac - mean dc
    let res := satS 32 (rndAway (r / 10))
    let mag (q : Rat) : Rat := if q < 0 then -q else q
    let lim := ((fld (wfW s m 11) 31 24 : Nat) : Rat) / 256 * max (mag (mean dc)) ((fld (wfW s m 11) 15 0 : Nat) * 10)
    let s := s.modMach m fun x => { x with pbAc := ac, pbDc := dc, pbres := res }
    if lim < mag r then wfEvent s m 5 0 (wi res) else s

/-- Peaks of the phase currents over the turn, in MODE RUN with the position valid (R288). -/
def notePeaks (s : State) (m st : Nat) : State :=
  let x := nth s.mach m
  if x.mode = 1 && posValid s m then
    let i := setCurrents x.inp st
    s.modMach m fun x => { x with peaks := x.peaks.mapIdx fun p v => if p / 3 = st then max v (i.getD (p % 3) 0).natAbs else v }
  else s

/-- A write to IB0 or IB1: the transform at the sample angle, the peaks, the power balance (R286 to R288). -/
def ibWritten (s : State) (m st : Nat) (th : Word) : State :=
  let x := nth s.mach m
  let (dI, qI) := dqOf s m st th (setCurrents x.inp st)
  let s := s.modMach m fun x =>
    let y := if st = 0 then { x with id0 := dI, iq0 := qI } else { x with id1 := dI, iq1 := qI }
    let six := machPhases s m = 6
    let out (a b : Int) : Word := wi (satS 32 (if six then shrHalfAway (a + b) 33 else shrHalfAway a 32))
    { y with id := out y.id0 y.id1, iq := out y.iq0 y.iq1 }
  let s := notePeaks s m st
  if st = 0 then powerBalance s m else s

/-- The current sample angle for an IB write accepted now: the last SAMPLE of CURADC accepted in an earlier cycle, else
the phase of this cycle (R286, R304). -/
def sampleAngle (s : State) (m : Nat) : Word :=
  let x := nth s.mach m
  let here := beamPhase s .ds (machBeam s m) s.now
  let older : Word := match x.sampPrev with | some (t, p) => if t < s.now then p else here | none => here
  match x.samp with
  | some (t, p) => if t < s.now then p else older
  | none => here

/-- A SAMPLE names an ADC: the machines whose CURADC it is keep the phase of this cycle (R286). -/
def noteSample (s : State) (mask : Nat) : State :=
  [0, 1].foldl (fun s m =>
    if machOn s m && hasBit mask (fld (wfW s m 0) 11 8) then
      let p := beamPhase s .ds (machBeam s m) s.now
      s.modMach m fun x => { x with samp := some (s.now, p)
                                    sampPrev := if (x.samp.map (·.1)) = some s.now then x.sampPrev else x.samp }
    else s) s

/-- The inputs as they stood at the end of the cycle before (R280, R304). -/
def waveBefore (s : State) (m : Nat) : WaveIn :=
  let x := nth s.mach m
  if x.inpAt = s.now then x.inpWas else x.inp

/-- A write of a mantissa at the item's exponent, clamped as R275 shows. -/
def waveWrite (s : State) (m item : Nat) (v : Int) (th : Word) : State :=
  let set (f : WaveIn → WaveIn) : State := s.modMach m fun x =>
    { x with inp := f x.inp, inpWas := if x.inpAt = s.now then x.inpWas else x.inp, inpAt := s.now }
  let flags (s : State) (hi lo : Bool) : State := s.modMach m fun x => { x with satAH := hi, satAL := lo }
  match item with
  | 0 => set fun i => { i with vd := wi v }
  | 1 => set fun i => { i with vq := wi v }
  | 2 => set fun i => { i with fillw := wi (clampI 0 65536 v) }
  | 3 =>
    let lo := sfld (wfW s m 2) 31 16
    let hi := sfld (wfW s m 2) 15 0
    flags (set fun i => { i with adv := wi (clampI lo hi v) }) (decide (hi < v)) (decide (v < lo))
  | 4 =>
    let hi : Int := fld (wfW s m 1) 15 0
    flags (set fun i => { i with grade := wi (clampI 0 hi v) }) (decide (hi < v)) (decide (v < 0))
  | 5 => set fun i => { i with mode := if 0 ≤ v && v ≤ 3 then wi v else 0 }
  | 6 => set fun i => { i with csect := wi (v % 6) }
  | 7 => set fun i => { i with cdir := wi v }
  | 8 => set fun i => { i with chop := wi (clampI 0 (fld (wfW s m 7) 31 16 * 65536 : Nat) v) }
  | 9 => set fun i => { i with ia0 := wi v }
  | 10 => ibWritten (set fun i => { i with ib0 := wi v }) m 0 th
  | 11 => set fun i => { i with ia1 := wi v }
  | 12 => ibWritten (set fun i => { i with ib1 := wi v }) m 1 th
  | _ => s

end Sys2Proof.Machine
end

