-- ==== Sys2Proof/Machine/Operands.lean ====
section
/-! DEFINITION. The operand forms of the Light List (R159 to R162): value references of every space, read and written, and
immediates. -/

namespace Sys2Proof.Machine

/-- Space and index of a value reference (R159). -/
def refSpace (r : Nat) : Nat := r / 4096 % 16
def refIndex (r : Nat) : Nat := r % 4096

/-- Whether a reference lies in an output space. -/
def isOutRef (r : Nat) : Bool := 5 ≤ refSpace r && refSpace r ≤ 9

/-! ## Lane registers (R161) -/

/-- A lane register's mantissa and exponent for an exact value, and whether it saturated. -/
def laneVal (q : Rat) : Word × Byte × Bool :=
  if q = 0 then (0, BitVec.ofInt 8 (-128), false)
  else
    let a : Rat := if q < 0 then -q else q
    let e0 := log2R a - 30
    let fits (e : Int) : Bool := !satHits 32 (mantOf q e)
    match [e0 - 1, e0, e0 + 1].find? fun e => fits (max e (-128)) with
    | some e =>
      let e := max e (-128)
      if 127 < e then (wi (satS 32 (if q < 0 then -(2 ^ 32) else 2 ^ 32)), 127, true)
      else (wi (mantOf q e), BitVec.ofInt 8 e, false)
    | none => (wi (satS 32 (if q < 0 then -(2 ^ 32) else 2 ^ 32)), 127, true)

/-! ## Gearbox (R436) -/

/-- GX_ASTAT[3:0] (R447). -/
def actState (s : State) (a : Nat) : Nat :=
  let x := nth s.gact a
  atBit x.stalled 3 + atBit x.limit 2 + atBit x.float 1
    + atBit ((actChans s a).any fun c => (nth s.pwmCs.chans c).active) 0

/-- A write of DRIVE or ILIM, a mantissa at the item's exponent: STALL ends when DRIVE has been written as 0 and then
written again (R436, R439). -/
def gearWrite (s : State) (a item : Nat) (v : Int) : State :=
  match item with
  | 0 =>
    let d := clampI (-65536) 65536 v
    let th := fld (actW s a 2) 15 0
    s.modAct a fun x =>
      let again := x.stalled && x.sawZero
      { x with drive := wi d
               stalled := x.stalled && !again
               sawZero := if again then false else x.stalled && (x.sawZero || d == 0)
               driveAt := if th ≤ d.natAbs && (x.drive.toInt.natAbs < th || again) then s.now else x.driveAt }
  | 1 => s.modAct a fun x => { x with ilim := wi (clampI 0 (fld (actW s a 1) 31 16 * 256 : Nat) v) }
  | _ => s

/-! ## Protection thresholds (R317, R318) -/

/-- The comparator kind of a PROT item. -/
def protKind (item : Nat) : Nat := if item ≤ 1 then 0 else 1

def protRead (s : State) (item n : Nat) : Val :=
  let sc : Rat := (cpScale s (protKind item) n : Nat)
  let q : Rat := match item with
    | 0 => ((nth s.prot.trip n).code.toNat : Rat) * sc / 1000
    | 1 => ((nth s.prot.hard n).code.toNat : Rat) * sc / 1000
    | 2 => ((gcCode s n).toNat : Rat) * sc / 1000
    | _ => ((nth s.prot.gc n).slope.toNat : Rat) * sc / 256000
  ⟨mantOf q (-8), -8⟩

/-- A threshold write of a mantissa at −8: the code stands at the DAC from now on (R317, R318). -/
def protWrite (s : State) (item n : Nat) (v : Int) : State :=
  let kind := protKind item
  let within (w : Nat) : BitVec 10 := thrCode s kind n w v
  match item with
  | 0 => { s with prot := { s.prot with trip := upd s.prot.trip n fun c => { c with code := within 2 } } }
  | 1 => { s with prot := { s.prot with hard := upd s.prot.hard n fun c => { c with code := within 3 } } }
  | 2 => { s with prot := { s.prot with gc := upd s.prot.gc n fun c => { c with code := within 2 } } }
  | 3 =>
    let slope := clampI 0 65535 (rndAway (quo 317 ((v : Rat) * 1000) (cpScale s kind n : Nat)))
    { s with prot := { s.prot with gc := upd s.prot.gc n fun c => { c with slope := BitVec.ofInt 16 slope } } }
  | _ => s

/-! ## PWM shadows (R247, R248) -/

def pwmRead (s : State) (d : Die) (item n : Nat) : Val :=
  let c := nth (s.pwm d).chans n
  match item with
  | 0 => ⟨c.dash.val.toNat, 0⟩
  | 1 => ⟨c.dbsh.val.toNat, 0⟩
  | 2 => ⟨c.phssh.val.toNat, 0⟩
  | _ => ⟨(nth (s.pwm d).grps n).persh.val.toNat, 0⟩

/-- A written duty or period; on the CS die rounded to a multiple of 16 (R265). -/
def csRound (d : Die) (v : Int) : Int := match d with | .ds => v | .cs => shrHalfAway v 4 * 16

def pwmWrite (s : State) (d : Die) (item n : Nat) (v0 : Int) : State :=
  let v := if item = 2 then v0 else csRound d v0
  match item with
  | 0 => s.modChan d n fun c => { c with dash := c.dash.write s.now (wi (max 0 v)) }
  | 1 => s.modChan d n fun c => { c with dbsh := c.dbsh.write s.now (wi (max 0 v)) }
  | 2 => s.modChan d n fun c => { c with phssh := c.phssh.write s.now (wd (wi v).toNat &&& 0xFFFF) }
  | 3 => s.modGrp d n fun g =>
      { g with persh := g.persh.write s.now (wi (clampI (grpW s d n 2).toNat (grpW s d n 3).toNat v)) }
  | _ => s

/-! ## References -/

/-- A read of a value reference by an entry of lane l on die d (R159). -/
def readRef (s : State) (d : Die) (l r : Nat) : Val :=
  let i := refIndex r
  match refSpace r with
  | 0 => buoyRead s d i
  | 1 => let e := i / 8 % 16; ⟨(wat (nth (s.engs d) e).inp (i % 8)).toInt, iexp s d e (i % 8)⟩
  | 2 => ⟨(nth (s.engs d) (i % 16)).latch.toInt, oexp s d (i % 16)⟩
  | 3 => let v := nth (nth (s.lh d).lanes l).lv (i % 16); ⟨v.1.toInt, v.2.toInt⟩
  | 4 => if i / 8 % 2 = 0 then ⟨(beamSpeed s d (i % 8)).toInt, 0⟩ else ⟨(beamPhase s d (i % 8) s.now).toInt, 0⟩
  | 5 => pwmRead s d (i / 256) (i % 64)
  | 6 => waveRead s (i / 256 % 2) (i % 32)
  | 7 => protRead s (i / 256) (i % 32)
  | 8 =>
    let k := i / 256 % 4
    let c := nth s.conv k
    match i % 16 with
    | 0 => ⟨c.ref.toInt, byScale s (cvVBuoy s k)⟩
    | 1 => ⟨b2n c.enable, 0⟩
    | 2 => ⟨c.refr.toInt, byScale s (cvVBuoy s k)⟩
    | _ => ⟨c.state, 0⟩
  | 9 =>
    let a := i / 256 % 4
    match i % 16 with
    | 0 => ⟨(nth s.gact a).drive.toInt, -16⟩
    | 1 => ⟨(nth s.gact a).ilim.toInt, -8⟩
    | 2 => ⟨(nth s.fb (actPosCh s a)).pos.toInt, 0⟩
    | _ => ⟨actState s a, 0⟩
  | _ => ⟨0, 0⟩

/-- The fixed exponent of a destination (R159). -/
def destExp (s : State) (d : Die) (r : Nat) : Int :=
  let i := refIndex r
  match refSpace r with
  | 0 => byScale s i
  | 1 => iexp s d (i / 8 % 16) (i % 8)
  | 6 => waveExp (i % 32)
  | 7 => -8
  | 8 => if i % 16 = 0 then byScale s (cvVBuoy s (i / 256 % 4)) else 0
  | 9 => if i % 16 = 0 then -16 else -8
  | _ => 0

/-- LH_LEVT.SAT (R161). -/
def laneSat (s : State) (d : Die) (l : Nat) (sat : Bool) : State :=
  if sat then s.modLane d l fun x => { x with levt := orBit x.levt 16 } else s

/-- A write of an exact value to a destination by an entry of lane l (R159, R161); `th` is the sample angle an IB write
uses (R286). -/
def writeRef (s : State) (d : Die) (l r : Nat) (q : Rat) (th : Word) : State :=
  let i := refIndex r
  if refSpace r = 3 then
    let (m, e, sat) := laneVal q
    (laneSat s d l sat).modLane d l fun x => { x with lv := x.lv.set (i % 16) (m, e) }
  else
    let raw := mantOf q (destExp s d r)
    let s := laneSat s d l (satHits 32 raw)
    let v := satS 32 raw
    match refSpace r with
    | 0 => if bySrc s i = 5 && byHome s i == d then offer s i raw (byScale s i) else s
    | 1 => s.modEng d (i / 8 % 16) fun x => { x with inp := x.inp.set (i % 8) (wi v) }
    | 5 => pwmWrite s d (i / 256) (i % 64) v
    | 6 => stepPattern (waveWrite s (i / 256 % 2) (i % 32) v th) (i / 256 % 2)
    | 7 => protWrite s (i / 256) (i % 32) v
    | 8 =>
      let k := i / 256 % 4
      if i % 16 = 0 then s.modConv k fun c => { c with ref := wi (clampI 0 (cvOvp s k) v) }
      else if i % 16 = 1 then s.modConv k fun c => { c with enable := v != 0 } else s
    | 9 => gearWrite s (i / 256 % 4) (i % 16) v
    | _ => s

/-- Operand B or C of an entry as a value (R160). -/
def operand (s : State) (d : Die) (l : Nat) (e : Entry) (isB : Bool) : Val :=
  let (imm, v) := if isB then (e.immb, e.opb) else (e.immc, e.opc)
  if imm then ⟨sx 16 v, sx 8 e.mod⟩ else readRef s d l v

end Sys2Proof.Machine
end

