-- ==== Sys2Proof/Machine/ConvEval.lean ====
section
/-! DEFINITION. The evaluation of a converter instance at a boundary of its primary group (R388 to R392, R399). -/

namespace Sys2Proof.Machine

/-- The output of VBUOY as the converter unit has it. -/
def cvOut (s : State) (i : Nat) : Int := (viewNow s .ds (cvVBuoy s i)).m

/-- Entry to SOFTSTART: t_ss and H restart, REFR from 0 or, with PREBIAS, from the output (R386, R389). -/
def cvSoftstart (s : State) (i : Nat) : State :=
  let s := cvEnter s i 1
  let v := if cvPrebias s i then clampI 0 (nth s.conv i).ref.toInt (cvOut s i) else 0
  s.modConv i fun x => { x with tssAt := s.now, hcnt := 0, refr := wi v, hiccDone := false, cleanAt := s.now }

/-- The carrier period that ends at a boundary counts as a limit hit or not (R388, R390). -/
def cvPeriod (s : State) (i : Nat) : State :=
  s.modConv i fun x =>
    { x with limHit := x.hitNow, hitNow := false, hcnt := if x.hitNow then min 255 (x.hcnt + 1) else 0
             limCnt := if x.hitNow then satInc x.limCnt else x.limCnt
             cleanAt := if x.hitNow then s.now else x.cleanAt }

/-- Whether an evaluation classifies a short (R390). -/
def cvShort (s : State) (i : Nat) : Bool :=
  let x := nth s.conv i
  (x.state == 1 || x.state == 2) && fld (cvW s .ds i 6) 31 24 ≤ x.hcnt
    && decide (5 * cvOut s i < x.ref.toInt) && fld (cvW s .ds i 6) 15 0 * msec ≤ s.now - x.tssAt

/-- A short is classified: HICCUP, or LATCHOFF where the retries are used up (R389, R390). -/
def cvOnShort (s : State) (i : Nat) : State :=
  let x := nth s.conv i
  let v := satS 16 (cvOut s i)
  let s := cvEvent s i 2 (wd ((v % 65536).toNat * 65536 + x.hcnt))
  if x.retry < fld (cvW s .ds i 7) 11 8 then
    (cvEnter s i 3).modConv i fun x =>
      { x with retry := x.retry + 1, hiccAt := s.now + fld (cvW s .ds i 7) 31 16 * msec, hiccDone := false }
  else cvLatch (cvEnter s i 4) i 3 (wd x.retry)

/-- The buoy that makes the telemetry of an instance unusable, if any: STALE or FAULT itself, or its copy on the DS die stale
(R391). -/
def cvStaleBuoy (s : State) (i : Nat) : Option Nat :=
  [cvVBuoy s i, cvIBuoy s i].find? fun b =>
    let x := nth s.buoys b
    unusable s .ds b || x.state == 1 || x.state == 2

/-- The state transitions of an evaluation in the order of R389: ENABLE, over-voltage, the short rule, the hiccup timer. While the
telemetry is unusable an instance that runs, or is about to start, is OFF (R391). -/
def cvTransit (s : State) (i : Nat) : State :=
  let x := nth s.conv i
  let en := x.enable
  let s := if en then s else s.modConv i fun x => { x with sawZero := true }
  let busy := x.state = 1 || x.state = 2 || x.state = 3
  let retry0 (s : State) : State := s.modConv i fun x => { x with retry := 0 }
  match (if busy || (x.state = 0 && en && x.sawZero) then cvStaleBuoy s i else none) with
  | some b => cvEvent (cvOff s i !en) i 4 (wd b)
  | none =>
    if x.state ≠ 5 && cvOvp s i < cvOut s i then
      cvLatch (cvEnter (if busy && !en then retry0 s else s) i 5) i 1 (wi (cvOut s i))
    else if busy && !en then retry0 (cvOff s i true)
    else if cvShort s i then cvOnShort s i
    else match x.state with
      | 0 => if en && x.sawZero then cvSoftstart (s.modConv i fun x => { x with sawZero := false }) i else s
      | 1 => if x.refr = x.ref then (cvEnter s i 2).modConv i fun y => { y with cleanAt := s.now } else s
      | 3 => if x.hiccDone || x.hiccAt ≤ s.now then cvSoftstart s i else s
      | 4 => if isLatched s (0x83 + 8 * i) then s else retry0 (cvOff s i !en)
      | _ => s

/-- The evaluation at a boundary of the primary group (R389). -/
def cvEvaluate (s : State) (i : Nat) : State := cvTransit (cvPeriod s i) i

/-- Every instance whose primary stage is a group evaluates at its boundary. -/
def cvBoundary (s : State) (d : Die) (g : Nat) : State :=
  (List.range 4).foldl (fun s i =>
    if cvOn s i && cvPDie s .ds i == d && cvPGroup s .ds i == g && s.sys.dsReady then cvEvaluate s i else s) s

/-- The first boundary of the primary group at or after a cycle, as a cycle; the cycle itself where none is known. -/
def cvNextBoundary (s : State) (i t : Nat) : Nat :=
  let gr := nth (s.pwm (cvPDie s .ds i)).grps (cvPGroup s .ds i)
  if gr.per = 0 || 16 * t ≤ gr.bAt then t
  else (gr.bAt + (16 * t - gr.bAt + gr.per - 1) / gr.per * gr.per) / 16

end Sys2Proof.Machine
end

