-- ==== Sys2Proof/Machine/Pwm.lean ====
section
/-! DEFINITION. The meanings of the PWM rows (chapter 09): boundaries and mid-points of carrier groups, half-periods of
channels, UNLOCK and INTLK. -/

namespace Sys2Proof.Machine

/-! ## Events (R269) -/

/-- A group event. -/
def grpEvent (s : State) (d : Die) (g cause : Nat) (detail : Word) : State :=
  let s := s.modGrp d g fun x => { x with evt := orBit x.evt cause }
  countEvent s { key := ⟨d, 4, g, 1, g, cause⟩, cause := cause, w := fld (grpW s d g 6) 31 16, n := fld (grpW s d g 6) 7 0
                 detail := detail, early := false }

/-! ## Transfers (R250 to R253) -/

/-- Whether a member's duties are written at the cut-off: all of them for the pair of a SHADOW group, in INDEP mode either
for another (R250). -/
def dutyWritten (s : State) (d : Die) (c cut : Nat) (all : Bool) : Bool :=
  let x := nth (s.pwm d).chans c
  if chanOmode s d c = 1 then
    if all then x.dash.wrAsOf cut && x.dbsh.wrAsOf cut else x.dash.wrAsOf cut || x.dbsh.wrAsOf cut
  else x.dash.wrAsOf cut

/-- A member takes its duty shadows, DUTYA where `a` and DUTYB where `b`, its written PHS, and COMP with DUTYA (R250, R254,
R283); flags and COMMIT are consumed. The first that brings a duty makes the channel drive its outputs. -/
def takePair (s : State) (d : Die) (c cut : Nat) (a b : Bool) : State :=
  let s := match d with
    | .ds => if a then s.modLeg c fun x => { x with comp := (x.compsh.asOf cut).toNat } else s
    | .cs => s
  s.modChan d c fun x =>
    { x.takeCommit cut with
      da := if a then (x.dash.asOf cut).toNat else x.da
      db := if b then (x.dbsh.asOf cut).toNat else x.db
      phs := if x.phssh.wrAsOf cut then (x.phssh.asOf cut).toNat else x.phs
      dash := x.dash.take cut, dbsh := x.dbsh.take cut, phssh := x.phssh.take cut
      active := x.active || a || b, fresh := x.fresh || (!x.active && (a || b)), took := x.took || a || b }

/-- Every flag and COMMIT of a member set by the cut-off is cleared (R252). -/
def clearFlags (s : State) (d : Die) (c cut : Nat) : State :=
  s.modChan d c fun x =>
    { x.takeCommit cut with dash := x.dash.take cut, dbsh := x.dbsh.take cut, phssh := x.phssh.take cut }

/-- A duty in force rescaled from one period to another under RATIO (R252). -/
def ratio (v pNew pOld : Nat) : Nat := if pOld = 0 then v else (2 * v * pNew + pOld) / (2 * pOld)

/-- A new period transfers from the shadow. -/
def takePeriod (s : State) (d : Die) (g cut : Nat) : State :=
  s.modGrp d g fun x => { x with per := (x.persh.asOf cut).toNat, persh := x.persh.take cut, held := false }

/-- SPLIT: an incomplete pair of a SHADOW group is counted and the policy applied (R251, R252). -/
def splitPolicy (s : State) (d : Die) (g cut : Nat) (cs : List Nat) (mask : Nat) : State :=
  let ms := members s d g
  let gr := nth (s.pwm d).grps g
  let pw := gr.persh.wrAsOf cut
  let pol := fld (grpW s d g 0) 1 0
  let pOld := gr.per
  let s := s.modGrp d g fun x => { x with splCnt := satInc x.splCnt }
  let s := grpEvent s d g 1 (wd (atBit pw 10 + pol * 256 + mask))
  if pol = 1 || pol = 2 then
    let s := if pw then takePeriod s d g cut else s.modGrp d g fun x => { x with held := false }
    let pNew := (nth (s.pwm d).grps g).per
    ms.foldl (fun s c =>
      let x := nth (s.pwm d).chans c
      let s :=
        if pol = 2 then (if pw || cs.contains c then takePair s d c cut true (chanOmode s d c == 1) else s)
        else if cs.contains c && dutyWritten s d c cut false then
          takePair s d c cut (x.dash.wrAsOf cut) (x.dbsh.wrAsOf cut && chanOmode s d c == 1)
        else if pw then s.modChan d c fun x => { x with da := ratio x.da pNew pOld, db := ratio x.db pNew pOld, took := true }
        else s
      clearFlags s d c cut) s
  else s.modGrp d g fun x => { x with held := true }

/-- The transfer at a group boundary (R251). -/
def boundaryTransfer (s : State) (d : Die) (g cut : Nat) : State :=
  let ms := members s d g
  let cs := ms.filter fun c => (nth (s.pwm d).chans c).commitAsOf cut
  if cs.length = 0 then s
  else if grpPsrc s d g ≠ 1 then
    cs.foldl (fun s c =>
      let x := nth (s.pwm d).chans c
      if chanUpd s d c = 2 then s
      else takePair s d c cut (x.dash.wrAsOf cut) (x.dbsh.wrAsOf cut && chanOmode s d c == 1)) s
  else
    let pw := (nth (s.pwm d).grps g).persh.wrAsOf cut
    let mask := (List.range ms.length).foldl (fun a k =>
      let c := ms.getD k 0
      if cs.contains c && dutyWritten s d c cut true then a else a + 2 ^ k) 0
    if pw && mask = 0 then
      ms.foldl (fun s c => takePair s d c cut true (chanOmode s d c == 1)) (takePeriod s d g cut)
    else splitPolicy s d g cut cs mask

/-- The transfer at a mid-point (R253). -/
def midTransfer (s : State) (d : Die) (g cut : Nat) : State :=
  if grpPsrc s d g = 1 then s
  else (members s d g).foldl (fun s c =>
    let x := nth (s.pwm d).chans c
    if x.commitAsOf cut && 2 ≤ chanUpd s d c && dutyWritten s d c cut false then
      takePair s d c cut (x.dash.wrAsOf cut) (x.dbsh.wrAsOf cut && chanOmode s d c == 1)
    else s) s

/-! ## Periods (R243 to R245, R265, R394) -/

/-- One step of the LFSR (R245). -/
def lfsrStep (x : BitVec 16) : BitVec 16 :=
  (x <<< 1) ||| (BitVec.ofBool ((x.getLsbD 15 ^^ x.getLsbD 14) ^^ (x.getLsbD 12 ^^ x.getLsbD 3))).zeroExtend 16

/-- Whether a group's computed period is rounded to a multiple of 16: a CS group, or a DS group whose instance has its
other stage on the CS die (R265, R394). -/
def rounds16 (s : State) (d : Die) (g : Nat) : Bool :=
  match d with
  | .cs => true
  | .ds => match cvOfGroup s d g with
    | some (i, _) => cvPDie s d i == .cs || (cvOStage s d i && cvODie s d i == .cs)
    | none => false

/-- Rounding half away from zero, to a multiple of 16 where `r`. -/
def perRound (r : Bool) (q : Rat) : Int := if r then 16 * rndAway (q / 16) else rndAway q

/-- The dithered period of the boundary numbered k, and the LFSR after it (R245). -/
def ditherPeriod (s : State) (d : Die) (g k : Nat) (l : BitVec 16) : Nat × BitVec 16 :=
  let w5 := grpW s d g 5
  let l1 := lfsrStep l
  let l2 := lfsrStep l1
  let (x, l') : Rat × BitVec 16 := match fld (grpW s d g 0) 13 12 with
    | 1 =>
      let n := fld w5 15 8
      let j := k % (2 * n)
      (if j ≤ n then -1 + 2 * (j : Rat) / (n : Rat) else 3 - 2 * (j : Rat) / (n : Rat), l1)
    | 2 => ((((l1.toNat + l2.toNat : Nat) : Rat) - 65536) / 65536, l2)
    | _ => (((l1.toNat : Rat) - 32768) / 32768, l1)
  ((perRound (rounds16 s d g) (((grpW s d g 1).toNat : Rat) * (1000 + (fld w5 6 0 : Nat) * x) / 1000)).toNat, l')

/-- The period of a BEAM group that follows its beam at a speed (R244). -/
def beamPeriod (s : State) (d : Die) (g : Nat) (v : Int) : Nat :=
  let w4 := grpW s d g 4
  (clampI (grpW s d g 2).toNat (grpW s d g 3).toNat
    (perRound (rounds16 s d g) (quo 244 ((256 * 6400000000 : Nat) : Rat) (((fld w4 31 24 : Nat) : Rat) * (v : Rat))))).toNat

/-- The reason a BEAM group cannot follow its beam: 0 stale, 1 speed not positive (R244, R269). -/
def unlockReason (s : State) (d : Die) (g : Nat) : Option Nat :=
  let b := fld (grpW s d g 4) 18 16
  if beamStale s d b then some 0 else if (beamSpeed s d b).toInt ≤ 0 then some 1 else none

/-- A BEAM group unlocks: it runs free at PMAX (R244). -/
def unlock (s : State) (d : Die) (g reason : Nat) : State :=
  grpEvent (s.modGrp d g fun x => { x with unlock := true, per := (grpW s d g 3).toNat }) d g 3 (wd reason)

/-- The beam of a BEAM group as it stood in a cycle. -/
def grpReign (s : State) (d : Die) (g u : Nat) : Reign := (nth (s.beams d) (fld (grpW s d g 4) 18 16)).reign u

/-- The next period as the boundary in cycle u sets it: `k` is the boundary's number, `cross` whether it is a crossing; a crossing
in the cycle in which the beam becomes stale is a boundary from which on the group is unlocked (R243 to R245, R255). -/
def nextPeriod (s : State) (d : Die) (g k u : Nat) (cross : Bool) : State :=
  match grpPsrc s d g with
  | 2 =>
    let r := grpReign s d g u
    if cross && r.leads then s.modGrp d g fun x => { x with unlock := false, per := beamPeriod s d g r.a.speed.toInt }
    else if (nth (s.pwm d).grps g).unlock then s.modGrp d g fun x => { x with per := (grpW s d g 3).toNat }
    else unlock s d g (atBit (!r.stale) 0)
  | 3 =>
    let (p, l) := ditherPeriod s d g k (nth (s.pwm d).grps g).lfsr
    s.modGrp d g fun x => { x with per := p, lfsr := l }
  | _ => s

/-! ## Boundaries (R240, R242, R244, R251, R254) -/

/-- The crossing of a BEAM group that is its next boundary, in t16: while locked one within PMAX of the last boundary, while
unlocked one that comes no later than the free boundary (R244). -/
def lockCross (s : State) (d : Die) (g : Nat) : Option Nat :=
  let gr := nth (s.pwm d).grps g
  let lim := gr.bAt + (if gr.unlock then gr.per else (grpW s d g 3).toNat)
  ((grpCross s d g).map (16 * ·)).filter (· ≤ lim)

/-- Where a locked BEAM group has no crossing to come, it unlocks: at once where it cannot follow its beam, else PMAX after its
last boundary (R244). -/
def unlockLost (s : State) (d : Die) (g : Nat) : State :=
  let gr := nth (s.pwm d).grps g
  if grpPsrc s d g = 2 && !gr.unlock && (lockCross s d g).isNone then
    match unlockReason s d g with
    | some r => unlock s d g r
    | none => unlock (s.advanceTo ((gr.bAt + (grpW s d g 3).toNat) / 16)) d g 2
  else s

/-- The time of the next boundary in t16, and whether it is a crossing. -/
def boundaryDue (s : State) (d : Die) (g : Nat) : Nat × Bool :=
  let gr := nth (s.pwm d).grps g
  match (if grpPsrc s d g = 2 then lockCross s d g else none) with
  | some t => (t, true)
  | none => (gr.bAt + gr.per, false)

/-- The halves of a channel's own period pushed at a boundary; halves of the period before that would start after the new
one do not (R242). -/
def pushHalves (s : State) (d : Die) (c b per : Nat) : State :=
  s.modChan d c fun x =>
    let phi := dieFloor d (x.phs * per / 65536)
    let c0 := b + phi
    { x with halves := (x.halves.filter fun h => h.t < c0)
               ++ [⟨c0, false, c0, per⟩, ⟨c0 + dieFloor d (per / 2), true, c0, per⟩] }

/-- The machine whose legs a DS group carries (R278). -/
def grpMach (s : State) (d : Die) (g : Nat) : Option Nat :=
  match d with
  | .cs => none
  | .ds => ((members s .ds g).find? fun c => isLeg s c).map fun c => legMach s c

/-- The CARRIER beams of a group. -/
def carrierBeams (s : State) (d : Die) (g : Nat) : List Nat :=
  (List.range 8).filter fun b => bmOn s b && bmSrc s b = 4 && bmGroup s b == (d, g)

/-- LIMIT of the actuators of a CS group follows the period that ends (R439, R447). -/
def gearBoundary (s : State) (g : Nat) : State :=
  { s with gact := s.gact.mapIdx fun a x =>
      if (actDef s a).isSome && actGroup s a == g then { x with limit := x.hitNow, hitNow := false } else x }

/-- A boundary of a group at a time in t16, numbered k: the transfer where `transfer`, the period that starts, the
halves, what hangs on the boundary. -/
def boundaryAt (s : State) (d : Die) (g b : Nat) (cross transfer : Bool) : State :=
  let u := b / 16
  let bs := carrierBeams s d g
  let old := nth (s.pwm d).grps g
  let s := if transfer then (members s d g).foldl (fun s c => driveFirst s d c b) (boundaryTransfer s d g (u - 2)) else s
  let s := nextPeriod s d g old.k u cross
  let s := s.modGrp d g fun x =>
    { x with run := true, k := x.k + 1, bt := countAt s d u, bAt := b, pbAt := old.bAt, pper := old.per
             xAt := none, xWatch := u + 1 }
  let per := (nth (s.pwm d).grps g).per
  let ms := members s d g
  let s := ms.foldl (fun s c => pushHalves s d c b per) s
  let s := ms.foldl (fun s c =>
    if (nth (s.pwm d).chans c).limHold then s.modChan d c fun x => { x with limHold := false } else s) s
  let s := if d == .cs then gearBoundary s g else s
  let s := bs.foldl directUpdate s
  let s := match grpMach s d g with
    | some m => machBoundary (machUpdate s m) m
    | none => s
  cvBoundary s d g

/-- CARRIER_BOUNDARY: a carrier group's period ends (R240, R244, R251, R254). -/
def execCarrierBoundary (die : Die) (group : Fin 16) (s : State) : Host.Outcome State Fault Refusal :=
  .next (
    let g := group.val
    if (grpRec s die g).isSome && (nth (s.pwm die).grps g).run then
      let s := unlockLost s die g
      let (b, cross) := boundaryDue s die g
      boundaryAt (s.advanceTo (b / 16)) die g b cross true
    else s)

/-- CARRIER_MIDPOINT: at a group's mid-point, members with UPD MID or BOTH take their written duties (R240, R253). -/
def execCarrierMidpoint (die : Die) (group : Fin 16) (s : State) : Host.Outcome State Fault Refusal :=
  .next (
    let g := group.val
    let gr := nth (s.pwm die).grps g
    if (grpRec s die g).isSome && gr.run then
      let b := gr.bAt + gr.per / 2
      let s := midTransfer (s.advanceTo (b / 16)) die g (b / 16 - 2)
      let s := (members s die g).foldl (fun s c => driveFirst s die c b) s
      match grpMach s die g with
      | some m => machUpdate s m
      | none => s
    else s)

/-- CARRIER_UNLOCK: a BEAM group that cannot follow its beam, or sees no crossing within PMAX, counts UNLOCK and runs free
(R244). -/
def execCarrierUnlock (die : Die) (group : Fin 16) (s : State) : Host.Outcome State Fault Refusal :=
  .next (
    let g := group.val
    if (grpRec s die g).isSome && (nth (s.pwm die).grps g).run then unlockLost s die g else s)

/-! ## Half-periods (R242) -/

/-- The channel's half that starts next. -/
def nextHalf (x : Chan) : Option Half :=
  x.halves.foldl (fun a h => match a with | some y => if h.t < y.t then some h else a | none => some h) none

/-- CHANNEL_HALF_START: a channel's own half-period starts and takes its edges from the pair in force (R242, R253, R574). -/
def execChannelHalfStart (die : Die) (ch : Fin 48) (second : Bool) (s : State) : Host.Outcome State Fault Refusal :=
  .next (
    let c := ch.val
    match nextHalf (nth (s.pwm die).chans c) with
    | none => s
    | some h =>
      if h.second != second || (chanRec s die c).isNone then s
      else
        startHalf (s.advanceTo (h.t / 16)) die c h)

/-! ## Interlock (R262) -/

/-- The first instant at which both outputs of an INDEP channel would be on. -/
def overlapAt (x : Chan) (m : ChanMode) (t : Nat) : Option Nat :=
  let ts := t :: ((x.shA.edges ++ x.shB.edges).map (·.t)).filter (t < ·)
  (ts.filter fun u =>
    let y := x.settle m u
    !y.idle && y.shA.lvl && y.shB.lvl).foldl
    (fun a u => match a with | some v => some (min u v) | none => some u) none

/-- INTLK: both outputs would be on; both turn off until the channel's next boundary, and INTLK is counted (R262). -/
def execIntlk (die : Die) (ch : Fin 48) (s : State) : Host.Outcome State Fault Refusal :=
  .next (
    let c := ch.val
    let m := chanMode s die c
    let x := nth (s.pwm die).chans c
    if m.omode ≠ 1 || (chanRec s die c).isNone then s
    else match overlapAt x m (now16 s) with
      | none => s
      | some t =>
        let s := s.advanceTo (t / 16)
        let g := chanGrp s die c
        let pos := if x.cper = 0 then 0 else (t - x.c0) * 65536 / x.cper
        let s := s.modChan die c fun x =>
          { x.clear m t with intOff := true, evt := orBit x.evt 2, intCnt := satInc x.intCnt }
        let top := match die with | .ds => 47 | .cs => 15
        countEvent s { key := ⟨die, 4, instOf top c, 0, c, 2⟩, cause := 2, w := fld (grpW s die g 6) 31 16
                       n := fld (grpW s die g 6) 7 0, detail := wd (min pos 65535), early := false })

end Sys2Proof.Machine
end

