-- ==== Sys2Proof/Machine/Traction.lean ====
section
/-! DEFINITION. The meanings of the traction rows (chapter 10): fill duties, step edges, electrical turns, Candle drive,
substitution time. -/

namespace Sys2Proof.Machine

/-! ## Fill duties (R277, R283 to R285) -/

/-- The limited voltages and the saturation flags of R284. -/
structure Limited where
  vd  : Rat
  vq  : Rat
  vdc : Rat
  dH  : Bool
  dL  : Bool
  qH  : Bool
  qL  : Bool

def limited (s : State) (m : Nat) (i : WaveIn) : Limited :=
  let vdc := vdcFloor s m
  let lim := ((fld (wfW s m 6) 31 21 : Nat) : Rat) / 1024 * vdc / sqrtR 3
  let d : Rat := ((i.vd.toInt : Int) : Rat) * pow2 (-12)
  let q : Rat := ((i.vq.toInt : Int) : Rat) * pow2 (-12)
  let vd := clampR (-lim) lim d
  let ql := sqrtR (lim * lim - vd * vd)
  ⟨vd, clampR (-ql) ql q, vdc, decide (lim < d), decide (d < -lim), decide (ql < q), decide (q < -ql)⟩

/-- v_k of a phase at an output angle (R285). -/
def phaseV (s : State) (m st k : Nat) (v : Limited) (th : Word) : Rat :=
  let a := angleOff s m st k th.toNat
  v.vd * cosR a - v.vq * sinR a

/-- The fill duty of a phase: P0 × (1/2 + (v_k + v_0) / V_dc), rounded and clamped (R285). -/
def fillDuty (s : State) (m st k : Nat) (v : Limited) (th : Word) (p0 : Nat) : Nat :=
  let vs := [0, 1, 2].map fun j => phaseV s m st j v th
  let hi := vs.foldl max (vs.headD 0)
  let lo := vs.foldl min (vs.headD 0)
  let v0 := -(hi + lo) / 2
  (clampI 0 p0 (rndAway (((p0 : Nat) : Rat) * (1 / 2 + quo 285 (vs.getD k 0 + v0) v.vdc)))).toNat

/-- The next update point of a machine's leg groups, in t16: the mid-point ahead, or the boundary (R240, R277). -/
def nextUpdate (s : State) (m : Nat) : Option Nat :=
  match (machLegs s m).head? with
  | none => none
  | some c =>
    let g := chanGrp s .ds c
    let gr := nth s.pwmDs.grps g
    let mid := gr.bAt + gr.per / 2
    let ahead := s.now + 3 < mid / 16 || (s.now + 3 = mid / 16 && (nth s.mach m).pend.isNone)
    if !gr.run then none else some (if ahead then mid else (boundaryDue s .ds g).1)

/-- The shadows of one leg written in cycle u − 3 (R277, R283). -/
def writeLeg (s : State) (m : Nat) (v : Limited) (th : Word) (w c : Nat) : State :=
  let p := legPhase s c
  let p0 := (grpW s .ds (chanGrp s .ds c) 1).toNat
  let d := fillDuty s m (phaseSet s p) (phaseIdx s p) v th p0
  let rw (x : Nat) : Nat := (2 * w * x + 65536) / 131072
  let da := rw d
  let n := phaseLegs s p
  let phs := if n = 0 then 0 else (2 * legPos s c * 65536 + n) / (2 * n) % 65536
  let s := s.modLeg c fun x => { x with compsh := x.compsh.write s.now (wd (rw p0 - da)) }
  s.modChan .ds c fun x => { x with dash := x.dash.write s.now (wd da), phssh := x.phssh.write s.now (wd phs) }

/-- WAVE_DUTY_UPDATE: in cycle u − 3 the fill duties, the leg shadows, MODE, FILLW and the saturation flags are taken for
the update point u (R277, R283 to R285, R304). -/
def execWaveDutyUpdate (m : Fin 2) (s : State) : Host.Outcome State Fault Refusal :=
  .next (
    let m := m.val
    if !machOn s m || !s.sys.dsReady then s
    else match nextUpdate s m with
      | none => s
      | some p =>
        let u := p / 16
        let s := s.advanceTo (u - 3)
        let i := waveBefore s m
        let v := limited s m i
        let th := beamPhase s .ds (machBeam s m) (u + fld (wfW s m 6) 15 0)
        let mode := i.mode.toNat
        let s := s.modMach m fun x =>
          { x with pend := some (mode, i.fillw), vdl := wi (satS 32 (mantOf v.vd (-12))), vql := wi (satS 32 (mantOf v.vq (-12)))
                   satDH := v.dH, satDL := v.dL, satQH := v.qH, satQL := v.qL }
        (machLegs s m).foldl (fun s c => writeLeg s m v th i.fillw.toNat c) s)

/-! ## Step edges (R279, R280) -/

/-- Ψ of a leg's phase at a cycle, in 1/(3 × 2^33) turn (R279). -/
def psiAt (s : State) (m c : Nat) (i : WaveIn) (t : Int) : Int :=
  let p := legPhase s c
  beamU s .ds (machBeam s m) t * 6 + i.adv.toInt * (3 * 2 ^ 17) - (phaseIdx s p : Int) * 2 ^ 33
    - (phaseSet s p * fld (wfW s m 1) 31 16 : Nat) * (3 * 2 ^ 17) + 3 * 2 ^ 32

/-- The edge index of Ψ. -/
def edgeIdx (psi : Int) : Int := (2 * psi + 3 * 2 ^ 32) / (3 * 2 ^ 33)

/-- The slot of a leg at an edge index (R279). -/
def slotAt (j n : Nat) (e : Int) : Nat := if n = 0 then 0 else (((j : Int) + (e + 1) / 2) % (n : Int)).toNat

/-- Ψ at which a leg switches at an edge index: the commutation angle plus the slot's offset. -/
def switchPsi (j n : Nat) (g : Int) (e : Int) : Int :=
  e * (3 * 2 ^ 32) + (2 * (slotAt j n e : Int) - n + 1) * g * (3 * 2 ^ 16)

/-- The step state at Ψ (R279). -/
def stepState (j n : Nat) (g psi : Int) : Bool :=
  let e := edgeIdx psi
  if e % 2 = 0 then switchPsi j n g e ≤ psi else psi < switchPsi j n g e

/-- The cycle and sixteenth of a leg's next H edge: at once where H differs from the leg's, else at the next crossing of a
slot offset in the direction the beam moves (R280). `psi` is Ψ by cycle. -/
def nextStep (h : Bool) (j n : Nat) (g : Int) (psi : Int → Int) (now : Int) : Option (Int × Nat) :=
  let frac (t thr : Int) : Nat :=
    let a := psi (t - 1)
    let b := psi t
    let num := (thr - a).natAbs
    let den := (b - a).natAbs
    if den = 0 || den < num then 0 else (16 * num + den - 1) / den - 1
  let here := psi now
  let e := edgeIdx here
  let fwd := psi now ≤ psi (now + 2 ^ 20)
  if stepState j n g here != h then
    let was := psi (now - 1)
    match ([e + 1, e, e - 1].map (switchPsi j n g)).find? fun x => (was < x && x ≤ here) || (here < x && x ≤ was) with
    | some x => some (now, frac now x)
    | none => some (now, 0)
  else if fwd then
    match ([e - 1, e, e + 1].map (switchPsi j n g)).find? fun x => here < x with
    | some x => (searchUp psi x 31 (now + 1)).map fun t => (t, frac t x)
    | none => none
  else
    match ([e + 1, e, e - 1].map (switchPsi j n g)).find? fun x => x ≤ here with
    | some x => (searchUp (fun t => -psi t) (1 - x) 31 (now + 1)).map fun t => (t, frac t x)
    | none => none

/-- The slot s_j a leg takes at the edge index of now; 0 before page 0 (R279, R310). -/
def legSlot (s : State) (c : Nat) : Nat :=
  let m := legMach s c
  if !machOn s m || !bmOn s (machBeam s m) || !s.sys.dsReady then 0
  else
    let ahead := ((-(nth s.pwmDs.chans c).trim).toNat + 15) / 16
    slotAt (legPos s c) (phaseLegs s (legPhase s c)) (edgeIdx (psiAt s m c (waveBefore s m) (s.now + ahead)))

/-- LEG_STEP_EDGE: Δ crosses the leg's slot offset, so H changes and an edge is placed (R279, R280, R282). -/
def execLegStepEdge (ch : Fin 48) (s : State) : Host.Outcome State Fault Refusal :=
  .next (
    let c := ch.val
    let m := legMach s c
    if !isLeg s c || !machOn s m || !bmOn s (machBeam s m) || !s.sys.dsReady then s
    else
      let i := waveBefore s m
      let x := nth s.pwmDs.chans c
      let ahead := ((-x.trim).toNat + 15) / 16
      let g := i.grade.toInt
      let j := legPos s c
      let n := phaseLegs s (legPhase s c)
      let l := nth s.legs c
      match nextStep l.h j n g (fun t => psiAt s m c i (t + ahead)) s.now with
      | none => s
      | some (t, f) =>
        let s := s.advanceTo t.toNat
        let psi := psiAt s m c i (t + ahead)
        let s := s.modLeg c fun y =>
          { y with h := stepState j n g psi, edgT := count s .ds }
        if (nth s.mach m).fillUse.toNat = 65536 || (candLevel s c).isSome then s
        else
          let te : Int := 16 * (t + ahead) + f + x.trim
          let lo : Int := max x.c0 (16 * t)
          let at_ := (max lo (if x.cper = 0 then te else min te (x.c0 + x.cper))).toNat
          replanLeg (s.modLeg c fun y => { y with hEdges := y.hEdges.filter (now16 s < ·) ++ [at_] }) c at_)

/-! ## Electrical turns (R288, R301) -/

/-- OPENPH of a phase at the end of a turn: the phase is noted, a six-phase machine with DEGOK and its other set healthy
runs degraded, the rest is the reaction's (R288, R301, R330). -/
def openPhase (s : State) (m p : Nat) : State :=
  let s := s.modMach m fun x =>
    let o := x.openPh ||| BitVec.ofNat 6 (2 ^ p)
    let one := o.toNat % 8 = 0 || o.toNat / 8 = 0
    { x with openPh := o, degraded := bitOf (wfW s m 0) 12 && machPhases s m == 6 && one }
  wfEvent (confine s m (p / 3)) m 4 p (wd p)

/-- The peaks of a turn are judged and cleared. -/
def turnEnd (s : State) (m : Nat) : State :=
  let x := nth s.mach m
  let f (s : State) (p : Nat) : State :=
    let st := p / 3
    let pk (k : Nat) : Nat := x.peaks.getD (3 * st + k % 3) 0
    let k := p % 3
    let sum := pk (k + 1) + pk (k + 2)
    if p < machPhases s m && 2 * 256 * pk k < fld (wfW s m 10) 23 16 * sum
        && fld (wfW s m 10) 15 0 * 65536 * 2 ≤ sum then openPhase s m p else s
  let s := if x.mode = 1 && posValid s m then (List.range 6).foldl f s else s
  s.modMach m fun x => { x with peaks := List.replicate 6 0 }

/-- ELECTRICAL_TURN_END: the beam's cycle count changes (R288). -/
def execElectricalTurnEnd (m : Fin 2) (s : State) : Host.Outcome State Fault Refusal :=
  .next (
    let m := m.val
    let b := machBeam s m
    if !machOn s m || !bmOn s b || !s.sys.dsReady then s
    else
      let at_ (t : Int) : Int := beamU s .ds b t
      let turn : Int := (2 ^ 32 : Nat)
      let here := at_ s.now
      let due : Option Int :=
        if beamCyc s .ds b s.now ≠ (nth s.mach m).turnCyc then some s.now
        else if here ≤ at_ (s.now + 2 ^ 20) then searchUp at_ ((here / turn + 1) * turn) 31 (s.now + 1)
        else searchUp (fun t => -at_ t) (1 - here / turn * turn) 31 (s.now + 1)
      match due with
      | none => s
      | some t =>
        let s := s.advanceTo t.toNat
        (turnEnd s m).modMach m fun x => { x with turnCyc := beamCyc s .ds b s.now })

/-! ## Candle (R291 to R293) -/

/-- CATCHTMO of a machine in cycles. -/
def catchTmo (s : State) (m : Nat) : Nat := fld (wfW s m 8) 23 16 * msec

/-- CANDLE_COMMUTATE: half a crossing interval after a consistent crossing the pattern commutates (R292). -/
def execCandleCommutate (m : Fin 2) (s : State) : Host.Outcome State Fault Refusal :=
  .next (
    let m := m.val
    let k := nth s.candle m
    match k.pend with
    | none => s
    | some t =>
      let s := s.advanceTo t
      if (nth s.mach m).mode ≠ 2 || k.timedOut then s.modCandle m fun x => { x with pend := none }
      else
        let x : Int := (k.lastM.getD 0 : Nat) + k.dir + (if (nth s.mach m).inp.cdir.toInt < 0 then 3 else 0)
        let s := setPattern s m (x % 6).toNat
        s.modCandle m fun x =>
          { x with pend := none, driving := true, commuteAt := s.now, commutes := x.commutes + 1
                   caught := x.caught || fld (wfW s m 8) 31 24 ≤ x.commutes })

/-- CATCH_TIMEOUT: no crossing for CATCHTMO: under drive the pattern advances in the sense of CDIR; while set 0 floats with
its voltages valid the estimate becomes 0 and a catch starts to drive with CSECT (R291, R292). -/
def execCatchTimeout (m : Fin 2) (s : State) : Host.Outcome State Fault Refusal :=
  .next (
    let m := m.val
    let k := nth s.candle m
    let mode := (nth s.mach m).mode
    if !machOn s m || !s.sys.dsReady then s
    else if mode = 2 && k.driving && !k.timedOut then
      if k.commuteAt < k.lastX then s
      else
        let s := s.advanceTo (k.commuteAt + catchTmo s m)
        let cd := (nth s.mach m).inp.cdir.toInt
        let p := (((k.pattern : Int) + (if 0 < cd then 1 else if cd < 0 then -1 else 0)) % 6).toNat
        (setPattern s m p).modCandle m fun x => { x with commuteAt := s.now }
    else if setFloats s m 0 && [0, 1, 2].all (fun i => (nth s.buoys (vBuoy s m i)).state == 0) then
      let s := s.advanceTo (max (max k.lastX k.modeAt) (s.t0.getD 0) + catchTmo s m)
      let s := s.modCandle m fun x => { x with cspd := 0, cvalid := true }
      if mode = 2 && k.catching && !k.timedOut then
        (setPattern s m ((nth s.mach m).inp.csect.toNat % 6)).modCandle m fun x =>
          { x with driving := true, commuteAt := s.now, commutes := 1 }
      else s
    else s)

/-- CANDTO: the drive timer reaches CANDTMAX: the event, and set 0 floats until MODE leaves CATCH or STEP (R293). -/
def execCandto (m : Fin 2) (s : State) : Host.Outcome State Fault Refusal :=
  .next (
    let m := m.val
    let k := nth s.candle m
    let mode := (nth s.mach m).mode
    if !machOn s m || !s.sys.dsReady || !(mode = 2 || mode = 3) || 5 < k.pattern then s
    else
      let s := s.advanceTo (s.now + (fld (wfW s m 7) 15 4 * msec - driveTime s m))
      let s := wfEvent s m 6 0 (wd k.pattern)
      (setPattern s m 7).modCandle m fun x => { x with timedOut := true, driving := false, pend := none })

/-- SUBEXP: the substitution time reaches SUBTIME: counted and delivered once (R300). -/
def execSubexp (m : Fin 2) (s : State) : Host.Outcome State Fault Refusal :=
  .next (
    let m := m.val
    let x := nth s.mach m
    if !machOn s m || !s.sys.dsReady || !x.subAct || x.subDone then s
    else
      let lim := (let t := fld (wfW s m 9) 15 0; if t = 0 then 500 else t) * msec
      let s := s.advanceTo (s.now + (lim - subTime s m))
      let b := ((curBuoys s m).find? (subActive s ·)).getD 0
      wfEvent (s.modMach m fun x => { x with subDone := true }) m 3 0 (wd b))

end Sys2Proof.Machine
end

