-- ==== Sys2Proof/Machine/LampCore.lean ====
section
/-! DEFINITION. Temperature channels' records, and the lamp-hours unit: its log, baselines, re-plan targets and commits
(R448, R459 to R470). -/

namespace Sys2Proof.Machine

/-! ## Records (R469) -/

/-- The die of a temperature channel (R448). -/
def thDie (c : Nat) : Die := if c ≤ 7 || (16 ≤ c && c ≤ 21) then .cs else .ds

/-- The THCHAN of a channel. -/
def thRec (s : State) (c : Nat) : Option (List Word) := recBy (recsIn s (thDie c)) sTHERMAL 1 28 24 c
def thW (s : State) (c i : Nat) : Word := wat ((thRec s c).getD []) i
def thLimit (s : State) (c : Nat) : Int := sfld (thW s c 1) 31 16
def thEnth (s : State) (c : Nat) : Bool := bitOf (thW s c 0) 16
def thZmeas (s : State) (c : Nat) : Bool := bitOf (thW s c 0) 8

/-- THCFG and LACFG words. -/
def thCfg (s : State) (i : Nat) : Word := wat ((recsOf (recsIn s .cs) sTHERMAL 2).headD []) i
def laCfg (s : State) (i : Nat) : Word := wat ((recsOf (recsIn s .cs) sTHERMAL 3).headD []) i

/-- The reading of a channel: LIMIT + 16 until its first sample; 0 without a record (R448, R453). -/
def thVal (s : State) (c : Nat) : Int :=
  if (thRec s c).isNone then 0
  else if (nth s.temp c).unknown then thLimit s c + 16 else (nth s.temp c).val.toInt
where
  /-- A channel by number. -/
  nth (l : List Temp) (i : Nat) : Temp := l.getD i {}

/-- A temperature channel. -/
def tempAt (s : State) (c : Nat) : Temp := s.temp.getD c {}

/-- A leg's delays. -/
def legDelay (s : State) (c : Nat) : LegDelay := s.lamp.legs.getD c {}

/-! ## Events of subsystem 21 (R472) -/

/-- An event of the lamp-hours unit, in its fixed counter. -/
def laEvent (s : State) (inst unit elem cause : Nat) (detail : Word) : State :=
  let s := { s with lamp := { s.lamp with evt := orBit s.lamp.evt cause } }
  countEvent s (direct .cs 21 inst unit elem cause detail)

/-! ## FENCEREC (R49) -/

/-- The FENCEREC payload of a quantity instance. -/
def fenceRec (s : State) (q i : Nat) : Option (List Word) :=
  (recsOf s.img.recs sFENCE 1).find? fun w => fld (wat w 0) 23 16 == q && fld (wat w 0) 7 0 == i
def fenceW (s : State) (q i j : Nat) : Int := (wat ((fenceRec s q i).getD []) j).toInt
def fenceCrc (s : State) (q i : Nat) : Word := crc32 (bytesOf ((fenceRec s q i).getD []))

/-- The value in use of a quantity instance, if it has a FENCEREC. -/
def fenceVal (s : State) (q i : Nat) : Option Int := (s.lamp.fences.find? fun f => f.qty == q && f.inst == i).map (·.value)

/-- Highest instance number of a quantity (R49, R472). -/
def fenceTop (q : Nat) : Nat := if q = 3 then 31 else if q = 6 then 27 else if q = 7 then 0 else 47

/-- A value in use where it acts (R464): dead times, minimum pulse and trim at the channel's next own boundary, blanking and
knee at once, the guard band from the next superframe on. -/
def fenceApply (s : State) (q i : Nat) (v : Int) : State :=
  match q with
  | 1 => s.modChan .ds i fun x => { x with pdtr := v.toNat }
  | 2 => s.modChan .ds i fun x => { x with pdtf := v.toNat }
  | 3 => { s with prot := { s.prot with trip := upd s.prot.trip i fun x => { x with blank := v.toNat } } }
  | 4 => s.modChan .ds i fun x => { x with pminp := v.toNat }
  | 5 => s.modChan .ds i fun x => { x with ptrim := v }
  | 6 => s.modTemp i fun x => { x with knee := BitVec.ofInt 16 v }
  | 7 => { s with lamp := { s.lamp with gbandNext := v.toNat } }
  | _ => s

/-! ## The lamp-hours log (R465) -/

/-- Address of a record of the log: 8,192 places in two halves. -/
def lampAddr (i : Nat) : Nat := storeBase + 0x700000 + 32 * (i % 8192)

/-- One record written at the position in force; a failed write counts LOGFAIL and freezes re-planning. -/
def lampPut (s : State) (w : List Word) : State :=
  let r := w ++ [crc32 (bytesOf w)]
  let (s1, ok) := storeWrite s (lampAddr s.nv.lampPos) (bytesOf r)
  let s2 := { s1 with nv := { s1.nv with lseq := s1.nv.lseq + 1, lampPos := (s1.nv.lampPos + 1) % 8192 }
                      lamp := { s1.lamp with last := r, evt := orBit s1.lamp.evt 16 } }
  if ok then s2 else laEvent { s2 with lamp := { s2.lamp with freeze := true } } 0 0 0 3 (wat w 0)

/-- The places of the log that hold a record, in order (an unwritten place reads 0). -/
def lampPlaces (s : State) : List Nat :=
  let base := lampAddr 0
  let used := (s.mem.filter fun c => base ≤ c.1 && c.1 < base + 0x40000).map fun c => (c.1 - base) / 32
  (List.range 8192).filter fun i => used.contains i

/-- A record of the log read through the code: the state with the events of its words, and its eight words (R39). -/
def lampRead (s : State) (i : Nat) : State × List Word :=
  let (s, bs, _) := storeRead s (lampAddr i) 32
  (s, wordsOf 8 bs)

/-- The record with the highest LSEQ among records of one quantity (with or without 0x80) and instance. -/
def lampLatest (rs : List (List Word)) (key : Nat) : Option (List Word) :=
  (rs.filter fun r => fld (wat r 1) 15 0 == key).foldl (fun a r =>
    match a with
    | some x => if (wat x 0).toNat < (wat r 0).toNat then some r else some x
    | none => some r) none

/-- When the active half is full, the latest record of each quantity instance is written into the other half (R465). -/
def lampTurn (s : State) : State :=
  if s.nv.lampPos % 4096 ≠ 0 || s.nv.lseq = 0 then s
  else
    let half := (s.nv.lampPos + 8192 - 1) % 8192 / 4096
    let (s, rs) := ((lampPlaces s).filter fun i => i / 4096 == half).foldl (fun (s, rs) i =>
      let (s, r) := lampRead s i
      (s, rs ++ [r])) (s, [])
    let keys := (rs.map fun r => fld (wat r 1) 15 0).eraseDups
    keys.foldl (fun s k => match lampLatest rs k with | some r => lampPut s (r.take 7) | none => s) s

/-- A record of a re-plan or a baseline (R465): the quantity code, instance, old and new value. -/
def lampLog (s : State) (code q i : Nat) (old new : Word) : State :=
  let s := lampTurn s
  let n := netNs s s.now
  lampPut s [wd (s.nv.lseq + 1), wd (code * 256 + i), fenceCrc s q i, old, new, lo32 n, hi32 n]

/-! ## Measurements (R459) -/

/-- A mean of delays. -/
def meanOf (l : List Nat) : Rat := (l.sum : Rat) / (l.length : Rat)

/-- Whether a leg has a mean of each of its four delays. -/
def legHas (s : State) (c : Nat) : Bool :=
  let x := legDelay s c
  x.hOn ≠ [] && x.hOff ≠ [] && x.lOn ≠ [] && x.lOff ≠ []

/-- The longer t_on and t_off of a leg's two outputs, and the leg's delay of quantity 0x05. -/
def legTon (s : State) (c : Nat) : Rat := max (meanOf (legDelay s c).hOn) (meanOf (legDelay s c).lOn)
def legToff (s : State) (c : Nat) : Rat := max (meanOf (legDelay s c).hOff) (meanOf (legDelay s c).lOff)
def legMean (s : State) (c : Nat) : Rat :=
  let x := legDelay s c
  (meanOf x.hOn + meanOf x.hOff + meanOf x.lOn + meanOf x.lOff) / 4

/-- The lesser slack of the two dies. -/
def leastSlack (s : State) : Nat := min s.lamp.slackCs.toNat s.lamp.slackDs.toNat

/-- The legs a quantity instance measures. -/
def fenceLegs (s : State) (q i : Nat) : List Nat :=
  match q with
  | 3 => guarded s 0 i
  | 5 => phaseLegsOf s (legPhase s i)
  | _ => [i]

/-- The measurement a baseline is taken from, where it is valid (R461): delays in 156.25 ps, slack in ps; a τ has no unit in
the record, so its word is a free value. -/
def baseNow (s : State) (q i : Nat) : Option Rat :=
  if q ≤ 5 then
    let ls := fenceLegs s q i
    if ls = [] || !ls.all (legHas s ·) then none
    else some (match q with
      | 1 => max 0 (meanOf (legDelay s i).lOff - meanOf (legDelay s i).hOn)
      | 2 => max 0 (meanOf (legDelay s i).hOff - meanOf (legDelay s i).lOn)
      | 3 => (ls.map (legTon s)).foldl max 0
      | 4 => legToff s i
      | _ => legMean s i)
  else if q = 6 then (if (tempAt s i).tau.isSome then some 0 else none)
  else if s.lamp.slackCs ≠ 0 || s.lamp.slackDs ≠ 0 then some (leastSlack s : Nat) else none

/-- A leg's delays become its baselines where it has none. -/
def legBase (s : State) (c : Nat) : State :=
  { s with lamp := { s.lamp with legs := s.lamp.legs.modify c fun x =>
      if x.base.isNone && x.hOn ≠ [] && x.hOff ≠ [] && x.lOn ≠ [] && x.lOff ≠ [] then
        { x with base := some (max (meanOf x.hOn) (meanOf x.lOn), max (meanOf x.hOff) (meanOf x.lOff)) }
      else x } }

/-- The values that survive a restart with a baseline: a leg's t_on and t_off, or τ_0 (R461). -/
def baseKeep (s : State) (q i : Nat) : List (Nat × Nat × Rat × Rat) :=
  if q ≤ 5 then (fenceLegs s q i).filterMap fun c => (legDelay s c).base.map fun b => (0, c, b.1, b.2)
  else match (tempAt s i).tau0 with | some t => if q = 6 then [(6, i, t, 0)] else [] | none => []

/-- The baseline of one instance is taken at its first valid measurement, and logged (R461, R465). -/
def takeBase (s : State) (f : Fence) : State :=
  match f.base, baseNow s f.qty f.inst with
  | none, some v =>
    let b := rndAway v
    let s := if f.qty ≤ 5 then (fenceLegs s f.qty f.inst).foldl legBase s else s
    let keep := baseKeep s f.qty f.inst
    let s := { s with
      lamp := { s.lamp with fences := s.lamp.fences.map fun g =>
        if g.qty == f.qty && g.inst == f.inst then { g with base := some b } else g }
      nv := { s.nv with lampBase :=
        (s.nv.lampBase.filter fun x => !keep.any fun y => y.1 == x.1 && y.2.1 == x.2.1) ++ keep } }
    if f.qty = 6 then lampLog s.useFree (f.qty + 0x80) f.qty f.inst 0 s.free
    else lampLog s (f.qty + 0x80) f.qty f.inst 0 (wi b)
  | _, _ => s

/-- Baselines of the quantities a measurement bears on. -/
def takeBases (s : State) (q : Nat → Bool) : State :=
  (s.lamp.fences.filter fun f => q f.qty).foldl takeBase s

/-- PATHSLOW of both dies (R461). -/
def pathSlow (s : State) : State :=
  let lim := fld (laCfg s 2) 31 16
  let one (s : State) (d : Nat) (v : BitVec 16) : State :=
    if v.toNat < lim then laEvent s 0 0 0 6 (wd (d * 65536 + v.toNat)) else s
  one (one s 0 s.lamp.slackCs) 1 s.lamp.slackDs

/-- The slack of both dies is measured (R459, R461). -/
def slackMeasured (s : State) (cs ds : BitVec 16) : State :=
  takeBases (pathSlow { s with lamp := { s.lamp with slackCs := cs, slackDs := ds } }) (· == 7)

/-- A contactor's closing time is passed on (R366, R459, R461). -/
def lampContactor (s : State) (n tenth : Nat) : State :=
  let s := { s with lamp := { s.lamp with ctMax := if s.lamp.ctMax.toNat < tenth then BitVec.ofNat 16 tenth else s.lamp.ctMax } }
  if 10 * fld (laCfg s 3) 15 0 < tenth then laEvent s 0 0 0 4 (wd (n * 65536 + tenth / 10)) else s

/-- Baselines that no FENCEREC dates belong to the image they were taken under; those of another image are dropped (R459,
R460). -/
def baseImage (s : State) : State :=
  if s.nv.resHash == s.img.hash then s
  else
    let kept := s.nv.lampBase.filter fun b => !(b.1 == 6 && (fenceRec s 6 b.2.1).isNone)
    { s with nv := { s.nv with resHash := s.img.hash, resBase := [none, none], lampBase := kept } }

/-! ## Targets (R462) -/

/-- The target of a quantity instance that has a baseline; none where the unit has no data. -/
def fenceTarget (s : State) (q i : Nat) : Option Int :=
  let nom := fenceW s q i 2
  let ls := fenceLegs s q i
  let has := ls ≠ [] && ls.all (legHas s ·)
  match q with
  | 1 => if has then some (rndAway (max 0 (meanOf (legDelay s i).lOff - meanOf (legDelay s i).hOn)) + fld (laCfg s 1) 31 16) else none
  | 2 => if has then some (rndAway (max 0 (meanOf (legDelay s i).hOff - meanOf (legDelay s i).lOn)) + fld (laCfg s 1) 31 16) else none
  | 3 =>
    if has then
      let ds := ls.map fun c => legTon s c - (match (legDelay s c).base with | some b => b.1 | none => legTon s c)
      some (nom + (ds.foldl max (ds.headD 0) * 5 / 32).ceil)
    else none
  | 4 =>
    if has then match (legDelay s i).base with
      | some b => some (rndAway ((nom : Rat) * quo 462 (legToff s i) b.2))
      | none => none
    else none
  | 5 => if has then some (rndAway ((ls.map (legMean s)).sum / (ls.length : Rat) - legMean s i)) else none
  | 6 => match (tempAt s i).tau, (tempAt s i).tau0 with
    | some t, some t0 => some (rndAway ((thLimit s i : Rat) - ((thLimit s i - nom : Int) : Rat) * quo 462 t t0))
    | _, _ => none
  | 7 =>
    let d : Rat := ((fld (laCfg s 2) 31 16 : Nat) : Rat) - (leastSlack s : Nat)
    some (nom + (max 0 d / 2500).ceil)
  | _ => none

/-- An instance with a baseline takes a new target; a FENCEHIT episode ends with a target inside the fences. -/
def replanOne (s : State) (f : Fence) : Fence :=
  match f.base, fenceTarget s f.qty f.inst with
  | some _, some t =>
    let beyond := decide (t < fenceW s f.qty f.inst 1) || decide (fenceW s f.qty f.inst 3 < t)
    { f with target := some t, hit := f.hit && beyond }
  | _, _ => f

/-- Every instance with a baseline takes a new target. -/
def replan (s : State) : State := { s with lamp := { s.lamp with fences := s.lamp.fences.map (replanOne s) } }

/-! ## Commits (R463, R467, R468) -/

/-- Whether a charge port charges: a phase from TRICKLE to TERM (R463). -/
def portCharging (s : State) : Bool := s.ports.any fun p => 1 ≤ p.phase && p.phase ≤ 5

/-- The commit conditions. -/
def commitQual (s : State) : Bool :=
  tractionInhibited s
    && (([0, 1].all fun m => !machOn s m || (match fm s m with
          | some f => decide (f.natAbs ≤ fld (laCfg s 0) 15 0 * 16)
          | none => false)) || portCharging s)
    && !s.lamp.freeze && !s.x.cs.loss && !s.x.ds.loss

/-- One instance's step at a commit point. -/
def commitOne (s : State) (f : Fence) : State :=
  match f.target, f.base with
  | some t, some _ =>
    if t = f.value then s
    else
      let lo := fenceW s f.qty f.inst 1
      let hi := fenceW s f.qty f.inst 3
      let b : Int := if f.qty = 5 || f.value = 0 then (hi - lo) / 2 else f.value.natAbs
      let dmax := max 1 (b * 5 / 100)
      let new := clampI lo hi (f.value + clampI (-dmax) dmax (t - f.value))
      let beyond := (hi < t && new = hi) || (t < lo && new = lo)
      let put (g : Fence) : Fence := if g.qty == f.qty && g.inst == f.inst then { g with value := new, hit := beyond } else g
      let s := fenceApply { s with lamp := { s.lamp with fences := s.lamp.fences.map put } } f.qty f.inst new
      let s := if beyond && !f.hit then
          laEvent s (instOf (fenceTop f.qty) f.inst) f.qty f.inst 1
            (wd ((satS 16 t % 65536).toNat * 65536 + (new % 65536).toNat))
        else s
      if new = f.value then s
      else lampLog { s with lamp := { s.lamp with rpCnt := satInc s.lamp.rpCnt } } f.qty f.qty f.inst (wi f.value) (wi new)
  | _, _ => s

/-- A commit point at the swap cycle of a DS lane, once for swaps in one cycle (R463, R468). -/
def lampCommit (s : State) : State :=
  if !commitQual s || s.lamp.commitAt = s.now then s
  else s.lamp.fences.foldl commitOne { s with lamp := { s.lamp with commitAt := s.now } }

/-! ## At start-up (R466) -/

/-- The good records of the log; a record with a wrong CRC counts LOGFAIL and is skipped. -/
def lampScan (s : State) : State × List (List Word) :=
  (lampPlaces s).foldl (fun (s, rs) i =>
    let (s, r) := lampRead s i
    if crc32 (bytesOf (r.take 7)) = wat r 7 then (s, rs ++ [r]) else (laEvent s 0 0 0 3 (wat r 0), rs)) (s, [])

/-- One quantity instance at start-up: the value of its latest record if that belongs to this FENCEREC, with its baseline;
else the nominal value and none. -/
def fenceStart (rs : List (List Word)) (w : List Word) : Fence :=
  let q := fld (wat w 0) 23 16
  let i := fld (wat w 0) 7 0
  let nom := (wat w 2).toInt
  let mine (r : List Word) : Bool := wat r 2 == crc32 (bytesOf w)
  let value := match lampLatest rs (q * 256 + i) with
    | some r => if mine r then clampI (wat w 1).toInt (wat w 3).toInt (wat r 4).toInt else nom
    | none => nom
  let base := match lampLatest rs ((q + 0x80) * 256 + i) with
    | some r => if mine r then some (wat r 4).toInt else none
    | none => none
  { qty := q, inst := i, value := value, target := none, base := base, hit := false }

/-- The lamp-hours unit takes its values in use and its baselines. -/
def lampStart (s : State) : State :=
  let (s, rs) := lampScan s
  let fs := (recsOf s.img.recs sFENCE 1).map (fenceStart rs)
  let has (q i : Nat) : Bool := fs.any fun f => f.qty == q && f.inst == i && f.base.isSome
  let s := { s with lamp := { s.lamp with
    fences := fs
    legs := s.lamp.legs.mapIdx fun c x =>
      { x with base := if [1, 2, 3, 4, 5].any fun q => fs.any fun f => f.qty == q && f.base.isSome && (fenceLegs s q f.inst).contains c then
          (s.nv.lampBase.find? fun b => b.1 == 0 && b.2.1 == c).map fun b => (b.2.2.1, b.2.2.2) else none } }
                    temp := s.temp.mapIdx fun c x =>
      { x with tau0 := if has 6 c || ((fenceRec s 6 c).isNone && s.nv.resHash == s.img.hash) then (s.nv.lampBase.find? fun b => b.1 == 6 && b.2.1 == c).map fun b => b.2.2.1 else none } }
  fs.foldl (fun s f => fenceApply s f.qty f.inst f.value) s

end Sys2Proof.Machine
end

