-- ==== Sys2Proof/Machine/WrCore.lean ====
section
/-! DEFINITION. The Watch Room: classes, states, lockout, degraded mode, monitors, contactors, command, safety frames
(R347 to R375). -/

namespace Sys2Proof.Machine

/-! ## Parameters (R376, R377) -/

def wrDegTq (s : State) : Nat := fld (wrPar s 0) 31 24
def wrDegSpd (s : State) : Nat := fld (wrPar s 0) 23 16
/-- DEGTIME in s: 0 stands for 120 (R356). -/
def wrDegTime (s : State) : Nat := let t := fld (wrPar s 0) 15 0; if t = 0 then 120 else t
def wrRstMin (s : State) : Nat := fld (wrPar s 4) 31 16
def wrRstMax (s : State) : Nat := fld (wrPar s 4) 15 0
def wrWdMin (s : State) : Nat := fld (wrPar s 8) 31 24
def wrWdMax (s : State) : Nat := fld (wrPar s 8) 23 16
def wrStillTime (s : State) : Nat := fld (wrPar s 8) 15 8
def wrLockPersist (s : State) : Bool := bitOf (wrPar s 8) 3
def wrLabAllow (s : State) : Bool := bitOf (wrPar s 8) 2
def wrLkeep (s : State) : Nat := fld (wrPar s 0x10) 31 16
def wrCfTime (s : State) : Nat := fld (wrPar s 0x10) 15 0

/-- A field of an SLS, SLP or SDI monitor's record. -/
def slsW (s : State) (k i : Nat) : Word := wrPar s (slsOff k + 4 * i)
def slpW (s : State) (k i : Nat) : Word := wrPar s (slpOff k + 4 * i)
def sdiW (s : State) (k i : Nat) : Word := wrPar s (sdiOff k + 4 * i)
def ctW (s : State) (n i : Nat) : Word := wrPar s (ctOff n + 4 * i)
def slsEn (s : State) (k : Nat) : Bool := bitOf (slsW s k 0) 31
def slpEn (s : State) (k : Nat) : Bool := bitOf (slpW s k 0) 31
def sdiEn (s : State) (k : Nat) : Bool := bitOf (sdiW s k 0) 31
def ctEn (s : State) (n : Nat) : Bool := bitOf (ctW s n 0) 31
def ctCf (s : State) (n : Nat) : Nat := fld (ctW s n 0) 23 20

/-- A monitor that has evaluated nothing. -/
def freshMon : Monitor := ⟨none, 0, false, false, false, none, none, 0, false⟩
def slsMon (s : State) (k : Nat) : Monitor := s.wr.sls.getD k freshMon
def slpMon (s : State) (k : Nat) : Monitor := s.wr.slp.getD k freshMon
def sdiMon (s : State) (k : Nat) : Monitor := s.wr.sdi.getD k freshMon

def State.modWr (s : State) (f : Wr → Wr) : State := { s with wr := f s.wr }
def State.modSls (s : State) (k : Nat) (f : Monitor → Monitor) : State := s.modWr fun w => { w with sls := w.sls.modify k f }
def State.modSlp (s : State) (k : Nat) (f : Monitor → Monitor) : State := s.modWr fun w => { w with slp := w.slp.modify k f }
def State.modSdi (s : State) (k : Nat) (f : Monitor → Monitor) : State := s.modWr fun w => { w with sdi := w.sdi.modify k f }
def State.modCt (s : State) (n : Nat) (f : Contactor → Contactor) : State := s.modWr fun w => { w with ct := upd w.ct n f }

/-! ## Events of subsystem 15 (R379) -/

/-- An event counted, with WR_EVT. -/
def wrCount (s : State) (inst unit elem grp cause w n : Nat) (detail : Word) (early : Bool) : State :=
  let s := s.modWr fun x => { x with evt := orBit x.evt cause }
  countEvent s { key := ⟨.cs, 15, inst, unit, elem, grp⟩, cause := cause, w := w, n := n, detail := detail, early := early }

/-- An event of a monitor's record: unit 0 speed, 1 position, 2 direction. -/
def monEvent (s : State) (unit k cause : Nat) (detail : Word) : State :=
  let w := if unit = 0 then slsW s k 7 else if unit = 1 then slpW s k 7 else sdiW s k 3
  wrCount s k unit k cause cause (fld w 31 16) (fld w 7 0) detail false

/-- SFAUTH and RWSDENY share one counter (R371). -/
def sfEvent (s : State) (cause : Nat) (detail : Word) : State :=
  let s := s.modWr fun x => { x with sfcnt := satInc x.sfcnt }
  wrCount s 0 0 0 2 cause (fld (wrPar s 0xC) 31 16) (fld (wrPar s 0xC) 7 0) detail false

/-- A cause with a fixed counter of W = 1 ms and N = 1. -/
def wrFixed (s : State) (inst unit elem cause : Nat) (detail : Word) : State :=
  wrCount s inst unit elem cause cause 1 1 detail true

/-- A watchdog event: 0 early, 1 late, 2 wrong (R375). -/
def wdEvent (s : State) (why : Nat) : State :=
  wrCount s 0 0 0 4 4 (fld (wrPar s 0x14) 31 16) (fld (wrPar s 0x14) 7 0) (wd why) false

/-! ## The CS channels the Watch Room holds (R358, R363, R395) -/

/-- Whether the Watch Room holds a CS channel at INHIBIT. -/
def wrHeld (s : State) (c : Nat) : Bool :=
  (s.wr.state == 3 && !hasBit (wrLkeep s) c)
    || (List.range 4).any fun k => slpEn s k && (slpMon s k).out && hasBit (fld (slpW s k 1) 15 0) c

/-- The holds applied to the channels' overrides. -/
def applyHolds (s : State) : State :=
  applyCsOverrides { s with pwmCs := { s.pwmCs with
    chans := s.pwmCs.chans.mapIdx fun c x => { x with wrHold := wrHeld s c } } }

/-- The reports of R395: the CS stages of running instances that have a held channel. -/
def heldReport (s : State) : BitVec 4 :=
  BitVec.ofNat 4 ((List.range 4).foldl (fun a i =>
    if csStageCmd s i = 0 && (convChans s .cs i).any fun c => (nth s.pwmCs.chans c).wrHold then a + 2 ^ i else a) 0)

/-! ## Lockout and degraded mode (R356 to R358) -/

/-- Rank of a lockout reaction. -/
def reactRank (r : Nat) : Nat := if r = 0 then 1 else if r = 3 then 3 else 2

/-- The reaction when a further one is called for: both groups give FULL (R357). -/
def reactJoin (a b : Nat) : Nat :=
  if (a = 1 && b = 2) || (a = 2 && b = 1) then 3 else if reactRank a < reactRank b then b else a

/-- The reaction page of each CS lane, at rank 7: 0xF names none. -/
def wrPages (s : State) (p0 p1 : Nat) : State :=
  let s := if p0 = 15 then s else swapRequest s .cs 0 7 p0
  if p1 = 15 then s else swapRequest s .cs 1 7 p1

/-- Entry to LOCKOUT, or a higher reaction in it; during sleep entry the lockout record is written in its step 2 (R355, R357, R358,
R546). -/
def enterLockout (s : State) (react : Nat) (code : BitVec 16) : State :=
  if s.wr.state = 3 then s.modWr fun x => { x with lreact := reactJoin x.lreact react }
  else
    let s := s.modWr fun x =>
      { x with state := 3, lreact := react, lockCode := code, lockAt := s.now, lockOpen := false, lab := false }
    let s := { s with sys := { s.sys with sysEvt := orBit s.sys.sysEvt 2 }
                      nv := { s.nv with lockRec := s.nv.lockRec || (wrLockPersist s && !(s.sys.sleepAcc && s.sys.sleepStep = 1)) } }
    let w := wrPar s 0x78
    wrPages (applyHolds s) (fld w 7 4) (fld w 15 12)

/-- Entry to DEGRADED (R356). -/
def enterDegraded (s : State) (react : Nat) (code : BitVec 16) : State :=
  let s := s.modWr fun x => { x with state := 2, degAt := some s.now, degCode := code, degReact := react }
  let w := wrPar s 0x78
  wrPages s (fld w 3 0) (fld w 11 8)

/-! ## Faults (R350 to R352, R355) -/

/-- A fault of class A or B opens and takes effect. -/
def openFault (s : State) (key : CtrKey) (code : BitVec 16) (cls react : Nat) (detail : Word) : State :=
  let f : OpenFault := { key := key, code := code, cls := cls, react := react, released := false, detail := detail }
  let s := s.modWr fun x => { x with opened := (x.opened.filter fun g => !(g.key == key && g.code == code)) ++ [f] }
  if cls = 1 then (if s.wr.state = 0 then s else enterLockout s react code)
  else if s.wr.state = 3 then enterLockout s react code
  else if s.wr.state = 1 then enterDegraded s react code
  else s

/-- The class-C counter of a declared code: its class-table entry's, or the shared one of DEFCLASS (R351). -/
def classCKey (s : State) (code : BitVec 16) : CtrKey := ⟨.cs, 15, 0, 5, (classEntry s code).getD 128, 0⟩

/-- A class-C declaration counted, and whether the count has reached N; before page 0 nothing counts (R79). -/
def classCCount (s : State) (code : BitVec 16) : State × Bool :=
  let (w, n) := match classEntry s code with
    | some i => let e := wrPar s (clsOff i + 4); (fld e 15 0, fld e 23 16)
    | none => (60000, 3)
  let e : Ev := { key := classCKey s code, cause := 0x0E, w := w, n := n, early := false }
  let c0 := (((ctrOf s e.key).getD (freshCtr s e)).roll s.now).retime s.now e.w e.n
  let c1 : Ctr := { c0 with declared := c0.declared && !c0.releases, bins := (c0.bins.headD 0 + 1) :: c0.bins.tail }
  let hit := !c1.declared && e.n ≤ c1.count
  if !s.sys.ready then (s, false)
  else
  let s := if c0.releases then release s c0 else s
  ({ s with ctrs := putCtr s.ctrs { c1 with declared := c1.declared || hit, code := e.code } }, hit)

/-- CESC is raised and handled as class B, with the REACT of the entry that escalated (R351). -/
def raiseCesc (s : State) (code : BitVec 16) : State :=
  let react := match classEntry s code with | some i => fld (wrPar s (clsOff i + 4)) 29 28 | none => 0
  openFault (wrFixed s 0 0 0 0x0E (wd code.toNat)) (classCKey s code) (faultCode .cs 15 0 0x0E) 2 react (wd code.toNat)

/-- The code of OV3 (R334, R343). -/
def ov3Code : BitVec 16 := faultCode .ds 6 0 2

/-- One report is classified (R348, R350, R351, R376). CESC has been handled where it was raised. -/
def wrClassify (s : State) (m : WrMsg) : State :=
  match m with
  | .release k => s.modWr fun x => { x with opened := x.opened.map fun f => if f.key == k then { f with released := true } else f }
  | .declare key code _ elem detail =>
    let s := if code = ov3Code then s.modWr fun x => { x with ov3Rx := true } else s
    let cls := classOf s code elem
    if codeSub code = 15 && codeCause code = 0x0E then s
    else if cls = 1 || cls = 2 then openFault s key code cls (reactOf s code elem) detail
    else if cls = 3 then
      let (s, hit) := classCCount s code
      if hit then raiseCesc s code else s
    else s

/-- Reports are taken in order of arrival, with those that their handling raises (R347 step 1). -/
def wrDrain : Nat → State → List WrMsg → State
  | 0, s, ms => s.modWr fun x => { x with inbox := x.inbox ++ ms }
  | n + 1, s, ms => ms.foldl (fun s m =>
      let s := wrClassify s m
      let new := s.wr.inbox
      wrDrain n (s.modWr fun x => { x with inbox := [] }) new) s

/-- Step 1 of an evaluation. -/
def wrStep1 (s : State) : State := wrDrain 4 (s.modWr fun x => { x with inbox := [] }) s.wr.inbox

/-! ## Contactors (R365 to R367) -/

/-- The reading of a contactor's feedback after FBPOL, closed or open; none while the input is UNRESOLVED. -/
def ctReads (s : State) (n : Nat) : Option Bool :=
  let i := s.wr.ct.getD (ctCf s n) {}
  if i.unres then none else some (i.level != bitOf (ctW s n 0) 16)

def ctAt (s : State) (n : Nat) : Contactor := s.wr.ct.getD n {}

/-- Whether no settle time runs. -/
def ctSettled (s : State) (n : Nat) : Bool := match (ctAt s n).settle with | some t => decide (t ≤ s.now) | none => true

/-- Whether feedback n is consistent (R365). -/
def ctCons (s : State) (n : Nat) : Bool := ctReads s n == some (ctAt s n).ctc && ctSettled s n

/-- Whether every enabled contactor is consistent. -/
def ctAllCons (s : State) : Bool := (List.range 6).all fun n => !ctEn s n || ctCons s n

/-- A contactor command changes: a settle time starts (R365). -/
def setCt (s : State) (n : Nat) (v : Bool) : State :=
  if (ctAt s n).ctc = v then s
  else
    let t := if v then fld (ctW s n 1) 31 16 else fld (ctW s n 1) 15 0
    s.modCt n fun x => { x with ctc := v, settle := some (s.now + t * msec), changed := true, cmdAt := s.now, seen := false, openAt := none
                                closedAt := none, weld := false, noclose := false }

/-- Every contactor command opens and WR_CTCMD clears (R358, R359). -/
def ctOpenAll (s : State) : State :=
  (List.range 6).foldl (fun s n => setCt s n false) (s.modWr fun x => { x with ctcmd := 0 })

/-- What a reading brings: the closing time at the first closed reading, since when it reads closed or open (R366). -/
def ctWatch (s : State) (n : Nat) : State :=
  let x := ctAt s n
  match ctReads s n with
  | some true =>
    let first := x.ctc && !x.seen
    let t := min 65535 ((s.now - x.cmdAt) / 40000)
    let s := s.modCt n fun x =>
      { x with seen := x.seen || x.ctc, closedAt := if x.ctc then some (x.closedAt.getD s.now) else none, openAt := none
               time := if first then BitVec.ofNat 16 t else x.time }
    if first then lampContactor s n t else s
  | some false =>
    s.modCt n fun x => { x with closedAt := none, openAt := if x.ctc && x.seen then some (x.openAt.getD s.now) else none }
  | none => s.modCt n fun x => { x with closedAt := none, openAt := none }

/-- WELD and NOCLOSE, once per episode: from page 0 plus CFTIME on, and once a command change has settled (R366). -/
def ctCheck (s : State) (n : Nat) : State :=
  let x := ctAt s n
  let live := (s.wr.checks || x.changed) && ctSettled s n
  let r := ctReads s n
  let weld := live && !x.ctc && r == some true
  let noclose := live && x.ctc && r == some false && !x.seen
  let s := if weld && !x.weld then wrFixed s n 3 n 0x0A (wd (ctCf s n)) else s
  let s := if noclose && !x.noclose then wrFixed s n 3 n 0x0B (wd (ctCf s n)) else s
  s.modCt n fun x => { x with weld := weld, noclose := noclose || (x.noclose && x.seen && r == some false) }

/-- NOCLOSE of a contactor seen closed that has read open for 10 ms, once per episode (R366). -/
def ctDropout (s : State) (n : Nat) : State :=
  match (ctAt s n).openAt with
  | some t =>
    if t + 10 * msec ≤ s.now && !(ctAt s n).noclose then
      (wrFixed s n 3 n 0x0B (wd (256 + ctCf s n))).modCt n fun x => { x with noclose := true }
    else s
  | none => s

/-- Whether closing is forbidden: severity 6 reported since the last evaluation or still, or OV3 (R359). -/
def ctForbidden (s : State) : Bool := csSeverity s == 6 || s.wr.sev6Rx || s.wr.ov3Rx

/-- Whether a contactor's prerequisites hold, given which commands are high (R367). -/
def ctPre (s : State) (n : Nat) (cmd : List Bool) : Bool :=
  (List.range 6).all fun j => !hasBit (fld (ctW s n 0) 13 8) j ||
    (cmd.getD j false && match (ctAt s j).closedAt with
      | some t => decide (t + fld (ctW s n 0) 7 0 * 10 * msec ≤ s.now)
      | none => false)

/-- The commands of an evaluation: what may stay or become high; the consistency of the feedback is a condition of closing
(R367). -/
def ctWant (s : State) (cmd : List Bool) : List Bool :=
  (List.range 6).map fun n =>
    ctEn s n && hasBit s.wr.ctcmd.toNat n && (s.wr.state == 1 || s.wr.state == 2) && ((ctAt s n).ctc || ctCons s n)
      && ctPre s n cmd && !ctForbidden s

/-- Step 4 of an evaluation. -/
def wrContactors (s : State) : State :=
  let en := (List.range 6).filter fun n => ctEn s n
  let s := en.foldl (fun s n => ctDropout (ctCheck (ctWatch s n) n) n) s
  let s := if ctForbidden s then ctOpenAll s else s
  let s :=
    if s.wr.state = 3 && !s.wr.lockOpen then s
    else
      let cmd := (List.range 6).foldl (fun c _ => ctWant s c) ((List.range 6).map fun n => (ctAt s n).ctc)
      (List.range 6).foldl (fun s n => setCt s n (cmd.getD n false)) s
  s.modWr fun x => { x with ov3Rx := x.ov3Rx && isLatched s 0x51, sev6Rx := false }

/-! ## Monitors (R360 to R364) -/

/-- A source's speed, where valid (R360). -/
def srcSpeed (s : State) (ch : Nat) (fact : Word) : Option Rat :=
  let f := nth s.fb ch
  if ch < 12 && fbOn s ch && f.spstat ≤ 3 then some ((f.speed.toInt * fact.toInt : Int) / 65536) else none

/-- Whether a source gives a valid position. -/
def srcPosOk (s : State) (ch : Nat) : Bool := decide (ch < 12) && fbOn s ch && !(nth s.fb ch).uncertain

/-- Magnitude of a rational. -/
def absR (q : Rat) : Rat := if q < 0 then -q else q

/-- DIVERGE of a difference beyond its tolerance since `at_` for XTIME ms, once per episode. -/
def divStep (now : Nat) (beyond : Bool) (xtime : Nat) (at_ : Option Nat) : Option Nat × Bool :=
  if beyond then (some (at_.getD now), decide (at_.getD now + xtime * msec ≤ now)) else (none, false)

/-- One SLS monitor (R361, R362, R372). -/
def slsEval (s : State) (k : Nat) : State :=
  if !slsEn s k then s
  else
    let m := slsMon s k
    let w0 := slsW s k 0
    let chB := fld w0 23 20
    let a := srcSpeed s (fld w0 27 24) (slsW s k 1)
    let b := if chB = 15 then none else srcSpeed s chB (slsW s k 2)
    let v := match a, b with
      | some x, some y => some (if absR y ≤ absR x then x else y)
      | some x, none => some x
      | none, o => o
    let bad := b2n a.isNone + (if chB ≠ 15 && b.isNone then 2 else 0)
    let w5 := slsW s k 5
    let diff : Rat := match a, b with | some x, some y => x - y | _, _ => 0
    let tol : Rat := max ((fld w5 31 16 * 16 : Nat) : Rat) (((fld w5 15 8 : Nat) : Rat) * absR (v.getD 0) / 256)
    let (divAt, div) := divStep s.now (a.isSome && b.isSome && tol < absR diff) (fld w5 7 0) m.divAt
    let sel := s.wr.slssel.toNat / 4 ^ k % 4
    let w := slsW s k (3 + sel / 2)
    let lim := if sel % 2 = 0 then fld w 31 16 else fld w 15 0
    let deg := if s.wr.state = 2 then wrDegSpd s else 256
    let viol := match v with
      | none => true
      | some x => lim ≠ 0xFFFF && decide (((lim * 16 * deg : Nat) : Rat) < absR x * 256)
    let still := match v with
      | none => false
      | some x => decide (absR x ≤ ((fld (slsW s k 6) 31 16 * 16 : Nat) : Rat))
    let s := if bad ≠ 0 && !m.srcLoss then monEvent s 0 k 9 (wd bad) else s
    let s := if div && !m.diverge then monEvent s 0 k 8 (wi (satS 32 (rndAway diff))) else s
    let s := if viol && !m.viol then
        monEvent s 0 k 5 (match v with | some x => wi (satS 32 (rndAway x)) | none => 0x80000000) else s
    s.modSls k fun m =>
      { m with v := v, srcLoss := bad ≠ 0, divAt := divAt, diverge := div, viol := viol
               stillAt := if still then some (m.stillAt.getD s.now) else none }

/-- One SLP monitor (R363). -/
def slpEval (s : State) (k : Nat) : State :=
  if !slpEn s k then s
  else
    let m := slpMon s k
    let w0 := slpW s k 0
    let chA := fld w0 27 24
    let chB := fld w0 23 20
    let okA := srcPosOk s chA
    let okB := srcPosOk s chB
    let p := (nth s.fb chA).pos.truncate 16
    let pB : BitVec 16 := BitVec.ofInt 16 (shrHalfAway ((nth s.fb chB).pos.toInt * (fld (slpW s k 1) 31 16 : Nat)) 8)
    let bad := b2n (!okA) + (if chB ≠ 15 && !okB then 2 else 0)
    let w6 := slpW s k 6
    let diff : Int := p.toInt - pB.toInt
    let beyond := chB ≠ 15 && okA && okB && decide (fld w6 31 16 < diff.natAbs)
    let (divAt, div) := divStep s.now beyond (fld w6 7 0) m.divAt
    let sel := s.wr.slpsel.toNat / 4 ^ k % 4
    let win := slpW s k (2 + sel)
    let out := !okA || p.toInt < sfld win 15 0 || sfld win 31 16 < p.toInt
    let s := if bad ≠ 0 && !m.srcLoss then monEvent s 1 k 9 (wd bad) else s
    let s := if div && !m.diverge then monEvent s 1 k 8 (wi diff) else s
    let s := if out && !m.out then monEvent s 1 k 6 (wd (sel * 65536 + p.toNat)) else s
    s.modSlp k fun m => { m with p := p, srcLoss := bad ≠ 0, divAt := divAt, diverge := div, viol := out, out := out }

/-- One SDI monitor: motion of 10 µs in 1/65,536 turn (R364). -/
def sdiEval (s : State) (k : Nat) : State :=
  if !sdiEn s k then s
  else
    let m := sdiMon s k
    let perm := s.wr.dirperm.toNat / 4 ^ k % 4
    if perm = 0 then s.modSdi k fun m => { m with acc := 0, viol := false }
    else
      let v := (slsMon s (fld (sdiW s k 0) 25 24)).v
      let fwd : Rat := max 0 (v.getD 0)
      let rev : Rat := max 0 (-(v.getD 0))
      let (against, allowed) := if perm = 1 then (rev, fwd) else if perm = 2 then (fwd, rev) else (fwd + rev, 0)
      let acc := max 0 (m.acc + (against - allowed) * 256 / 100000)
      let viol := v.isNone || decide (((sdiW s k 1).toNat : Rat) < acc)
        || decide (((fld (sdiW s k 2) 31 16 * 16 : Nat) : Rat) < against)
      let s := if viol && !m.viol then monEvent s 2 k 7 (wi (satS 32 acc.floor)) else s
      s.modSdi k fun m => { m with acc := acc, viol := viol }

/-- STILL: every enabled speed monitor has been still for STILLTIME (R372). -/
def wrStill (s : State) : Bool :=
  (List.range 4).all fun k => !slsEn s k || match (slsMon s k).stillAt with
    | some t => decide (t + wrStillTime s * msec ≤ s.now)
    | none => false

/-- Whether every enabled speed monitor has a valid speed. -/
def wrAllValid (s : State) : Bool := (List.range 4).all fun k => !slsEn s k || (slsMon s k).v.isSome

/-- Step 3 of an evaluation. -/
def wrMonitors (s : State) : State :=
  let s := (List.range 4).foldl slsEval s
  let s := (List.range 4).foldl slpEval s
  let s := (List.range 2).foldl sdiEval s
  s.modWr fun x => { x with resetWait := x.resetWait && !wrAllValid s }

/-! ## Open faults, states and the command (R352 to R357) -/

/-- Whether a condition of subsystems 0, 1 and 15 is present, by its code: the fixed class A ones, and a lost PLL lock (R350,
R352). -/
def fixedPresent (s : State) (code : BitVec 16) : Bool :=
  let sub := codeSub code
  let cause := codeCause code
  if sub = 1 && (cause = 2 || cause = 4) then (s.link (codeDie code)).loss
  else if sub = 1 && cause = 6 then (s.link (codeDie code)).safeLoss
  else if sub = 0 && cause = 1 then !s.clk.xtalOk
  else if sub = 0 && cause = 2 then !(match codeDie code with | .cs => s.clk.csLock | .ds => s.clk.dsLock)
  else if sub = 0 && cause = 3 then s.clk.wrMism
  else sub = 15 && cause = 1 && s.wr.sbBad

/-- The protection sources behind a declared code: UNIT tells a shunt input's from a general comparator's (R342). -/
def codeSrcs (code : BitVec 16) (unit elem : Nat) : List Nat :=
  let sub := codeSub code
  let cause := codeCause code
  if codeDie code = .cs then []
  else if sub = 5 then
    (if cause = 1 then [elem] else if cause = 2 then [0x20 + elem] else if cause = 3 then [0x40 + elem]
     else if cause = 4 then (if unit = 0 then [elem, 0x20 + elem] else [0x40 + elem, 0x50]) else [])
  else if sub = 0 then (if cause = 2 then [0x5A] else [])
  else if sub = 6 then [0x4F + cause]
  else if sub = 7 then [0x5F + 16 * codeInst code + cause]
  else if sub = 8 then [0x80 + 8 * codeInst code + cause]
  else []

/-- Whether the condition of an open fault has gone (R352). -/
def faultGone (s : State) (f : OpenFault) : Bool :=
  let sub := codeSub f.code
  let cause := codeCause f.code
  let k := f.key.elem
  let mon := if f.key.unit = 0 then slsMon s k else if f.key.unit = 1 then slpMon s k else sdiMon s k
  if sub = 15 && (cause = 0x0A || cause = 0x0B || cause = 0x0C) then ctCons s k
  else if sub = 15 && (cause = 5 || cause = 6 || cause = 7) then !mon.viol
  else if sub = 15 && cause = 8 then !mon.diverge
  else if sub = 15 && cause = 9 then !mon.srcLoss
  else !fixedPresent s f.code && !(codeSrcs f.code f.key.unit k).any fun x => isLatched s x

/-- Open faults close (R352). -/
def closeFaults (s : State) : State :=
  s.modWr fun x => { x with opened := x.opened.filter fun f => !(f.released && faultGone s f) }

/-- Whether a safety-designated pair keeps torque off (R232, R354, R374). -/
def pairNoTorque (s : State) (d : Die) : Bool :=
  (List.range (s.pairs d).length).any fun p =>
    let x := nth (s.pairs d) p
    (pairRec s d p).isSome && pairSafe s d p && (x.mode == 1 || x.mode == 2 || (x.mode == 3 && !(x.dbgBroken && s.wr.lab)))

/-- The command in force (R353, R354, R357). -/
def wrCommand (s : State) : State :=
  let nt := pairNoTorque s .cs || pairNoTorque s .ds || s.wr.resetWait
  let st := s.wr.state
  let (c, a, f) : Byte × BitVec 4 × Byte :=
    if st = 3 then
      (if s.wr.lreact = 0 then (0xC3, 0, 0) else if s.wr.lreact = 3 then (0x69, 0, 0)
       else (0x3C, BitVec.ofNat 4 s.wr.lreact, 0))
    else if st = 0 || nt then (0xC3, 0, 0)
    else if st = 1 then (0x96, 0, 0)
    else (0xA5, 0, BitVec.ofNat 8 (wrDegTq s))
  s.modWr fun x => { x with noTorq := nt, cmd := c, cmdArg := a, cmdFrac := f }

/-- Step 5 of an evaluation: open faults, the return from DEGRADED, command and outputs. -/
def wrStep5 (s : State) : State :=
  let s := closeFaults s
  let s := if s.wr.state = 2 && s.wr.opened = [] then s.modWr fun x => { x with state := 1, degAt := none } else s
  wrCommand (applyHolds s)

/-- What a confirmed lockout reset does in the evaluation after it (R358, R373). -/
def wrReset (s : State) : State :=
  if !s.wr.confirm then s
  else
    let s := s.modWr fun x =>
      { x with confirm := false, opened := [], degAt := none, armed := none, state := 1, lreact := 0, resetWait := true }
    applyHolds { s with nv := { s.nv with lockRec := false } }

/-- Accepted WRITE frames take effect (R371); a change of WR_DIRPERM clears the accumulators (R364). -/
def wrWrites (s : State) : State :=
  s.wr.writes.foldl (fun s w =>
    if w.1 = 0x30 then s.modWr fun x => { x with slssel := w.2 }
    else if w.1 = 0x34 then s.modWr fun x => { x with slpsel := w.2 }
    else if w.1 = 0x38 then
      s.modWr fun x => { x with dirperm := w.2, sdi := if x.dirperm = w.2 then x.sdi else x.sdi.map fun m => { m with acc := 0 } }
    else s.modWr fun x => { x with ctcmd := w.2 }) (s.modWr fun x => { x with writes := [] })

/-- At the start of page 0 START ends (R353, R358). -/
def wrPage0 (s : State) : State :=
  if s.wr.state ≠ 0 then s
  else
    let s := s.modWr fun x => { x with wdAt := s.now }
    match s.wr.opened.find? fun f => f.cls == 1 with
    | some f =>
      let r := (s.wr.opened.filter fun g => g.cls == 1).foldl (fun a g => reactJoin a g.react) f.react
      wrCommand (enterLockout s r f.code)
    | none =>
      if !s.wr.selfOk || s.wr.sbBad || s.nv.lockRec then wrCommand (enterLockout s 0 0)
      else
        let s := s.modWr fun x => { x with state := 1 }
        wrCommand (match s.wr.opened.find? fun f => f.cls == 2 with
          | some f => enterDegraded s f.react f.code
          | none => s)

/-! ## Safety frames (R368 to R374) -/

/-- Whether the reset conditions of R372 hold, but for the state. -/
def resetOk (s : State) : Bool :=
  wrStill s && ctAllCons s
    && !(s.link .cs).loss && !(s.link .ds).loss && !(s.link .cs).safeLoss && !(s.link .ds).safeLoss
    && s.clk.xtalOk && !s.clk.wrMism && !s.wr.sbBad

/-- ARMED lapses at RSTMAX (R372). -/
def armLapse (s : State) : State :=
  match s.wr.armed with
  | some t => if t + wrRstMax s * msec < s.now then s.modWr fun x => { x with armed := none } else s
  | none => s

/-- Defined bits of an RWS register by its offset (R380). -/
def rwsMask (off : Nat) : Option Nat :=
  if off = 0x30 || off = 0x34 then some 0xFF else if off = 0x38 then some 0x0F else if off = 0x3C then some 0x3F else none

/-- A field of a frame. -/
def frField (f : List Byte) (a n : Nat) : Nat := ofLe ((f.drop a).take n)

/-- A frame of a type that passed the checks of R369: its effect and status (R370). `fresh_` says that a declaration of
class A or B was taken in the same evaluation (R355). -/
def frameByType (s : State) (f : List Byte) (new : Bool) : State × Nat :=
  match frField f 0 2 with
  | 1 =>
    let off := frField f 20 4
    let v := frField f 24 4
    match rwsMask off with
    | none => (s, 8)
    | some m => if Nat.land v m ≠ v then (s, 8) else (s.modWr fun x => { x with writes := x.writes ++ [(off, wd v)] }, 0)
  | 2 =>
    if s.wr.state ≠ 3 then (s, 9) else if !resetOk s then (s, 10) else (s.modWr fun x => { x with armed := some s.now }, 0)
  | 3 =>
    match s.wr.armed with
    | none => (s, 12)
    | some t =>
      let off := s.modWr fun x => { x with armed := none }
      if s.now < t + wrRstMin s * msec || t + wrRstMax s * msec < s.now then (off, 11)
      else if new || s.wr.state ≠ 3 || !resetOk s then (off, 10)
      else (s.modWr fun x => { x with confirm := true }, 0)
  | 4 =>
    if s.wr.state ≠ 1 || !wrLabAllow s then (s, 9) else if !wrStill s then (s, 10)
    else (s.modWr fun x => { x with lab := true }, 0)
  | 5 => (s.modWr fun x => { x with lab := false }, 0)
  | 6 =>
    if s.wr.state ≠ 0 && s.wr.state ≠ 3 then (s, 9) else if s.wr.state = 3 && !wrStill s then (s, 10)
    else (s.modWr fun x =>
      { x with key := some (aesDec (x.key.getD (List.replicate 16 0)) ((f.drop 20).take 16)), keyset := true }, 0)
  | _ => (s, 7)

/-- The checks of R369 in their order. -/
def frameCheck (s : State) (f : List Byte) (new : Bool) : State × Nat :=
  if f.length ≠ 52 then (s, 1)
  else if s.wr.key.isNone && frField f 0 2 ≠ 6 then (s, 2)
  else
    let bad :=
      if frField f 4 4 ≠ s.wr.uid0.toNat || frField f 8 4 ≠ s.wr.uid1.toNat then 3
      else if frField f 12 4 ≠ s.wr.nonce.toNat then 4
      else if aesCmac (s.wr.key.getD (List.replicate 16 0)) (f.take 36) ≠ f.drop 36 then 5
      else if frField f 16 4 ≤ s.wr.fresh.toNat then 6
      else 0
    if bad ≠ 0 then (sfEvent s 2 (wd bad), bad)
    else frameByType (s.modWr fun x => { x with fresh := wd (frField f 16 4) }) f new

/-- A safety frame reaches the Watch Room, which takes it in step 2 of its next evaluation (R347, R368). -/
def wrFrameIn (s : State) (f : List Byte) (p : FramePath) : State := s.modWr fun x => { x with frames := x.frames ++ [⟨f, p⟩] }

/-- A frame judged; its status goes to WR_SFSTAT (R369). -/
def judgeFrame (s : State) (f : List Byte) (new : Bool) : State × Nat :=
  let (s, st) := frameCheck s f new
  (s.modWr fun x => { x with sfstat := wd (st * 2 ^ 24 + frField f 0 2) }, st)

end Sys2Proof.Machine
end

