-- ==== Sys2Proof/Machine/CanCore.lean ====
section
/-! DEFINITION. The CAN FD controllers' records, buffers and queue, signals and protection, and network time (R476 to
R494). -/

namespace Sys2Proof.Machine

/-! ## Records (R494) -/

/-- A controller. -/
def canAt (s : State) (n : Nat) : Can := s.can.getD n {}

def cnCfg (s : State) (n : Nat) : Option (List Word) := recBy (recsIn s .cs) sNET 1 25 24 n
def cnW (s : State) (n i : Nat) : Word := wat ((cnCfg s n).getD []) i
def cnBit (s : State) (n i : Nat) : Bool := bitOf (cnW s n 0) i
def cnFden (s : State) (n : Nat) : Bool := cnBit s n 20
def cnListen (s : State) (n : Nat) : Bool := cnBit s n 18
def cnDevtx (s : State) (n : Nat) : Bool := cnBit s n 8

/-- The record of one kind of a controller's filter. -/
def cnOf (s : State) (rtype n f : Nat) : Option (List Word) :=
  (recsOf (recsIn s .cs) sNET rtype).find? fun w => fld (wat w 0) 25 24 == n && fld (wat w 0) 21 16 == f

/-- The CNSIG records of a filter, in order. -/
def cnSigs (s : State) (n f : Nat) : List (List Word) :=
  (recsOf (recsIn s .cs) sNET 4).filter fun w => fld (wat w 0) 25 24 == n && fld (wat w 0) 21 16 == f

/-- An event of a controller, in the counter of its cause (R496). -/
def canEvent (s : State) (n cause : Nat) (detail : Word) : State :=
  let s := s.modCan n fun x => { x with evt := orBit x.evt cause }
  countEvent s { key := ⟨.cs, 17, n, 0, n, cause⟩, cause := cause, w := fld (cnW s n 4) 31 16, n := fld (cnW s n 4) 7 0
                 detail := detail, early := false }

/-! ## Transmit buffers (R479 to R482) -/

/-- One buffer changed. -/
def State.modTx (s : State) (n b : Nat) (f : TxBuf → TxBuf) : State := s.modCan n fun x => { x with tx := upd x.tx b f }

/-- A buffer. -/
def txAt (s : State) (n b : Nat) : TxBuf := nth (canAt s n).tx b

/-- The identifier as arbitration sends it: eleven bits, the IDE bit, the other eighteen (R480). -/
def arbKey (hdr : Word) : Nat :=
  if bitOf hdr 29 then fld hdr 28 18 * 2 ^ 19 + 2 ^ 18 + fld hdr 17 0 else fld hdr 10 0 * 2 ^ 19

/-- The PENDING buffer that goes first. -/
def arbChoice (s : State) (n : Nat) : Option Nat :=
  let ps := [0, 1, 2].filter fun b => (txAt s n b).status == 1
  if cnBit s n 17 then ps.head?
  else ps.foldl (fun a b =>
    match a with
    | some x => if arbKey (txAt s n b).hdr < arbKey (txAt s n x).hdr then some b else some x
    | none => some b) none

/-- The SENDING buffer. -/
def sendingBuf (s : State) (n : Nat) : Option Nat := [0, 1, 2].find? fun b => (txAt s n b).status == 2

/-- Whether a buffer is PENDING or SENDING. -/
def txBusy (s : State) (n b : Nat) : Bool := (txAt s n b).status == 1 || (txAt s n b).status == 2

/-- Whether a buffer is the device buffer (R479). -/
def isDevBuf (s : State) (n b : Nat) : Bool := b == 2 && cnDevtx s n

/-! ## The device queue (R488, R489, R491) -/

/-- The header and data words of a reference message: T and VALID tell of the message before it; where that one was not
sent the manual gives T no value, so it is free, and so is BRS (assumption log 4). -/
def refFrame (s : State) (n q : Nat) : State × Word × List Byte :=
  let f := s.free
  let t0 := Config.freeWord (s.freeCtr + 1)
  let t1 := Config.freeWord (s.freeCtr + 2)
  let t := if s.net.prevOk then leBytes 8 s.net.prevSof else wordBytes t0 ++ wordBytes t1
  ({ s with freeCtr := s.freeCtr + 3, net := { s.net with prevOk := false } },
    wd (atBit (bitOf f 31) 31 + 2 ^ 30 + fld (cnW s n 5) 29 0),
    t ++ [BitVec.ofNat 8 q, if s.net.prevOk then 1 else 0, 0, 0])

/-- The header of a response frame: FDF and BRS are free (assumption log 4). -/
def respHeader (s : State) (n : Nat) : State × Word :=
  let f := s.free
  (s.useFree, wd (atBit (bitOf f 31 && bitOf f 30) 31 + atBit (bitOf f 30) 30 + fld (cnW s n 10) 29 0))

/-- The words of a buffer's data. -/
def txWords (bs : List Byte) : List Word := wordsOf 16 (bs ++ List.replicate (64 - bs.length) 0)

/-- The head of the device queue goes into a free TXB2. -/
def devLoad (s : State) (n : Nat) : State :=
  if !cnDevtx s n || txBusy s n 2 then s
  else match (canAt s n).devq with
    | [] => s
    | (isRef, bs) :: rest =>
      let s := s.modCan n fun x => { x with devq := rest, devRef := isRef }
      if isRef then
        let (s, h, d) := refFrame s n (ofLe bs)
        s.modTx n 2 fun b => { b with hdr := h, dlc := 9, data := txWords d, status := 1, cancel := false, retx := 0 }
      else
        let (s, h) := respHeader s n
        s.modTx n 2 fun b => { b with hdr := h, dlc := 8, data := txWords bs, status := 1, cancel := false, retx := 0 }

/-- A buffer ends in a status; with the device buffer free the queue moves on. -/
def txEnd (s : State) (n b status : Nat) : State :=
  let dev := isDevBuf s n b
  let sent := status = 3 || status = 4
  let sof := (canAt s n).sofN
  let s := s.modTx n b fun x => { x with status := status, ts := if sent then sof else x.ts }
  if !dev then s
  else
    let s := if (canAt s n).devRef then
        { s with net := { s.net with prevOk := sent, prevSof := if sent then sof else s.net.prevSof } } else s
    devLoad (s.modCan n fun x => { x with devRef := false }) n

/-- A cancel of a buffer (R482). -/
def txCancelBuf (s : State) (n b : Nat) : State :=
  if (txAt s n b).status = 1 then txEnd s n b 5
  else if (txAt s n b).status = 2 then s.modTx n b fun x => { x with cancel := true }
  else s

/-- A response frame joins the queue of four; one that finds it full is dropped (R489). -/
def queueResponse (s : State) (n : Nat) (bs : List Byte) : State :=
  if 4 ≤ (canAt s n).devq.length then s
  else devLoad (s.modCan n fun x => { x with devq := x.devq ++ [(false, bs)] }) n

/-! ## Error states (R483) -/

/-- The state of an active controller by its counters. -/
def canLevel (tec rec : Nat) : Nat := if 127 < tec || 127 < rec then 3 else 2

/-- New counters of a controller that takes part: error-passive entries count EPASS. -/
def canCounters (s : State) (n tec rec : Nat) : State :=
  let was := (canAt s n).state
  let st := canLevel tec rec
  let s := s.modCan n fun x => { x with tec := tec, rec_ := rec, state := st }
  if was = 2 && st = 3 then canEvent s n 2 (wd (min 255 tec * 256 + min 255 rec)) else s

/-- Bus-off: the SENDING frame returns to PENDING, or is CANCELLED; with ABOBO PENDING frames are ABORTED; recovery starts,
or waits for RECOVER. -/
def busOff (s : State) (n tec rec : Nat) : State :=
  let s := match sendingBuf s n with
    | some b => if (txAt s n b).cancel then txEnd s n b 5 else s.modTx n b fun x => { x with status := 1, retx := min 255 (x.retx + 1) }
    | none => s
  let s := if cnBit s n 16 then
      [0, 1, 2].foldl (fun s b => if (txAt s n b).status = 1 then txEnd s n b 6 else s) s else s
  let hold := cnBit s n 15
  let s := s.modCan n fun x =>
    { x with tec := tec, rec_ := rec, state := if hold then 4 else 5, boWait := hold, boCnt := min 65535 (x.boCnt + 1) }
  canEvent s n 1 (wd (canAt s n).boCnt)

/-! ## Signals and protection (R486, R487) -/

/-- The number of the i-th bit of a signal, from the least significant (ORDER 0) or the most significant one (ORDER 1). -/
def sigNext (order : Bool) (p : Nat) : Nat := if order then (if p % 8 = 0 then p + 15 else p - 1) else p + 1

/-- The bits of a field in the order of the frame; none where the frame is too short. -/
def sigBits (order : Bool) (data : List Byte) : Nat → Nat → Option (List Bool)
  | 0, _ => some []
  | k + 1, p =>
    if data.length ≤ p / 8 then none
    else (sigBits order data k (sigNext order p)).map fun r => hasBit (data.getD (p / 8) 0).toNat (p % 8) :: r

/-- The value of a signal in a frame. -/
def sigValue (w1 : Word) (data : List Byte) : Option Int :=
  let order := bitOf w1 0
  let len := fld w1 13 8
  (sigBits order data len (fld w1 24 16)).map fun bs =>
    let v := (if order then bs else bs.reverse).foldl (fun a b => 2 * a + b2n b) 0
    if bitOf w1 1 then sx len v else (v : Int)

/-- The signals of a matched frame are offered to their buoys; one the frame cannot hold counts SIGDLC. -/
def offerSignals (s : State) (n f : Nat) (data : List Byte) : State :=
  (cnSigs s n f).foldl (fun s w =>
    let sig := fld (wat w 0) 7 0
    match sigValue (wat w 1) data with
    | some v => offerAll s 2 sig v
    | none => canEvent s n 6 (wd sig)) s

/-- A byte of a frame's data; where the frame does not reach it the value is free. -/
def dataByte (s : State) (data : List Byte) (i : Nat) : Byte :=
  if i < data.length then data.getD i 0 else s.free.truncate 8

/-- The checks of a frame's protection: whether it passed. -/
def protCheck (s : State) (n f : Nat) (w : List Word) (data : List Byte) : State × Bool :=
  let pos := fld (wat w 0) 15 8
  let ac := fld (wat w 1) 15 8
  let id := fld (wat w 1) 31 16
  let got := dataByte s data pos
  let body := (List.range data.length).filterMap fun i => if i = pos then none else some (data.getD i 0)
  let want := crc8 (leBytes 2 id ++ body)
  let bad (cause : Nat) (d : Word) : State × Bool :=
    (canEvent (s.useFree.modCan n fun x => { x with alive := x.alive.set f none }) n cause d, false)
  if bitOf (wat w 0) 7 && (data.length ≤ pos || got ≠ want) then bad 4 (wd (got.toNat * 256 + f))
  else if bitOf (wat w 0) 6 then
    let v := (dataByte s data ac).toNat % 16
    let ok := data.length > ac && (match (canAt s n).alive.getD f none with
      | some l => let d := (v + 16 - l) % 16; 1 ≤ d && d ≤ fld (wat w 1) 3 0
      | none => true)
    if ok then (s.modCan n fun x => { x with alive := x.alive.set f (some v) }, true) else bad 5 (wd (v * 256 + f))
  else (s, true)

/-! ## Reception (R484, R485, R488) -/

/-- Whether a frame's identifier and format match. -/
def idMatch (fr : CanFrame) (ide : Bool) (id : Nat) : Bool :=
  fr.ide == ide && (if ide then fr.id.toNat == id else fr.id.toNat == id % 2048)

/-- The first filter that matches. -/
def firstFilter (s : State) (n : Nat) (fr : CanFrame) : Option (Nat × List Word) :=
  (List.range 64).findSome? fun f =>
    match cnOf s 2 n f with
    | some w =>
      if bitOf (wat w 0) 1 == fr.ide && Nat.land (Nat.xor fr.id.toNat (fld (wat w 1) 28 0)) (fld (wat w 2) 28 0) == 0 then
        some (f, w) else none
    | none => none

/-- A frame stored in the receive FIFO, or lost. -/
def fifoPut (s : State) (n : Nat) (r : RxFrame) : State :=
  if (canAt s n).fifo.length < 64 then s.modCan n fun x => { x with fifo := x.fifo ++ [r] }
  else
    let s := s.modCan n fun x => { x with lost := satInc16 x.lost }
    canEvent s n 3 (wd (canAt s n).lost.toNat)

/-- The acceptance filters: protection, signals, FIFO. -/
def filterFrame (s : State) (n : Nat) (fr : CanFrame) (ts : Nat) : State :=
  match firstFilter s n fr with
  | none => s
  | some (f, w) =>
    let (s, good) := match cnOf s 3 n f with
      | some p => if fr.rtr then (s, true) else protCheck s n f p fr.data
      | none => (s, true)
    let s := if bitOf (wat w 0) 9 && good && !fr.rtr then offerSignals s n f fr.data else s
    if bitOf (wat w 0) 8 then fifoPut s n { frame := fr, filter := f, protFail := !good, ts := ts } else s

/-- A frame on SFID: forwarded to the Watch Room by the Keeper (R488). -/
def safetyOnCan (s : State) (n : Nat) (fr : CanFrame) : State :=
  if !s.sys.keeperUp || s.kp.restarting then s
  else wrFrameIn s (if fr.fdf && fr.dlc.val = 15 then fr.data.take 52 else fr.data) (.can n)

/-! ## Network time (R490 to R492) -/

/-- TREFPER in cycles and in ns. -/
def refPeriod (s : State) (n : Nat) : Nat := fld (cnW s n 6) 31 16 * msec
def refNs (s : State) (n : Nat) : Rat := ((fld (cnW s n 6) 31 16 * 1000000 : Nat) : Rat)

/-- A follower's time anchored at the cycle now. -/
def netAnchor (s : State) : State :=
  let n := if s.net.anchorT = 0 then localNs s s.now * (2 ^ 32 : Nat) else (netRun s).followN s.now
  { s with net := { s.net with anchorN := n, anchorT := s.now } }

/-- A follower's evaluation with the error e in ns (R492). -/
def followEval (s : State) (n : Nat) (e : Int) : State :=
  let s := netAnchor s
  let s := { s with net := { s.net with err := e, evalAt := s.now, holdover := false } }
  if (cnW s n 8).toNat < e.natAbs then
    let s := { s with net := { s.net.withSync false s.now with anchorN := s.net.anchorN + e * (2 ^ 32 : Nat), good := 0 } }
    canEvent (staleCheck (nettimeStep s)) n 8 (wi (satS 32 e))
  else
    let lim : Rat := 200 / 1000000
    let x := s.net
    let r := max (-lim) (min lim (x.r + quo 492 e (8 * refNs s n)))
    let inTol := decide (e.natAbs ≤ fld (cnW s n 7) 31 16)
    let good := if inTol then min 255 (x.good + 1) else 0
    let sync := (x.sync && inTol) || decide (fld (cnW s n 6) 7 0 ≤ good)
    staleCheck (nettimeRate { s with net := { x.withSync sync s.now with
      slew := quo 492 e (refNs s n), slewAt := some (s.now + refPeriod s n), r := r, good := good } })

/-- A reference message reaches a follower (R492). -/
def refReceived (s : State) (n : Nat) (fr : CanFrame) (ts : Nat) : State :=
  if fr.data.length < 10 then s
  else
    let q := (fr.data.getD 8 0).toNat
    let valid := hasBit (fr.data.getD 9 0).toNat 0
    let s1 := match s.net.capture with
      | some (p, c) =>
        if valid && (p + 1) % 256 = q then
          followEval s n ((ofLe (fr.data.take 8) : Int) + fld (cnW s n 7) 15 0 - c)
        else s
      | none => s
    { s1 with net := { s1.net with capture := some (q, ts), seq := BitVec.ofNat 8 q } }

/-- Network time on a master is set (R490). -/
def netSet (s : State) (v : Word) : State :=
  if (timeRole s).2 = 1 then
    let n : Int := (v.toNat * 2 ^ 32 + s.net.setLo.toNat : Nat)
    let s := nettimeStep { s with net := { s.net with ofs := n - localNs s s.now } }
    canEvent s (timeRole s).1 8 0
  else s

end Sys2Proof.Machine
end

