-- ==== Sys2Proof/Machine/CanFd.lean ====
section
/-! DEFINITION. CAN FD and network-time rows (R478 to R493, R497). -/

namespace Sys2Proof.Machine

/-- CAN_INTEGRATION_END: eleven consecutive recessive bits on a resolved input (R478). -/
def execCanIntegrationEnd (n : Fin 3) (s : State) : Host.Outcome State Fault Refusal :=
  .next (
    let x := canAt s n
    if x.state = 1 && !x.rxUnres then s.modCan n fun y => { y with state := canLevel y.tec y.rec_ } else s)

/-- CAN_ARBITRATION: the controller starts a frame: the one it is still sending, else the PENDING buffer that goes first
(R480, R482). -/
def execCanArbitration (n : Fin 3) (s : State) : Host.Outcome State Fault Refusal :=
  .next (
    let x := canAt s n
    if !(x.state = 2 || x.state = 3) || cnListen s n then s
    else
      let s1 := s.modCan n fun y => { y with sofN := (netNs s s.now).toNat }
      match sendingBuf s n with
      | some _ => s1
      | none => match arbChoice s n with
        | some b => s1.modTx n b fun t => { t with status := 2 }
        | none => s)

/-- CAN_FRAME_SENT: the frame completes without error (R481, R482); TEC falls by one. -/
def execCanFrameSent (n : Fin 3) (s : State) : Host.Outcome State Fault Refusal :=
  .next (match sendingBuf s n with
    | none => s
    | some b =>
      let x := canAt s n
      let s := canCounters s n (x.tec - 1) x.rec_
      txEnd s n b (if (txAt s n b).cancel then 4 else 3))

/-- CAN_BUS_ERROR: a bus error, or arbitration lost, with the counters the standard gives (R482, R483). -/
def execCanBusError (n : Fin 3) (tx arbLost : Bool) (tec rec : BitVec 16) (s : State) : Host.Outcome State Fault Refusal :=
  .next (
    let x := canAt s n
    if !(x.state = 2 || x.state = 3) then s
    else
      let off := !arbLost && 255 < tec.toNat
      if off then busOff s n tec.toNat rec.toNat
      else
        let s := match (if tx || arbLost then sendingBuf s n else none) with
          | some b => if (txAt s n b).cancel then txEnd s n b 5 else s.modTx n b fun t => { t with retx := min 255 (t.retx + 1) }
          | none => s
        if arbLost then s else canCounters s n tec.toNat rec.toNat)

/-- BUS_OFF_RECOVERY_END: 128 occurrences of eleven recessive bits (R483). -/
def execBusOffRecoveryEnd (n : Fin 3) (s : State) : Host.Outcome State Fault Refusal :=
  .next (
    if (canAt s n).state = 5 then s.modCan n fun x => { x with state := 2, tec := 0, rec_ := 0, boWait := false } else s)

/-- REC after a frame received without error: one less; above 127 a value from 119 to 127 that the standard leaves open. -/
def recAfter (s : State) (rec : Nat) : Nat := if 127 < rec then 119 + s.free.toNat % 9 else rec - 1

/-- CAN_FRAME_RECEIVED: a valid frame is timestamped at its SOF and routed (R484). -/
def execCanFrameReceived (n : Fin 3) (frame : CanFrame) (sofAgo : Nat) (s : State) : Host.Outcome State Fault Refusal :=
  .next (
    let x := canAt s n
    if !(x.state = 2 || x.state = 3) || (frame.fdf && !cnFden s n) then s
    else
      let ts := (netNs s (s.now - sofAgo)).toNat
      let s := canCounters s.useFree n x.tec (recAfter s x.rec_)
      if bitOf (cnW s n 9) 31 && idMatch frame (bitOf (cnW s n 9) 29) (fld (cnW s n 9) 28 0) then safetyOnCan s n frame
      else
        let role := timeRole s
        let s := if role = (n.val, 2) && idMatch frame (bitOf (cnW s n 5) 29) (fld (cnW s n 5) 28 0) then
            refReceived s n frame ts else s
        filterFrame s n frame ts)

/-! ## Commands (R479, R482, R483, R485) -/

/-- REQ (R479). -/
def txRequest (s : State) (n b : Nat) : State :=
  if isDevBuf s n b then s.refuse 0x20
  else if txBusy s n b then s.refuse 0x21
  else (s.modTx n b fun x => { x with status := 1, cancel := false, retx := 0 }).ok []

/-- TX_REQ: a write of CN_TXCMD with REQ. -/
def execTxReq (n buf : Fin 3) (s : State) : Host.Outcome State Fault Refusal :=
  .next (writeGate s .cs fun s => txRequest s n buf)

/-- CANCEL (R482). -/
def txCancelCmd (s : State) (n b : Nat) : State :=
  if isDevBuf s n b then s.refuse 0x20 else (txCancelBuf s n b).ok []

/-- TX_CANCEL: a write of CN_TXCMD with CANCEL. -/
def execTxCancel (n buf : Fin 3) (s : State) : Host.Outcome State Fault Refusal :=
  .next (writeGate s .cs fun s => txCancelCmd s n buf)

/-- Whether an offset in a buffer's block is its header, its DLC or a data word. -/
def txWritable (off : Nat) : Bool := off = 0 || off = 4 || (0x20 ≤ off && off < 0x60 && off % 4 = 0)

/-- A write of a buffer's header, DLC or data word. -/
def txWrite (s : State) (n b off : Nat) (v : Word) : State :=
  if isDevBuf s n b then s.refuse 0x20
  else if txBusy s n b then s.refuse 0x21
  else
    (s.modTx n b fun x =>
      if off = 0 then { x with hdr := v }
      else if off = 4 then { x with dlc := v &&& 0xF }
      else { x with data := x.data.set ((off - 0x20) / 4) v }).ok []

/-- TX_BUFFER_WRITE (R479, R497). -/
def execTxBufferWrite (n buf : Fin 3) (offset : Fin 96) (value : Word) (s : State) : Host.Outcome State Fault Refusal :=
  .next (if txWritable offset then writeGate s .cs fun s => txWrite s n buf offset value else s)

/-- The oldest frame removed; the FIFO emptied; recovery started where it waits for it. -/
def canPop (s : State) (n : Nat) : State := (s.modCan n fun x => { x with fifo := x.fifo.tail }).ok []
def canFlush (s : State) (n : Nat) : State := (s.modCan n fun x => { x with fifo := [] }).ok []
def canRecover (s : State) (n : Nat) : State :=
  (s.modCan n fun x => if x.state = 4 && x.boWait then { x with state := 5, boWait := false } else x).ok []

/-- POP (R485). -/
def execPop (n : Fin 3) (s : State) : Host.Outcome State Fault Refusal := .next (writeGate s .cs fun s => canPop s n)

/-- FLUSH (R485). -/
def execFlush (n : Fin 3) (s : State) : Host.Outcome State Fault Refusal := .next (writeGate s .cs fun s => canFlush s n)

/-- RECOVER (R483). -/
def execRecover (n : Fin 3) (s : State) : Host.Outcome State Fault Refusal := .next (writeGate s .cs fun s => canRecover s n)

/-! ## Network time (R490 to R492) -/

/-- Message q joins the front of the device queue; the message before it is cancelled if it has not been sent (R489,
R491). -/
def refQueue (s : State) (n : Nat) (q : Byte) : State :=
  let x := canAt s n
  let s := if x.devq.any (·.1) then { s with net := { s.net with prevOk := false } } else s
  let s := s.modCan n fun y => { y with devq := (true, [q]) :: y.devq.filter fun e => !e.1 }
  devLoad (if x.devRef && txBusy s n 2 then txCancelBuf s n 2 else s) n

/-- REFERENCE_MESSAGE_DUE: every TREFPER a master queues the next message, ahead of responses (R489, R491). -/
def execReferenceMessageDue (s : State) : Host.Outcome State Fault Refusal :=
  .next (
    let (n, role) := timeRole s
    if role ≠ 1 || !s.sys.ready then s
    else
      let s := s.advanceTo ((if s.net.refAt = 0 then s.t0.getD 0 else s.net.refAt) + refPeriod s n)
      let q := s.net.seq + 1
      refQueue { s with net := { s.net with refAt := s.now, seq := q } } n q)

/-- NTLOSS: REFTMO × TREFPER without a valid evaluation, once until the next one (R492). -/
def execNtloss (s : State) : Host.Outcome State Fault Refusal :=
  .next (
    let (n, role) := timeRole s
    if role ≠ 2 || !s.sys.ready || s.net.holdover then s
    else
      let s := s.advanceTo ((if s.net.evalAt = 0 then s.t0.getD 0 else s.net.evalAt) + fld (cnW s n 6) 15 8 * refPeriod s n)
      let s := { s with net := { s.net.withSync false s.now with holdover := true } }
      staleCheck (canEvent s n 7 (wi (satS 32 s.net.err))))

/-- SLEW_END: N runs at 1 + r from here (R492). -/
def execSlewEnd (s : State) : Host.Outcome State Fault Refusal :=
  .next (match s.net.slewAt with
    | some t =>
      let s := netAnchor (s.advanceTo t)
      nettimeRate { s with net := { s.net with slew := 0, slewAt := none } }
    | none => s)

/-- CN_NTSETHI_WRITE (R490). -/
def execCnNtsethiWrite (value : Word) (s : State) : Host.Outcome State Fault Refusal :=
  .next (writeGate s .cs fun s => (netSet s value).ok [])

/-- CN_NTLO read: the low word of N; the high word is latched. -/
def ntloRead (s : State) : State × Word :=
  ({ s with net := { s.net with latHi := hi32 (netNs s s.now) } }, lo32 (netNs s s.now))

/-- CN_NTLO_READ (R497). -/
def execCnNtloRead (s : State) : Host.Outcome State Fault Refusal :=
  .next (regGate s .cs fun s => let (s, w) := ntloRead s; s.ok [w])

end Sys2Proof.Machine
end

