-- ==== Sys2Proof/Machine/Charging.lean ====
section
/-! DEFINITION. Charging rows: the 1 ms evaluation, the timers, the commands, the AC port's hand-over and reverse supply
(R409 to R423). -/

namespace Sys2Proof.Machine

/-! ## The evaluation (R409, R410, R413) -/

/-- The timers advance by 1 ms (R409, R412, R413); those of the HV port stop during a hand-over (R418). -/
def chTimers (s : State) (p : Nat) : State :=
  let x := portAt s p
  let ph := if x.phase = 7 then x.heldPh else x.phase
  let session := (1 ≤ x.phase && x.phase ≤ 5) || x.phase = 7
  if !session || (p = 1 && s.ac.handover) then s
  else
    let icmd := chIcmd s p ph
    let k : Rat := if 0 < icmd then max (1 / 4) (min 1 (chI s p / icmd)) else 1 / 4
    s.modPort p fun x =>
      { x with treal := x.treal + 1, tcred := x.tcred + k
               tpre := if ph = 1 || ph = 2 then x.tpre + 1 else x.tpre
               tterm := if x.phase = 5 && decide (chLvl s p 11 ≤ icmd * chF s) then x.tterm + 1 else x.tterm }

/-- The temperature of the channel that limited is at or below its knee minus 10 K (R414). -/
def chCooled (s : State) (p : Nat) : Bool :=
  let c := (portAt s p).coolCh
  decide (thVal s c ≤ (tempAt s c).knee.toInt - 160)

/-- The phase changes of an evaluation (R409, R410, R414). -/
def chTransit (s : State) (p : Nat) : State :=
  let x := portAt s p
  let bad := chBad s p
  let set (n : Nat) : State := s.modPort p fun x => { x with phase := n }
  let i := chI s p
  let iterm := chLvl s p 11
  if 1 ≤ x.phase && x.phase ≤ 5 && bad.isSome then
    chInlost (s.modPort p fun x => { x with heldPh := x.phase, phase := 7 }) p (bad.getD 0)
  else match x.phase with
    | 1 => set (max 1 (min 3 (chStartPhase s p)))
    | 2 => set (max 2 (min 3 (chStartPhase s p)))
    | 3 => if chVreg s p ≤ chV s p then set 4 else s
    | 4 => if i < iterm && iterm ≤ chIcmd s p 4 * chF s then
        s.modPort p fun x => { x with phase := 5, tterm := 0 }
      else s
    | 5 => if iterm ≤ i then set 4 else s
    | 6 => if chV s p < chLvl s p 6 then chBegin s p false else s
    | 7 => if bad.isNone then set x.heldPh else s
    | 8 => if chCooled s p then chBegin s p true else s
    | _ => s

/-- CHARGE_EVALUATION: every 1 ms from page 0 a port advances its timers, takes its phase and offers its outputs (R406 to
R414). -/
def execChargeEvaluation (p : Fin 2) (s : State) : Host.Outcome State Fault Refusal :=
  .next (
    if !s.sys.ready || (chRec s p).isNone then s
    else
      let x := portAt s p
      let s := s.advanceTo ((if x.evalAt = 0 then s.t0.getD 0 else x.evalAt) + msec)
      let s := s.modPort p fun x => { x with evalAt := s.now, fact := s.lamp.fCs, limch := s.lamp.limch }
      chOffer (chTransit (chTimers s p) p) p)

/-! ## Timers (R409, R412, R414) -/

/-- PRETMO: the pre-charge timer reaches TPRE in TRICKLE, PRE or HOLD from either: FAULT (R412). -/
def execPretmo (p : Fin 2) (s : State) : Host.Outcome State Fault Refusal :=
  .next (
    let x := portAt s p
    let ph := if x.phase = 7 then x.heldPh else x.phase
    let lim := fld (chW s p 12) 31 16 * 60000
    if (chRec s p).isNone || !(ph = 1 || ph = 2) || (p.val = 1 && s.ac.handover) then s
    else
      let s := s.advanceTo (x.evalAt + (lim - x.tpre) * msec)
      let s := s.modPort p fun x => { x with tpre := max x.tpre lim }
      chFault s p 1 (wd x.phase))

/-- DONE, at the termination timer's end (R409). -/
def chDone (s : State) (p : Nat) : State := chDrop (s.modPort p fun x => { x with phase := 6 }) p

/-- Whether the termination timer has reached TTERM. -/
def chTermDone (s : State) (p : Nat) : Bool :=
  (portAt s p).phase = 5 && fld (chW s p 13) 31 16 * 1000 ≤ (portAt s p).tterm

/-- Whether the total timer has expired (R413). -/
def chExpired (s : State) (p : Nat) : Bool :=
  let x := portAt s p
  let tnom := fld (chW s p 12) 15 0 * 60000
  decide ((tnom : Rat) ≤ x.tcred) || 3 * tnom ≤ x.treal

/-- TOTAL_TIMER_EXPIRY (R413, R414); an entry to DONE in the same evaluation prevails (R423). -/
def execTotalTimerExpiry (p : Fin 2) (s : State) : Host.Outcome State Fault Refusal :=
  .next (
    let x := portAt s p
    let session := (1 ≤ x.phase && x.phase ≤ 5) || x.phase = 7
    if (chRec s p).isNone || !session || !chExpired s p || (p.val = 1 && s.ac.handover) then s
    else if chTermDone s p then chDone s p
    else if 65536 ≤ x.fact then
      chFault s p 2 (wd (min 65535 (x.treal / 60000) * 65536 + min 65535 (x.tcred / 60000).floor.toNat))
    else if x.retried then chFault s p 3 (wd (256 + x.limch))
    else
      chDrop (chEvent (s.modPort p fun x => { x with phase := 8, coolCh := x.limch }) p 3 (wd x.limch)) p)

/-- TERMINATION_TIMEOUT: the termination timer reaches TTERM (R409). -/
def execTerminationTimeout (p : Fin 2) (s : State) : Host.Outcome State Fault Refusal :=
  .next (if (chRec s p).isSome && chTermDone s p then chDone s p else s)

/-! ## Commands (R422) -/

/-- The answer to START: 0 OK, or the first refusal. -/
def chStartStatus (s : State) (p : Nat) : Nat :=
  let x := portAt s p
  if !s.sys.ready || (chRec s p).isNone || (x.phase ≠ 0 && x.phase ≠ 6) then 1
  else if p = 1 && (s.ac.handover || s.ac.reverse || !s.ac.acqual) then 2
  else if chBms s p && (unusable s .cs (chVlimBuoy s p) || unusable s .cs (chIlimBuoy s p)) then 3
  else 0

/-- START. -/
def chStart (s : State) (p : Nat) : State :=
  let st := chStartStatus s p
  chAnswer (if st = 0 then chBegin s p false else s) p st

/-- CHARGE_START: a write of CH_PCMD with START (R409, R422). -/
def execChargeStart (p : Fin 2) (s : State) : Host.Outcome State Fault Refusal :=
  .next (writeGate s .cs fun s => chStart s p)

/-- STOP: the port to IDLE with its outputs at once; in the evaluation of a source loss only ENBUOY goes to 0 and the ramp
ends (R422, R423). -/
def chStop (s : State) (p : Nat) : State :=
  let x := portAt s p
  if x.phase = 9 then chAnswer s p 1
  else if p = 1 && s.ac.handover && s.ac.ramping && x.evalAt ≤ s.ac.lossAt then
    let s := s.modAc fun a => { a with rampFrom := 0 }
    chAnswer (if (chRec s 1).isSome && s.sys.ready then chOfferEn s 1 false else s) p 0
  else
    let s := s.modPort p fun x => { x with phase := 0, lastEnd := if x.phase = 0 then x.lastEnd else 1 }
    let s := if p = 1 then s.modAc fun a => { a with ramping := false } else s
    chAnswer (if (chRec s p).isSome && s.sys.ready then chOfferEn s p (chOutputs s p).1 else s) p 0

/-- CHARGE_STOP. -/
def execChargeStop (p : Fin 2) (s : State) : Host.Outcome State Fault Refusal :=
  .next (writeGate s .cs fun s => chStop s p)

/-- CLEAR: a port in FAULT to IDLE (R422). -/
def chClear (s : State) (p : Nat) : State :=
  if (portAt s p).phase = 9 then chAnswer (s.modPort p fun x => { x with phase := 0 }) p 0 else chAnswer s p 1

/-- CHARGE_CLEAR. -/
def execChargeClear (p : Fin 2) (s : State) : Host.Outcome State Fault Refusal :=
  .next (writeGate s .cs fun s => chClear s p)

/-- The answer to REVSTART (R422). -/
def revStatus (s : State) : Nat :=
  let ph := (portAt s 1).phase
  if !s.sys.ready || (chAc s).isNone || !(ph = 0 || ph = 6 || ph = 9) || s.ac.reverse || s.ac.handover then 1
  else match s.ac.lastPres with
    | some t => if s.now - t < 100 * msec then 4 else 0
    | none => 0

/-- REVSTART (R420, R422). -/
def revStart (s : State) : State :=
  let st := revStatus s
  if st ≠ 0 then chAnswer s 2 st
  else
    let s := { s with mains := { s.mains with pendForm := true } }
    let s := s.modAc fun x =>
      { x with reverse := true, revAt := s.now, acqual := false, qualAt := none, grid := false, gdevAt := none }
    chAnswer (chOffer s 1) 2 0

/-- REVSTART: a write of CH_ACCMD. -/
def execRevstart (s : State) : Host.Outcome State Fault Refusal := .next (writeGate s .cs revStart)

/-- REVSTOP: always accepted (R420, R422). -/
def revStop (s : State) : State := chAnswer (acRevstop s) 2 0

/-- REVSTOP: a write of CH_ACCMD. -/
def execRevstop (s : State) : Host.Outcome State Fault Refusal := .next (writeGate s .cs revStop)

/-! ## The AC port (R417 to R421) -/

/-- AC_QUALIFIED: the conditions have held for 2,000 ms without a break (R417). -/
def execAcQualified (s : State) : Host.Outcome State Fault Refusal :=
  .next (match s.ac.qualAt with
    | some t =>
      let s := s.advanceTo (t + 2000 * msec)
      s.modAc fun x => { x with acqual := true }
    | none => s)

/-- A hand-over starts (R418). -/
def handoverStart (s : State) (byLock : Bool) : State :=
  let s := s.modAc fun x =>
    { x with handover := true, acqual := false, qualAt := none, lossAt := s.now, rampFrom := (portAt s 1).iset
             ramping := true, lockDrop := false }
  acEvent s 5 (wd (b2n byLock))

/-- SRCLOST: the amplitude has stayed below VLOSS for LOSSDET, or LOCKED has cleared in TRACK (R418, R419). -/
def execSrclost (byLock : Bool) (s : State) : Host.Outcome State Fault Refusal :=
  .next (
    if byLock then
      if s.ac.lockDrop && acActs s then handoverStart s true else s
    else match s.ac.lowAt with
      | some t =>
        let s := s.advanceTo (t + acLossdet s)
        if acActs s then handoverStart s false else s
      | none => s)

/-- HANDOVER_RAMP_END: at t0 + HRAMP HV ENBUOY goes to 0 and the port enters IDLE with LASTEND SRCLOST (R418). -/
def execHandoverRampEnd (s : State) : Host.Outcome State Fault Refusal :=
  .next (
    if !s.ac.handover || !s.ac.ramping then s
    else
      let s := s.advanceTo (s.ac.lossAt + acHramp s)
      let s := s.modPort 1 fun x => { x with phase := 0, lastEnd := 2 }
      let s := s.modAc fun x => { x with ramping := false }
      if (chRec s 1).isSome && s.sys.ready then chOfferEn s 1 false else s)

/-- HANDOVER_END: at t0 + HOTIME HANDOVER clears and qualification may start (R418). -/
def execHandoverEnd (s : State) : Host.Outcome State Fault Refusal :=
  .next (
    if !s.ac.handover then s
    else
      let s := s.advanceTo (s.ac.lossAt + acHotime s)
      let s := s.modAc fun x => { x with handover := false }
      s.modAc fun x => { x with qualAt := if acGood s then some s.now else none })

/-- GRID_WATCH_ARM: GSETTLE × 10 ms after REVSTART (R421). -/
def execGridWatchArm (s : State) : Host.Outcome State Fault Refusal :=
  .next (
    if !s.ac.reverse || s.ac.grid then s
    else
      let s := s.advanceTo (s.ac.revAt + acGsettle s)
      s.modAc fun x => { x with grid := true })

/-- GRID: the deviation has held for GDTIME; reverse supply stops (R421). -/
def execGrid (s : State) : Host.Outcome State Fault Refusal :=
  .next (match s.ac.gdevAt with
    | some t =>
      if !s.ac.reverse || !s.ac.grid then s
      else
        let s := s.advanceTo (t + acGdtime s)
        let s := acEvent s 6 (wd ((s.mains.e % 65536).toNat * 65536 + (s.mains.fdev % 65536).toNat))
        acRevstop s
    | none => s)

end Sys2Proof.Machine
end

