-- ==== Sys2Proof/Machine/CheckCore.lean ====
section
/-! DEFINITION. Check-value channels: their records and the start of a scan (R518, R523). -/

namespace Sys2Proof.Machine

/-- The CKCHAN of a channel. -/
def ckRec (s : State) (d : Die) (n : Nat) : Option (List Word) :=
  (recsOf (recsIn s d) sNET 0x11).find? fun w => fld (wat w 0) 24 24 == d.bit && fld (wat w 0) 19 16 == n

def ckW (s : State) (d : Die) (n i : Nat) : Word := wat ((ckRec s d n).getD []) i

/-- MODE: 0 OFF, 1 BACKGROUND, 2 SCAN, 3 HOST. -/
def ckMode (s : State) (d : Die) (n : Nat) : Nat := fld (ckW s d n 0) 9 8

/-- Channels of a die. -/
def ckCount : Die → Nat
  | .cs => 8
  | .ds => 4

/-- One channel changed. -/
def State.modCk (s : State) (d : Die) (n : Nat) (f : Ck → Ck) : State := s.setCks d (upd (s.cks d) n f)

/-- A scan starts. -/
def ckStart (s : State) (d : Die) (n : Nat) : State := s.modCk d n fun x => { x with running := true }

/-- An event of a channel (R526). -/
def ckEvent (s : State) (d : Die) (n cause : Nat) (detail : Word) : State :=
  let s := s.modCk d n fun x => { x with evt := orBit x.evt cause }
  countEvent s { key := ⟨d, 11, n, 0, n, cause⟩, cause := cause, w := fld (ckW s d n 5) 31 16, n := fld (ckW s d n 5) 7 0
                 detail := detail, early := false }

end Sys2Proof.Machine
end

