-- ==== Sys2Proof/Machine/LhCore.lean ====
section
/-! DEFINITION. Light List entries from issue to retirement (R150 to R172, R183): what an entry reads and writes, when it
may issue, its acceptance by its unit, the effect of its retirement. -/

namespace Sys2Proof.Machine

/-! ## Opcodes (R163) -/

def oNOP : Nat := 0
def oSAMPLE : Nat := 1
def oREAD : Nat := 2
def oMOVE : Nat := 3
def oRUN : Nat := 4
def oLOAD : Nat := 5
def oWRITE : Nat := 6
def oBLEND : Nat := 7
def oLIMIT : Nat := 8
def oCOMMIT : Nat := 9
def oSCAN : Nat := 0xA
def oSNAP : Nat := 0xB
def oFENCE : Nat := 0xC
def oMARK : Nat := 0xD
def oSIGNAL : Nat := 0xE

/-- Whether an opcode has functions beside 0. -/
def manyFn (op : Nat) : Bool := op == oBLEND || op == oLIMIT || op == oFENCE || op == oSIGNAL

/-- Whether R163 lists an opcode and function. -/
def fnListed (op fn : Nat) : Bool :=
  if op = oFENCE then fn ≤ 2 else if manyFn op then fn ≤ 1 else op ≤ oSIGNAL

/-- Whether an entry is one of a row: by opcode and function; an entry that fails its check and spells no row is taken by
the row of NOP, since it only retires. -/
def Entry.isRow (e : Entry) (op fn : Nat) : Bool :=
  if fnListed e.opcode e.fn then e.opcode == op && (!manyFn op || e.fn == fn) else op == oNOP

/-- The entry of a slot of the window. -/
def InFl.entry (x : InFl) : Entry := ⟨wat x.w 0, wat x.w 1, wat x.w 2, wat x.w 3⟩

/-! ## Operands of the operations (R163, R164) -/

/-- The ADCs a SAMPLE names, and the channel of each (R163, R180). -/
def sampleAdcs (d : Die) (e : Entry) : List Nat :=
  (List.range (match d with | .ds => 8 | .cs => 6)).filter fun a => hasBit e.opa a
def sampleChan (e : Entry) (a : Nat) : Nat := if a < 4 then e.opb / 16 ^ a % 16 else e.opc / 16 ^ (a - 4) % 16

/-- ADC and channel of a READ, and the engine of RUN, LOAD, WRITE and SNAP. -/
def readAdc (e : Entry) : Nat := e.opa / 256 % 16
def readChan (e : Entry) : Nat := e.opa % 16
def engOf (e : Entry) : Nat := e.opa % 16

/-- The buoy an ADC channel is routed to, and the engine inputs routed from a buoy (R46). -/
def adcMap (s : State) (d : Die) (a c : Nat) : Option Nat :=
  ((recsOf (recsIn s d) sROUTE 1).find? fun w =>
    fld (wat w 0) 24 24 == d.bit && fld (wat w 0) 19 16 == a && fld (wat w 0) 11 8 == c).map fun w => fld (wat w 1) 8 0
def inMap (s : State) (d : Die) (n : Nat) : List (Nat × Nat) :=
  ((recsOf (recsIn s d) sROUTE 2).filter fun w => fld (wat w 0) 24 24 == d.bit && fld (wat w 1) 8 0 == n).map
    fun w => (fld (wat w 0) 19 16, fld (wat w 0) 2 0)

/-- The destination reference of an entry. -/
def Entry.dest (e : Entry) : Option Nat :=
  if e.opcode = oMOVE || e.opcode = oBLEND || e.opcode = oLIMIT then some e.opa
  else if e.opcode = oWRITE then some e.opb else none

/-- Whether an entry is an output entry (R163). -/
def Entry.isOut (e : Entry) : Bool :=
  e.opcode == oCOMMIT || e.opcode == oSIGNAL || (match e.dest with | some r => isOutRef r | none => false)

/-- ID and IQ count as written by an entry that writes IB0 or IB1 (R286). -/
def dqLocs (r : Nat) : List (Nat × Nat) :=
  let i := refIndex r
  if refSpace r = 6 && (i % 32 = 10 || i % 32 = 12) then [(6, i - i % 32 + 13), (6, i - i % 32 + 14)] else []

/-- Locations entries read and write (R164): those a value reference names by space, then 16 ADC results, 17 active
parameter sets, 18 engine states, 19 checkpoints. -/
def refLoc (r : Nat) : Nat × Nat :=
  match refSpace r with
  | 1 => (1, refIndex r % 128)
  | 2 => (2, refIndex r % 16)
  | 3 => (3, refIndex r % 16)
  | sp => (sp, refIndex r)

def entryWrites (s : State) (d : Die) (e : Entry) : List (Nat × Nat) :=
  let op := e.opcode
  if op = oSAMPLE then (sampleAdcs d e).map fun a => (16, a * 16 + sampleChan e a)
  else if op = oREAD then match adcMap s d (readAdc e) (readChan e) with
    | some n => (0, n) :: (inMap s d n).map fun (k, i) => (1, k * 8 + i)
    | none => []
  else if op = oRUN then (engSet s d (engOf e)).flatMap fun k => [(2, k), (18, k)]
  else if op = oLOAD then (engSet s d (engOf e)).map fun k => (17, k)
  else if op = oSNAP then [(19, engOf e)]
  else match e.dest with
    | some r => refLoc r :: dqLocs r
    | none => []

def entryReads (s : State) (d : Die) (e : Entry) : List (Nat × Nat) :=
  let op := e.opcode
  let k := engOf e
  let b := if e.immb then [] else [refLoc e.opb]
  let c := if e.immc then [] else [refLoc e.opc]
  let two := [(3, e.opc % 16), (3, (e.opc + 1) % 16)]
  if op = oREAD then [(16, readAdc e * 16 + readChan e)]
  else if op = oRUN then (engSet s d k).flatMap fun k => (17, k) :: (18, k) :: (List.range 8).map fun i => (1, k * 8 + i)
  else if op = oWRITE then [(2, k)]
  else if op = oSNAP then [(18, k)]
  else if op = oMOVE then b
  else if op = oBLEND then (if e.fn = 0 then b ++ two else b ++ c ++ [(3, e.mod % 16)])
  else if op = oLIMIT then (if e.fn = 0 then b ++ two else b ++ c)
  else []

/-! ## Values (R161, R165) -/

/-- A lane register as a number. -/
def lvRat (s : State) (d : Die) (l k : Nat) : Rat := (readRef s d l (0x3000 + k % 16)).rat

/-- The exact result of a MOVE, WRITE, BLEND or LIMIT. -/
def entryVal (s : State) (d : Die) (l : Nat) (e : Entry) : Rat :=
  let op := e.opcode
  let b := (operand s d l e true).rat
  let c := (operand s d l e false).rat
  let k := e.opc % 4096
  let x := lvRat s d l k
  let y := lvRat s d l (k + 1)
  if op = oWRITE then (readRef s d l (0x2000 + engOf e)).rat
  else if op = oBLEND then
    if e.fn = 0 then (if x = y then (if x ≤ b then 1 else 0) else clampR 0 1 ((b - x) / (y - x)))
    else let w := clampR 0 1 (lvRat s d l e.mod); w * b + (1 - w) * c
  else if op = oLIMIT then
    if e.fn = 0 then min (max b x) y else let m := if c < 0 then -c else c; min (max b (-m)) m
  else b

/-- The sample angle that a write to IA or IB uses (R286). -/
def destAngle (s : State) (d : Die) (e : Entry) : Word :=
  match d, e.dest with
  | .ds, some r => if refSpace r = 6 && (refIndex r % 32 = 10 || refIndex r % 32 = 12) then sampleAngle s (refIndex r / 256 % 2) else 0
  | _, _ => 0

/-! ## Page boundaries at a wrap (R177) -/

/-- Whether the trigger of entry 0 of a further pass has come and its page boundary is still to be taken. -/
def wrapDue (s : State) (d : Die) (l : Nat) : Bool :=
  let ln := nth (s.lh d).lanes l
  ln.run && ln.ptr == 0 && !ln.fresh && !ln.wrapDone && (match laneTrigger s d l with | some t => decide (t ≤ s.now) | none => false)

/-- Every page boundary of a wrap that has come by now. -/
def lanesDue (s : State) (d : Die) : State :=
  (List.range (laneCount d)).foldl (fun s l =>
    if wrapDue s d l then (stagedBoundary s d l).modLane d l fun x => { x with wrapDone := true } else s) s

/-! ## Events of a lane (R182) -/

/-- DETAIL of a lane event. -/
def laneDetail (late page idx : Nat) : Word := wd (min late 65535 * 65536 + page * 4096 + idx)

/-- An event of a lane, counted with the safety block's parameters (R172, R376). -/
def laneEvent (s : State) (d : Die) (l cause : Nat) (detail : Word) : State :=
  let w := wrPar s (0x018 + 4 * ((match d with | .ds => l | .cs => 4 + l) * 4 + cause - 1))
  let s := s.modLane d l fun x => { x with levt := orBit x.levt cause }
  countEvent s { key := ⟨d, 2, l, 0, l, cause⟩, cause := cause, w := fld w 31 16, n := fld w 7 0, detail := detail, early := false }

/-- OVERRUN: counted, kept, and sent to the Watch Room as soon as it occurs (R153, R172, R184). -/
def overrun (s : State) (d : Die) (l : Nat) (detail : Word) : State :=
  let s := s.modLane d l fun x =>
    { x with ovrCnt := satInc x.ovrCnt, ovrLast := detail, ovrMax := BitVec.ofNat 16 (max x.ovrMax.toNat (fld detail 31 16)) }
  let s := laneEvent s d l 1 detail
  match d with
  | .ds => dsSingle s { key := ⟨d, 2, l, 0, l, 1⟩, cause := 1, detail := detail }
  | .cs => s

/-! ## Fences (R170, R171) -/

/-- The earlier entries of its lane a FENCE waits for. -/
def awaited (s : State) (d : Die) (lane fn seqn : Nat) : List InFl :=
  (s.lh d).infl.filter fun x => x.lane == lane && x.seqn < seqn &&
    (if fn = 0 then true else if fn = 1 then (entryWrites s d x.entry).length ≠ 0 else x.entry.isOut)

/-! ## Retirement (R169, R170, R171) -/

/-- The entry that retires next. -/
def nextRetire (s : State) (d : Die) : Option InFl :=
  (s.lh d).infl.foldl (fun a x =>
    match x.retireAt, a with
    | none, _ => a
    | some _, none => some x
    | some t, some y => if t < y.retireAt.getD 0 || (t = y.retireAt.getD 0 && x.seqn < y.seqn) then some x else a) none

/-- Whether an entry names an engine of a pair mask (R178). -/
def namesPair (e : Entry) (mask : Nat) : Bool :=
  (e.opcode == oRUN || e.opcode == oLOAD || e.opcode == oWRITE || e.opcode == oSNAP) && hasBit mask (engOf e / 2)

/-- The window without an entry: the CHAIN entry after it has its trigger, a draining lane notes the cycle, fences that
wait for nothing more retire in this cycle. -/
def leaveWindow (s : State) (d : Die) (x : InFl) : State :=
  let s := s.setLh d { s.lh d with infl := (s.lh d).infl.filter fun z => z.seqn != x.seqn }
  let s := s.modLane d x.lane fun ln =>
    let ln := if ln.predSeq = some x.seqn then { ln with predSeq := none, predRetire := s.now } else ln
    if ln.drain && namesPair x.entry ln.drainPairs.toNat then { ln with drainAt := max ln.drainAt s.now } else ln
  s.setLh d { s.lh d with infl := (s.lh d).infl.map fun z =>
    if z.entry.opcode = oFENCE && z.retireAt.isNone && (awaited s d z.lane z.entry.fn z.seqn).length = 0 then
      { z with acceptAt := some s.now, retireAt := some s.now } else z }

/-- READ: the routed buoy, which takes it only where its source is an ADC (R67), and the engine inputs routed from it (R164, R166, R187); no ADC value of a CS die whose
analogue supply is out of range is offered (R532). -/
def retireRead (s : State) (d : Die) (l : Nat) (e : Entry) (v : List Int) : State :=
  match adcMap s d (readAdc e) (readChan e) with
  | none => s
  | some n =>
    let s := if (d == .cs && !s.sup.csOk.getLsbD 1) || bySrc s n ≠ 0 then s
      else
        let s := offerInt s n (v.getD 0 0)
        s.modBuoy n fun b => if b.lastAt = s.now then { b with sampAt := (v.getD 1 0).toNat } else b
    (inMap s d n).foldl (fun s (k, i) =>
      if k % 2 = 1 && twin s d (k / 2) then s else writeRef s d l (0x1000 + k * 8 + i) (viewNow s d n).rat 0) s

/-- RUN: each engine's evaluation, the compare of a merged pair, then the commit of state, latch and counts (R196, R201, R218, R220,
R222). -/
def retireRun (s : State) (d : Die) (e : Entry) (v : List Int) (upset : Option Upset) : State :=
  let k := engOf e
  let p := k / 2
  let ks := engSet s d k
  let free (s : State) : State := ks.foldl (fun s j => s.modEng d j fun x => { x with busy := false }) s
  let out (j : Nat) : RunOut := runEval (nth (s.engs d) j) (iexp s d j) (oexp s d j) (v.take 8) (v.getD 8 0 != 0) (v.getD 9 0 != 0)
  let words (j : Nat) : List (Nat × Word) :=
    let o := out j
    runWords o.eng (flagWord o.eng o.plaus.isSome (o.marks != 0) o.lsat)
  match (if compares s d k then firstDiff (words k) (words (k + 1)) upset else none) with
  | some w => stagedDue (mismatch (free s) d p 1 w (!ckptUsable s d (2 * p))) d p
  | none =>
    let o := out k
    let s := ks.foldl (fun s j => let y := (out j).eng; s.modEng d j fun _ => y) s
    let s := free s
    let s := if compares s d k then s.modPair d p fun x => { x with isRecover := false, holdCnt := 0 } else s
    let s := match o.plaus with | some r => engEvent s d k 1 r | none => s
    let s := if o.marks ≠ 0 then engEvent s d k 2 (wd o.marks) else s
    stagedDue s d p

/-- LOAD: the active copy and INITPEND (R189, R199). -/
def retireLoad (s : State) (d : Die) (e : Entry) (v : List Int) (upset : Option Upset) : State :=
  let k := engOf e
  let ks := engSet s d k
  let s := ks.foldl (fun s j => s.modEng d j fun x => { x with busy := false }) s
  let ws := v.map wi
  let loaded (x : Eng) : Eng := { x with act := ws, actSet := e.opb % 8, initPend := bitOf (wat ws 0) 8 }
  let words (j : Nat) : List (Nat × Word) := loadWords (loaded (nth (s.engs d) j))
  match (if compares s d k then firstDiff (words k) (words (k + 1)) upset else none) with
  | some w => mismatch s d (k / 2) 2 w (!ckptUsable s d (k / 2 * 2))
  | none => stagedDue (ks.foldl (fun s j => s.modEng d j loaded) s) d (k / 2)

/-- SNAP: the checkpoint of the engine named (R223). -/
def retireSnap (s : State) (d : Die) (e : Entry) (upset : Option Upset) : State :=
  let k := engOf e
  let s := (engSet s d k).foldl (fun s j => s.modEng d j fun x => { x with busy := false }) s
  match (if compares s d k then pairDiff s d (k / 2) upset else none) with
  | some w => mismatch s d (k / 2) 3 w (!ckptUsable s d (k / 2 * 2))
  | none => stagedDue (writeCkpt s d k) d (k / 2)

/-- SAMPLE: the results of the named channels with their sample instant (R164, R166). -/
def retireSample (s : State) (d : Die) (x : InFl) : State :=
  let e := x.entry
  let t := x.acceptAt.getD 0
  s.setLh d { s.lh d with
    adc := (s.lh d).adc.mapIdx fun a r => if (sampleAdcs d e).contains a then r.set (sampleChan e a) (wi (x.vals.getD a 0)) else r
    adcAt := (s.lh d).adcAt.mapIdx fun a r => if (sampleAdcs d e).contains a then r.set (sampleChan e a) t else r }

/-- COMMIT: pending for each named member (R249). -/
def retireCommit (s : State) (d : Die) (e : Entry) : State :=
  let ms := members s d (e.opa % 16)
  (List.range 8).foldl (fun s k =>
    if hasBit e.opb k && k < ms.length then s.modChan d (ms.getD k 0) fun c => c.setCommit s.now else s) s

/-- SCAN: the channel starts, or is busy and counts SCANBSY (R168). -/
def retireScan (s : State) (d : Die) (x : InFl) : State :=
  let n := x.entry.opa % 8
  if (nth (s.cks d) n).running then laneEvent s d x.lane 4 (laneDetail 0 x.page x.idx)
  else if ckMode s d n = 2 then ckStart s d n else s

/-- MARK: a trace record, or LOST where the buffer of 64 is full (R183). -/
def retireMark (s : State) (d : Die) (x : InFl) : State :=
  if (s.lh d).trace.length < 64 then
    let r := (countAt s d x.issueAt).toNat * 2 ^ 32 + x.entry.opa * 65536 + x.page * 4096 + x.lane * 1024 + x.idx % 1024
    s.setLh d { s.lh d with trace := (s.lh d).trace ++ [BitVec.ofNat 64 r] }
  else s.setLh d { s.lh d with lost := true }

/-- SIGNAL to the Keeper or to the Watch Room (R183). -/
def retireSignal (s : State) (d : Die) (e : Entry) : State :=
  let n := e.opa % 64
  if e.fn = 0 then
    if n < 32 then s.setLh d { s.lh d with sig0 := orBit (s.lh d).sig0 n }
    else s.setLh d { s.lh d with sig1 := orBit (s.lh d).sig1 (n - 32) }
  else match d with
    | .cs => wrSignal s n
    | .ds => dsEvent s (faultCode .ds 15 (n / 4) 0x0F) n 0 0 0 kSingle (wd n)

/-- The effect of an entry in its retire cycle. -/
def retireEffect (s : State) (d : Die) (x : InFl) (upset : Option Upset) : State :=
  let e := x.entry
  let op := e.opcode
  if op = oSAMPLE then retireSample s d x
  else if op = oREAD then retireRead s d x.lane e x.vals
  else if op = oRUN then retireRun s d e x.vals upset
  else if op = oLOAD then retireLoad s d e x.vals upset
  else if op = oSNAP then retireSnap s d e upset
  else if op = oCOMMIT then retireCommit s d e
  else if op = oSCAN then retireScan s d x
  else if op = oMARK then retireMark s d x
  else if op = oSIGNAL then retireSignal s d e
  else match e.dest with
    | some r =>
      let q : Rat := ((x.vals.getD 0 0 : Int) : Rat) / ((x.vals.getD 1 1 : Int) : Rat)
      writeRef s d x.lane r q (wi (x.vals.getD 2 0))
    | none => s

/-! ## Acceptance (R163, R166, R169) -/

/-- Latency of an entry from its acceptance. -/
def latency (s : State) (d : Die) (e : Entry) : Nat :=
  let op := e.opcode
  if op = oSAMPLE then (match d with | .ds => 36 | .cs => 100)
  else if op = oRUN then 12 * stagesOf (nth (s.engs d) (engOf e)).act + 2
  else if op = oLOAD then 8
  else if op = oWRITE then (if refSpace e.opb = 6 then 8 else 4)
  else if op = oBLEND then 3
  else if op = oSNAP then 16
  else if op = oMARK || op = oSIGNAL then 1
  else 2

/-- What an entry captures as its unit accepts it. -/
def captured (s : State) (d : Die) (l : Nat) (e : Entry) (codes : List (BitVec 16)) : List Int :=
  let op := e.opcode
  if op = oSAMPLE then (List.range 8).map fun a => (((codes.getD a 0).toNat % (match d with | .ds => 2 ^ 14 | .cs => 2 ^ 12) : Nat) : Int)
  else if op = oREAD then
    [(wat (nth (s.lh d).adc (readAdc e)) (readChan e)).toNat, ((nth (s.lh d).adcAt (readAdc e)).getD (readChan e) 0 : Nat)]
  else if op = oRUN then
    let k := engOf e
    let (h, lo) := satFlags s d k (nth (s.engs d) k).act
    (nth (s.engs d) k).inp.map (·.toInt) ++ [(b2n h : Int), (b2n lo : Int)]
  else if op = oLOAD then (setWords s d (engOf e) (e.opb % 8)).map (·.toInt)
  else if e.dest.isSome then
    let q := entryVal s d l e
    [q.num, q.den, (destAngle s d e).toNat]
  else []

/-- The unit is taken (R166, R201): ADCs until the SAMPLE retires, engines until the entry retires; the shadow of a merged
pair gets the sampled inputs (R217). -/
def takeUnit (s v : State) (d : Die) (e : Entry) : State :=
  let op := e.opcode
  if op = oSAMPLE then
    let busy (a t : Nat) : Nat := if (sampleAdcs d e).contains a then s.now + latency s d e else t
    let s := s.setLh d { s.lh d with adcFree := (s.lh d).adcFree.mapIdx busy }
    match d with | .ds => noteSample s e.opa | .cs => s
  else if op = oRUN || op = oLOAD || op = oSNAP then
    let k := engOf e
    let inp := (nth (v.engs d) k).inp
    let (h, lo) := satFlags s d k (nth (s.engs d) k).act
    (engSet s d k).foldl (fun s j => s.modEng d j fun x =>
      if op = oRUN then { x with busy := true, runT := count s d, inp := inp, sath := h, satl := lo }
      else { x with busy := true }) s
  else s

/-- What an entry accepted in this cycle reads: the state with every entry retired whose retire cycle has come (R169, R203). -/
def dueView (s : State) (d : Die) : Nat → State
  | 0 => s
  | n + 1 =>
    match nextRetire s d with
    | none => s
    | some x => if x.retireAt.getD 0 ≤ s.now then dueView (leaveWindow (retireEffect s d x none) d x) d n else s

/-- An entry accepted in this cycle. -/
def acceptNow (s : State) (d : Die) (x : InFl) (codes : List (BitVec 16)) : State :=
  let v := dueView s d (s.lh d).infl.length
  let y := { x with acceptAt := some s.now, retireAt := some (s.now + latency s d x.entry), vals := captured v d x.lane x.entry codes }
  let s1 := takeUnit s v d x.entry
  s1.setLh d { s1.lh d with infl := (s1.lh d).infl.map fun z => if z.seqn = x.seqn then y else z }

/-- Whether two entries need a common unit. -/
def sameUnit (s : State) (d : Die) (a b : Entry) : Bool :=
  let isEng (e : Entry) : Bool := e.opcode == oRUN || e.opcode == oLOAD || e.opcode == oSNAP
  if a.opcode = oSAMPLE && b.opcode = oSAMPLE then (sampleAdcs d a).any fun k => (sampleAdcs d b).contains k
  else if isEng a && isEng b then (engSet s d (engOf a)).any fun k => (engSet s d (engOf b)).contains k
  else false

/-- The cycle at which an entry that waits can be accepted: in issue order for its unit, once that is free (R166); a
restore holds both engines to its last cycle (R221). -/
def acceptTime (s : State) (d : Die) (x : InFl) : Option Nat :=
  let e := x.entry
  if (s.lh d).infl.any (fun z => z.acceptAt.isNone && z.seqn < x.seqn && sameUnit s d z.entry e) then none
  else if e.opcode = oSAMPLE then
    some ((sampleAdcs d e).foldl (fun t a => max t ((s.lh d).adcFree.getD a 0)) s.now)
  else
    let k := engOf e
    let p := nth (s.pairs d) (k / 2)
    if !engUsable s d k || p.restoring || (engSet s d k).any (fun j => (nth (s.engs d) j).busy) then none
    else some (if p.restoreAt ≠ 0 then max s.now (p.restoreAt + 1) else s.now)

/-- Whether an entry is accepted by a unit that may be busy. -/
def Entry.needsUnit (e : Entry) : Bool :=
  e.opcode == oSAMPLE || e.opcode == oRUN || e.opcode == oLOAD || e.opcode == oSNAP

/-! ## The window (R150) -/

/-- Whether a slot of the window is free for a lane. -/
def slotFree (s : State) (d : Die) (l : Nat) : Bool :=
  let (own, shared) := match d with | .ds => (16, 64) | .cs => (8, 16)
  let n (k : Nat) : Nat := ((s.lh d).infl.filter (·.lane == k)).length
  n l < own || ((List.range (laneCount d)).foldl (fun a k => a + (n k - own)) 0) < shared

/-- Whether ORD, a FENCE or the window holds the next entry of a lane. -/
def blocked (s : State) (d : Die) (l : Nat) (e : Entry) : Bool :=
  let mine := (s.lh d).infl.filter (·.lane == l)
  let locs := entryReads s d e ++ entryWrites s d e
  (e.ord && mine.length ≠ 0) || !slotFree s d l ||
    mine.any fun f => f.entry.opcode == oFENCE &&
      (f.entry.fn == 0 || (f.entry.fn == 2 && e.isOut) ||
        (f.entry.fn == 1 && (awaited s d l 1 f.seqn).any fun x => (entryWrites s d x.entry).any fun w => locs.contains w))

/-! ## Issue (R149 to R157, R167, R177, R187) -/

/-- Whether an entry names an engine, or an engine input, that may not be used (R167, R187). -/
def engRefBad (s : State) (d : Die) (e : Entry) : Bool :=
  let op := e.opcode
  let names := op == oRUN || op == oLOAD || op == oWRITE || op == oSNAP
  (names && !engUsable s d (engOf e)) ||
    (match e.dest with
      | some r => refSpace r == 1 && (let k := refIndex r / 8 % 16; k % 2 == 1 && twin s d (k / 2))
      | none => false)

/-- The issued entry goes into the window: accepted at once where its unit is free or it needs none, a FENCE until what
it waits for has retired. -/
def enterWindow (s : State) (d : Die) (l : Nat) (x : InFl) (codes : List (BitVec 16)) : State :=
  let e := x.entry
  let s1 := s.setLh d { s.lh d with infl := (s.lh d).infl ++ [x] }
  let s1 := s1.modLane d l fun z => { z with predSeq := some x.seqn }
  if e.opcode = oFENCE then s1
  else if !e.needsUnit || acceptTime s1 d x = some s1.now then acceptNow s1 d x codes
  else s1

/-- The lane after it issued its next entry in a cycle, triggered at t. -/
def Lane.issued (ln : Lane) (cnt t c : Nat) (swept : Bool) : Lane :=
  let last := cnt ≤ ln.ptr + 1
  { ln with
    ptr := if last then 0 else ln.ptr + 1
    watch := if last then t + 1 else t
    trig := none, fresh := false, wrapDone := false, swept := swept
    passAt := if ln.ptr = 0 then c else ln.passAt
    passes := if last then ln.passes + 1 else ln.passes
    predIssue := c, predSeq := none, predRetire := c
    issueCyc := c, issueN := if ln.issueCyc = c then ln.issueN + 1 else 1 }

/-- The next entry of a lane issues: lateness, the page boundaries that have come, the check of the entry, its engine, and
then its unit. -/
def issueAt (s : State) (d : Die) (l t : Nat) (codes : List (BitVec 16)) : State :=
  let ln := nth (s.lh d).lanes l
  let e := nextEntry s d l
  let room := fun (c : Nat) => if ln.issueCyc = c && 4 ≤ ln.issueN then c + 1 else c
  let earliest := room (max t ln.predIssue)
  let c := room (max earliest s.now)
  let width := decide (c ≤ earliest) && (decide (ln.predIssue ≤ t) || ln.swept)
  let late := c - t - 1
  let det := laneDetail late ln.page ln.ptr
  let s := s.advanceTo c
  let s := if late = 0 then s
    else if width && e.mode = 0 && 2 ^ 20 < stepSize s d e.beam t then
      s.modLane d l fun x => { x with levt := orBit x.levt 17 }
    else overrun s d l det
  let s := lanesDue s d
  let q := (s.lh d).seqn
  let s := s.modLane d l fun x => x.issued (pageCount s d l ln.page) t c width
  let s := s.setLh d { s.lh d with seqn := q + 1, hwm := max (s.lh d).hwm ((s.lh d).infl.length + 1) }
  let det0 := laneDetail 0 ln.page ln.ptr
  if !e.chkOk then laneEvent s d l 2 det0
  else if engRefBad s d e then laneEvent s d l 3 det0
  else if e.opcode = oNOP || (e.opcode = oFENCE && (awaited s d l e.fn q).length = 0) then s
  else enterWindow s d l
    { seqn := q, lane := l, page := ln.page, idx := ln.ptr, w := [e.w0, e.w1, e.w2, e.w3], issueAt := c
      acceptAt := none, retireAt := none, vals := [] } codes

/-- A lane issues its next entry as one of a row, where it is such an entry, triggered and not held back. -/
def issueEntry (d : Die) (l op fn : Nat) (codes : List (BitVec 16)) (s : State) : State :=
  let ln := nth (s.lh d).lanes l
  let e := nextEntry s d l
  if !(ln.run && l < laneCount d && !ln.drain && !ln.merging && e.isRow op fn) || blocked s d l e then s
  else match laneTrigger s d l with
    | none => s
    | some t => issueAt s d l t codes

/-- The waiting entry that is accepted next: the earliest, of several the first issued. -/
def nextAccept (s : State) (d : Die) : Option (Nat × InFl) :=
  (s.lh d).infl.foldl (fun a x =>
    if x.acceptAt.isSome || !x.entry.needsUnit then a
    else match acceptTime s d x with
      | none => a
      | some t => match a with
        | some (u, y) => if t < u || (t = u && x.seqn < y.seqn) then some (t, x) else a
        | none => some (t, x)) none

end Sys2Proof.Machine
end

