-- ==== Sys2Proof/Machine/Feedback.lean ====
section
/-! DEFINITION. The meanings of the feedback rows (chapter 04). -/

namespace Sys2Proof.Machine

/-- Whether a channel works: it has a record and page 0 has started (R87, R94, R101). -/
def fbLive (s : State) (c : Nat) : Bool := fbOn s c && s.sys.ready

/-- A position count of an actuator's position channel restarts its stall time (R439). -/
def posCount (s : State) (c : Nat) : State :=
  { s with gact := s.gact.mapIdx fun a x => if (actDef s a).isSome && actPosCh s a == c then { x with posAt := s.now } else x }

/-! ## Encoders (R91 to R98) -/

/-- The count of a step from (A,B) to (A,B), each pair as 2A + B: +1 along 00, 01, 11, 10, −1 against it, 0 where both
changed or neither (R91). -/
def quadCount (old new : Nat) : Int :=
  let place (x : Nat) : Nat := [0, 1, 3, 2].getD x 0
  let k := (place new + 4 - place old) % 4
  if k = 1 then 1 else if k = 3 then -1 else 0

/-- One count: the counter wraps modulo 2^32, or in WRAP between 0 and CPT − 1 with PF_TURN (R94). -/
def encCount (s : State) (c : Nat) (n : Int) (f : Fb) : Fb :=
  if fld (fbCfg s c 2) 1 0 = 3 then
    let cpt := max 1 (fbCounts s c)
    if 0 < n then
      if f.pos.toNat + 1 = cpt then { f with pos := 0, turn := f.turn + 1 } else { f with pos := f.pos + 1 }
    else if f.pos = 0 then { f with pos := wd (cpt - 1), turn := f.turn - 1 } else { f with pos := f.pos - 1 }
  else { f with pos := f.pos + wi n }

/-- An index event in ALWAYS: load, HOMED, certain; PF_AUX takes the error of the count it replaced (R94, R96). -/
def indexAlways (s : State) (c : Nat) (counted : Word) (f : Fb) : Fb :=
  { f with pos := fbCfg s c 1, loadRef := fbCfg s c 1, ref := true, uncertain := false
           aux := wi (idxError counted (fbCfg s c 1) (fbCounts s c)) }

/-- A later index event in ONCE: the counter is checked, never corrected (R96). -/
def indexCheck (s : State) (c : Nat) : State :=
  let e := idxError (nth s.fb c).pos (fbCfg s c 1) (fbCounts s c)
  let s := s.modFb c fun f => { f with aux := wi e }
  if e.natAbs ≤ fld (fbCfg s c 2) 11 8 then s.modFb c fun f => { f with uncertain := false }
  else fbEvent s c 6 0 (wi e)

/-- Whether an accepted edge is an index event (R95): (A,B) enters ZGATE while Z is at its active level, Z resolved and
without wire-disagree. -/
def isIndex (s : State) (c new : Nat) (z : Bool) : Bool :=
  let f := nth s.fb c
  let cfg := fbCfg s c 2
  new == fld cfg 5 4 && z != bitOf cfg 6 && !f.unresLines.getLsbD 2 && !f.wdis.getLsbD 2 && fld cfg 1 0 ≤ 1

/-- An accepted edge of A or B (R91): a count, an index event, and the speed rules. -/
def encEdge (s : State) (c new : Nat) (n : Int) (z : Bool) : State :=
  let f := nth s.fb c
  let counted := (encCount s c n f).pos
  let idx := isIndex s c new z
  let mode := fld (fbCfg s c 2) 1 0
  let s1 :=
    if idx && mode = 0 then s.modFb c (indexAlways s c counted)
    else if idx && f.armed then
      s.modFb c fun f => { f with pos := fbCfg s c 1, loadRef := fbCfg s c 1, ref := true, armed := false }
    else
      let s := s.modFb c (encCount s c n)
      if idx then indexCheck s c else s
  fbSetAngle (speedEdge s1 c (edgeTime s c) n) c

/-- ENCODER_EDGE: an accepted A or B edge with the filtered levels after it (R89, R91, R92, R95, R98). -/
def execEncoderEdge (ch : Fin 4) (a b z : Bool) (s : State) : Host.Outcome State Fault Refusal :=
  .next (
    let c := 2 + ch.val
    let f := nth s.fb c
    let old := 2 * b2n (f.lines.getLsbD 0) + b2n (f.lines.getLsbD 1)
    let new := 2 * b2n a + b2n b
    let s := s.modFb c fun f => { f with lines := BitVec.ofNat 3 (b2n a + 2 * b2n b + 4 * b2n z) }
    if !fbLive s c || encBad f || old = new then s
    else
      let n0 := quadCount old new
      if n0 = 0 then
        let s := s.modFb c fun f => { f with uncertain := true, upset := true }
        staleCheck (fbEvent s c 5 0 f.pos)
      else
        let n := if bitOf (fbCfg s c 2) 7 then -n0 else n0
        staleCheck (posCount (encEdge s c new n z) c))

/-- WIRE_LEVEL_CHANGE: the two wires of a pair come to one level, or leave it; when a disagree of A or B clears, the speed
rules restart from UNKNOWN (R93). -/
def execWireLevelChange (ch : Fin 4) (line : Fin 3) (same level : Bool) (s : State) : Host.Outcome State Fault Refusal :=
  .next (
    let c := 2 + ch.val
    let bit : BitVec 3 := 1#3 <<< line.val
    if same then
      s.modFb c fun f =>
        { f with wdAct := f.wdAct ||| bit, wdSince := f.wdSince.set line.val s.now
                 wdLevel := if level then f.wdLevel ||| bit else f.wdLevel &&& ~~~bit }
    else
      let was := encBad { nth s.fb c with unresLines := 0 }
      let s := s.modFb c fun f => { f with wdAct := f.wdAct &&& ~~~bit, wdis := f.wdis &&& ~~~bit }
      if was && (nth s.fb c).wdis.toNat % 4 = 0 then
        staleCheck (s.modFb c fun f => { f with spstat := 4, speed := 0, hist := { lastAt := s.now } })
      else s)

/-- WIREDIS: wire-disagree has lasted longer than WDTIME: an event, PF_STAT.WDIS; on A or B the position is uncertain and
the speed status STALE (R93). -/
def execWiredis (ch : Fin 4) (line : Fin 3) (s : State) : Host.Outcome State Fault Refusal :=
  .next (
    let c := 2 + ch.val
    let f := nth s.fb c
    let bit : BitVec 3 := 1#3 <<< line.val
    if fbLive s c && f.wdAct.getLsbD line.val && !f.wdis.getLsbD line.val then
      let s := s.advanceTo (f.wdSince.getD line.val 0 + 40 * fld (fbCfg s c 2) 31 24 + 1)
      let s := s.modFb c fun f =>
        let f := { f with wdis := f.wdis ||| bit }
        if line.val < 2 then { f with uncertain := true, upset := true, spstat := 5 } else f
      staleCheck (fbEvent s c 4 line.val (if f.wdLevel.getLsbD line.val then 3 else 0))
    else s)

/-- ARM on an encoder by its index mode (R94). -/
def armFb (s : State) (c : Nat) (f : Fb) : Fb :=
  let f := { f with uncertain := encBad f, upset := f.wdis.toNat % 4 ≠ 0 }
  match fld (fbCfg s c 2) 1 0 with
  | 0 => { f with ref := false }
  | 1 => { f with ref := false, armed := true }
  | 2 => { f with pos := f.load, loadRef := f.load }
  | _ => { f with pos := wd (f.load.toNat % max 1 (fbCounts s c)) }

/-- ARM: a write of 1 to PF_CTRL.ARM (R94); the bit acts on encoder channels. -/
def execArm (ch : Fin 12) (s : State) : Host.Outcome State Fault Refusal :=
  .next (writeGate s .cs fun s =>
    let c := ch.val
    if 2 ≤ c && c ≤ 5 && fbOn s c then (staleCheck (fbSetAngle (s.modFb c (armFb s c)) c)).ok [] else s.ok [])

/-- RESYNC: a write of 1 to PF_CTRL.RESYNC returns a tooth-wheel channel to SEARCH (R105). -/
def execResync (ch : Fin 12) (s : State) : Host.Outcome State Fault Refusal :=
  .next (writeGate s .cs fun s =>
    let c := ch.val
    if (c = 6 || c = 7) && fbOn s c then
      (staleCheck (s.modFb c fun f => { f with ref := false, uncertain := true })).ok []
    else s.ok [])

/-- UNRES: inputs still UNRESOLVED 10 ms after page 0 or after each further 10 ms count one event each; a tooth input
counts none (R90). -/
def execUnres (ch : Fin 12) (s : State) : Host.Outcome State Fault Refusal :=
  .next (
    let c := ch.val
    let u := fbUnres s c
    if fbLive s c && c ≠ 6 && c ≠ 7 && u ≠ 0 then
      let due := (if (nth s.fb c).unresAt = 0 then s.t0.getD 0 else (nth s.fb c).unresAt) + 10 * msec
      let s := (s.advanceTo due).modFb c fun f => { f with unresAt := due }
      [0, 1, 2].foldl (fun s l => if hasBit u l then fbEvent s c 0x0C l (wd u) else s) s
    else s)

/-! ## Tooth wheels (R103 to R107) -/

/-- The direction of a tooth (R107): forward, by the direction input, or by the sign of another channel's speed. -/
def toothForward (s : State) (c : Nat) (dirLevel : Bool) : Bool :=
  match fld (fbCfg s c 0) 25 24 with
  | 1 => dirLevel == Config.toothHighForward
  | 2 => 0 ≤ (nth s.fb (fld (fbCfg s c 0) 31 28)).speed.toInt
  | _ => true

/-- A wrong or missing reference in SYNCED: TWSYNC with the index before the edge, and back to SEARCH (R105). -/
def toothLost (s : State) (c index : Nat) : State :=
  fbEvent (s.modFb c fun f => { f with ref := false, uncertain := true }) c 7 0 (wd index)

/-- What a tooth edge was found to be (R104): the interval it ends, whether that spans the gap, whether the edge is the
extra tooth. -/
structure ToothCase where
  t     : Nat
  gap   : Bool
  extra : Bool

/-- The ratio test of R104. -/
def toothCase (s : State) (c te : Nat) : ToothCase :=
  let x := (nth s.fb c).tooth
  let t := te - x.lastT
  let known := 2 ≤ x.edges && x.prevT ≠ 0
  let kind := fld (fbCfg s c 0) 16 16
  { t := t
    gap := known && kind == 0 && decide (fld (fbCfg s c 1) 31 24 * x.prevT ≤ 16 * t)
    extra := known && kind == 1 && !x.extra && decide (16 * t ≤ fld (fbCfg s c 1) 23 16 * x.prevT) }

/-- The index after one ordinary position. -/
def toothNext (teeth index : Nat) (fwd : Bool) : Nat := if fwd then (index + 1) % teeth else (index + teeth - 1) % teeth

/-- A tooth that counts `k` positions takes the index and goes through the speed rules (R99, R103, R106). -/
def toothCount (s : State) (c te k idx : Nat) (x : ToothCase) (fwd : Bool) : State :=
  let n : Int := if fwd then k else -(k : Int)
  let s := s.modFb c fun f =>
    { f with pos := f.pos + wi n, aux := wd idx
             tooth := { f.tooth with index := idx, prevT := if f.tooth.edges = 0 then 0 else x.t, lastT := te
                                     edges := min 2 (f.tooth.edges + 1), extra := false } }
  fbSetAngle (speedEdge s c te n) c

/-- TOOTH_EDGE: an accepted edge of the counted polarity (R103 to R107). -/
def execToothEdge (ch : Fin 2) (dirLevel : Bool) (s : State) : Host.Outcome State Fault Refusal :=
  .next (
    let c := 6 + ch.val
    let f := nth s.fb c
    if !fbLive s c || f.unresLines.getLsbD 0 then s
    else
      let te := edgeTime s c
      let teeth := max 1 (fbCounts s c)
      let gapm := fld (fbCfg s c 0) 21 20
      let fwd := toothForward s c dirLevel
      let x := toothCase s c te
      let idx := f.tooth.index
      let isGap := fld (fbCfg s c 0) 16 16 = 0
      let wrap := if fwd then (if isGap then teeth - gapm - 1 else teeth - 1) else 0
      let expected := f.ref && idx == wrap
      if x.extra then
        let s := s.modFb c fun f => { f with tooth := { f.tooth with extra := true } }
        if f.ref && !expected then staleCheck (toothLost s c idx)
        else if f.ref then s
        else
          let i := if fwd then teeth - 1 else 0
          staleCheck (fbSetAngle (s.modFb c fun f =>
            { f with ref := true, uncertain := false, aux := wd i, tooth := { f.tooth with index := i } }) c)
      else if x.gap then
        let s := if f.ref && !expected then toothLost s c idx
          else s.modFb c fun f => { f with ref := true, uncertain := false }
        staleCheck (posCount (toothCount s c te (gapm + 1) (if fwd then 0 else teeth - gapm - 1) x fwd) c)
      else
        let s := if expected && !f.tooth.extra then toothLost s c idx else s
        let i := if f.tooth.extra then (if fwd then 0 else teeth - 1) else toothNext teeth idx fwd
        staleCheck (posCount (toothCount s c te 1 i x fwd) c))

/-! ## Hall groups (R108) -/

/-- The sector of a code. -/
def hallSector (s : State) (c code : Nat) : Nat := fld (fbCfg s c 0) 23 0 / 2 ^ (3 * code) % 8

/-- A step of one sector counts one edge; two or three are a jump (R108). -/
def hallStep (s : State) (c sec : Nat) : State :=
  let f := nth s.fb c
  let d := (sec + 6 - f.sector) % 6
  if f.restart then s.modFb c fun f => { f with sector := sec, restart := false }
  else if d = 0 then s
  else if d = 1 || d = 5 then
    let n : Int := if d = 1 then 1 else -1
    let s := s.modFb c fun f => { f with sector := sec, pos := f.pos + wi n, uncertain := false }
    posCount (fbSetAngle (speedEdge s c (edgeTime s c) n) c) c
  else
    let s := s.modFb c fun f => { f with sector := sec, uncertain := true, spstat := 5 }
    fbEvent s c 0x0B 0 (wd (f.sector * 256 + sec))

/-- A hall group accepts a code (R108, R437, R438); each resolved line keeps its level while another is UNRESOLVED (R89). -/
def hallTake (s : State) (c code : Nat) : State :=
  let s := s.modFb c fun f =>
    { f with hallCode := code, lines := (f.lines &&& f.unresLines) ||| (BitVec.ofNat 3 code &&& ~~~f.unresLines) }
  if !fbLive s c || fbUnres s c ≠ 0 then s
  else
    let s :=
      if code = 0 || code = 7 then
        if (nth s.fb c).hallInv then s
        else fbEvent (s.modFb c fun f => { f with hallInv := true, uncertain := true, spstat := 5 }) c 0x0A 0 (wd code)
      else hallStep (s.modFb c fun f => { f with hallInv := false }) c (hallSector s c code)
    let s := s.modFb c fun f => { f with aux := wd (f.sector * 16 + code) }
    staleCheck (actHallStep s c)

/-- HALL_CODE_CHANGE: a hall group accepts a new code (R108, R437, R438). -/
def execHallCodeChange (g : Fin 2) (code : Fin 8) (s : State) : Host.Outcome State Fault Refusal :=
  .next (hallTake s (10 + g.val) code.val)

/-! ## Speed rules at rest and every microsecond (R100, R101, R116) -/

/-- Whether a channel measures speed from edges. -/
def fbEdges (c : Nat) : Bool := (2 ≤ c && c ≤ 7) || c == 10 || c == 11

/-- STANDSTILL: no edge has come for TSTILL (R101). -/
def execStandstill (ch : Fin 12) (s : State) : Host.Outcome State Fault Refusal :=
  .next (
    let c := ch.val
    let f := nth s.fb c
    if fbLive s c && fbEdges c && fbUnres s c = 0 && f.wdis = 0 && !f.hallInv && f.spstat ≠ 1 then
      let s := s.advanceTo (max f.hist.lastAt (s.t0.getD 0) + fbStill s c)
      staleCheck (s.modFb c fun f => { f with spstat := 1, speed := 0 })
    else s)

/-- A speed register held under the clamp of R100 while STALE (R101). -/
def staleSpeed (s : State) (c : Nat) : Word :=
  let v := (nth s.fb c).speed.toInt
  let dt := s.now - (nth s.fb c).hist.lastAt
  if dt = 0 then wi v
  else
    let m := (speedReg s c ((fbClampCount s c : Rat) * 400000000 / (dt : Rat))).toInt
    wi (if v < 0 then max v (-m) else min v m)

/-- The speed of an edge channel recomputed at a microsecond (R99, R100). -/
def tickSpeed (s : State) (c : Nat) : State :=
  let f := nth s.fb c
  if !fbEdges c then s
  else if f.spstat = 0 then
    let v := speedReg s c (speedClamp s c s.now (speedV s c s.now))
    s.modFb c fun f => { f with speed := v }
  else if f.spstat = 5 then
    let v := staleSpeed s c
    s.modFb c fun f => { f with speed := v }
  else s

/-- FEEDBACK_TICK: every microsecond each channel recomputes its speed and offers its quantities; SSI channels offer at
their frames (R100, R116). -/
def execFeedbackTick (s : State) : Host.Outcome State Fault Refusal :=
  .next (
    if s.sys.ready then
      let s := s.advanceTo ((if s.fbTick = 0 then s.t0.getD 0 else s.fbTick) + usec)
      let s := { s with fbTick := s.now }
      (List.range 12).foldl (fun s c =>
        if fbOn s c then
          let s := tickSpeed s c
          if c = 8 || c = 9 then s else fbOffer s c [0, 1, 2, 3, 4]
        else s) s
    else s)

/-! ## Resolvers (R109 to R112) -/

/-- π as a rational. -/
def piR : Rat := (piQ : Rat) / ((2 ^ 96 : Nat) : Rat)

/-- The frequency in Hz of a resolver channel's excitation: EXCFREQ, that of RES0 where RES1 shares it (R109). -/
def excFreq (s : State) (c : Nat) : Nat := fld (fbCfg s (if bitOf (fbCfg s c 0) 1 then 0 else c) 0) 31 16

/-- The demodulation phase after one microsecond: CFG1.PHASE, or with AUTOPHASE the measured phase approached by at most 1/4,096
turn per excitation period (R109); what is measured is a free value (assumption log 179). -/
def demodPhase (s : State) (c : Nat) (old : Nat) : Nat :=
  let turn : Nat := 65536 * 1000000
  if bitOf (fbCfg s c 0) 0 then
    let step : Int := 16 * excFreq s c
    let d : Int := ((s.free.toNat % 65536 * 1000000 : Nat) - (old : Int) + turn / 2) % (turn : Int) - turn / 2
    (((old : Int) + clampI (-step) step d) % (turn : Int)).toNat
  else fld (fbCfg s c 1) 31 16 * 1000000

/-- One step of the tracking loop (R110). -/
def resolverLoop (s : State) (c : Nat) (sn cs : Int) (x : Resolver) : Resolver :=
  let bwn : Rat := (fld (fbCfg s c 1) 15 0 : Nat)
  let a := sqrtR ((sn * sn + cs * cs : Int) : Rat)
  let e := quo 110 ((sn : Rat) * cosR (x.th * 2 ^ 32) - (cs : Rat) * sinR (x.th * 2 ^ 32)) (2 * piR * a)
  let ki := (2 * piR * bwn) * (2 * piR * bwn)
  let kp := (1414 : Rat) / 1000 * 2 * piR * bwn
  let lim : Int := 2500 * (2 ^ 32 : Nat)
  let om := clampI (-lim) lim (x.omega + rndAway (ki * e / 1000000 * ((2 ^ 32 : Nat) : Rat)))
  let dth := rndAway (((om : Rat) + kp * e * ((2 ^ 32 : Nat) : Rat)) / 1000000)
  { x with e := rndAway (e * ((2 ^ 64 : Nat) : Rat)), omega := om
           th := (((x.th : Int) + dth) % (2 ^ 32 : Nat)).toNat }

/-- The amplitude ratio of R111 in 1/1,024, saturated to 16 bits. -/
def ampRatio (s : State) (c : Nat) (sn cs : Int) : Nat :=
  let nom : Int := fld (fbCfg s c 2) 15 0
  (clampI 0 65535 (rndAway (quo 111 (1024 * ((sn * sn + cs * cs : Int) : Rat)) ((nom * nom : Int) : Rat)))).toNat

/-- How far the excitation feedback is from its start-up calibration. -/
def excOff (x : Resolver) (amp : BitVec 16) : Nat := ((amp.toNat : Int) - x.excCal.toNat).natAbs

/-- That deviation in %, saturated to the byte DETAIL gives it (R117). -/
def excPercent (x : Resolver) (amp : BitVec 16) : Nat :=
  (clampI 0 255 (rndAway (quo 111 ((100 * excOff x amp : Nat) : Rat) (x.excCal.toNat : Rat)))).toNat

/-- The excitation condition (R111): the amplitude off its calibration by more than EXCTOL %, or no feedback period for two
excitation periods. -/
def excBad (s : State) (c : Nat) (x : Resolver) (amp : BitVec 16) : Bool :=
  decide (fld (fbCfg s c 3) 7 0 * x.excCal.toNat < 100 * excOff x amp)
    || decide (2 * 400000000 < (s.now - max x.excSeenAt (s.t0.getD 0)) * excFreq s c)

/-- The registers after one step of the loop and one evaluation of the conditions (R110 to R112). -/
def resolverStep (s : State) (c : Nat) (sn cs : Int) (excAmp : BitVec 16) (f : Fb) : Fb :=
  let x := resolverLoop s c sn cs f.res
  let ratio : Rat := quo 111 ((sn * sn + cs * cs : Int) : Rat) (((fld (fbCfg s c 2) 15 0 : Nat) * (fld (fbCfg s c 2) 15 0 : Nat) : Nat) : Rat)
  let inWin := decide (((fld (fbCfg s c 2) 31 24 : Nat) : Rat) / 64 ≤ ratio) && decide (ratio ≤ ((fld (fbCfg s c 2) 23 16 : Nat) : Rat) / 64)
  let run := if inWin then 0 else x.ampRun + 1
  let amp := if inWin then false else (f.amp || decide (fld (fbCfg s c 3) 31 16 < run))
  let exc := excBad s c x excAmp
  let lot := decide (fld (fbCfg s c 4) 15 0 * 2 ^ 48 < x.e.natAbs) || decide (x.omega.natAbs = 2500 * 2 ^ 32)
  let lock := if x.e.natAbs < fld (fbCfg s c 4) 15 0 * 2 ^ 46 then min 1000 (x.lockRun + 1) else 0
  let ref := f.ref || lock == 1000
  let bad := amp || exc || lot
  { f with
    amp := amp, exc := exc, lot := lot, ref := ref
    uncertain := !ref || bad
    spstat := if !ref then 4 else if bad then 5 else 0
    angle := wd x.th
    speed := wi (satS 32 (shrHalfAway x.omega 24))
    dirNeg := if x.omega = 0 then f.dirNeg else decide (x.omega < 0)
    aux := wd (x.th / 2 ^ 16 * 65536 + ampRatio s c sn cs)
    tstamp := countAt s .cs s.now - wd (Config.resolverDelay % 640)
    hist := { f.hist with lastAt := s.now }
    res := { x with aSum := x.aSum + ampRatio s c sn cs, aN := x.aN + 1, ampRun := run, ampSeen := x.ampSeen || inWin, lockRun := lock
                    ampCnt := x.ampCnt && amp, excCnt := x.excCnt && exc, lotCnt := x.lotCnt && lot } }

/-- The events of R111, once per episode and none before SETTLE (R112). -/
def resolverEvents (s : State) (c : Nat) (excAmp : BitVec 16) : State :=
  if s.now < s.t0.getD 0 + fld (fbCfg s c 5) 9 0 * msec then s
  else
    let f := nth s.fb c
    let s := if f.amp && !f.res.ampCnt then
        (fbEvent s c 1 0 (wd (fld f.aux 15 0))).modFb c fun f => { f with res := { f.res with ampCnt := true } } else s
    let s := if f.exc && !f.res.excCnt then
        (fbEvent s c 2 0 (wd (excPercent f.res excAmp))).modFb c fun f => { f with res := { f.res with excCnt := true } } else s
    if f.lot && !f.res.lotCnt then
      (fbEvent s c 3 0 (wi (satS 32 (shrHalfAway f.res.e 32)))).modFb c fun f => { f with res := { f.res with lotCnt := true } }
    else s

/-- RESOLVER_UPDATE: one sample pair every microsecond, demodulated at the phase in force, with the amplitude of the excitation
feedback and whether a feedback period ended (R109 to R112, assumption log 179). -/
def execResolverUpdate (ch : Fin 2) (sinD cosD excAmp : BitVec 16) (excSeen : Bool) (s : State) :
    Host.Outcome State Fault Refusal :=
  .next (
    let c := ch.val
    if fbLive s c then
      let s := s.advanceTo ((if (nth s.fb c).hist.lastAt = 0 then s.t0.getD 0 else (nth s.fb c).hist.lastAt) + usec)
      let s := (if bitOf (fbCfg s c 0) 0 then s.useFree else s).modFb c fun f =>
        { f with res := { f.res with phase := demodPhase s c f.res.phase, excSeenAt := if excSeen then s.now else f.res.excSeenAt } }
      let s := s.modFb c (resolverStep s c sinD.toInt cosD.toInt excAmp)
      staleCheck (resolverEvents s c excAmp)
    else s)

/-! ## SSI sensors (R113 to R115) -/

/-- Cycles of one SSI clock period (R113). -/
def ssiClk (s : State) (c : Nat) : Nat := 2 * (fld (fbCfg s c 1) 15 0 + 1)

/-- SSI_REQUEST: at each request period a frame starts, or is skipped with SSIIDLE; none while the data input is
unresolved (R89, R113). -/
def execSsiRequest (ch : Fin 2) (dataHigh : Bool) (s : State) : Host.Outcome State Fault Refusal :=
  .next (
    let c := 8 + ch.val
    let x := (nth s.fb c).ssi
    if fbLive s c then
      let s := s.advanceTo ((if x.reqAt = 0 then s.t0.getD 0 else x.reqAt) + 4 * fld (fbCfg s c 3) 23 0)
      let s := s.modFb c fun f => { f with ssi := { f.ssi with reqAt := s.now } }
      if fbUnres s c ≠ 0 then s
      else if !dataHigh || (x.clkAt ≠ 0 && s.now < x.clkAt + fld (fbCfg s c 1) 31 24 * usec) then fbEvent s c 9 0 0
      else s.modFb c fun f =>
        { f with ssi := { f.ssi with busy := true
                                     clkAt := s.now + fld (fbCfg s c 0) 6 0 * ssiClk s c + ssiClk s c / 2 } }
    else s)

/-- A number of bits, the first the most significant. -/
def bitsVal (bs : List Bool) : Nat := bs.foldl (fun a b => 2 * a + b2n b) 0

/-- CRC-6 with polynomial x^6 + x + 1 over bits, first received first (R114). -/
def crc6 (init : Nat) (bs : List Bool) : Nat :=
  bs.foldl (fun r b =>
    let top := hasBit r 5 != b
    let r := r * 2 % 64
    if top then Nat.xor r 3 else r) init

/-- The received and the computed check of a frame (R114). -/
def ssiCheck (s : State) (c : Nat) (bs : List Bool) : Nat × Nat :=
  let cfg := fbCfg s c 2
  let first := fld cfg 13 8
  match fld cfg 1 0 with
  | 1 => (b2n (bs.getD first false), ((bs.take first).filter id).length % 2)
  | 2 =>
    let r := bitsVal ((bs.drop first).take 6)
    (if bitOf cfg 16 then 63 - r else r, crc6 (fld cfg 29 24) (bs.take first))
  | _ => (0, 0)

/-- Gray code to binary. -/
def unGray (n : Nat) : List Bool → List Bool
  | [] => []
  | b :: bs => let v := (n == 1) != b; v :: unGray (b2n v) bs

/-- The position field of a frame (R115). -/
def ssiField (s : State) (c : Nat) (bs : List Bool) : Nat :=
  let cfg := fbCfg s c 0
  let f := (bs.drop (fld cfg 13 8)).take (fld cfg 29 24 + fld cfg 21 16)
  bitsVal (if bitOf cfg 30 then unGray 0 f else f)

/-- The registers after an admitted frame whose instant was at cycle t (R115); PF_TURN is signed (R120). -/
def ssiAdmit (s : State) (c t : Nat) (bs : List Bool) (f : Fb) : Fb :=
  let cfg := fbCfg s c 0
  let st := fld cfg 21 16
  let bits := fld cfg 29 24 + st
  let v := ssiField s c bs
  let d : Int := match f.ssi.field with
    | some p => sx bits ((((v : Int) - p.toNat) % (2 ^ bits : Nat)).toNat)
    | none => 0
  let sp : Int := satS 32 (rndAway (quo 115 ((d : Rat) * 256 * 400000000) (((t - f.ssi.fieldAt : Nat) : Rat) * ((2 ^ st : Nat) : Rat))))
  let frames := min 2 (f.ssi.frames + 1)
  let filt := if f.ssi.frames < 1 then 0 else if f.ssi.frames = 1 then sp
    else f.ssi.filt + (sp - f.ssi.filt) / (2 ^ fld (fbCfg s c 6) 3 0 : Nat)
  { f with
    pos := wd v, angle := wd (v % 2 ^ st * 2 ^ (32 - st)), turn := wi (if fld cfg 29 24 = 0 then 0 else sx (fld cfg 29 24) (v / 2 ^ st))
    speed := if frames < 2 then 0 else wi filt
    spstat := if frames < 2 then 4 else 0
    uncertain := false, chkFail := false
    dirNeg := if d = 0 then f.dirNeg else decide (d < 0)
    aux := wd (bitsVal bs)
    tstamp := countAt s .cs t - wi (divHalfAway (2 * (fld (fbCfg s c 4) 31 16 : Nat)) 5)
    ssi := { f.ssi with busy := false, field := some (wd v), fieldAt := t, frames := frames, filt := filt } }

/-- SSI_FRAME_COMPLETE: a frame is in; it is admitted, or discarded with SSICHK (R113 to R116). -/
def execSsiFrameComplete (ch : Fin 2) (bits : List Bool) (s : State) : Host.Outcome State Fault Refusal :=
  .next (
    let c := 8 + ch.val
    let x := (nth s.fb c).ssi
    if fbLive s c && x.busy then
      let s := s.advanceTo (x.clkAt + fld (fbCfg s c 4) 7 0)
      let bs := (List.range (fld (fbCfg s c 0) 6 0)).map fun i => bits.getD i false
      let (r, k) := ssiCheck s c bs
      if r = k then
        let s := s.modFb c (ssiAdmit s c x.reqAt bs)
        staleCheck (fbOffer s c [0, 1, 2, 3, 4])
      else
        let s := s.modFb c fun f => { f with chkFail := true, spstat := 5, ssi := { f.ssi with busy := false } }
        let s := fbEvent s c 8 0 (wd (r * 256 + k))
        staleCheck (fbOffer s c [3])
    else s)

end Sys2Proof.Machine
end

