-- ==== Sys2Proof/Machine/Lanes.lean ====
section
/-! DEFINITION. The meanings of the Light List entries (R163 to R172, R183), of acceptance and of retirement. A row of an
entry has its lane issue the next entry of its page, if that is such an entry and its trigger and ordering let it. -/

namespace Sys2Proof.Machine

/-- NOP issues and retires with no effect (R163). -/
def execNop (die : Die) (lane : Fin 4) (s : State) : Host.Outcome State Fault Refusal :=
  .next (issueEntry die lane.val oNOP 0 [] s)

/-- SAMPLE: the named ADCs sample in the acceptance cycle (R163, R166). -/
def execSample (die : Die) (lane : Fin 4) (codes : List (BitVec 16)) (s : State) : Host.Outcome State Fault Refusal :=
  .next (issueEntry die lane.val oSAMPLE 0 codes s)

/-- READ: an ADC result to its buoy and engine inputs (R163, R164). -/
def execRead (die : Die) (lane : Fin 4) (s : State) : Host.Outcome State Fault Refusal :=
  .next (issueEntry die lane.val oREAD 0 [] s)

/-- MOVE: OPB to OPA (R163, R164). -/
def execMove (die : Die) (lane : Fin 4) (s : State) : Host.Outcome State Fault Refusal :=
  .next (issueEntry die lane.val oMOVE 0 [] s)

/-- RUN: one evaluation of an engine or pair (R163, R196). -/
def execRun (die : Die) (lane : Fin 4) (s : State) : Host.Outcome State Fault Refusal :=
  .next (issueEntry die lane.val oRUN 0 [] s)

/-- LOAD: a parameter set into the active copy (R163, R189). -/
def execLoad (die : Die) (lane : Fin 4) (s : State) : Host.Outcome State Fault Refusal :=
  .next (issueEntry die lane.val oLOAD 0 [] s)

/-- WRITE: an output latch to OPB (R163, R164). -/
def execWrite (die : Die) (lane : Fin 4) (s : State) : Host.Outcome State Fault Refusal :=
  .next (issueEntry die lane.val oWRITE 0 [] s)

/-- BLEND RAMP (R165). -/
def execBlendRamp (die : Die) (lane : Fin 4) (s : State) : Host.Outcome State Fault Refusal :=
  .next (issueEntry die lane.val oBLEND 0 [] s)

/-- BLEND MIX (R165). -/
def execBlendMix (die : Die) (lane : Fin 4) (s : State) : Host.Outcome State Fault Refusal :=
  .next (issueEntry die lane.val oBLEND 1 [] s)

/-- LIMIT RANGE (R165). -/
def execLimitRange (die : Die) (lane : Fin 4) (s : State) : Host.Outcome State Fault Refusal :=
  .next (issueEntry die lane.val oLIMIT 0 [] s)

/-- LIMIT SYM (R165). -/
def execLimitSym (die : Die) (lane : Fin 4) (s : State) : Host.Outcome State Fault Refusal :=
  .next (issueEntry die lane.val oLIMIT 1 [] s)

/-- COMMIT: pending on the named members of a carrier group (R163, R249). -/
def execCommit (die : Die) (lane : Fin 4) (s : State) : Host.Outcome State Fault Refusal :=
  .next (issueEntry die lane.val oCOMMIT 0 [] s)

/-- SCAN: a check-value channel starts (R168). -/
def execScan (die : Die) (lane : Fin 4) (s : State) : Host.Outcome State Fault Refusal :=
  .next (issueEntry die lane.val oSCAN 0 [] s)

/-- SNAP: a checkpoint (R223). -/
def execSnap (die : Die) (lane : Fin 4) (s : State) : Host.Outcome State Fault Refusal :=
  .next (issueEntry die lane.val oSNAP 0 [] s)

/-- FENCE ALL (R171). -/
def execFenceAll (die : Die) (lane : Fin 4) (s : State) : Host.Outcome State Fault Refusal :=
  .next (issueEntry die lane.val oFENCE 0 [] s)

/-- FENCE DATA (R171). -/
def execFenceData (die : Die) (lane : Fin 4) (s : State) : Host.Outcome State Fault Refusal :=
  .next (issueEntry die lane.val oFENCE 1 [] s)

/-- FENCE OUT (R171). -/
def execFenceOut (die : Die) (lane : Fin 4) (s : State) : Host.Outcome State Fault Refusal :=
  .next (issueEntry die lane.val oFENCE 2 [] s)

/-- MARK: a trace record (R183). -/
def execMark (die : Die) (lane : Fin 4) (s : State) : Host.Outcome State Fault Refusal :=
  .next (issueEntry die lane.val oMARK 0 [] s)

/-- SIGNAL to the Keeper (R183). -/
def execSignalKeeper (die : Die) (lane : Fin 4) (s : State) : Host.Outcome State Fault Refusal :=
  .next (issueEntry die lane.val oSIGNAL 0 [] s)

/-- SIGNAL to the Watch Room (R183). -/
def execSignalWatchRoom (die : Die) (lane : Fin 4) (s : State) : Host.Outcome State Fault Refusal :=
  .next (issueEntry die lane.val oSIGNAL 1 [] s)

/-- ENTRY_ACCEPT: a waiting entry is accepted once its unit is free (R166), after the page boundaries that have come (R177). -/
def execEntryAccept (die : Die) (codes : List (BitVec 16)) (s : State) : Host.Outcome State Fault Refusal :=
  .next (match nextAccept s die with
    | none => s
    | some (t, x) => acceptNow (lanesDue (s.advanceTo t) die) die x codes)

/-- ENTRY_RETIRE: the next entry in flight retires and its writes become visible (R169 to R171). -/
def execEntryRetire (die : Die) (upset : Option Upset) (s : State) : Host.Outcome State Fault Refusal :=
  .next (match nextRetire s die with
    | none => s
    | some x => leaveWindow (retireEffect (lanesDue (s.advanceTo (x.retireAt.getD 0)) die) die x upset) die x)

end Sys2Proof.Machine
end

