-- ==== Sys2Proof/Machine/Swaps.lean ====
section
/-! DEFINITION. Page swaps, draining, split and merge, debug halts, and the trace buffer (R174 to R179, R184, R221, R227 to
R231). -/

namespace Sys2Proof.Machine

/-! ## Requests (R174, R179) -/

/-- The refusal of a Keeper request: 0 none, 1 NOPAGE, 2 ACTIVE, 3 LOADING, 4 PRIO. A page being staged is LOADING whether or not
it has had content before (R63, R174). -/
def swapRefusal (s : State) (d : Die) (l p : Nat) : Nat :=
  let ln := nth (s.lh d).lanes l
  if pageLoading s d l p then 3
  else if !hasContent s d l p then 1
  else if ln.run && ln.page = p then 2
  else if ln.prio || (match ln.held with | some r => decide (2 ≤ r.rank) | none => false) then 4
  else 0

/-- A Keeper request: held, or refused with LASTREF. -/
def lhRequest (s : State) (d : Die) (l p : Nat) : State :=
  if laneCount d ≤ l then s.answer 1 0 []
  else
    let c := swapRefusal s d l p
    if c = 0 then
      (s.modLane d l fun x => { x with held := some ⟨1, p, s.now, none⟩, lastRef := 0 }).ok []
    else (s.modLane d l fun x => { x with lastRef := c }).refuse c

/-- LH_SWAP_REQUEST: a write of LH_SWAP with CANCEL 0 (R174). -/
def execLhSwapRequest (die : Die) (lane : Fin 4) (page : Fin 16) (s : State) : Host.Outcome State Fault Refusal :=
  .next (writeGate s die fun s => lhRequest s die lane page)

/-- A Keeper request is withdrawn, unless the crossing comes in this cycle: then the swap takes place and LASTREF reads
SWAPPED (R179). -/
def lhCancel (s : State) (d : Die) (l : Nat) : State :=
  if laneCount d ≤ l then s.answer 1 0 []
  else
    let ln := nth (s.lh d).lanes l
    match ln.held with
    | some r =>
      if r.rank = 1 then
        if ln.run && swapCycle s d l = some s.now then (s.modLane d l fun x => { x with lastRef := 5 }).ok []
        else (s.modLane d l fun x => { x with held := none }).ok []
      else s.ok []
    | none => s.ok []

/-- LH_SWAP_CANCEL: a write of LH_SWAP with CANCEL 1 (R179). -/
def execLhSwapCancel (die : Die) (lane : Fin 4) (s : State) : Host.Outcome State Fault Refusal :=
  .next (writeGate s die fun s => lhCancel s die lane)

/-! ## Draining, split and merge (R178, R227 to R230) -/

/-- The pairs of a mask. -/
def maskPairs (d : Die) (mask : Nat) : List Nat := (List.range (pairCount d)).filter (hasBit mask)

/-- Whether an entry in flight of the lane names an engine of the draining pairs, or a restore of one runs. -/
def drainWaits (s : State) (d : Die) (l : Nat) : Bool :=
  let mask := (nth (s.lh d).lanes l).drainPairs.toNat
  ((s.lh d).infl.any fun x => x.lane == l && namesPair x.entry mask)
    || (maskPairs d mask).any fun p => (nth (s.pairs d) p).restoring

/-- Entry 0 watches from a cycle, and a request held through the drain waits for a crossing from then on. -/
def Lane.watchFrom (ln : Lane) (t : Nat) : Lane :=
  { ln with watch := t, held := ln.held.map fun r => { r with at_ := max r.at_ (t - 1), trig := none } }

/-- The drain ends at d: the pairs split, or their merge copy runs in d to d + 31. -/
def drainEnd (s : State) (d : Die) (l : Nat) : State :=
  let ln := nth (s.lh d).lanes l
  let t := ln.drainAt
  let ps := (maskPairs d ln.drainPairs.toNat).filter fun p => (nth (s.pairs d) p).mode != 7
  if ln.drainMerge then
    let s := ps.foldl (fun s p => s.modPair d p fun x => { x with mode := 2 }) s
    s.modLane d l fun x => { x.watchFrom (t + 32) with drain := false, merging := ps ≠ [], mergeAt := t }
  else
    (ps.foldl (fun s p => splitPair s d p) s).modLane d l fun x => { x.watchFrom (t + 1) with drain := false }

/-- The new page of a lane becomes active at the swap cycle (R176). -/
def Lane.swapTo (ln : Lane) (r : SwapReq) (cnt : Word) (t : Nat) : Lane :=
  { ln with page := r.page, prev := ln.page, ptr := 0, watch := t + 1, trig := none, fresh := true, swept := true
            swTime := cnt, passes := 0, held := none, react := r.rank, prio := decide (2 ≤ r.rank), lastRef := 5 }

/-- A swap at the cycle now: staged blocks and re-plans take effect, the page becomes active, SPLIT and MERGE drain (R176
to R178, R463). -/
def swapNow (s : State) (d : Die) (l : Nat) (r : SwapReq) : State :=
  let s := stagedBoundary s d l
  let s := match d with | .ds => lampCommit s | .cs => s
  let s := s.modLane d l fun ln => ln.swapTo r (count s d) s.now
  match pageHdr s d l r.page with
  | none => s
  | some h =>
    if fld h.w0 1 0 = 0 then s
    else
      let s := s.modLane d l fun ln =>
        { ln with drain := true, drainPairs := BitVec.ofNat 8 (fld h.w2 7 0), drainMerge := bitOf h.w0 1, drainAt := s.now }
      if drainWaits s d l then s else drainEnd s d l

/-- PAGE_SWAP: SWBEAM crosses SWANGLE, so the held page becomes active (R175 to R178); a request held while an earlier swap
drains waits for a crossing after it (R179). -/
def execPageSwap (die : Die) (lane : Fin 4) (s : State) : Host.Outcome State Fault Refusal :=
  .next (
    let ln := nth (s.lh die).lanes lane
    match ln.held, swapCycle s die lane with
    | some r, some t => if !ln.run || ln.drain || ln.merging then s else swapNow (s.advanceTo t) die lane r
    | _, _ => s)

/-- DRAIN_COMPLETE: the last entry in flight that names a draining pair has retired (R178). -/
def execDrainComplete (die : Die) (lane : Fin 4) (s : State) : Host.Outcome State Fault Refusal :=
  .next (
    let ln := nth (s.lh die).lanes lane
    if !ln.drain || drainWaits s die lane then s else drainEnd (s.advanceTo ln.drainAt) die lane)

/-- The copy of one pair ends with its compare (R229): merged, or MERGEFAIL and BROKEN; BROKEN by a debug halt only where the compare
itself passed (R232). -/
def mergeEnd (s : State) (d : Die) (p : Nat) (upset : Option Upset) : State :=
  let s := copyTwin s d p
  let x := nth (s.pairs d) p
  let halt := x.haltE || x.haltO
  let word := pairDiff s d p upset
  if word.isNone && !halt then
    s.modPair d p fun x => { x with mode := 0, apart := false, dbgBroken := false }
  else
    let s := match word with | some w => misEvent s d p (misDetail 5 w x.holdCnt (!ckptUsable s d (2 * p))) | none => s
    let s := s.modPair d p fun x => { x with mode := 3, apart := true, dbgBroken := halt && word.isNone }
    pairFixed s d p 4 (wd (word.getD 0 * 65536 + b2n halt))

/-- MERGE_COPY_COMPLETE: cycle d + 31 of the merge copy of a pair (R229). -/
def execMergeCopyComplete (die : Die) (lane : Fin 4) (pair : Fin 8) (upset : Option Upset) (s : State) :
    Host.Outcome State Fault Refusal :=
  .next (
    let ln := nth (s.lh die).lanes lane
    if !ln.merging || !hasBit ln.drainPairs.toNat pair || (nth (s.pairs die) pair).mode ≠ 2 then s
    else
      let s := mergeEnd (s.advanceTo (ln.mergeAt + 31)) die pair upset
      let more := (maskPairs die ln.drainPairs.toNat).any fun p => (nth (s.pairs die) p).mode == 2
      s.modLane die lane fun x => { x with merging := more })

/-- A draining lane notes the last cycle of a restore of one of its pairs (R230). -/
def Lane.noteRestore (ln : Lane) (p t : Nat) : Lane :=
  if ln.drain && hasBit ln.drainPairs.toNat p then { ln with drainAt := max ln.drainAt t } else ln

/-- RESTORE_COMPLETE: the last cycle of a restore (R221, R230): the checkpoint as it was judged at the start, the staged block that
is due, the reload of the active copy from it, the compare. -/
def execRestoreComplete (die : Die) (pair : Fin 8) (upset : Option Upset) (s : State) : Host.Outcome State Fault Refusal :=
  .next (
    let x := nth (s.pairs die) pair
    if !x.restoring then s
    else
      let s := s.advanceTo x.restoreAt
      let usable := ckptUsable s die (2 * pair.val)
      let s := stagedDue (s.modPair die pair fun y => { y with restoring := false }) die pair
      let s := restorePair s die pair usable
      let s := match pairDiff s die pair upset with
        | some w => if x.mode = 0 then mismatch s die pair 4 w (!usable) else s
        | none => s
      s.setLh die { s.lh die with lanes := (s.lh die).lanes.map fun ln => ln.noteRestore pair s.now })

/-! ## Debug halt (R231) -/

/-- A write of LE_PDBG: a set bit requests a halt, a clear one ends it. -/
def pdbgWrite (s : State) (d : Die) (p : Nat) (v : Word) : State :=
  if pairCount d ≤ p then s.answer 1 0 []
  else
    (s.modPair d p fun x =>
      { x with dbg := v &&& 3, haltE := x.haltE && bitOf v 0, haltO := x.haltO && bitOf v 1 }).ok []

/-- LE_PDBG_WRITE (R231, R236). -/
def execLePdbgWrite (die : Die) (pair : Fin 8) (value : Word) (s : State) : Host.Outcome State Fault Refusal :=
  .next (writeGate s die fun s => pdbgWrite s die pair value)

/-- ENGINE_HALT: a requested halt takes effect once the engine is free; on a merged pair it breaks lockstep (R231). -/
def execEngineHalt (die : Die) (engine : Fin 16) (s : State) : Host.Outcome State Fault Refusal :=
  .next (
    let e := engine.val
    let p := e / 2
    let x := nth (s.pairs die) p
    if engCount die ≤ e || !bitOf x.dbg (e % 2) || engHalted s die e || (nth (s.engs die) e).busy || x.mode = 2 then s
    else
      let s := s.modPair die p fun y => if e % 2 = 0 then { y with haltE := true } else { y with haltO := true }
      if x.mode = 0 then
        let s := s.modPair die p fun y => { y with mode := 3, dbgBroken := true }
        let y := nth (s.pairs die) p
        pairFixed s die p 5 (wd (atBit y.haltO 1 + b2n y.haltE))
      else s)

/-! ## The trace buffer (R184) -/

/-- LH_TRCLO read: the oldest record's low word; its high word is latched. An empty buffer reads 0. -/
def trcLow (s : State) (d : Die) : State × Word :=
  match (s.lh d).trace with
  | r :: _ => (s.setLh d { s.lh d with trcHi := wd (r.toNat / 2 ^ 32) }, wd r.toNat)
  | [] => (s, 0)

/-- LH_TRCHI read: the latched high word; the oldest record goes. -/
def trcHigh (s : State) (d : Die) : State × Word :=
  (s.setLh d { s.lh d with trace := (s.lh d).trace.tail }, (s.lh d).trcHi)

/-- TRACE_READ_LOW (R184). -/
def execTraceReadLow (die : Die) (s : State) : Host.Outcome State Fault Refusal :=
  .next (regGate s die fun s => let (s, w) := trcLow s die; s.ok [w])

/-- TRACE_READ_HIGH (R184). -/
def execTraceReadHigh (die : Die) (s : State) : Host.Outcome State Fault Refusal :=
  .next (regGate s die fun s => let (s, w) := trcHigh s die; s.ok [w])

end Sys2Proof.Machine
end

