-- ==== Sys2Proof/Machine/RegCore.lean ====
section
/-! DEFINITION. Register maps: how an offset in a window names a block and a register in it, and the buoy, feedback and beam
registers (R84, R85, R120, R146, R147, R572). A map answers no word where no register stands; a write map answers nothing
where none stands or the register is read-only (R35). -/

namespace Sys2Proof.Machine

/-- What a register write does: the state, and status and UCODE of its answer (R505, R506). -/
abbrev Written := State × Nat × Nat

/-- A write that is served. -/
def served (s : State) : Option Written := some (s, 0, 0)

/-- The block an offset lies in and the offset in it: `n` blocks of `size` bytes from `base`. -/
def inBlock (off base size n : Nat) : Option (Nat × Nat) :=
  if base ≤ off && off < base + size * n then some ((off - base) / size, (off - base) % size) else none

/-- A mask: bit i where a property holds, for i below n. -/
def maskOf (n : Nat) (p : Nat → Bool) : Nat := (List.range n).foldl (fun a i => a + atBit (p i) i) 0

/-- A word of a mask. -/
def maskWord (n : Nat) (p : Nat → Bool) : Word := wd (maskOf n p)

/-- The highest count and whether any is declared, over counters. -/
def maxCount (s : State) (ks : List CtrKey) : Nat := ks.foldl (fun a k => max a (wcount s k)) 0
def anyDeclared (s : State) (ks : List CtrKey) : Bool := ks.any (isDeclared s ·)

/-- WCOUNT in [31:24] and DECLARED in [23], as most status words hold them. -/
def countBits (s : State) (ks : List CtrKey) : Nat := maxCount s ks * 2 ^ 24 + atBit (anyDeclared s ks) 23

/-! ## Buoys (R85, R572) -/

/-- STATE as BY_STAT shows it: a DS-home buoy shows the CS die's view (R572). -/
def byShown (s : State) (n : Nat) : Nat :=
  let b := nth s.buoys n
  if !byOn s n then 3
  else match byHome s n with
    | .cs => b.state
    | .ds => if b.rdecl then 2 else if b.mstale || !byMirror s n then 1 else 0

/-- BY_VALUE: the output committed at the end of the previous cycle (R76). -/
def byValueReg (s : State) (n : Nat) : Word :=
  if !byOn s n then 0
  else match byHome s n with
    | .cs => committed s n
    | .ds => if byMirror s n then (nth s.buoys n).mval else 0

/-- BY_STAT. -/
def byStatReg (s : State) (n : Nat) : Word :=
  let b := nth s.buoys n
  if !byOn s n then 0x0C
  else
    let scale := fld (wi (byScale s n)) 7 0 * 65536
    match byHome s n with
    | .cs =>
      wd (wcount s (byKey s n) * 2 ^ 24 + scale + b.lastViol * 256 + atBit (isDeclared s (byKey s n)) 7
        + atBit (subActive s n) 5 + atBit (byMirror s n && b.mstale) 4 + byShown s n * 4)
    | .ds =>
      wd (b.rwcount * 2 ^ 24 + scale + b.rviol * 256 + atBit b.rdecl 7 + atBit (byMirror s n && b.mstale) 4 + byShown s n * 4)

/-- The BY_ window. -/
def byRegs (s : State) (off : Nat) : Option Word :=
  let ns := List.range 512
  if off = 0 then
    some (wd ((ns.filter fun n => byOn s n && byMirror s n).length * 65536 + (ns.filter (byOn s ·)).length))
  else if off = 4 then some (wd (ns.filter fun n => byShown s n == 2).length)
  else match inBlock off 0x10 4 16 with
    | some (k, _) => some (maskWord 32 fun b => byShown s (32 * k + b) == 2)
    | none => match inBlock off 0x50 4 16 with
      | some (k, _) => some (maskWord 32 fun b => byShown s (32 * k + b) == 1)
      | none => match inBlock off 0x1000 16 512 with
        | some (n, 0) => some (byValueReg s n)
        | some (n, 4) => some (byStatReg s n)
        | some _ => some 0
        | none => none

/-- Writes of the BY_ window: the mantissa is held, the exponent offers the value; a buoy that takes no host value refuses
it (R71). -/
def byWrites (s : State) (off : Nat) (v : Word) : Option Written :=
  match inBlock off 0x1000 16 512 with
  | some (n, 8) => served (s.modBuoy n fun b => { b with wmant := v })
  | some (n, 12) =>
    if byOn s n && pathOk s n .host then
      served (offer s n (nth s.buoys n).wmant.toInt (sx 8 (fld v 7 0)))
    else some (s, 4, 0x10)
  | _ => none

/-! ## Feedback (R120) -/

/-- The PF_ window below the beam registers. -/
def fbRegs (s : State) (off : Nat) : Option Word :=
  if off = 0 then some (maskWord 12 (fbOn s ·))
  else if off = 4 then some (maskWord 12 fun c => (nth s.fb c).evt != 0)
  else match inBlock off 0x1000 0x100 12 with
    | none => none
    | some (c, o) =>
      let f := nth s.fb c
      if o < 0x20 then some (fbCfg s c (o / 4))
      else match o with
        | 0x20 => some 0
        | 0x24 => some (fbStat s c)
        | 0x28 => some f.evt
        | 0x2C => some f.pos
        | 0x30 => some f.angle
        | 0x34 => some f.speed
        | 0x38 => some f.tstamp
        | 0x3C => some f.aux
        | 0x40 => some f.load
        | 0x44 => some f.turn
        | _ => none

/-- ARM and RESYNC: a 1 acts, a 0 has no effect (R94, R105). -/
def fbControl (s : State) (c : Nat) (v : Word) : State :=
  let s1 := if bitOf v 0 && 2 ≤ c && c ≤ 5 && fbOn s c then staleCheck (fbSetAngle (s.modFb c (armFb s c)) c) else s
  if bitOf v 1 && (c = 6 || c = 7) && fbOn s1 c then
    staleCheck (s1.modFb c fun f => { f with ref := false, uncertain := true })
  else s1

/-- Writes of the PF_ window below the beam registers. -/
def fbWrites (s : State) (off : Nat) (v : Word) : Option Written :=
  match inBlock off 0x1000 0x100 12 with
  | some (c, 0x20) => served (fbControl s c v)
  | some (c, 0x28) => served (s.modFb c fun f => { f with evt := w1c f.evt v })
  | some (c, 0x40) => served (s.modFb c fun f => { f with load := v })
  | _ => none

/-! ## Beams (R146, R147) -/

/-- The anchor a beam's phase rests on; of a directly computed beam the one its home die holds (R573). -/
def anchorShown (s : State) (d : Die) (b : Nat) : Anchor := if bmOn s b then (nth (s.beams d) b).a else {}

/-- The counters of a beam on a die. -/
def bmKeys (d : Die) (b : Nat) : List CtrKey := (List.range 16).map fun c => ⟨d, 12, b, 0, b, c⟩

/-- The beam registers of a die's window, as the cycle before left them (R137). -/
def bmRegs (s0 : State) (d : Die) (off : Nat) : Option Word :=
  let s := beamsCommitted s0 d
  if off = 0x8000 then
    some (wd (maskOf 8 (fun b => bmOn s b && bmHome s b == .ds) * 65536
      + maskOf 8 (fun b => bmOn s b && beamStale s d b) * 256 + maskOf 8 (bmOn s ·)))
  else if d == .cs && off = 0x8010 then some (wi s.mains.e &&& 0xFFFF)
  else if d == .cs && off = 0x8014 then some (wi s.mains.fdev &&& 0xFFFF)
  else if d == .cs && off = 0x8018 then some s.mains.amp
  else if d == .cs && off = 0x801C then some (wd (atBit s.mains.locked 1 + atBit s.mains.form 0))
  else match inBlock off 0x8100 0x40 8 with
    | none => none
    | some (b, o) =>
      let m := nth (s.beams d) b
      if o < 0x1C then (if d == .cs then some (bmW s b (o / 4)) else none)
      else match o with
        | 0x1C => some (beamPhase s d b ((s.now : Int) - 1))
        | 0x20 => some m.latSpeed
        | 0x24 => some m.latCyc
        | 0x28 => some m.latRdt
        | 0x2C => some (anchorShown s d b).p0
        | 0x30 => some (anchorShown s d b).t0
        | 0x34 => some m.evt
        | 0x38 => some (wd ((m.supplier.getD 0) * 65536 + atBit (anyDeclared s (bmKeys d b)) 8 + maxCount s (bmKeys d b)))
        | _ => none

/-- A read of BMPHASE latches the others (R146). -/
def bmReads (s : State) (d : Die) (off : Nat) : State :=
  match inBlock off 0x8100 0x40 8 with
  | some (b, 0x1C) => bmLatch s d b
  | _ => s

/-- Writes of the beam registers. -/
def bmWrites (s : State) (d : Die) (off : Nat) (v : Word) : Option Written :=
  match inBlock off 0x8100 0x40 8 with
  | some (b, 0x34) => served (s.modBeam d b fun m => { m with evt := w1c m.evt v })
  | _ => none

end Sys2Proof.Machine
end

