-- ==== Sys2Proof/Machine/RegLh.lean ====
section
/-! DEFINITION. The Lighthouse, engine and pair registers (R184, R185, R213, R214, R236, R237). -/

namespace Sys2Proof.Machine

/-! ## Lighthouse (R184, R185) -/

/-- The counters of a lane. -/
def laneKeys (d : Die) (l : Nat) : List CtrKey := (List.range 8).map fun c => ⟨d, 2, l, 0, l, c⟩

/-- LH_LSTAT. -/
def lstat (s : State) (d : Die) (l : Nat) : Word :=
  let x := nth (s.lh d).lanes l
  wd (wcount s ⟨d, 2, l, 0, l, 1⟩ * 2 ^ 24 + atBit (anyDeclared s (laneKeys d l)) 23 + x.page * 65536
    + min 127 ((s.lh d).infl.filter fun e => e.lane == l).length * 256 + atBit (2 ≤ x.react) 4 + atBit x.merging 3
    + atBit x.drain 2 + atBit x.held.isSome 1 + atBit x.run 0)

/-- LH_SWSTAT. -/
def swstat (s : State) (d : Die) (l : Nat) : Word :=
  let x := nth (s.lh d).lanes l
  let (pg, rank) := match x.held with | some r => (r.page, r.rank) | none => (0, 0)
  wd (x.lastRef * 2 ^ 24 + pg * 65536 + rank * 4096 + x.prev * 256)

/-- The Lighthouse registers. -/
def lhRegs (s : State) (d : Die) (off : Nat) : Option Word :=
  let h := s.lh d
  match off with
  | 0x0000 => some (wd (maskOf (laneCount d) (fun l => (pageDef s d l 0).isSome) * 65536 + min 255 h.hwm))
  | 0x0004 => some (wd h.infl.length)
  | 0x0010 => some (wd (atBit h.lost 8 + h.trace.length))
  | 0x0014 => some (match h.trace with | r :: _ => wd r.toNat | [] => 0)
  | 0x0018 => some h.trcHi
  | 0x0020 => some h.sig0
  | 0x0024 => some h.sig1
  | 0x0030 => some h.p0time
  | _ =>
    match inBlock off 0x0100 0x40 (laneCount d) with
    | some (l, o) =>
      let x := nth h.lanes l
      match o with
      | 0x00 => some (lstat s d l)
      | 0x04 => some x.levt
      | 0x08 => some 0
      | 0x0C => some (swstat s d l)
      | 0x10 => some x.swTime
      | 0x14 => some x.passes
      | 0x18 => some (wd (x.ptr * 65536 + (if x.run then pageCount s d l x.page else 0)))
      | 0x1C => some x.ovrCnt
      | 0x20 => some x.ovrLast
      | 0x24 => some (wd x.ovrMax.toNat)
      | _ => none
    | none =>
      match inBlock off 0x1000 0x100 (laneCount d) with
      | some (l, o) =>
        if 0x80 ≤ o then none
        else
          let r := (nth h.lanes l).lv.getD (o / 8) (0, 0)
          if o % 8 = 0 then some r.1 else some (wd r.2.toNat)
      | none => none

/-- What a read of a Lighthouse register does beside (R184). -/
def lhReads (s : State) (d : Die) (off : Nat) : State :=
  if off = 0x0014 then (trcLow s d).1 else if off = 0x0018 then (trcHigh s d).1 else s

/-- Writes of the Lighthouse registers; a swap request is answered with the codes of LASTREF (R184). -/
def lhWrites (s : State) (d : Die) (off : Nat) (v : Word) : Option Written :=
  if off = 0x0020 then served (s.setLh d { s.lh d with sig0 := w1c (s.lh d).sig0 v })
  else if off = 0x0024 then served (s.setLh d { s.lh d with sig1 := w1c (s.lh d).sig1 v })
  else match inBlock off 0x0100 0x40 (laneCount d) with
    | some (l, 0x04) => served (s.modLane d l fun x => { x with levt := w1c x.levt v })
    | some (l, 0x08) =>
      let s' := if bitOf v 31 then lhCancel s d l else lhRequest s d l (fld v 3 0)
      some (s', s'.acc.status, s'.acc.ucode)
    | _ => none

/-! ## Engines (R213, R214) -/

/-- Whether the running image has a parameter block for an engine. -/
def hasBlock (s : State) (d : Die) (e : Nat) : Bool :=
  (match d with | .cs => s.csLoaded | .ds => s.dsLoaded) && s.img.engines.contains (d, e)

/-- LE_STAT. -/
def leStat (s : State) (d : Die) (e : Nat) : Word :=
  let x := nth (s.engs d) e
  let p := nth (s.pairs d) (e / 2)
  wd (countBits s [⟨d, 3, e, 0, e, 1⟩, ⟨d, 3, e, 0, e, 2⟩] + x.actSet % 8 * 2 ^ 20
    + (if s.runs d then stagesOf x.act * 65536 else 0) + atBit (bitOf (wat x.act 0) 31) 11 + atBit x.initPend 10
    + atBit (x.settle != 0) 9 + atBit x.istopped 8 + atBit x.osath 7 + atBit x.osatl 6 + atBit x.sath 5 + atBit x.satl 4
    + atBit x.busy 3 + atBit x.staged.isSome 2 + atBit (p.mode != 7 && !p.disabled) 0)

/-- The engine registers. -/
def leRegs (s : State) (d : Die) (off : Nat) : Option Word :=
  let n := engCount d
  match off with
  | 0x0000 => some (maskWord n (hasBlock s d ·))
  | 0x0004 => some (maskWord n fun e => (nth (s.engs d) e).evt != 0)
  | 0x0008 => some (match d with | .ds => 0x0F | .cs => 0)
  | _ =>
    match inBlock off 0x0100 0x40 n with
    | some (e, o) =>
      let x := nth (s.engs d) e
      match o with
      | 0x00 => some (leStat s d e)
      | 0x04 => some x.evt
      | 0x08 => some x.latch
      | 0x0C => some x.resid
      | 0x10 => some (wi (satS 32 (rescale (wat x.st 1).toInt (bexpOf x 1) (iexp s d e 1))))
      | 0x14 => some (wd (ofLe x.bexp))
      | 0x18 => some x.runCnt
      | 0x1C => some x.runT
      | _ => some (x.inp.getD ((o - 0x20) / 4) 0)
    | none =>
      match inBlock off 0x2000 0x80 n with
      | some (e, o) => some ((nth (s.engs d) e).st.getD (o / 4) 0)
      | none => none

/-- The pair registers (R236, R237). -/
def pairStat (s : State) (d : Die) (p : Nat) : Word :=
  let x := nth (s.pairs d) p
  wd (wcount s ⟨d, 24, p, 0, 2 * p, 1⟩ * 2 ^ 24
    + atBit (anyDeclared s ((List.range 8).map fun c => ⟨d, 24, p, 0, 2 * p, c⟩)) 23 + min 255 x.holdCnt * 256
    + atBit (pairSafe s d p) 7 + atBit x.haltO 6 + atBit x.haltE 5 + atBit x.isRecover 4 + atBit x.disabled 3 + x.mode)

/-- The map of the pair registers. -/
def pairRegs (s : State) (d : Die) (off : Nat) : Option Word :=
  let n := pairCount d
  match off with
  | 0x4000 => some (wd (maskOf n (pairSafe s d ·) * 65536 + maskOf n (fun p => (nth (s.pairs d) p).disabled) * 256
      + maskOf n (fun p => (pairRec s d p).isSome)))
  | 0x4004 => some (wd (maskOf n (fun p => (nth (s.pairs d) p).mode == 3) * 65536
      + maskOf n (fun p => (nth (s.pairs d) p).mode == 1) * 256 + maskOf n (fun p => (nth (s.pairs d) p).isRecover)))
  | _ =>
    match inBlock off 0x4100 0x20 n with
    | some (p, o) =>
      let x := nth (s.pairs d) p
      match o with
      | 0x00 => some (pairStat s d p)
      | 0x04 => some x.evt
      | 0x08 => some x.misCnt
      | 0x0C => some x.misLast
      | 0x10 => some (wd (min 65535 (nth (s.engs d) (2 * p)).cpAge * 65536 + min 65535 (nth (s.engs d) (2 * p + 1)).cpAge))
      | 0x14 => some (wd (atBit x.injDone 31 + x.injMask.toNat))
      | 0x18 => some x.dbg
      | _ => none
    | none => none

/-- Writes of the engine and pair registers. -/
def leWrites (s : State) (d : Die) (off : Nat) (v : Word) : Option Written :=
  match inBlock off 0x0100 0x40 (engCount d) with
  | some (e, 0x04) => served (s.modEng d e fun x => { x with evt := w1c x.evt v })
  | _ =>
    match inBlock off 0x4100 0x20 (pairCount d) with
    | some (p, 0x04) => served (s.modPair d p fun x => { x with evt := w1c x.evt v })
    | some (p, 0x18) => served (pdbgWrite s d p v)
    | _ => none

end Sys2Proof.Machine
end

