-- ==== Sys2Proof/Machine/RegPwm.lean ====
section
/-! DEFINITION. The PWM and waveform registers (R270 to R272, R308 to R310). -/

namespace Sys2Proof.Machine

/-! ## PWM (R270 to R272) -/

/-- The window counters of a group and of a channel. -/
def grpKeys (d : Die) (g : Nat) : List CtrKey := [⟨d, 4, g, 1, g, 1⟩, ⟨d, 4, g, 1, g, 3⟩]
def chanKey (d : Die) (c : Nat) : CtrKey := ⟨d, 4, instOf (match d with | .ds => 47 | .cs => 15) c, 0, c, 2⟩

/-- GSTAT. -/
def gstat (s : State) (d : Die) (g : Nat) : Word :=
  let x := nth (s.pwm d).grps g
  let pend := (members s d g).foldl (fun a c =>
    if (nth (s.pwm d).chans c).commit then Nat.lor a (2 ^ memberNo s d c) else a) 0
  wd (countBits s (grpKeys d g) + pend * 256 + atBit x.persh.wr 7 + atBit x.unlock 6 + atBit x.held 5 + atBit x.run 0)

/-- CSTAT. -/
def cstat (s : State) (d : Die) (c : Nat) : Word :=
  let x := chanNow s d c
  let m := chanMode s d c
  if (chanRec s d c).isNone then 0
  else
    wd (countBits s [chanKey d c] + memberNo s d c * 65536 + x.ovr * 16384 + atBit x.intOff 13 + atBit x.relWait 12
      + atBit x.active 10 + atBit x.commit 9 + atBit x.dbsh.wr 8 + atBit x.dash.wr 7 + atBit x.phssh.wr 6
      + atBit (x.hiAt (now16 s)) 5 + atBit (x.loAt m (now16 s)) 4)

/-- A duty in force, rescaled for the period that runs (R246). -/
def dutyNow (s : State) (d : Die) (c base : Nat) : Nat :=
  let g := chanGrp s d c
  scaledDuty s d g base (nth (s.pwm d).grps g).per

/-- The PWM window of a die. -/
def pwmRegs (s : State) (d : Die) (off : Nat) : Option Word :=
  let ng := grpCount d
  let nc := chanCount d
  let chan (p : Nat → Bool) (lo : Nat) : Option Word := some (maskWord 32 fun i => lo + i < nc && p (lo + i))
  match off with
  | 0x0000 => some (maskWord ng fun g => (grpRec s d g).isSome)
  | 0x0004 => some (maskWord ng fun g =>
      (nth (s.pwm d).grps g).evt != 0 || (members s d g).any fun c => (nth (s.pwm d).chans c).evt != 0)
  | 0x0008 => chan (fun c => (chanRec s d c).isSome) 0
  | 0x000C => chan (fun c => (chanRec s d c).isSome) 32
  | 0x0010 => chan (fun c => (nth (s.pwm d).chans c).ovr != 0) 0
  | 0x0014 => chan (fun c => (nth (s.pwm d).chans c).ovr != 0) 32
  | _ =>
    match inBlock off 0x0100 0x40 ng with
    | some (g, o) =>
      let x := nth (s.pwm d).grps g
      if o < 0x1C then some (grpW s d g (o / 4))
      else match o with
        | 0x1C => some (gstat s d g)
        | 0x20 => some x.evt
        | 0x24 => some (wd x.per)
        | 0x28 => some x.persh.val
        | 0x2C => some (wd x.k)
        | 0x30 => some x.bt
        | 0x34 => some (wd x.lfsr.toNat)
        | 0x38 => some x.splCnt
        | _ => none
    | none =>
      match inBlock off 0x1000 0x40 nc with
      | some (c, o) =>
        let x := chanNow s d c
        if o < 0x10 then some (chanW s d c (o / 4))
        else match o with
          | 0x10 => some (cstat s d c)
          | 0x14 => some x.evt
          | 0x18 => some (wd (dutyNow s d c x.da))
          | 0x1C => some x.dash.val
          | 0x20 => some (wd (dutyNow s d c x.db))
          | 0x24 => some x.dbsh.val
          | 0x28 => some (wd (fld x.phssh.val 15 0 * 65536 + x.phs % 65536))
          | 0x2C => some (wd (x.dtr * 65536 + x.dtf))
          | 0x30 => some (wd (x.minp * 65536 + (x.trim % 65536).toNat))
          | 0x34 => some (wd x.carryH)
          | 0x38 => some (wd x.carryL)
          | 0x3C => some x.intCnt
          | _ => none
      | none => none

/-- Writes of the PWM window: events only. -/
def pwmWrites (s : State) (d : Die) (off : Nat) (v : Word) : Option Written :=
  match inBlock off 0x0100 0x40 (grpCount d) with
  | some (g, 0x20) => served (s.modGrp d g fun x => { x with evt := w1c x.evt v })
  | _ =>
    match inBlock off 0x1000 0x40 (chanCount d) with
    | some (c, 0x14) => served (s.modChan d c fun x => { x with evt := w1c x.evt v })
    | _ => none

/-! ## Traction waveform unit (R308 to R310) -/

/-- WF_MSTAT. -/
def mstat (s : State) (m : Nat) : Word :=
  let x := nth s.mach m
  let k := nth s.candle m
  if !machOn s m then 0x70000
  else
    wd (countBits s ((List.range 16).map fun c => ⟨.ds, 7, m, 0, 0, c⟩) + atBit (posValid s m) 22 + atBit (fm s m).isSome 21
      + atBit k.caught 20 + atBit k.catching 19 + k.pattern * 65536 + atBit x.subAct 15 + atBit x.degraded 14
      + x.openPh.toNat * 256 + atBit x.satAH 7 + atBit x.satAL 6 + atBit x.satQH 5 + atBit x.satQL 4 + atBit x.satDH 3
      + atBit x.satDL 2 + x.mode)

/-- WF_LSTAT. -/
def legStat (s : State) (c : Nat) : Word :=
  if !isLeg s c then 4
  else
    let x := nth s.legs c
    wd (legPhase s c * 65536 + legPos s c * 4096 + legSlot s c * 256 + atBit x.chopped 3 + atBit x.float 2 + atBit x.rsel 1
      + atBit (legH s c) 0)

/-- The WF_ window. -/
def wfRegs (s : State) (off : Nat) : Option Word :=
  if off = 0 then some (wd (maskOf 2 (fun m => (nth s.mach m).mode != 0) * 65536 + maskOf 2 (machOn s ·)))
  else if off = 4 then some (maskWord 2 fun m => (nth s.mach m).evt != 0)
  else match inBlock off 0x0100 0x100 2 with
    | some (m, o) =>
      let x := nth s.mach m
      if o < 0x40 then some (wfW s m (o / 4))
      else match o with
        | 0x40 => some (mstat s m)
        | 0x44 => some x.evt
        | 0x48 => some (if machOn s m then wi (fugReg s m) else 0)
        | 0x4C => some (if machOn s m then wi ((fm s m).getD 0) else 0)
        | 0x50 => some (wi (nth s.candle m).cspd)
        | 0x54 => some (if machOn s m && s.sys.dsReady then wd (tlf s m) else 0)
        | 0x58 => some (wd (min 65535 (subTime s m / msec)))
        | 0x5C => some (wi x.pbres)
        | 0x60 => some x.vdl
        | 0x64 => some x.vql
        | _ => none
    | none =>
      match inBlock off 0x1000 0x10 48 with
      | some (c, 0x0) => some (legStat s c)
      | some (c, 0x4) => some (wd (dutyNow s .ds c (nth s.legs c).comp))
      | some (c, 0x8) => some (nth s.legs c).edgT
      | _ => none

/-- Writes of the WF_ window: events only. -/
def wfWrites (s : State) (off : Nat) (v : Word) : Option Written :=
  match inBlock off 0x0100 0x100 2 with
  | some (m, 0x44) => served (s.modMach m fun x => { x with evt := w1c x.evt v })
  | _ => none

end Sys2Proof.Machine
end

