-- ==== Sys2Proof/Machine/ImageForm.lean ====
section
/-! DEFINITION. The form of an image (R41 to R48, R51, R53, R55): its header, sections and records, the boot area, and the
checks of orders 1 to 5 of R56 with their DETAILs (R571, R378). -/

namespace Sys2Proof.Machine

/-! ## Boot area (R40, R53, R55) -/

/-- The words of a copy of the boot area have been written anew: whether every one holds what was written when it is read back
(R39). -/
def copyTakes (s : State) (k : Nat) : Bool := !s.nv.worn.any (inCopy k)

/-- The stored code of the words of a copy is good again. -/
def copyFresh (k : Nat) (v : Nv) : Nv := { v with flips := v.flips.filter fun f => !inCopy k f.1 }

/-- The key table written: one copy after the other with the next generation; a copy that does not read back has a bad CRC and
ends the write with NVWRITE (R39, R40). -/
def keysWrite (s : State) (keys : List KeyEntry) : State × Bool :=
  let c : KeyCopy := { gen := (keysNow s).gen + 1, crcOk := true, keys := keys }
  if !copyTakes s 0 then (nvEvent { s with nv := { s.nv with keysA := { c with crcOk := false } } } 3 1 1, false)
  else
    let s := { s with nv := copyFresh 0 { s.nv with keysA := c } }
    if !copyTakes s 1 then (nvEvent { s with nv := { s.nv with keysB := { c with crcOk := false } } } 3 1 1, false)
    else ({ s with nv := copyFresh 1 { s.nv with keysB := c } }, true)

/-- The boot record written in the same way. -/
def recWrite (s : State) (boot : Boot) : State × Bool :=
  let c : BootCopy := { gen := (recNow s).gen + 1, crcOk := true, boot := boot }
  if !copyTakes s 2 then (nvEvent { s with nv := { s.nv with bootA := { c with crcOk := false } } } 3 1 1, false)
  else
    let s := { s with nv := copyFresh 2 { s.nv with bootA := c } }
    if !copyTakes s 3 then (nvEvent { s with nv := { s.nv with bootB := { c with crcOk := false } } } 3 1 1, false)
    else ({ s with nv := copyFresh 3 { s.nv with bootB := c } }, true)

/-- A change of the boot area: the key table, then the boot record, each where it changes; while VCS_NV is out of range the write
fails (R40, R532). -/
def bootWrite (s : State) (f : BootArea → BootArea) : State × Bool :=
  if !s.sup.csOk.getLsbD 2 then (nvEvent s 3 1 1, false)
  else
    let b := bootNow s
    let c := f b
    let (s, ok) := if c.keys = b.keys then (s, true) else keysWrite s c.keys
    if !ok || c.boot = b.boot then (s, ok) else recWrite s c.boot

/-- A change of the boot record. -/
def bootSet (s : State) (f : Boot → Boot) : State × Bool := bootWrite s fun c => { c with boot := f c.boot }

/-- Whether an entry of the key table is ACTIVE and holds a role: bit 0 IMAGE, 1 SAFETY, 2 STAGE (R53). -/
def keyHas (s : State) (n role : Nat) : Bool :=
  let k := nth (bootNow s).keys n
  n < 4 && k.state == 1 && k.roles.getLsbD role

/-- Whether a signature over a message verifies with an entry's key (R43). -/
def keySigned (s : State) (n : Nat) (msg sig : List Byte) : Bool := ecdsaVerify (nth (bootNow s).keys n).xy msg sig

/-! ## Image bytes -/

/-- n bytes of an image from an offset, as a number. -/
def imN (b : List Byte) (off n : Nat) : Nat := ofLe ((b.drop off).take n)

/-- Consecutive words. -/
def imWords (b : List Byte) (off n : Nat) : List Word := wordsOf n (b.drop off)

/-- One entry of the section table (R42). -/
structure Sect where
  ty  : Nat
  idx : Nat
  off : Nat
  len : Nat
  crc : Nat
deriving DecidableEq, Repr, Inhabited

def nSect (b : List Byte) : Nat := imN b 24 2
def imLen (b : List Byte) : Nat := imN b 12 4

/-- The section table. -/
def sects (b : List Byte) : List Sect :=
  (List.range (nSect b)).map fun i =>
    let a := 64 + 16 * i
    ⟨imN b a 2, imN b (a + 2) 2, imN b (a + 4) 4, imN b (a + 8) 4, imN b (a + 12) 4⟩

/-- The bytes of a section. -/
def sectBytes (b : List Byte) (x : Sect) : List Byte := (b.drop x.off).take x.len

/-- A section by type. -/
def sectOf (b : List Byte) (ty : Nat) : Option Sect := (sects b).find? fun x => x.ty == ty

/-! ## Orders 1 to 4 (R56) -/

/-- The first place of a list that holds. -/
def firstBad {α : Type} (l : List α) (p : Nat → α → Bool) : Option Nat :=
  (l.zipIdx.find? fun x => p x.2 x.1).map (·.2)

/-- The first answer of a list of checks. -/
def firstOf (l : List (Option (Nat × Nat))) : Option (Nat × Nat) := (l.find? (·.isSome)).getD none

/-- Order 1: the header; DETAIL is the byte offset of the first failing field (R571). -/
def checkHeader (stage : Bool) (room : Nat) (b : List Byte) : Option (Nat × Nat) :=
  let bad (c : Bool) (off : Nat) : Option (Nat × Nat) := if c then some (5, off) else none
  let len := imLen b
  firstOf [
    bad (imN b 0 4 != 0x4D494254) 0,
    bad (imN b 4 2 != 1) 4,
    bad (imN b 6 2 != 64) 6,
    bad (imN b 8 4 != 0x906400C0) 8,
    bad (len % 4 != 0 || decide (room < len) || decide (len < 128 + 16 * nSect b)) 12,
    bad (stage && imN b 16 4 != 0) 16,
    bad (stage && imN b 20 4 != 0) 20,
    bad (nSect b == 0 || decide (256 < nSect b)) 24,
    bad (imN b 26 1 != b2n stage) 26,
    bad (!stage && (b.drop 32).take 32 != List.replicate 32 0) 32]

/-- Order 2: key and signature. -/
def checkSig (s : State) (stage : Bool) (b : List Byte) : Option (Nat × Nat) :=
  let k := imN b 27 1
  let n := imLen b - 64
  if !keyHas s k (if stage then 2 else 0) then some (3, 256 + k % 4)
  else if !keySigned s k (b.take n) ((b.drop n).take 64) then some (3, k % 4)
  else none

/-- Order 3: the rollback rules; for a stage package, the image it is bound to. -/
def checkRollback (s : State) (stage : Bool) (b : List Byte) : Option (Nat × Nat) :=
  if stage then (if (b.drop 32).take 32 != bytesOf s.img.hash then some (4, 2) else none)
  else if imN b 16 4 < (bootNow s).boot.floor.toNat then some (4, 0)
  else if imN b 16 4 < imN b 20 4 then some (4, 1)
  else none

/-- Whether a TYPE is listed (R44). -/
def listedType (ty : Nat) : Bool := (1 ≤ ty && ty ≤ 0x11) || ty == 0x20 || ty == 0x21

/-- Whether an INDEX is one R44 allows. -/
def indexOk (x : Sect) : Bool :=
  if x.ty = 0x20 then x.idx / 512 == 0 && x.idx / 64 % 4 == 0
  else if x.ty = 0x21 then x.idx / 512 == 0 && decide (x.idx % 256 < (if x.idx / 256 = 0 then 8 else 16))
  else x.idx == 0

/-- Whether an entry of the section table breaks a rule of R42. -/
def sectBad (stage : Bool) (b : List Byte) (i : Nat) (x : Sect) : Bool :=
  let before := (sects b).take i
  x.off % 4 != 0 || decide (x.off < 64 + 16 * nSect b) || decide (imLen b - 64 < x.off + x.len)
    || before.any (fun y => decide (x.off < y.off + y.len) && decide (y.off < x.off + x.len))
    || (match before.getLast? with | some y => decide (x.ty * 65536 + x.idx ≤ y.ty * 65536 + y.idx) | none => false)
    || !listedType x.ty || (stage && x.ty != 0x20 && x.ty != 0x21) || !indexOk x

/-- Order 4: the section table, then each section's CRC-32 (assumption log 35). -/
def checkSects (stage : Bool) (b : List Byte) : Option (Nat × Nat) :=
  match firstBad (sects b) (sectBad stage b) with
  | some i => some (6, i)
  | none => (firstBad (sects b) fun _ x => (crc32 (sectBytes b x)).toNat != x.crc).map fun i => (6, 65536 + i)

/-! ## Records (R45) -/

/-- The records of a section's words: each with a header word that gives type, version and payload length. A header of another
version, or a length that does not fit, ends the list with a record of type 256, which no section defines. -/
def parseRecs (sect : Nat) : Nat → List Word → List Rec
  | 0, _ => []
  | _, [] => []
  | n + 1, h :: ws =>
    let len := fld h 15 0
    if fld h 23 16 ≠ 0 || len % 4 ≠ 0 || ws.length < len / 4 then [⟨sect, 256, []⟩]
    else ⟨sect, fld h 31 24, ws.take (len / 4)⟩ :: parseRecs sect n (ws.drop (len / 4))

/-- The records of a section; a length that is not a multiple of 4 spoils its end. -/
def sectRecs (b : List Byte) (x : Sect) : List Rec :=
  let n := x.len / 4
  parseRecs x.ty n (imWords (sectBytes b x) 0 n) ++ (if x.len % 4 = 0 then [] else [⟨x.ty, 256, []⟩])

/-- The records of all structural sections but SAFETY (R44). -/
def imRecs (b : List Byte) : List Rec :=
  (sects b).flatMap fun x => if x.ty ≤ 0x11 && x.ty ≠ 7 then sectRecs b x else []

/-! ## Pages and parameter blocks (R48, R207) -/

/-- A page: its place, the four header words, the entries' words. `own`: part of the image or package verified. -/
structure PageC where
  die  : Die
  lane : Nat
  page : Nat
  hdr  : List Word
  ents : List Entry
  own  : Bool
deriving Inhabited

/-- A parameter block: its engine, the section's length, its words. -/
structure ParamC where
  die : Die
  eng : Nat
  len : Nat
  w   : List Word
  own : Bool
deriving Inhabited

/-- The entries words spell. -/
def entriesOf : Nat → List Word → List Entry
  | 0, _ => []
  | n + 1, ws => ⟨wat ws 0, wat ws 1, wat ws 2, wat ws 3⟩ :: entriesOf n (ws.drop 4)

/-- A die of an index or payload bit. -/
def dieOf (b : Bool) : Die := if b then .ds else .cs

/-- The pages of an image. -/
def imPages (b : List Byte) : List PageC :=
  (sects b).filterMap fun x =>
    if x.ty = 0x20 then
      let bs := sectBytes b x
      some ⟨dieOf (x.idx.testBit 8), x.idx / 16 % 4, x.idx % 16, imWords bs 0 4, entriesOf (x.len / 16 - 1) (imWords (bs.drop 16) 0 (x.len / 4 - 4)), true⟩
    else none

/-- The parameter blocks of an image. -/
def imParams (b : List Byte) : List ParamC :=
  (sects b).filterMap fun x =>
    if x.ty = 0x21 then
      some ⟨dieOf (x.idx.testBit 8), x.idx % 256, x.len, imWords (sectBytes b x) 0 (min 320 (x.len / 4)), true⟩
    else none

/-! ## Order 5: required sections and the safety block (R44, R51, R376 to R378) -/

/-- The first required section that is missing. -/
def checkRequired (b : List Byte) : Option (Nat × Nat) :=
  ([1, 2, 3, 4, 5, 6, 7, 8, 9, 0x0F, 0x11].find? fun t => (sectOf b t).isNone).map fun t => (7, t * 65536 + 0xFFFF)

/-- A word of safety parameters. -/
def sbW (p : List Byte) (off : Nat) : Word := wd (ofLe ((p.drop off).take 4))

/-- Whether a window and a threshold lie in their ranges (R78). -/
def winOk (w n : Nat) : Bool := 1 ≤ w && w ≤ 60000 && 1 ≤ n && n ≤ 255

/-- A word [31:16] W, [7:0] N with nothing between. -/
def winWord (w : Word) : Bool := winOk (fld w 31 16) (fld w 7 0) && fld w 15 8 == 0

/-- Feedback channels and CS channels that an image configures, and the pages of the CS lanes it defines. -/
def recFb (rs : List Rec) (c : Nat) : Bool := rs.any fun r => r.sect == sFEEDBACK && fld (wat r.w 0) 3 0 == c
def recChan (rs : List Rec) (d : Die) (c : Nat) : Bool :=
  (recsOf rs sPOWER 2).any fun w => fld (wat w 0) 24 24 == d.bit && fld (wat w 0) 21 16 == c
def recPage (rs : List Rec) (d : Die) (l p : Nat) : Bool :=
  (recsOf rs sPAGETAB 1).any fun w => fld (wat w 0) 24 24 == d.bit && fld (wat w 0) 17 16 == l && fld (wat w 0) 3 0 == p

/-- Whether one word of the parameters breaks a rule of R376 to R378, by its offset. The record of a disabled monitor or contactor
is held to its reserved bits and to the ranges of what it gives; the fields it leaves 0 are out of use (assumption log 181). -/
def sbBadWord (rs : List Rec) (p : List Byte) (off : Nat) : Bool :=
  let w := sbW p off
  let src (a : Nat) : Bool := recFb rs a
  let nclass := fld (sbW p 0x1E0) 7 0
  let lane (l pg : Nat) : Bool := pg == 15 || recPage rs .cs l pg
  let en (o : Nat) : Bool := bitOf (sbW p o) 31
  let noChan (c : Nat) : Bool := 12 ≤ c && c < 15
  if off = 0 then fld w 31 24 == 0 || fld w 23 16 == 0 || decide (600 < fld w 15 0)
  else if off = 4 then
    !(100 ≤ fld w 31 16 && fld w 31 16 < fld w 15 0 && fld w 15 0 ≤ 2000)
  else if off = 8 then
    !(1 ≤ fld w 31 24 && fld w 31 24 < fld w 23 16 && 1 ≤ fld w 15 8) || fld w 7 4 != 0
  else if off = 0x0C then !winWord w
  else if off = 0x10 then
    fld w 15 0 == 0 || (List.range 16).any fun c => (fld w 31 16).testBit c && !recChan rs .cs c
  else if off < 0x78 then !winWord w
  else if off = 0x78 then
    fld w 31 16 != 0 || !(lane 1 (fld w 15 12) && lane 1 (fld w 11 8) && lane 0 (fld w 7 4) && lane 0 (fld w 3 0))
  else if off < 0x8C then false
  else if off = 0x8C then w != 0
  else if off < 0x190 then
    let base := 0x90 + (off - 0x90) / 0x20 * 0x20
    let k := (off - base) / 4
    let isSls := off < 0x110
    if base = 0x90 && k = 0 && !((List.range 4).any fun m => en (0x90 + 0x20 * m)) then true
    else if k = 0 then
      w.toNat / 4 % 16384 != 0 || fld w 19 18 != 0 || fld w 30 28 != 0 || noChan (fld w 27 24) || noChan (fld w 23 20)
        || (en base && (!src (fld w 27 24) || (fld w 23 20 != 15 && (!src (fld w 23 20) || fld w 23 20 == fld w 27 24))))
    else if k = 7 then (en base || w != 0) && !winWord w
    else if isSls then k == 6 && fld w 15 0 != 0
    else k == 6 && fld w 15 8 != 0
  else if off < 0x1B0 then
    let base := 0x190 + (off - 0x190) / 0x10 * 0x10
    let k := (off - base) / 4
    if k = 0 then
      fld w 30 26 != 0 || fld w 23 18 != 0 || fld w 15 2 != 0 || (en base && !en (0x90 + 0x20 * fld w 25 24))
    else if k = 2 then fld w 15 0 != 0
    else if k = 3 then (en base || w != 0) && !winWord w
    else false
  else if off < 0x1E0 then
    let base := 0x1B0 + (off - 0x1B0) / 8 * 8
    let n := (base - 0x1B0) / 8
    if off = base then
      fld w 30 24 != 0 || fld w 19 17 != 0 || fld w 15 14 != 0 || decide (5 < fld w 23 20)
        || (en base && ((List.range 6).any (fun m => (fld w 13 8).testBit m && (m == n || !en (0x1B0 + 8 * m)))
          || (List.range n).any (fun m => en (0x1B0 + 8 * m) && fld (sbW p (0x1B0 + 8 * m)) 23 20 == fld w 23 20)))
    else en base && (fld w 31 16 == 0 || fld w 15 0 == 0)
  else if off = 0x1E0 then fld w 31 8 != 0 || decide (128 < nclass)
  else (off - 0x1E4) % 8 == 4 && (fld w 27 24 != 0 || (fld w 31 30 == 3 && !winOk (fld w 15 0) (fld w 23 16)))

/-- The SAFETY section: container, key, signature over bytes 0 to 15 + SBLEN − 1 (R51), parameters; DETAIL is the byte offset of the failing field (R378). -/
def checkSafety (s : State) (b : List Byte) : Option (Nat × Nat) :=
  match sectOf b 7 with
  | none => none
  | some x =>
    let bs := sectBytes b x
    let n := imN bs 4 4
    let p := (bs.drop 16).take n
    let bad (c : Bool) (off : Nat) : Option (Nat × Nat) := if c then some (8, off) else none
    let k := imN bs 12 4
    firstOf [
      bad (imN bs 0 4 != 1) 0,
      bad (x.len != 16 + n + 64 || decide (n < 0x1E4) || n != 0x1E4 + 8 * imN p 0x1E0 1) 4,
      bad (decide (3 < k) || !keyHas s k 1) 12,
      bad (!keySigned s k (bs.take (15 + n)) ((bs.drop (16 + n)).take 64)) (16 + n),
      ((List.range (n / 4)).find? fun i => sbBadWord (imRecs b) p (4 * i)).map fun i => (8, 16 + 4 * i)]

end Sys2Proof.Machine
end

