-- ==== Sys2Proof/Machine/SysCore.lean ====
section
/-! DEFINITION. The conditions of a restart and of sleep, the sleep request and the pins of the system unit (R61, R539, R541 to
R543). -/

namespace Sys2Proof.Machine

/-- Whether a converter instance is stopped: OFF or LATCHOFF (R384). -/
def convStopped (c : Conv) : Bool := c.state == 0 || c.state == 4

/-- Whether a charge is active on a port: charging, held, or waiting for its retry (R411). -/
def chargeActive (p : Port_) : Bool := (1 ≤ p.phase && p.phase ≤ 5) || p.phase == 7 || p.phase == 8

/-- Whether no image runs or start-up is stopped, so that every output is off (R61). -/
def outputsOff (s : State) : Bool := s.im.noImage || s.sys.halt

/-- The conditions of SYS_RESTART (R61): traction inhibited, standstill, every converter stopped, no charge active. -/
def restartOk (s : State) : Bool :=
  outputsOff s
    || (tractionInhibited s && s.wr.loaded && wrStill s && s.conv.all convStopped && !s.ports.any chargeActive)

/-- The conditions of a sleep request (R543). -/
def sleepOk (s : State) : Bool :=
  restartOk s && !s.sys.sleepAcc && !s.sys.wakePin && (s.wr.ct.all fun c => !c.ctc)

/-- A write of SYS_SLEEP: the state with status and UCODE of its answer (R543). -/
def sleepRequest (s : State) (v : Word) : State × Nat × Nat :=
  if v = 0xA55A && sleepOk s then
    ({ s with sys := { s.sys with sleepAcc := true, sleepAt := s.now, sleepStep := 1 } }, 0, 0)
  else (s, 4, 2)

/-- HC_CFG: HCCFG word 0, or the defaults until it is loaded (R514). -/
def hcCfg (s : State) : Word :=
  match (if s.host.cfgLoaded then recsOf s.img.recs sNET 0x10 else []) with
  | w :: _ => wat w 0
  | [] => 0x00070003

/-- ALERT_N driven low: an unmasked bit of SYS_EVT, a response held with ALRESP, a firmware failure; released until the Keeper
starts (R539, R541). -/
def alertLow (s : State) : Bool :=
  s.sys.fwFail
    || (s.sys.keeperUp && (s.sys.sysEvt &&& s.sys.almask != 0 || (bitOf (hcCfg s) 8 && !s.host.resps.isEmpty)))

end Sys2Proof.Machine
end

