-- ==== Sys2Proof/Machine/RegSys.lean ====
section
/-! DEFINITION. The registers of the system unit, the crossing, image management, CAN, host access, check values and the
Keeper (R37, R65, R497, R498, R527 to R529, R548 to R550). -/

namespace Sys2Proof.Machine

/-! ## System (R37, R65, R548, R549) -/

/-- SYS_STAT. -/
def sysStat (s : State) : Word :=
  let y := s.sys
  wd (y.step * 2 ^ 24 + atBit y.halt 20 + y.haltStep * 65536 + atBit y.sleepAcc 8 + atBit y.wakePin 4 + atBit y.dsUp 3
    + atBit y.ready 0)

/-- SYS_XSTAT and DSYS_XSTAT: a die's own end of the crossing. -/
def xStat (s : State) (d : Die) : Word :=
  let l := s.link d
  wd (wcount s ⟨d, 1, 0, 0, 0, 1⟩ * 65536 + wcount s ⟨d, 1, 8, 0, 8, 5⟩ * 256 + atBit l.safeLoss 4 + atBit l.loss 3
    + atBit l.aligned 2 + atBit l.safeUp 1 + atBit (l.up && !l.loss) 0)

/-- SYS_SUPSTAT: the CS supplies, and the DS supplies as last reported. -/
def supStat (s : State) : Word := ((s.sup.csOk ||| s.sup.dsSeen).setWidth 32)

/-- SYS_IMGSTAT. -/
def imgStat (s : State) : Word :=
  let b := (bootNow s).boot
  wd (s.im.lastCause * 65536 + atBit b.trial 11 + atBit s.im.fallback 10 + atBit b.prefer 8 + s.img.runslot * 16
    + atBit s.im.noImage 3 + atBit s.im.staging 2 + atBit s.img.valid 0)

/-- SYS_KEYSTAT. -/
def keyStat (s : State) : Word :=
  wd (((bootNow s).keys.zipIdx.map fun (k, n) => (k.roles.toNat * 16 + k.state) * 256 ^ n).sum)

/-- A SYS_STAGEDSn: pages LOADING of two lanes. -/
def stageDs (s : State) (l : Nat) : Word :=
  wd (maskOf 16 (pageLoading s .ds l) + maskOf 16 (pageLoading s .ds (l + 1)) * 65536)

/-- The SYS_ window. -/
def sysRegs (s : State) (off : Nat) : Option Word :=
  match off with
  | 0x00 => some 0x906400C0
  | 0x04 => some s.fwRev
  | 0x08 => some (sysStat s)
  | 0x0C => some s.sys.rstCause
  | 0x10 => some s.sys.wkCnt
  | 0x14 => some (supStat s)
  | 0x18 => some s.sys.sysEvt
  | 0x1C => some s.sys.almask
  | 0x20 => some 0
  | 0x24 => some s.sys.stepT
  | 0x400 => some (xStat s .cs)
  | 0x404 => some s.x.cs.errCnt
  | 0x408 => some s.x.cs.safeErrCnt
  | 0x40C => some (wd (atBit s.clk.xtalOk 0 + atBit s.clk.csLock 1 + atBit s.clk.dsLock 2 + atBit s.clk.wrMism 3))
  | 0x410 => some (s.clk.clkDev.setWidth 32)
  | 0x414 => some (count s .cs)
  | 0x500 => some (imgStat s)
  | 0x504 => some s.img.seq
  | 0x508 => some (bootNow s).boot.floor
  | 0x50C => some s.im.slotStat
  | 0x530 => some (keyStat s)
  | 0x534 => some (wd (maskOf 8 (pageLoading s .cs 0) + maskOf 8 (pageLoading s .cs 1) * 256))
  | 0x538 => some s.im.err
  | 0x53C => some (stageDs s 0)
  | 0x540 => some (stageDs s 2)
  | _ => match inBlock off 0x510 4 8 with
    | some (k, 0) => some (wat s.img.hash k)
    | _ => none

/-- Writes of the SYS_ window. -/
def sysWrites (s : State) (off : Nat) (v : Word) : Option Written :=
  match off with
  | 0x0C => served { s with sys := { s.sys with rstCause := w1c s.sys.rstCause v } }
  | 0x18 => served { s with sys := { s.sys with sysEvt := w1c s.sys.sysEvt v } }
  | 0x1C => served { s with sys := { s.sys with almask := v &&& 0x3F } }
  | 0x20 => some (sleepRequest s v)
  | _ => none

/-- The DSYS_ window (R37, R550). -/
def dsysRegs (s : State) (off : Nat) : Option Word :=
  match off with
  | 0x00 => some 0x906400C0
  | 0x08 => some (wd (atBit s.sys.dsBoot 1 + atBit s.sys.dsUp 0))
  | 0x14 => some (s.sup.dsOk.setWidth 32)
  | 0x400 => some (xStat s .ds)
  | 0x414 => some (count s .ds)
  | _ => none

/-! ## CAN FD (R497, R498) -/

/-- CN_STAT. -/
def cnStat (s : State) (n : Nat) : Word :=
  let x := canAt s n
  wd (countBits s ((List.range 16).map fun c => ⟨.cs, 17, n, 0, n, c⟩) + atBit x.rxUnres 22 + x.state * 2 ^ 19
    + atBit x.boWait 18 + min 255 x.tec * 256 + min 255 x.rec_)

/-- CN_NTSTAT. -/
def ntStat (s : State) : Word :=
  wd (min 255 s.net.good * 65536 + s.net.seq.toNat * 256 + atBit s.net.holdover 3 + atBit s.net.sync 2 + (timeRole s).2)

/-- Header and data words of a held frame. -/
def frameHdr (f : CanFrame) : Word := wd (atBit f.brs 31 + atBit f.fdf 30 + atBit f.ide 29 + f.id.toNat)
def frameWord (f : CanFrame) (k : Nat) : Word := wd (ofLe ((f.data.drop (4 * k)).take 4))

/-- The window of one controller. -/
def cnRegs (s : State) (n off : Nat) : Option Word :=
  let x := canAt s n
  let held (f : RxFrame → Word) : Option Word := some ((x.fifo.head?.map f).getD 0)
  let rec_ (rtype f k : Nat) : Word := wat ((cnOf s rtype n f).getD []) k
  match off with
  | 0x00 => some (cnStat s n)
  | 0x04 => some x.evt
  | 0x08 => some 0
  | 0x0C => some (wd (x.lost.toNat * 65536 + x.fifo.length))
  | 0x40 => held fun r => frameHdr r.frame
  | 0x44 => held fun r => wd (atBit r.frame.rtr 17 + atBit r.protFail 16 + r.filter * 256 + r.frame.dlc.val)
  | 0x48 => held fun r => lo32 r.ts
  | 0x4C => held fun r => hi32 r.ts
  | _ =>
    match inBlock off 0x10 4 11, inBlock off 0x50 4 16, inBlock off 0x100 0x60 3 with
    | some (k, _), _, _ => some (cnW s n k)
    | _, some (k, _), _ => held fun r => frameWord r.frame k
    | _, _, some (b, o) =>
      let t := txAt s n b
      match o with
      | 0x00 => some t.hdr
      | 0x04 => some t.dlc
      | 0x08 => some 0
      | 0x0C => some (wd (min 255 t.retx * 65536 + atBit t.cancel 8 + t.status))
      | 0x10 => some (lo32 t.ts)
      | 0x14 => some (hi32 t.ts)
      | _ => if 0x20 ≤ o then some (wat t.data ((o - 0x20) / 4)) else none
    | none, none, none =>
      match inBlock off 0x400 0x10 64, inBlock off 0xC00 8 64, inBlock off 0x1000 8 256 with
      | some (f, o), _, _ => if o < 12 then some (rec_ 2 f (o / 4)) else none
      | _, some (f, o), _ => some (rec_ 3 f (o / 4))
      | _, _, some (g, o) =>
        if n = 0 then some (wat ((recBy (recsIn s .cs) sNET 4 7 0 g).getD []) (o / 4)) else none
      | none, none, none =>
        if n ≠ 0 then none
        else match off with
          | 0x800 => some (lo32 (netNs s s.now))
          | 0x804 => some s.net.latHi
          | 0x808 => some (ntStat s)
          | 0x80C => some (wi (satS 32 s.net.err))
          | 0x810 => some (wi (satS 32 (rndAway (s.net.r * 1000000000))))
          | 0x814 => some 0
          | 0x818 => some 0
          | _ => none

/-- Reads of a controller's window that act: the status of a completed buffer returns to IDLE (R481), CN_NTLO latches. -/
def cnReads (s : State) (n off : Nat) : State :=
  if n = 0 && off = 0x800 then (ntloRead s).1
  else match inBlock off 0x100 0x60 3 with
    | some (b, 0x0C) => if txBusy s n b then s else s.modTx n b fun t => { t with status := 0 }
    | _ => s

/-- The answer a command left, as what a write does. -/
def written (s : State) : Option Written := some (s, s.acc.status, s.acc.ucode)

/-- CN_CTRL: the bits act from the lowest up. -/
def cnControl (s : State) (n : Nat) (v : Word) : State :=
  let s := if bitOf v 0 then canRecover s n else s
  let s := if bitOf v 1 then canPop s n else s
  if bitOf v 2 then canFlush s n else s

/-- Writes of a controller's window. -/
def cnWrites (s : State) (n off : Nat) (v : Word) : Option Written :=
  match off with
  | 0x04 => served (s.modCan n fun x => { x with evt := w1c x.evt v })
  | 0x08 => served (cnControl s n v)
  | 0x814 => if n = 0 then served { s with net := { s.net with setLo := v } } else none
  | 0x818 => if n = 0 then served (netSet s v) else none
  | _ => match inBlock off 0x100 0x60 3 with
    | some (b, 0x08) =>
      let req := bitOf v 0
      let cancel := bitOf v 1
      if req && cancel then written (if isDevBuf s n b then s.refuse 0x20 else s.refuse 0x21)
      else if req then written (txRequest s n b)
      else if cancel then written (txCancelCmd s n b)
      else served s
    | some (b, o) => if txWritable o then written (txWrite s n b o v) else none
    | none => none

/-! ## Host access and the Keeper (R527, R529) -/

/-- The HC_ window. -/
def hcRegs (s : State) (off : Nat) : Option Word :=
  let h := s.host
  let al (a : Option Byte) : Nat := (a.getD 0).toNat
  match off with
  | 0x00 =>
    some (wd ((h.addr.getD 0).toNat * 2 ^ 24 + atBit h.addr.isSome 23 + atBit (bootNow s).boot.isSealed 22 + atBit h.pbUp 2
      + atBit h.paUp 1 + atBit (s.sys.keeperUp && bitOf (hcCfg s) 16) 0))
  | 0x04 => some h.evt
  | 0x08 => some (hcCfg s)
  | 0x0C => some h.cnonce
  | 0x10 => some (wd (al h.aliveBc * 65536 + al h.alivePa * 256 + al h.aliveSpi))
  | 0x14 => some h.bcStat
  | 0x18 => some (wd s.nv.logNext)
  | 0x1C => some h.errCnt
  | _ => none

def hcWrites (s : State) (off : Nat) (v : Word) : Option Written :=
  if off = 4 then served { s with host := { s.host with evt := w1c s.host.evt v } } else none

/-- The KP_ window. -/
def kpRegs (s : State) (off : Nat) : Option Word :=
  match off with
  | 0 => some (wd (atBit s.kp.shed2 17 + atBit s.kp.defer3 16 + s.kp.restarts.toNat))
  | 4 => some (wd (s.kp.peak * 65536 + s.kp.u))
  | 8 => some s.kp.evt
  | _ => none

/-- A read of KP_LOAD re-arms the peak. -/
def kpReads (s : State) (off : Nat) : State := if off = 4 then { s with kp := { s.kp with peak := s.kp.u } } else s

def kpWrites (s : State) (off : Nat) (v : Word) : Option Written :=
  if off = 8 then served { s with kp := { s.kp with evt := w1c s.kp.evt v } } else none

/-! ## Check values (R528) -/

/-- The counters of a channel. -/
def ckKeys (d : Die) (n : Nat) : List CtrKey := (List.range 3).map fun c => ⟨d, 11, n, 0, n, c⟩

/-- The CKC_ and CKD_ windows. -/
def ckRegs (s : State) (d : Die) (off : Nat) : Option Word :=
  if off = 0 then some (maskWord (ckCount d) fun n => (ckRec s d n).isSome)
  else match inBlock off 0x100 0x20 (ckCount d) with
    | none => none
    | some (n, o) =>
      let x := nth (s.cks d) n
      match o with
      | 0x00 => some (ckW s d n 0)
      | 0x04 => some (ckW s d n 1)
      | 0x08 => some (ckW s d n 2)
      | 0x0C => some x.exp
      | 0x10 => some x.res
      | 0x14 =>
        -- R528 lays the flags [3:0] over CK_DONE [15:0]; both are shown (assumption log 36)
        some (wd (countBits s (ckKeys d n))
          ||| wd x.done.toNat ||| wd (atBit x.mismatch 3 + atBit x.hold 2 + atBit x.running 1 + atBit x.has 0))
      | 0x18 => some 0
      | 0x1C => some x.evt
      | _ => none

/-- CK_EXP written: HOLDCMP clears where AUTOEXP is 0 (R519, R520). -/
def ckSetExp (s : State) (d : Die) (n : Nat) (v : Word) : State :=
  s.modCk d n fun x => { x with exp := v, hold := x.hold && bitOf (ckW s d n 0) 4 }

/-- CK_CTRL.START: on a channel in MODE HOST that is idle (R518, R520). -/
def ckCtrl (s : State) (d : Die) (n : Nat) (v : Word) : State :=
  if bitOf v 0 && ckMode s d n == 3 && !(nth (s.cks d) n).running then ckStart s d n else s

def ckWrites (s : State) (d : Die) (off : Nat) (v : Word) : Option Written :=
  match inBlock off 0x100 0x20 (ckCount d) with
  | some (n, 0x0C) => served (ckSetExp s d n v)
  | some (n, 0x18) => served (ckCtrl s d n v)
  | some (n, 0x1C) => served (s.modCk d n fun x => { x with evt := w1c x.evt v })
  | _ => none

end Sys2Proof.Machine
end

