-- ==== Sys2Proof/Machine/Converters.lean ====
section
/-! DEFINITION. Converter rows: the 1 µs reference ramp, the hiccup and retry timers, the telemetry windows and held
extremes (R386, R389, R397, R398). -/

namespace Sys2Proof.Machine

/-- REFR of one instance moved toward REF by at most SSRATE; 0 outside SOFTSTART and RUN (R386). -/
def refrStep (s : State) (i : Nat) (x : Conv) : Conv :=
  if x.state = 1 || x.state = 2 then
    let d := x.ref.toInt - x.refr.toInt
    { x with refr := wi (x.refr.toInt + clampI (-(cvSsrate s i)) (cvSsrate s i) d) }
  else { x with refr := 0 }

/-- REFR_UPDATE: every 1 µs each configured instance moves REFR (R386). -/
def execRefrUpdate (s : State) : Host.Outcome State Fault Refusal :=
  .next (
    if !s.sys.dsReady then s
    else
      let s := s.advanceTo ((if s.cvTick = 0 then s.t0.getD 0 else s.cvTick) + usec)
      { s with cvTick := s.now, conv := s.conv.mapIdx fun i x => if cvOn s i then refrStep s i x else x })

/-- HICCUP_EXPIRY: the hiccup timer of an instance in HICCUP expires; the first evaluation at or after it acts on it
(R389). -/
def execHiccupExpiry (i : Fin 4) (s : State) : Host.Outcome State Fault Refusal :=
  .next (
    let x := nth s.conv i
    if !cvOn s i || x.state ≠ 3 || !s.sys.dsReady then s
    else
      let s := s.advanceTo x.hiccAt
      let s := s.modConv i fun y => { y with hiccDone := true }
      cvTransit (s.advanceTo (cvNextBoundary s i s.now)) i)

/-- RETRY_COUNT_RESET: RSTOK × 10 ms in RUN without a limit-hit period (R389). -/
def execRetryCountReset (i : Fin 4) (s : State) : Host.Outcome State Fault Refusal :=
  .next (
    let x := nth s.conv i
    if !cvOn s i || x.state ≠ 2 then s
    else
      let s := s.advanceTo (x.cleanAt + fld (cvW s .ds i 7) 7 0 * 10 * msec)
      s.modConv i fun y => { y with retry := 0 })

/-- The average of a window replaces the register, if the window had a sample; a new window starts (R397). -/
def Tele.close (x : Tele) : Tele :=
  { x with avg := if x.cnt = 0 then x.avg else wi (divHalfAway x.sum x.cnt), sum := 0, cnt := 0 }

/-- TELEMETRY_WINDOW_END (R397). -/
def execTelemetryWindowEnd (i : Fin 4) (s : State) : Host.Outcome State Fault Refusal :=
  .next (
    if !cvOn s i || !s.sys.dsReady then s
    else
      let x := nth s.conv i
      let s := s.advanceTo ((if x.winAt = 0 then s.t0.getD 0 else x.winAt) + fld (cvW s .ds i 9) 15 0 * msec)
      s.modConv i fun y =>
        { y with tv := y.tv.close, ti := y.ti.close, tp := y.tp.close, tt := y.tt.close
                 wcnt := y.wcnt + 1, winAt := s.now })

/-- The held value of an extreme; a temperature stands in [15:0] (R403). -/
def extremeOf (x : Conv) : Extreme → Word
  | .vmin => x.tv.lo
  | .vmax => x.tv.hi
  | .imin => x.ti.lo
  | .imax => x.ti.hi
  | .pmax => x.tp.hi
  | .tmax => if x.tt.hi = 0x80000000 then x.tt.hi else x.tt.hi &&& 0xFFFF

/-- An extreme re-armed (R398). -/
def rearm (x : Conv) : Extreme → Conv
  | .vmin => { x with tv := { x.tv with lo := 0x7FFFFFFF } }
  | .vmax => { x with tv := { x.tv with hi := 0x80000000 } }
  | .imin => { x with ti := { x.ti with lo := 0x7FFFFFFF } }
  | .imax => { x with ti := { x.ti with hi := 0x80000000 } }
  | .pmax => { x with tp := { x.tp with hi := 0x80000000 } }
  | .tmax => { x with tt := { x.tt with hi := 0x80000000 } }

/-- The register read: the held value is returned and the register re-armed. -/
def extremeRead (s : State) (i : Nat) (x : Extreme) : State × Word :=
  (s.modConv i fun y => rearm y x, extremeOf (nth s.conv i) x)

/-- TELEMETRY_EXTREME_READ: a read of SW_VMIN to SW_TMAX (R398, R403). -/
def execTelemetryExtremeRead (i : Fin 4) (x : Extreme) (s : State) : Host.Outcome State Fault Refusal :=
  .next (regGate s .ds fun s => let (s, w) := extremeRead s i x; s.ok [w])

end Sys2Proof.Machine
end

