-- ==== Sys2Proof/Machine/Crossing.lean ====
section
/-! DEFINITION. The meanings of the crossing, safety-lane and clock-monitor rows (chapter 01). -/

namespace Sys2Proof.Machine

/-- One end of the crossing changed. -/
def State.modLink (s : State) (d : Die) (f : Link → Link) : State := s.setLink d (f (s.link d))

/-- Cycles of a superframe, of its latency, of a safety message and of its latency (R11, R20). -/
def sfLen : Nat := 80
def sfLat : Nat := 24
def smLen : Nat := 160
def smLat : Nat := 80

/-! ## Sending a superframe (R12 to R16) -/

/-- Bytes whose content the manual leaves open: slot filler and the Keeper's traffic (R12 to R14; assumption log 4). -/
def fillBytes (s : State) (start n : Nat) : List Byte :=
  (List.range n).map fun i => (Config.freeWord (s.freeCtr + (start + i))).truncate 8

/-- A beam slot: the anchor in force on the home die with its status; filler in the other direction (R13, R132). -/
def beamSlot (s : State) (d : Die) (b : Nat) : List Byte :=
  if bmOn s b && bmHome s b == d then
    let a := (nth (s.beams d) b).a
    bytesOf [a.p0, a.speed, a.t0] ++ leBytes 2 a.cyc.toNat ++ leBytes 2 (homeStatus s b s.now).toNat
  else fillBytes s (4 + 16 * b) 16

/-- The mirrored buoys of a home die, ascending (R15). -/
def mirBuoys (s : State) (d : Die) : List Nat := (List.range 256).filter fun n => byOn s n && byMirror s n && byHome s n == d

/-- The buoys the mirror slot of a superframe visits: seven in ascending order, one round every ceil(N / 7) superframes,
by the superframe's number, counted without end from training (R15; assumption log 30). -/
def mirVisit (s : State) (d : Die) (no : Nat) : List Nat :=
  let l := mirBuoys s d
  let r := (l.length + 6) / 7
  if r = 0 then [] else (l.drop (7 * (no % r))).take 7

/-- The number of a superframe that starts at a cycle and carries a count, at a receiver: the number next to the one that the time
since the last accepted start gives which has that count modulo 2^16 (R15, R17; assumption log 30). -/
def rxNumber (l : Link) (start : Nat) (n : BitVec 16) : Nat :=
  if !l.haveCount then n.toNat
  else
    let est : Nat := l.rxNo + (start + sfLen + sfLat - l.acceptAt) / sfLen
    ((est : Int) + sx 16 ((n.toNat + 65536 - est % 65536) % 65536)).toNat

/-- The mirror slot: 7 values of 5 bytes (R12). -/
def mirSlot (s : State) (d : Die) (no : Nat) : List Byte :=
  let v := (mirVisit s d no).flatMap fun n => wordBytes (committed s n) ++ [BitVec.ofInt 8 (byScale s n)]
  v ++ fillBytes s (132 + v.length) (35 - v.length)

/-- The stage command of an instance: its state's, but INHIBIT in place of RUN under a latched source of level 3 or higher (R393). -/
def stageCmd (s : State) (i : Nat) : Nat :=
  if !cvOn s i then 1
  else
    let c := cvStageCmd (nth s.conv i).state
    if c = 0 && s.prot.latches.any fun l => srcConv l.src == some i && 3 ≤ l.level then 1 else c

/-- The stage commands the DS die sends: RUN, INHIBIT, CROWBAR for each instance (R395). -/
def stageCmds (s : State) : BitVec 8 := BitVec.ofNat 8 ((List.range 4).foldl (fun a i => a + stageCmd s i * 4 ^ i) 0)

/-- The last superframe a die had accepted at a cycle (R16). -/
def ackAt (l : Link) (t : Nat) : Byte := match l.acks.find? fun a => a.1 ≤ t with | some a => a.2 | none => 0

/-- The event place of the control slot: an event that is being sent, or the next that may start: one abandoned before,
a QOVF event, the oldest that waits (R16). -/
def eventStart (s : State) : State :=
  match s.x.sending with
  | some _ => s
  | none =>
    if s.now < s.x.resumeAt then s
    else match s.x.again with
      | e :: rest => { s with x := { s.x with again := rest, fly := s.x.fly ++ [e], sending := some (e.no, 0) } }
      | [] =>
        let no := s.x.evnext
        if s.x.qovfDue then
          let ev := dsWords s (faultCode .ds 1 4 7) 4 1 0 0 kDeclare (wd s.x.lost)
          let key : CtrKey := ⟨.ds, 1, 4, 0, 4, 7⟩
          let c := ((ctrOf s key).getD (freshCtr s (direct .ds 1 4 0 4 7 0))).roll s.now
          let c : Ctr := { c with bins := (c.bins.headD 0 + 1) :: c.bins.tail, declared := true, code := faultCode .ds 1 4 7 }
          { s with ctrs := putCtr s.ctrs c
                   x := { s.x with evnext := no + 1, qovfDue := false, sending := some (no, 0)
                                   fly := s.x.fly ++ [⟨no, true, ev⟩] } }
        else match s.x.evq with
          | ev :: rest =>
            { s with x := { s.x with evnext := no + 1, evq := rest, sending := some (no, 0), fly := s.x.fly ++ [⟨no, false, ev⟩] } }
          | [] => s

/-- Fragment n of an event (R16). -/
def fragWord (e : DsEvent) : Nat → Word
  | 0 => e.w0
  | 1 => e.w1
  | 2 => e.w2
  | _ => e.w3

/-- The DS die's control slot, and the state with the fragment sent (R16). -/
def dsControl (s : State) : State × List Byte :=
  let s := eventStart s
  let l := s.x.ds
  let sup := fld (wd s.sup.dsOk.toNat) 11 8
  let cmd := stageCmds s
  let head := [ackAt l s.now, BitVec.ofNat 8 cmd.toNat] ++ leBytes 3 (s.lamp.fDs + s.lamp.dsLimch % 32 * 2 ^ 17)
  match s.x.sending with
  | some (no, k) =>
    let w := match s.x.fly.find? fun e => e.no == no with | some e => fragWord e.ev k | none => 0
    let rec_ : SentFrag := ⟨s.now, l.sendCount, some no, k, cmd⟩
    ({ s with x := { s.x with sending := if k = 3 then none else some (no, k + 1), judged := s.x.judged ++ [rec_] } },
      head ++ [BitVec.ofNat 8 (sup + 16 + k * 32)] ++ wordBytes w)
  | none =>
    ({ s with x := { s.x with judged := s.x.judged ++ [⟨s.now, l.sendCount, none, 0, cmd⟩] } },
      head ++ [BitVec.ofNat 8 sup, 0, 0, 0, 0])

/-- The CS die's control slot (R16, R395, R456). -/
def csControl (s : State) : List Byte :=
  [ackAt s.x.cs s.now, BitVec.ofNat 8 (heldReport s).toNat] ++ leBytes 3 (s.lamp.fCs + s.lamp.limch % 32 * 2 ^ 17) ++ [0, 0, 0, 0, 0]

/-- One DS superframe is judged not accepted: its event and every later one that has started are abandoned and are sent
again from superframe k + 4 on (R16). -/
def judgeLost (s : State) (f : SentFrag) : State :=
  match f.evno with
  | none => s
  | some no =>
    if s.x.fly.any fun e => e.no == no then
      let keep := s.x.fly.takeWhile fun e => e.no != no
      let drop := s.x.fly.dropWhile fun e => e.no != no
      let judged := s.x.judged.map fun g => if (drop.any fun e => g.evno == some e.no) then { g with evno := none } else g
      { s with x := { s.x with fly := keep, again := drop ++ s.x.again, sending := none, resumeAt := f.at_ + 4 * sfLen
                               judged := judged } }
    else s

/-- One DS superframe is judged accepted: its stage commands have arrived (R404); with fragment 3 its event leaves the queue. -/
def judgeGood (s : State) (f : SentFrag) : State :=
  let s := { s with x := { s.x with cmdAcc := some f.cmd } }
  if f.frag = 3 && f.evno.isSome then
    { s with x := { s.x with fly := s.x.fly.filter fun e => some e.no != f.evno } }
  else s

/-- DS superframes whose judgement is due are judged: those started before `start` with no acknowledgement as lost, the one
started at `start` by the acknowledgement `ack` (none: that CS superframe was rejected) (R16). -/
def judgeAll (s : State) (start : Nat) (ack : Option Byte) : State :=
  let due := s.x.judged.filter fun f => f.at_ ≤ start
  let s := { s with x := { s.x with judged := s.x.judged.filter fun f => start < f.at_ } }
  due.foldl (fun s f =>
    if f.at_ = start && ack = some (f.count.truncate 8) then judgeGood s f else judgeLost s f) s

/-- SUPERFRAME_SEND: every 200 ns a die starts a superframe (R11 to R16). -/
def execSuperframeSend (die : Die) (s : State) : Host.Outcome State Fault Refusal :=
  .next (
    if !(s.link die).up then s
    else
      let s := s.advanceTo (s.link die).sendAt
      let s := { s with lamp := { s.lamp with gband := s.lamp.gbandNext } }
      let s := if die == .ds then judgeAll s (s.now - 4 * sfLen) none else s
      let n := (s.link die).sendCount
      let (s, ctl) := match die with | .ds => dsControl s | .cs => (s, csControl s)
      let body := leBytes 2 (count s die).toNat ++ leBytes 2 n.toNat ++ (List.range 8).flatMap (beamSlot s die) ++ mirSlot s die (s.link die).sendNo
        ++ ctl ++ fillBytes s 177 19
      let s := s.modLink die fun l =>
        { l with sent := body ++ wordBytes (crc32 body), sendCount := n + 1, sendNo := l.sendNo + 1, sendAt := s.now + sfLen }
      { s with freeCtr := s.freeCtr + 200 })

/-! ## Crossing loss (R18, R136, R396) -/

/-- The event of a directly raised cause of subsystem 1: one fixed counter for each cause, whichever lane INST names (R31). -/
def xEvent (s : State) (d : Die) (inst cause : Nat) : State :=
  countEvent s { direct d 1 0 0 0 cause 0 with instN := some inst, elemN := some inst }

/-- Instances that have a CS stage, or a buoy whose home is CS, go OFF; a CROWBAR stays (R396). -/
def convOnLoss (s : State) : State :=
  [0, 1, 2, 3].foldl (fun s i =>
    let cs := cvPDie s .ds i == .cs || (cvOStage s .ds i && cvODie s .ds i == .cs)
      || byHome s (cvVBuoy s i) == .cs || byHome s (cvIBuoy s i) == .cs
    if cvOn s i && cs && (nth s.conv i).state ≠ 5 && (nth s.conv i).state ≠ 0 then cvOff s i false else s) s

/-- Crossing loss on one die, raised with a cause: far beams stale on HOLD, mirrored copies stale, then the reaction of the
die (R18, R77, R136, R395, R396). -/
def lossEnter (s : State) (d : Die) (cause : Nat) : State :=
  let inst := (s.link d).lane
  let s := s.modLink d fun l => { l with loss := true }
  let s := (List.range 8).foldl (fun s b =>
    if bmOn s b && bmHome s b != d then (reignOn s d b).modBeam d b fun m => { m with stale := true } else s) s
  let stale (n : Nat) (x : Buoy) : Buoy :=
    if n < 256 && byOn s n && byMirror s n && byHome s n != d then { x with mstale := true } else x
  let s := byFollow { s with buoys := s.buoys.mapIdx stale }
  match d with
  | .ds => convOnLoss (latchPlain s 0x58 fun s => xEvent s .ds inst cause)
  | .cs => applyCsOverrides (xEvent s .cs inst cause)

/-- XLOSS: 2 µs without an accepted superframe (R18). -/
def execXloss (die : Die) (s : State) : Host.Outcome State Fault Refusal :=
  .next (
    let l := s.link die
    if !l.up || l.loss then s
    else lossEnter (s.advanceTo (l.acceptAt + 2 * usec)) die 2)

/-! ## Receiving a superframe (R16, R17, R27) -/

/-- One rejection counted in the crossing counter (R17, R31); `inst` is the first violating lane of the superframe rejected
(assumption log 170). -/
def sfReject (s : State) (d : Die) (inst : Nat) : State :=
  let (w, n) := wparam s 1 1 100 8
  countEvent (s.modLink d fun l => { l with errCnt := satInc l.errCnt })
    { key := ⟨d, 1, 0, 0, 0, 1⟩, cause := 1, w := w, n := n, instN := some inst, elemN := some inst }

/-- The beam snapshots of a superframe wait for their adoption cycle; one that repeats the status already held or waiting
changes nothing unless the beam is stale here (R132, R136). -/
def takeSnaps (s : State) (d : Die) (start : Nat) (f : List Byte) : State :=
  let one (s : State) (b : Nat) : State :=
    if bmOn s b && bmHome s b != d then
      let w (i : Nat) := wd (ofLe ((f.drop (4 + 16 * b + 4 * i)).take 4))
      let snap : Snap := { p0 := w 0, speed := w 1, t0 := w 2, cyc := (w 3).truncate 16, status := BitVec.ofNat 16 (fld (w 3) 31 16) }
      let m := nth (s.beams d) b
      let q := (s.link d).snaps.getD b []
      let held := match q.getLast? with | some x => x.2.status | none => m.far
      if held = snap.status && m.adopted && !(m.stale && q.isEmpty) then s
      else s.modLink d fun l => { l with snaps := upd l.snaps b fun q => q ++ [(start + sfLat + s.lamp.gband, snap)] }
    else s
  (List.range 8).foldl one s

/-- MIRROR_REFRESH: the copies the mirror slot visits take their values and are live (R15, R77). -/
def takeMirror (s : State) (d : Die) (no : Nat) (f : List Byte) : State :=
  let l := mirVisit s d.other no
  (List.range l.length).foldl (fun s k =>
    let n := l.getD k 0
    let at_ := 132 + 5 * k
    let s := s.modBuoy n fun b =>
      { b with mval := wd (ofLe ((f.drop at_).take 4)), mscale := f.getD (at_ + 4) 0, mstale := false, mAt := s.now }
    byReceived s d n) s

/-- The counter a DS event names as the CS die knows it: its cause stands in the name except for a buoy's one counter. -/
def remoteKey (code : BitVec 16) (unit elem : Nat) : CtrKey :=
  let sub := codeSub code
  ⟨codeDie code, sub, if sub = 1 then 0 else codeInst code, unit, if sub = 7 || sub = 1 then 0 else elem,
   if sub = 14 then 0 else codeCause code⟩

/-- What the CS die learns of a DS buoy's counter (R572). -/
def remoteBuoy (s : State) (code : BitVec 16) (unit elem wc : Nat) (decl : Bool) : State :=
  if codeSub code = 14 then
    s.modBuoy (unit * 256 + elem) fun b => { b with rdecl := decl, rwcount := wc, rviol := codeCause code }
  else s

/-- A complete event on the CS die: a declaration becomes a fault record (R33) and goes to the Watch Room, a single event or
a release to the Watch Room only (R16, R348). -/
def remoteEvent (s : State) (e : DsEvent) : State :=
  let code : BitVec 16 := BitVec.ofNat 16 (fld e.w0 31 16)
  let elem := fld e.w0 15 8
  let wc := fld e.w0 7 0
  let unit := fld e.w1 31 24
  let key := remoteKey code unit elem
  let kind := fld e.w1 12 11
  if kind = kDeclare then
    let t : Int := (s.now : Int) + cdiff e.w2 (count s .cs)
    let w := faultWords s.kp.seqNo code unit (fld e.w1 23 16) elem wc e.w2 (netNs s t.toNat)
      (recWord5 (fld e.w1 15 13) (classOf s code elem) true true) e.w3
    let s := logFault s w
    remoteBuoy (s.modWr fun x => { x with inbox := x.inbox ++ [.declare key code unit elem e.w3] }) code unit elem wc true
  else if kind = kRelease then
    remoteBuoy (s.modWr fun x => { x with inbox := x.inbox ++ [.release key] }) code unit elem wc false
  else if code = ov3Code then s.modWr fun x => { x with ov3Rx := true }
  else if codeSub code = 15 && codeCause code = 0x0F then wrSignal s elem
  else s

/-- FAULT_RECORD_ASSEMBLE: fragments 0 to 3 of four consecutive accepted superframes; a copy of the last event is discarded
(R16). -/
def takeEvent (s : State) (count : BitVec 16) (f : List Byte) : State :=
  let b := wd (f.getD 172 0).toNat
  let k := fld b 6 5
  let w := wd (ofLe ((f.drop 173).take 4))
  let clear (s : State) : State := { s with x := { s.x with parts := [] } }
  if !bitOf b 4 then clear s
  else if k = 0 then { s with x := { s.x with parts := [w], partCount := count } }
  else if s.x.parts.length = k && s.x.partCount + 1 = count then
    let p := s.x.parts ++ [w]
    if k = 3 then
      let e : DsEvent := ⟨wat p 0, wat p 1, wat p 2, wat p 3⟩
      if s.x.lastEvent = some e then clear s
      else remoteEvent (clear { s with x := { s.x with lastEvent := some e } }) e
    else { s with x := { s.x with parts := p, partCount := count } }
  else clear s

/-- What the CS die takes from an accepted DS superframe's control slot: stage commands, the DS target, the DS supplies, the
event fragment (R16, R395, R456). -/
def csTake (s : State) (count : BitVec 16) (f : List Byte) : State :=
  let t := ofLe ((f.drop 169).take 3)
  let s := { s with x := { s.x with csCmd := f.getD 168 0x55, dsTarget := t % 2 ^ 17, dsLimch := t / 2 ^ 17 % 32 }
                    sup := { s.sup with dsSeen := BitVec.ofNat 12 ((f.getD 172 0).toNat % 16 * 256) } }
  takeEvent (applyCsOverrides s) count f

/-- A held report of the Watch Room sets the instance OFF and WRINH while it lasts (R395); CROWBAR is not left by it (R392). -/
def heldTake (s : State) (rep : BitVec 4) : State :=
  let s := { s with x := { s.x with heldRx := rep } }
  [0, 1, 2, 3].foldl (fun s i =>
    let h := rep.getLsbD i && cvOn s i
    let s := s.modConv i fun x => { x with wrInh := h }
    if h && (nth s.conv i).state ≠ 0 && (nth s.conv i).state ≠ 5 then cvOff s i false else s) s

/-- What the DS die takes from an accepted CS superframe's control slot: the held reports and F; the acknowledgement is
judged (R16, R395, R456). -/
def dsTake (s : State) (start : Nat) (f : List Byte) : State :=
  let t := ofLe ((f.drop 169).take 3)
  let s := judgeAll s (start - 2 * sfLen) (some (f.getD 167 0))
  heldTake { s with x := { s.x with fRx := t % 2 ^ 17, limchRx := t / 2 ^ 17 % 32 } } (BitVec.ofNat 4 (f.getD 168 0).toNat)

/-- An accepted superframe: the last accepted count, the end of crossing loss, then its slots; each count skipped that had
not been rejected on arrival is one rejection (R17). The acceptance that the acknowledgement and the 2 µs of XLOSS go by is dated
by the end of its arrival, `start` + 80 + 24 (assumption log 31). -/
def sfAccept (s : State) (d : Die) (start : Nat) (n : BitVec 16) (f : List Byte) : State :=
  let l := s.link d
  let ahead := (n - l.lastCount).toNat
  let skipped := if l.haveCount && !l.loss then
      ((List.range (ahead - 1)).filter fun i => !l.rejected.contains (l.lastCount + BitVec.ofNat 16 (i + 1))).length
    else 0
  let s := (List.range skipped).foldl (fun s _ => sfReject s d 4) s
  let no := rxNumber l start n
  let s := s.modLink d fun l =>
    { l with lastCount := n, haveCount := true, rxNo := no, acceptAt := start + sfLen + sfLat, rejected := [], lane := 4, loss := false, aligned := true
             acks := ((start + sfLen + sfLat, n.truncate 8) :: l.acks).take 4 }
  let s := takeMirror (takeSnaps s d start f) d no f
  match d with
  | .cs => csTake s n f
  | .ds => dsTake s start f

/-- SUPERFRAME_RECEIVED: an arriving superframe is checked for coding, CRC-32, count and cycle count, and accepted or
rejected (R16, R17, R27). It is taken at its arrival, 24 cycles after it started (assumption log 31). One that fails coding or CRC
stands for the count its own header shows (assumption log 168); the first after training is not held to the count window
(assumption log 169). -/
def execSuperframeReceived (die : Die) (frame : List Byte) (viol : Option (Fin 4)) (s : State) :
    Host.Outcome State Fault Refusal :=
  .next (
    if !(s.link die).up then s
    else
      let s := s.advanceTo ((s.link die).rxAt + sfLen + sfLat)
      let r0 := (s.link die).rxAt
      let start := r0 + (s.now - sfLat - r0) / sfLen * sfLen
      let lane := match viol with | some v => v.val | none => 4
      let s := s.modLink die fun l => { l with rxAt := start, lane := if l.lane = 4 then lane else l.lane }
      let l := s.link die
      let n : BitVec 16 := BitVec.ofNat 16 (ofLe ((frame.drop 2).take 2))
      let good := viol.isNone && frame.length == 200 && crc32 (frame.take 196) == wd (ofLe (frame.drop 196))
      let ahead := (n - l.lastCount).toNat
      let inWindow := l.loss || !l.haveCount || (1 ≤ ahead && ahead ≤ 9)
      if !good || !inWindow then
        let s := if die == .ds then judgeAll s (start - 2 * sfLen) none else s
        let s := s.modLink die fun l => { l with rejected := if 1 ≤ ahead && ahead ≤ 9 && !l.rejected.contains n then n :: l.rejected else l.rejected }
        sfReject s die lane
      else
        let diff := sx 16 (ofLe (frame.take 2) + 65536 - (countAt s die start).toNat % 65536)
        if diff.natAbs ≤ 1 then sfAccept s die start n frame
        else
          let s := if die == .ds then judgeAll s (start - 2 * sfLen) none else s
          if !l.aligned then s
          else
            let s := s.modLink die fun l => { l with aligned := false }
            if l.loss then xEvent s die l.lane 4 else lossEnter s die 4)

/-- SNAPSHOT_ADOPT: 24 + G cycles after the superframe started the far die adopts the snapshot (R132, R136). -/
def execSnapshotAdopt (die : Die) (beam : Fin 8) (s : State) : Host.Outcome State Fault Refusal :=
  .next (
    let b := beam.val
    match (s.link die).snaps.getD b [] with
    | [] => s
    | (t, x) :: rest =>
      let s := (s.advanceTo t).modLink die fun l => { l with snaps := upd l.snaps b fun _ => rest }
      if !bmOn s b || bmHome s b == die then s
      else
        let s := setAnchor s die b { p0 := x.p0, cyc := x.cyc, speed := x.speed, t0 := x.t0, lim := none }
        posCheck (s.modBeam die b fun m =>
          { m with far := x.status, stale := x.status.getLsbD 15, subst := x.status.getLsbD 14, adopted := true, lastUpd := s.now }))

/-! ## Training (R19, R27) -/

/-- Both ends start with the lanes trained. -/
def linkStart (s : State) : Link :=
  { up := true, sendAt := s.now, acceptAt := s.now, rxAt := s.now - sfLen, aligned := true
    safeSendAt := s.now, safeRxAt := s.now - smLen, safeGoodAt := s.now - smLen }

/-- Start-up stops (R536): SYS_EVT.HALT. -/
def haltAt (s : State) (step : Nat) : State :=
  { s with sys := { s.sys with halt := true, haltStep := step, sysEvt := orBit s.sys.sysEvt 1 } }

/-- CROSSING_TRAINING: one attempt of at most 200 µs in start-up step 6; success fixes the latency and loads the DS cycle
count within ±1 of the CS count; a third failure raises TRAIN and stops start-up (R19, R27). -/
def execCrossingTraining (ok : Bool) (align : Fin 3) (s : State) : Host.Outcome State Fault Refusal :=
  .next (
    if s.sys.step ≠ 6 || s.sys.halt || s.x.trained || s.sys.csReset then s
    else
      let s := s.advanceTo (s.now + 200 * usec)
      if ok then
        { s with dsOfs := s.csOfs + wd align.val - 1
                 clk := { s.clk with dsLock := true }
                 x := { s.x with trained := true, upAt := s.now, attempts := s.x.attempts + 1, cs := linkStart s, ds := linkStart s } }
      else
        let s := { s with x := { s.x with attempts := s.x.attempts + 1 } }
        if 3 ≤ s.x.attempts then haltAt (xEvent s .cs 4 3) 6 else s)

/-! ## The safety lane (R20 to R25) -/

/-- The content of a CS message: command code, alive counter with argument, fraction (R21, R22). -/
def csMessage (s : State) (alive : BitVec 4) : List Byte :=
  [s.wr.cmd, BitVec.ofNat 8 (alive.toNat * 16 + s.wr.cmdArg.toNat), if s.wr.cmd = 0xA5 then s.wr.cmdFrac else 0]

/-- The content of a DS message: level, OV1, OV2, chopper, suspects; alive counter; the last PTSEQ (R21; assumption log
32). -/
def dsMessage (s : State) (alive : BitVec 4) : List Byte :=
  [BitVec.ofNat 8 (s.prot.severity % 8 * 32 + atBit s.prot.ov1 4 + atBit (isLatched s 0x50) 3 + atBit (isLatched s 0x52) 2 + suspectSet s % 4),
   BitVec.ofNat 8 (alive.toNat * 16), BitVec.ofNat 8 s.prot.ptseq]

/-- SAFETY_MESSAGE_SEND: every 400 ns the next message; the alive counter advances with each message time. A transmitter
stopped by the clock monitor sends nothing (R20, R21, R24, R28). -/
def execSafetyMessageSend (die : Die) (s : State) : Host.Outcome State Fault Refusal :=
  .next (
    if !(s.link die).up then s
    else
      let s := s.advanceTo (s.link die).safeSendAt
      let a := (s.link die).safeAlive + 1
      let m := match die with | .cs => csMessage s a | .ds => dsMessage s a
      let stopped := die == .cs && s.clk.wrTxOff
      s.modLink die fun l =>
        { l with safeAlive := a, safeSendAt := s.now + smLen, safeSent := if stopped then [] else m ++ [crc8 m] })

/-- The severity a command code requests (R22); none where the code is not in the table. -/
def cmdLevel (code : Byte) : Option Nat :=
  if code = 0x96 then some 1 else if code = 0xA5 then some 2 else if code = 0xC3 then some 4
  else if code = 0x3C then some 5 else if code = 0x69 then some 6 else none

/-- WATCH_ROOM_COMMAND_APPLY: the protection unit takes the level a valid command requests; a PERMIT is noted by every
latch; a SAFE_GROUP may bring the suspect set to hold both groups (R23, R326, R329, R336). -/
def wrCmdApply (s : State) (b0 b1 b2 : Byte) (lvl : Nat) : State :=
  if s.sys.dsBoot then s
  else
    let latches := if b0 = 0x96 then s.prot.latches.map fun l => { l with permit := true } else s.prot.latches
    let s := { s with prot := { s.prot with
      wrValid := true, wrCode := b0, wrArg := BitVec.ofNat 4 b1.toNat, wrFrac := b2, wrLevel := lvl, latches := latches } }
    if oppDue s then checkOpp s 0 else setSeverity s

/-- A valid DS report on the CS die: at level 4 or more the contactors of a lockout open at once (R358); the return to level 1
ends the PRIO of the CS lanes (R335); a report of level 6 is noted for the next evaluation (R359). -/
def dsReportTake (s : State) (was : Nat) (lvl : Nat) : State :=
  let s := if lvl = 6 then s.modWr fun x => { x with sev6Rx := true } else s
  let s := if 4 ≤ lvl && s.wr.state = 3 && !s.wr.lockOpen then ctOpenAll (s.modWr fun x => { x with lockOpen := true }) else s
  if lvl = 1 && 1 < was then
    { s with lhCs := { s.lhCs with lanes := s.lhCs.lanes.map fun ln => { ln with prio := false } } }
  else s

/-- SAFETY_MESSAGE_RECEIVED: CRC-8, alive counter and code are checked; a valid message is applied, an invalid one counts
SMERR (R23, R24). The first message after training is not held to the alive counter (assumption log 169). -/
def execSafetyMessageReceived (die : Die) (b0 b1 b2 b3 : Byte) (s : State) : Host.Outcome State Fault Refusal :=
  .next (
    if !(s.link die).up then s
    else
      let s := s.advanceTo ((s.link die).safeRxAt + 2 * smLen + smLat)
      let r0 := (s.link die).safeRxAt
      let slot := r0 + (s.now - smLen - smLat - r0) / smLen * smLen
      let l := s.link die
      let steps := (slot - l.safeGoodAt) / smLen
      let alive : BitVec 4 := BitVec.ofNat 4 (b1.toNat / 16)
      let lvl : Option Nat := match die with
        | .ds => cmdLevel b0
        | .cs => let v := b0.toNat / 32; if 1 ≤ v && v ≤ 6 then some v else none
      let aliveOk := match l.rxAlive with | some a => alive == a + BitVec.ofNat 4 steps | none => true
      let s := s.modLink die fun l => { l with safeRxAt := slot }
      match (if crc8 [b0, b1, b2] == b3 && aliveOk then lvl else none) with
      | some v =>
        let was := csSeverity s
        let s := s.modLink die fun l =>
          { l with rxAlive := some alive, safeGoodAt := slot, safeRx := [b0, b1, b2, b3], safeUp := true, safeLoss := false }
        match die with
        | .ds => wrCmdApply s b0 b1 b2 v
        | .cs => dsReportTake s was v
      | none =>
        let (w, n) := wparam s 1 5 100 4
        countEvent (s.modLink die fun l => { l with safeErrCnt := satInc l.safeErrCnt })
          { key := ⟨die, 1, 8, 0, 8, 5⟩, cause := 5, w := w, n := n })

/-- SLOSS: three consecutive messages missing or invalid; the DS die applies level 4, the Watch Room takes a class A fault
(R24). -/
def execSloss (die : Die) (s : State) : Host.Outcome State Fault Refusal :=
  .next (
    let l := s.link die
    if !l.up || l.safeLoss then s
    else
      let s := s.advanceTo (l.safeGoodAt + 4 * smLen + smLat)
      let s := s.modLink die fun l => { l with safeLoss := true, safeUp := false }
      match die with
      | .ds => latchPlain s 0x59 fun s => xEvent s .ds 8 6
      | .cs => xEvent s .cs 8 6)

/-! ## Clocks (R26, R28) -/

/-- PLLUL: a PLL loses lock; on the DS die level 4 applies (R26, R28). -/
def execPllul (die : Die) (s : State) : Host.Outcome State Fault Refusal :=
  .next (
    match die with
    | .cs => if !s.clk.csLock then s else countEvent { s with clk := { s.clk with csLock := false } } (direct .cs 0 0 0 0 2 0)
    | .ds => if !s.clk.dsLock then s else latchPlain { s with clk := { s.clk with dsLock := false } } 0x5A fun s => countEvent s (direct .ds 0 0 0 0 2 0))

/-- XTAL: four consecutive crystal edges are missing (R28). -/
def execXtal (s : State) : Host.Outcome State Fault Refusal :=
  .next (if !s.clk.xtalOk then s else countEvent { s with clk := { s.clk with xtalOk := false } } (direct .cs 0 0 0 0 1 0))

/-- WRCLK_WINDOW: a 100 µs window ends with a count of the Watch Room oscillator; more than ±4 % off it counts, and the
declaration stops the safety-lane transmitter (R28). -/
def execWrclkWindow (cnt : Nat) (s : State) : Host.Outcome State Fault Refusal :=
  .next (
    if s.sys.csReset then s
    else
      let s := s.advanceTo ((if s.clk.winAt = 0 then s.now else s.clk.winAt) + 100 * usec)
      let dev : Int := (cnt : Int) - 10000
      let off := decide (400 < dev.natAbs)
      let s := { s with clk := { s.clk with winAt := s.now, clkDev := BitVec.ofInt 16 (satS 16 dev), wrMism := off } }
      if off then
        let key : CtrKey := ⟨.cs, 0, 0, 0, 0, 3⟩
        let s := countEvent s { key := key, cause := 3, w := 1, n := 3 }
        if isDeclared s key then { s with clk := { s.clk with wrTxOff := true } } else s
      else s)

end Sys2Proof.Machine
end

