-- ==== Sys2Proof/Machine/Gearbox.lean ====
section
/-! DEFINITION. Gearbox rows: the pre-drivers' supervision and the actuators' duties, current limit and stall watch (R432 to
R446). -/

namespace Sys2Proof.Machine

/-! ## Pre-drivers (R433, R434) -/

/-- A pre-driver's state. -/
def gdAt (s : State) (g : Nat) : Gd := s.gd.getD g {}

/-- One pre-driver changed. -/
def State.modGd (s : State) (g : Nat) (f : Gd → Gd) : State := { s with gd := upd s.gd g f }

/-- Both gates of a pre-driver are held off: a VDSOC latch of its actuator, or the bridge supply out of range or unresolved. -/
def gatesHeld (s : State) (g : Nat) : Bool := s.bridgeBad || s.bridgeUnres || actFaulty s (gxAct s g)

/-- The gate outputs of a pre-driver: the channel's outputs as far as the supervision lets them pass. -/
def gateHigh (s : State) (g : Nat) : Bool :=
  (gxDrv s g).isSome && !gatesHeld s g && !(gdAt s g).uv && !(gdAt s g).uvUnres
    && (chanNow s .cs (gxChan s g)).hiAt (now16 s)
def gateLow (s : State) (g : Nat) : Bool :=
  (gxDrv s g).isSome && !gatesHeld s g
    && (chanNow s .cs (gxChan s g)).loAt (chanMode s .cs (gxChan s g)) (now16 s)

/-- An event of a pre-driver (R445). -/
def gdEvent (s : State) (g cause : Nat) (detail : Word) : State :=
  let s := s.modAct (gxAct s g) fun x => { x with evt := orBit x.evt cause }
  countEvent s (direct .cs 20 g 0 g cause detail)

/-- VDSOC: VDS of the switch that is on exceeds VDSTH after blanking; the gates latch off (R433). -/
def execVdsoc (gd : Fin 8) (high : Bool) (s : State) : Host.Outcome State Fault Refusal :=
  .next (
    if if high then gateHigh s gd else gateLow s gd then
      gdEvent (s.modGd gd fun x => { x with vdsoc := true }) gd 1 (wd (b2n high))
    else s)

/-- BSUV: a bootstrap goes below its undervoltage level; the high gate is off while it lasts (R433). -/
def execBsuv (gd : Fin 8) (s : State) : Host.Outcome State Fault Refusal :=
  .next (
    let x := gdAt s gd
    if x.uvUnres || x.uv then s
    else
      let s := s.modGd gd fun y => { y with uv := true }
      if (gxDrv s gd).isSome then gdEvent s gd 2 0 else s)

/-- BOOTSTRAP_RECOVERED: the episode ends (R433). -/
def execBootstrapRecovered (gd : Fin 8) (s : State) : Host.Outcome State Fault Refusal :=
  .next (if (gdAt s gd).uvUnres then s else s.modGd gd fun y => { y with uv := false })

/-- The pre-drivers in use. -/
def gdUsed (s : State) : List Nat := (List.range 8).filter fun g => (gxDrv s g).isSome

/-- SUPUV_BRIDGE: the bridge supply leaves its range; every pre-driver's gates are off and each counts SUPUV (R433). -/
def execSupuvBridge (s : State) : Host.Outcome State Fault Refusal :=
  .next (
    if s.bridgeUnres || s.bridgeBad then s
    else (gdUsed s).foldl (fun s g => gdEvent s g 3 (wd (gxMode s g))) { s with bridgeBad := true })

/-- BRIDGE_SUPPLY_IN_RANGE: the gates follow their channels again (R433). -/
def execBridgeSupplyInRange (s : State) : Host.Outcome State Fault Refusal :=
  .next (if s.bridgeUnres then s else { s with bridgeBad := false })

/-- A clear of the VDSOC latches of a mask; those whose condition persists stay, and the clear is refused. The manual gives
that refusal no UCODE: a free value (R442, R446). -/
def gxClear (s : State) (mask : Nat) (present : Byte) : State :=
  let stay (g : Nat) : Bool := hasBit mask g && (gdAt s g).vdsoc && hasBit present.toNat g
  let refused := (List.range 8).any stay
  let t : State := { s with gd := s.gd.mapIdx fun g x => if hasBit mask g && !stay g then { x with vdsoc := false } else x }
  if refused then t.useFree.refuse (t.free.toNat % 256) else t.ok []

/-- GX_CLR: a write clears the latches whose condition has gone (R442, R446). -/
def execGxClr (mask present : Byte) (s : State) : Host.Outcome State Fault Refusal :=
  .next (writeGate s .cs fun s => gxClear s mask.toNat present)

/-! ## Actuators (R437 to R439) -/

/-- The cycle of the next update point of an actuator's group: its mid-point where a member takes duties there, its
boundary (R240, R250). -/
def gearUpdate (s : State) (a : Nat) : Option Nat :=
  match (actChans s a).head? with
  | none => none
  | some _ =>
    let g := actGroup s a
    let gr := nth s.pwmCs.grps g
    let mid := (gr.bAt + gr.per / 2) / 16
    let hasMid := (actChans s a).any fun c => 2 ≤ chanUpd s .cs c
    let hasEnd := (actChans s a).any fun c => chanUpd s .cs c ≠ 2
    if !gr.run then none
    else if hasMid && s.now + 3 ≤ mid then some mid
    else if hasEnd then some ((boundaryDue s .cs g).1 / 16)
    else some (((boundaryDue s .cs g).1 + gr.per / 2) / 16)

/-- The duty of the k-th pre-driver's channel (R437). -/
def gearDuty (s : State) (a k : Nat) : Int :=
  let drive := actDrive s a
  let p0 := (grpW s .cs (actGroup s a) 1).toNat
  let full := csRound .cs (divHalfAway ((drive.natAbs * p0 : Nat) : Int) 65536)
  let p := actPattern s a
  if actBldc s a then (if p ≤ 5 && patHigh p = k then full else 0)
  else if (k = 0 && 0 < drive) || (k = 1 && drive < 0) then full else 0

/-- GEAR_DUTY_UPDATE: in cycle u − 3 the duties and the FLOATs of an actuator (R437). -/
def execGearDutyUpdate (a : Fin 3) (s : State) : Host.Outcome State Fault Refusal :=
  .next (
    if (actDef s a).isNone || !s.sys.ready then s
    else match gearUpdate s a with
      | none => s
      | some u =>
        let s := actFloat (s.advanceTo (u - 3)) a
        (List.range (actChans s a).length).foldl (fun s k =>
          s.modChan .cs ((actChans s a).getD k 0) fun c => { c with dash := c.dash.write s.now (wi (gearDuty s a k)) }) s)

/-- OVERCUR: the current limit has held for OCT (R439). -/
def execOvercur (a : Fin 3) (s : State) : Host.Outcome State Fault Refusal :=
  .next (match (nth s.gact a).limAt with
    | some t =>
      if (nth s.gact a).ocDone then s
      else
        let s := s.advanceTo (t + fld (actW s a 3) 15 0 * msec)
        let i := mantOf (viewNow s .cs (fld (actW s a 1) 8 0)).rat (-8)
        actEvent (s.modAct a fun x => { x with ocDone := true }) a 4 (wi (satS 32 i))
    | none => s)

/-- STALL: no position count for STALLT under |DRIVE| ≥ STALLD; DRIVE is treated as 0 (R439). -/
def execStall (a : Fin 3) (s : State) : Host.Outcome State Fault Refusal :=
  .next (
    let x := nth s.gact a
    if (actDef s a).isNone || x.stalled || x.drive.toInt.natAbs < fld (actW s a 2) 15 0 then s
    else
      let s := s.advanceTo (max (max x.posAt x.driveAt) (s.t0.getD 0) + fld (actW s a 2) 31 16 * msec)
      let s := s.modAct a fun y => { y with stalled := true, sawZero := false }
      actEvent s a 5 (nth s.fb (actPosCh s a)).pos)

end Sys2Proof.Machine
end

