-- ==== Sys2Proof/Machine/Protection.lean ====
section
/-! DEFINITION. The meanings of the leg-protection rows (chapter 11): comparator levels and blanking, CHOPF, the speed
rule, clears, the latch log. -/

namespace Sys2Proof.Machine

/-! ## Comparator levels (R312 to R316, R320, R323, R332, R388) -/

/-- The instances whose current limit is a general comparator (R388). -/
def limitOf (s : State) (g : Nat) : List Nat := (List.range 4).filter fun i => cvOn s i && !cvLimSrc s i && cvLimGc s i == g

/-- A current-limit hit by LIMGC: the reference of RSRC is held low until its next half-period (R388). -/
def limitHit (s : State) (g : Nat) : State :=
  if gcRole s g = 4 && s.sys.dsReady then
    (limitOf s g).foldl (fun s i => s.modConv i fun x => { x with hitNow := true })
      (holdLow s .ds (fld (cpW s 1 g 5) 13 8) false)
  else s

/-- What follows when a live level of a comparator asserts (R293, R323, R332 to R334, R388). -/
def liveAsserts (s : State) (c : Comp) : State :=
  match c with
  | .gc g => match gcRole s g.val with
    | 1 => if s.sys.dsReady then ov1Change s g.val true else s
    | 2 => latchFixed s 0x50 0
    | 3 => if s.prot.chopOn then { s with prot := { s.prot with chopCur := true } } else s
    | 4 => limitHit s g.val
    | 5 => [0, 1].foldl (fun s m => if machOn s m && chopComp s m = g.val then chopCheck s m else s) s
    | _ => compAsserts s c
  | _ => compAsserts s c

/-- What follows when it deasserts: OV1 becomes inactive (R332); nothing else is released (R312, R323). -/
def liveDeasserts (s : State) (c : Comp) : State :=
  match c with
  | .gc g => if gcRole s g.val = 1 then ov1Change s g.val false else s
  | _ => s

/-- The live level is taken afresh, with what its change brings. -/
def liveUpdate (s : State) (c : Comp) : State :=
  let was := (compSt s c).live
  let is := liveNow s c
  let s := modComp s c fun x => { x with live := is }
  if (cpDef s (compPlace c).1 (compPlace c).2).isNone then s
  else if is && !was then liveAsserts s c
  else if was && !is then liveDeasserts s c
  else s

/-- The input of a comparator takes a side of its band; the side away from the threshold resolves it once the thresholds are
loaded (R320). -/
def compInput (s : State) (c : Comp) (asserted : Bool) : State :=
  let resolving := 9 ≤ s.sys.step || s.sys.dsReady
  liveUpdate (modComp s c fun x => { x with raw := asserted, unres := x.unres && (asserted || !resolving) }) c

/-- COMPARATOR_LEVEL_CHANGE: the input of a comparator crosses its threshold, or returns past it by the hysteresis; a return
resolves an UNRESOLVED comparator (R312, R314, R320). -/
def execComparatorLevelChange (c : Comp) (asserted : Bool) (s : State) : Host.Outcome State Fault Refusal :=
  .next (compInput s c asserted)

/-- BLANKING_END: a blanking window ends; a raw level asserted then asserts the live level (R313, R314, R315). -/
def execBlankingEnd (c : Comp) (s : State) : Host.Outcome State Fault Refusal :=
  .next (
    let b := blankStart s c
    if b ≤ (compSt s c).blankUntil || (compSt s c).blank = 0 || (compSt s c).unres || anaForced s then s
    else
      let fin := (10 * b + blank64 (compSt s c).blank + 159) / 160
      let inside := s.now ≤ fin
      let s := s.advanceTo fin
      if blanked s c then s
      else
        let s := modComp s c fun x => { x with blankUntil := b, live := x.live && !inside }
        liveUpdate s c)

/-! ## CHOPF (R333) -/

/-- CHOPF latches and the chopper is commanded off; OV1 that became active in this cycle gives OV1F (R338). -/
def chopFault (s : State) (why : Nat) : State :=
  let s := latchFixed s 0x52 why
  setChop (if s.prot.ov1 && s.prot.ov1At = s.now then latchFixed s 0x53 (b2n (!chopEn s)) else s)

/-- CHOPF: the chopper has been on for 2 µs without current, or has current more than 2 µs after it was commanded off
(R333). -/
def execChopf (s : State) : Host.Outcome State Fault Refusal :=
  .next (
    if !chopEn s || !s.sys.dsReady || isLatched s 0x52 then s
    else
      let cur := match gcOf s 3 with | some g => gcLive s g | none => false
      if s.prot.chopOn then
        if s.prot.chopCur || cur then s else chopFault (s.advanceTo (s.prot.chopAt + 2 * usec)) 0
      else if cur then chopFault (s.advanceTo (s.prot.chopAt + 2 * usec + 1)) 1
      else s)

/-! ## The speed rule (R327) -/

/-- Whether a machine is under the speed rule: at level 4, or in a confined reaction below it. -/
def ruleActive (s : State) (x : MSafe) : Bool := s.prot.severity == 4 || ((x.conf0 || x.conf1) && s.prot.severity < 4)

/-- Whether |f_m| is known and below f_ug × (256 − SRHYS) / 256. -/
def belowHyst (s : State) (m : Nat) : Bool :=
  match fm s m with
  | some f => ((f.natAbs : Nat) : Rat) / 256 < fug s m * ((256 - fld (ptCfg s 3) 31 24 : Nat) : Rat) / 256
  | none => false

/-- One machine's evaluation of the speed rule. -/
def ruleEval (s : State) (m : Nat) (x : MSafe) : MSafe :=
  if !machOn s m || !ruleActive s x then x
  else if x.st = 1 then (if fmBelow s m then x else { x with st := ascState s m, belowAt := none })
  else if x.st = 2 || x.st = 3 then
    (if belowHyst s m then { x with belowAt := some (x.belowAt.getD s.now) } else { x with belowAt := none })
  else x

/-- SPEED_RULE_TICK: every 1 µs the speed rule is evaluated for each machine (R327, R329). -/
def execSpeedRuleTick (s : State) : Host.Outcome State Fault Refusal :=
  .next (
    let s := s.advanceTo (if s.prot.ticked = 0 then s.now else s.prot.ticked + usec)
    let s := { s with prot := { s.prot with ticked := s.now, msafe := s.prot.msafe.mapIdx fun m x => ruleEval s m x } }
    checkOpp (applyOverrides s) 0)

/-- SPEED_RULE_HYSTERESIS_END: |f_m| has stayed below the hysteresis speed for SRTIME; group ASC gives way to pulse inhibit
(R327). -/
def execSpeedRuleHysteresisEnd (m : Fin 2) (s : State) : Host.Outcome State Fault Refusal :=
  .next (
    let x := nth s.prot.msafe m.val
    match x.belowAt with
    | none => s
    | some t =>
      if !ruleActive s x || x.st < 2 then s
      else
        let s := s.advanceTo (t + fld (ptCfg s 3) 15 0 * msec)
        if belowHyst s m.val then
          applyOverrides { s with prot := { s.prot with msafe := upd s.prot.msafe m.val fun x => { x with st := 1, belowAt := none } } }
        else { s with prot := { s.prot with msafe := upd s.prot.msafe m.val fun x => { x with belowAt := none } } })

/-! ## Clears (R336, R337) -/

/-- Whether the comparator of a role is asserted or UNRESOLVED. -/
def roleLive (s : State) (role : Nat) : Bool :=
  match gcOf s role with
  | some g => if h : g < 8 then liveNow s (.gc ⟨g, h⟩) || (nth s.prot.gc g).unres else false
  | none => false

/-- The comparator of a source. -/
def srcComp (src : Nat) : Option Comp :=
  if h : src < 0x20 then some (.trip ⟨src, h⟩)
  else if h : src - 0x20 < 0x20 then some (.hard ⟨src - 0x20, h⟩)
  else if h : src - 0x40 < 8 then some (.gc ⟨src - 0x40, h⟩)
  else none

/-- Whether a latched source's live level is asserted or its condition present (R336, R392). -/
def srcActive (s : State) (src : Nat) : Bool :=
  match srcComp src with
  | some c => liveNow s c || ((compSt s c).unres && (compSt s c).enabled)
  | none =>
    if src = 0x50 then roleLive s 2
    else if src = 0x51 then decide ((ptCfg s 2).toInt < (viewNow s .ds (vdcBuoy s)).m)
    else if src = 0x52 then roleLive s 3
    else if src = 0x53 then roleLive s 1
    else if src = 0x54 then oppGroups s
    else if src = 0x58 then s.x.ds.loss
    else if src = 0x59 then s.x.ds.safeLoss
    else if src = 0x5A then !s.clk.dsLock
    else match srcConv src with
      | some i => src % 8 == 1 && decide (cvOvp s i < cvOut s i)
      | none => false

/-- Whether a source's window counter is declared (R80, R81, R336). -/
def srcDeclared (s : State) (src : Nat) : Bool :=
  if src < 0x48 then isDeclared s (srcKey src (compCause src)) || isDeclared s (srcKey src 4)
  else match srcMach src with
    | some m => isDeclared s ⟨.ds, 7, m, 0, 0, src % 16 + 1⟩
    | none => match srcConv src with
      | some _ => isDeclared s (srcKey src (src % 8))
      | none => fixedCause src ≠ 0 && isDeclared s (srcKey src (fixedCause src))

/-- Whether some machine's speed is unknown or at or above f_ug. -/
def someFast (s : State) : Bool := [0, 1].any fun m => machOn s m && !fmBelow s m

/-- The answer to a clear of one source: 0 cleared, 1 NOLATCH, 2 ACTIVE, 3 DECLARED, 4 SPEED, 5 PERMIT (R336, R338). -/
def clearStatus (s : State) (src : Nat) : Nat :=
  match s.prot.latches.find? fun l => l.src == src with
  | none => 1
  | some l =>
    if l.at_ = s.now || srcActive s src then 2
    else if srcDeclared s src then 3
    else if 4 ≤ l.level && someFast s then 4
    else if (l.level = 6 || src = 0x51) && !l.permit then 5
    else 0

/-- What the clear of one source ends in other units: open phases and the confined reaction of OPENPH (R330), the CROWBAR of a
converter (R392), the chopper's hold (R333). LATCHOFF is left at the next evaluation (R389). -/
def afterClear (s : State) (src : Nat) : State :=
  if src = 0x63 || src = 0x73 then
    let m := if src = 0x63 then 0 else 1
    let s := s.modMach m fun x => { x with openPh := 0, degraded := false }
    { s with prot := { s.prot with msafe := upd s.prot.msafe m fun x => { x with conf0 := false, conf1 := false } } }
  else match srcConv src with
    | some i =>
      let st := (nth s.conv i).state
      if src % 8 = 1 && st = 5 then (if isLatched s (0x83 + 8 * i) then cvEnter s i 4 else cvOff s i false) else s
    | none => if src = 0x52 then setChop s else s

/-- One latch removed, and the severity from the others (R337). -/
def clearOne (s : State) (src : Nat) : State :=
  let s := { s with prot := { s.prot with latches := s.prot.latches.filter fun l => l.src != src } }
  setSeverity (afterClear s src)

/-- The answer of a clear in PT_CLRSTAT and in the access status (R336, R506). -/
def clearAnswer (s : State) (st src : Nat) : State :=
  let s := { s with prot := { s.prot with clrStat := wd (st * 2 ^ 24 + src) } }
  if st = 0 then s.ok [] else s.refuse st

/-- PT_CLR of one source (R336, R337). -/
def execPtClr (src : Byte) (s : State) : Host.Outcome State Fault Refusal :=
  .next (writeGate s .ds fun s =>
    let st := clearStatus s src.toNat
    clearAnswer (if st = 0 then clearOne s src.toNat else s) st src.toNat)

/-- The latched sources in ascending order. -/
def latchedSources (s : State) : List Nat := (List.range 256).filter fun n => isLatched s n

/-- Every source that meets its conditions cleared, with the first refusal. -/
def clearAll (s : State) : State × Option (Nat × Nat) :=
  (latchedSources s).foldl (fun (s, r) src =>
    let st := clearStatus s src
    if st = 0 then (clearOne s src, r) else (s, some (r.getD (st, src)))) (s, none)

/-- PT_CLR with ALL: every latched source that meets its conditions is cleared, and the first refusal is reported (R336). -/
def execPtClrAll (s : State) : Host.Outcome State Fault Refusal :=
  .next (writeGate s .ds fun s =>
    match clearAll s with
    | (s, some (st, src)) => clearAnswer s st src
    | (s, none) => clearAnswer s.useFree 0 (s.free.toNat % 256))

/-! ## The latch log (R345) -/

/-- PT_LOGLO read: the oldest record's count; the read latches its high word. -/
def execPtLogReadLow (s : State) : Host.Outcome State Fault Refusal :=
  .next (regGate s .ds fun s =>
    match s.prot.log with
    | (lo, hi) :: _ => ({ s with prot := { s.prot with logHi := hi } } : State).ok [lo]
    | [] => ({ s with prot := { s.prot with logHi := 0 } } : State).ok [0])

/-- PT_LOGHI read: the latched high word; the read removes the record. -/
def execPtLogReadHigh (s : State) : Host.Outcome State Fault Refusal :=
  .next (regGate s .ds fun s =>
    ({ s with prot := { s.prot with log := s.prot.log.tail } } : State).ok [s.prot.logHi])

end Sys2Proof.Machine
end

