-- ==== Sys2Proof/Machine/Thermal.lean ====
section
/-! DEFINITION. Temperature, throttling and lamp-hours rows (R448 to R468). -/

namespace Sys2Proof.Machine

/-! ## Sampling (R449 to R454) -/

/-- Breakpoint k of an external channel: its code and its temperature. -/
def thPoint (s : State) (c k : Nat) : Int × Int := (fld (thW s c (3 + k)) 27 16, sfld (thW s c (3 + k)) 15 0)

/-- The reading of an external channel's code through the breakpoints, the outer segments extended (R449). -/
def thConvert (s : State) (c x : Nat) : Int :=
  let k := ((List.range 7).find? fun k => decide ((x : Int) ≤ (thPoint s c (k + 1)).1)).getD 6
  let (x0, t0) := thPoint s c k
  let (x1, t1) := thPoint s c (k + 1)
  satS 16 (rndAway ((t0 : Rat) + quo 449 (((x : Int) - x0) * (t1 - t0) : Int) ((x1 - x0 : Int) : Rat)))

/-- Whether an external code lies outside the electrical range (R450). -/
def thOutside (s : State) (c x : Nat) : Bool := c < 16 && (x < fld (thW s c 2) 11 0 || fld (thW s c 2) 27 16 < x)

/-- An event of a channel in the counter of its cause (R471). -/
def thEvent (s : State) (c cause : Nat) (r : Int) : State :=
  let s := s.modTemp c fun x => { x with evt := orBit x.evt cause }
  let w := wat ((recsOf (recsIn s (thDie c)) sTHERMAL 2).headD []) 1
  countEvent s { key := ⟨thDie c, 10, c / 2, if c < 16 then 0 else 1, c, cause⟩, cause := cause, w := fld w 31 16
                 n := fld w 7 0, detail := wi r, early := false }

/-- The interval code of a margin and its cycles (R451). -/
def thIvl (m : Int) : Nat := if 480 < m then 2 else if 160 ≤ m then 1 else 0
def thCycles (ivl : Nat) : Nat := if ivl = 2 then 10 * msec else if ivl = 1 then msec else 100 * usec

/-- A channel takes a sample: its reading, the interval to the next one, and the events of R450 and R454, each once per
episode. -/
def thSample (s : State) (c : Nat) (code : BitVec 16) : State :=
  let was := tempAt s c
  let x := code.toNat % 4096
  let brk := thOutside s c x
  let r := if brk then thLimit s c + 16 else if c < 16 then thConvert s c x else code.toInt
  let lim := decide (thLimit s c ≤ r)
  let hot := decide (16 ≤ c) && decide (2400 < r)
  let ivl := thIvl (thLimit s c - r)
  let next := s.now + (if was.curveAt.isSome then 100 * msec else thCycles ivl)
  let s := s.modTemp c fun y =>
    { y with val := BitVec.ofInt 16 r, unknown := false, broken := brk, limit := lim, hot := hot, ivl := ivl, nextAt := next }
  let s := if brk && !was.broken then thEvent s c 1 r else s
  let s := if lim && !was.limit then thEvent s c 2 r else s
  if hot && !was.hot then thEvent s c 3 r else s

/-- The ambient channel's readings are summed for the curves that run (R460). -/
def thAmbient (s : State) (c : Nat) : State :=
  if fld (thCfg s 3) 4 0 ≠ c then s
  else { s with temp := s.temp.map fun y =>
    if y.curveAt.isSome then { y with ambSum := y.ambSum + thVal s c, ambN := y.ambN + 1 } else y }

/-- A reading goes to the channel's buoys and to the converters that watch it (R397, R452). -/
def thPass (s : State) (c : Nat) : State :=
  if 16 ≤ c || !s.runs (thDie c) then s
  else
    let r := thVal s c
    let s := { s with conv := s.conv.mapIdx fun i x => if cvOn s i && cvTch s i == c then { x with tt := x.tt.sample r } else x }
    offerAll s 4 c r

/-- TEMPERATURE_SAMPLE: a configured channel is sampled, from start-up step 8 on; the code is the converter's, or for an
on-die channel its calibrated reading (R448 to R454). -/
def execTemperatureSample (c : Fin 28) (code : BitVec 16) (s : State) : Host.Outcome State Fault Refusal :=
  .next (
    if (thRec s c).isNone || (s.sys.step < 8 && !s.sys.ready) then s
    else
      let s := s.advanceTo (tempAt s c).nextAt
      thPass (thAmbient (thSample s c code) c) c)

/-! ## Throttling (R455 to R457) -/

/-- f_c in 1/65,536, rounded down (R455). -/
def thFactor (s : State) (c : Nat) : Nat :=
  let knee := (tempAt s c).knee.toInt
  let q := 1 - quo 455 ((thVal s c - knee : Int) : Rat) ((thLimit s c - knee : Int) : Rat)
  ((max 0 (min 1 q)) * 65536).floor.toNat

/-- A die's channels with ENTH. -/
def thThrottling (s : State) (d : Die) : List Nat :=
  (List.range 28).filter fun c => (thRec s c).isSome && thEnth s c && thDie c == d

/-- A die's target and LIMCH: the smallest factor and the lowest channel that gives it (R456). -/
def dieTarget (s : State) (d : Die) : Nat × Nat :=
  (thThrottling s d).foldl (fun a c => if thFactor s c < a.1 then (thFactor s c, c) else a)
    (match thThrottling s d with | c :: _ => (thFactor s c, c) | [] => (65536, 0))

/-- The device target and its LIMCH on the CS die (R456, R457). -/
def deviceTarget (s : State) (cs : Nat × Nat) : Nat × Nat :=
  let ds := (if s.x.cs.loss then 0 else s.x.dsTarget, s.x.dsLimch)
  if cs.1 < ds.1 then cs else if ds.1 < cs.1 then ds else (cs.1, min cs.2 ds.2)

/-- F moved toward the target (R456). -/
def moveF (s : State) (t : Nat) : Nat :=
  let f := s.lamp.fCs
  if !s.lamp.fInit then t
  else if t < f then max t (f - fld (thCfg s 0) 15 0) else min t (f + fld (thCfg s 0) 31 16)

/-- THROTTLE_UPDATE: every 1 ms the factors, the die targets and F; FBUOY is offered F (R455 to R457). The DS die computes its
own while the CS die is in reset. -/
def execThrottleUpdate (s : State) : Host.Outcome State Fault Refusal :=
  .next (
    if !s.sys.ready && !s.sys.dsReady then s
    else
      let s := s.advanceTo ((if s.lamp.thrAt = 0 then s.t0.getD 0 else s.lamp.thrAt) + msec)
      let s := { s with temp := s.temp.mapIdx fun c x =>
        if (thRec s c).isSome && thEnth s c then { x with fact := thFactor s c } else x }
      let ds := dieTarget s .ds
      let s := { s with lamp := { s.lamp with thrAt := s.now, fDs := ds.1, dsLimch := ds.2 } }
      if !s.sys.ready then s
      else
        let cs := dieTarget s .cs
        let t := deviceTarget s cs
        let f := moveF s t.1
        let s := { s with lamp := { s.lamp with fCs := f, fInit := true, limch := t.2, csTarget := cs.1, csLimch := cs.2 } }
        if bitOf (thCfg s 2) 9 then offer s (fld (thCfg s 2) 8 0) f (-16) else s)

/-! ## Lamp-hours measurements (R459 to R461) -/

/-- The amplitude means of both resolver channels since the last measurement, with their baselines and RESDRIFT. -/
def ampMeasured (s : State) : State :=
  [0, 1].foldl (fun s r =>
    let x := (nth s.fb r).res
    if x.aN = 0 then s
    else
      let m := (divHalfAway x.aSum x.aN).toNat
      let s := s.modFb r fun f => { f with res := { f.res with aSum := 0, aN := 0 } }
      let s := { s with lamp := if r = 0 then { s.lamp with res0 := BitVec.ofNat 16 m } else { s.lamp with res1 := BitVec.ofNat 16 m } }
      match s.nv.resBase.getD r none with
      | none => { s with nv := { s.nv with resBase := s.nv.resBase.set r (some m) } }
      | some b =>
        if fld (laCfg s 3) 23 16 < ((m : Int) - b).natAbs then laEvent s 0 0 0 5 (wd r) else s) (baseImage s)

/-- LAMP_MEASUREMENT: the path-delay slack, every 10 s, or the resolver amplitude means, every 1 s (R459, R461). -/
def execLampMeasurement (x : LampMeas) (s : State) : Host.Outcome State Fault Refusal :=
  .next (
    if !s.csLoaded then s
    else match x with
      | .slack cs ds =>
        let s := s.advanceTo (s.lamp.slackAt + 10000 * msec)
        slackMeasured { s with lamp := { s.lamp with slackAt := s.now } } cs ds
      | .amplitude =>
        let s := s.advanceTo (s.lamp.ampAt + 1000 * msec)
        ampMeasured { s with lamp := { s.lamp with ampAt := s.now } })

/-- SWITCHING_DELAY_EDGE: a delay joins the last 1,024 of its output (R459, R461). -/
def execSwitchingDelayEdge (ch : Fin 48) (high turnOn : Bool) (delay : BitVec 16) (s : State) :
    Host.Outcome State Fault Refusal :=
  .next (
    if !isLeg s ch then s
    else
      let put (l : List Nat) : List Nat := (delay.toNat :: l).take 1024
      let s := { s with lamp := { s.lamp with legs := s.lamp.legs.modify ch.val fun x =>
        match high, turnOn with
        | true, true => { x with hOn := put x.hOn }
        | true, false => { x with hOff := put x.hOff }
        | false, true => { x with lOn := put x.lOn }
        | false, false => { x with lOff := put x.lOff } } }
      takeBases s fun q => 1 ≤ q && q ≤ 5)

/-- COOLING_CURVE_START: traction inhibited for 2 s, the channel at least 10 K above ambient (R460). -/
def execCoolingCurveStart (c : Fin 28) (s : State) : Host.Outcome State Fault Refusal :=
  .next (match s.lamp.inhAt with
    | some t =>
      if (thRec s c).isNone || !thZmeas s c || (tempAt s c).curveAt.isSome then s
      else
        let s := s.advanceTo (t + 2000 * msec)
        let amb := thVal s (fld (thCfg s 3) 4 0)
        if thVal s c < amb + 160 then s
        else s.modTemp c fun x =>
          { x with curveAt := some s.now, t0v := thVal s c, ambSum := amb, ambN := 1, nextAt := s.now + 100 * msec }
    | none => s)

/-- The time constant of a curve, where its ratio is at least 1.05 (R460). -/
def curveTau (s : State) (c : Nat) : Option Rat :=
  let x := tempAt s c
  let ta := (x.ambSum : Rat) / (x.ambN : Rat)
  let ratio := quo 460 ((x.t0v : Rat) - ta) ((thVal s c : Rat) - ta)
  if ratio < 105 / 100 then none else some (quo 460 60 (lnR ratio))

/-- COOLING_CURVE_END: after 60 s the curve yields τ; the first valid one becomes the baseline (R460, R461). -/
def execCoolingCurveEnd (c : Fin 28) (s : State) : Host.Outcome State Fault Refusal :=
  .next (match (tempAt s c).curveAt with
    | none => s
    | some t =>
      let s := s.advanceTo (t + 60000 * msec)
      let tau := curveTau s c
      let s := s.modTemp c fun x => { x with curveAt := none }
      match tau with
      | none => s
      | some v =>
        let s := baseImage s
        let first := (tempAt s c).tau0.isNone
        let s := s.modTemp c fun x => { x with tau := some v, tau0 := some (x.tau0.getD v) }
        let s := if first && (fenceRec s 6 c).isNone then
            { s with nv := { s.nv with lampBase := s.nv.lampBase ++ [(6, c.val, v, 0)] } } else s
        takeBases s (· == 6))

/-! ## Re-planning (R462, R467) -/

/-- REPLAN_TARGET: every 1 s; lamp-hours analysis is class 3 and waits while that class is deferred (R462, R516). -/
def execReplanTarget (s : State) : Host.Outcome State Fault Refusal :=
  .next (
    if !s.csLoaded || s.kp.defer3 then s
    else
      let s := s.advanceTo ((if s.lamp.replanAt = 0 then s.t0.getD 0 else s.lamp.replanAt) + 1000 * msec)
      replan { s with lamp := { s.lamp with replanAt := s.now } })

/-- LA_FREEZE written (R467). -/
def laFreeze (s : State) (v : Word) : State := ({ s with lamp := { s.lamp with freeze := bitOf v 0 } }).ok []

/-- LA_FREEZE_WRITE (R467). -/
def execLaFreezeWrite (value : Word) (s : State) : Host.Outcome State Fault Refusal :=
  .next (writeGate s .cs fun s => laFreeze s value)

end Sys2Proof.Machine
end

