-- ==== Sys2Proof/Machine/WatchRoom.lean ====
section
/-! DEFINITION. The meanings of the Watch Room rows (chapter 12). -/

namespace Sys2Proof.Machine

/-! ## Contactors (R366) -/

/-- CONTACTOR_SETTLE_END: the settle time after a command change ends, and the feedback is checked (R365, R366). -/
def execContactorSettleEnd (n : Fin 6) (s : State) : Host.Outcome State Fault Refusal :=
  .next (
    match (ctAt s n.val).settle with
    | none => s
    | some t =>
      let s := (s.advanceTo t).modCt n.val fun x => { x with settle := none }
      if ctEn s n.val then ctCheck (ctWatch s n.val) n.val else s)

/-- CONTACTOR_DROPOUT: a contactor seen closed has read open for 10 ms (R366). -/
def execContactorDropout (n : Fin 6) (s : State) : Host.Outcome State Fault Refusal :=
  .next (
    if !ctEn s n.val then s
    else
      let s := ctWatch s n.val
      match (ctAt s n.val).openAt with
      | none => s
      | some t => ctDropout (s.advanceTo (t + 10 * msec)) n.val)

/-- CONTACTOR_CHECK_START: at page 0 plus CFTIME the checks begin; a feedback still UNRESOLVED counts CFUNRES (R366). -/
def execContactorCheckStart (s : State) : Host.Outcome State Fault Refusal :=
  .next (
    match s.t0 with
    | none => s
    | some t =>
      if s.wr.checks then s
      else
        let s := (s.advanceTo (t + wrCfTime s * msec)).modWr fun x => { x with checks := true }
        ((List.range 6).filter fun n => ctEn s n).foldl (fun s n =>
          let s := if (ctReads s n).isNone then wrFixed s n 3 n 0x0C (wd (ctCf s n)) else s
          ctCheck (ctWatch s n) n) s)

/-! ## Degraded mode, lockout, reset (R356, R358, R372) -/

/-- DEGEXP: the degraded timer expires; what has been reported by then is taken first, and where the last open fault closes with
it, the Watch Room returns to NORMAL instead (R355, R356). -/
def execDegexp (s : State) : Host.Outcome State Fault Refusal :=
  .next (
    match s.wr.degAt with
    | none => s
    | some t =>
      if s.wr.state ≠ 2 then s
      else
        let s := closeFaults (wrStep1 (s.advanceTo (t + wrDegTime s * 1000 * msec)))
        if s.wr.state ≠ 2 then s
        else if s.wr.opened = [] then wrCommand (s.modWr fun x => { x with state := 1, degAt := none })
        else
          let s := wrFixed s 0 0 0 0x0D (wd s.wr.degCode.toNat)
          wrCommand (enterLockout s s.wr.degReact (faultCode .cs 15 0 0x0D)))

/-- LOCKOUT_CONTACTOR_OPEN: 2 ms after the entry to LOCKOUT every contactor command opens (R358). -/
def execLockoutContactorOpen (s : State) : Host.Outcome State Fault Refusal :=
  .next (
    if s.wr.state ≠ 3 || s.wr.lockOpen then s
    else ctOpenAll ((s.advanceTo (s.wr.lockAt + 2 * msec)).modWr fun x => { x with lockOpen := true }))

/-- RESET_ARM_LAPSE: ARMED lapses at RSTMAX after the arm (R372). -/
def execResetArmLapse (s : State) : Host.Outcome State Fault Refusal :=
  .next (
    match s.wr.armed with
    | none => s
    | some t => (s.advanceTo (t + wrRstMax s * msec)).modWr fun x => { x with armed := none })

/-- SBCRC_CHECK: every 10 ms the Watch Room computes the CRC-32 of its parameter copy again (R349). -/
def execSbcrcCheck (s : State) : Host.Outcome State Fault Refusal :=
  .next (
    if !s.wr.loaded then s
    else
      let s := s.advanceTo (s.wr.sbAt + 10 * msec)
      let c := crc32 s.wr.par
      let bad := c != s.img.sbcrc
      let s := s.modWr fun x => { x with sbAt := s.now, parCrc := c, sbBad := bad }
      if bad then wrFixed s 0 0 0 1 c else s)

/-! ## RWS registers by other paths (R371) -/

/-- RWSDENY: a write to an RWS register by another path has no effect, is refused and counted (R8, R371). -/
def execRwsDeny (offset : BitVec 24) (s : State) : Host.Outcome State Fault Refusal :=
  .next (writeGate s .cs fun s => (sfEvent s 3 (wd offset.toNat)).refuse 7)

/-! ## Keeper watchdog (R375) -/

/-- A new challenge, and the timing from now. -/
def wdRestart (s : State) (next : Byte) : State := s.modWr fun x => { x with chal := next, wdAt := s.now }

/-- The answer to a challenge; early or wrong it counts WDOG (R375). -/
def wdKick (s : State) (value : Word) (next : Byte) : State :=
  let early := s.sys.ready && decide (s.now < s.wr.wdAt + wrWdMin s * msec)
  let wrong := s.sys.ready && crc8 [s.wr.chal] != value.truncate 8
  let s := if early then wdEvent s 0 else s
  let s := if wrong then wdEvent s 2 else s
  wdRestart s next

/-- WR_WDKICK_WRITE (R375). -/
def execWrWdkickWrite (value : Word) (next : Byte) (s : State) : Host.Outcome State Fault Refusal :=
  .next (writeGate s .cs fun s => (wdKick s value next).ok [])

/-- WDOG_TIMEOUT: no service by WDMAX (R375). -/
def execWdogTimeout (next : Byte) (s : State) : Host.Outcome State Fault Refusal :=
  .next (
    if !s.sys.ready then s
    else wdRestart (wdEvent (s.advanceTo (s.wr.wdAt + wrWdMax s * msec)) 1) next)

end Sys2Proof.Machine
end

