-- ==== Sys2Proof/Machine/RegUnits.lean ====
section
/-! DEFINITION. The registers of the comparators, leg protection, the Watch Room, converters, charging, the gearbox
pre-drivers, temperature and lamp-hours (R344 to R346, R380, R381, R403, R404, R429 to R431, R446, R447, R473 to R475). -/

namespace Sys2Proof.Machine

/-! ## Comparators (R344) -/

/-- The CP_ window. -/
def cpRegs (s : State) (off : Nat) : Option Word :=
  let p := s.prot
  match off with
  | 0x00 => some (maskWord 32 fun n => (cpDef s 0 n).isSome)
  | 0x04 => some (maskWord 8 fun g => (cpDef s 1 g).isSome)
  | 0x10 => some (maskWord 32 fun n => if h : n < 32 then liveNow s (.trip ⟨n, h⟩) else false)
  | 0x14 => some (maskWord 32 fun n => if h : n < 32 then liveNow s (.hard ⟨n, h⟩) else false)
  | 0x18 => some (maskWord 8 (gcLive s))
  | 0x20 => some (maskWord 32 fun n => (nth p.trip n).unres || (nth p.hard n).unres)
  | 0x24 => some (maskWord 8 fun g => (nth p.gc g).unres)
  | _ =>
    match inBlock off 0x30 4 4 with
    | some (k, _) => some (wat p.omux k)
    | none =>
      match inBlock off 0x1000 0x40 32 with
      | some (n, o) =>
        let x := nth p.trip n
        if o < 0x18 then some (cpW s 0 n (o / 4))
        else match o with
          | 0x18 => some (wd ((nth p.hard n).code.toNat * 65536 + x.code.toNat))
          | 0x1C => some (wd x.blank)
          | 0x20 => some x.evt
          | 0x24 => some 0
          | _ => none
      | none =>
        match inBlock off 0x2000 0x40 8 with
        | some (g, o) =>
          let x := nth p.gc g
          if o < 0x18 then some (cpW s 1 g (o / 4))
          else match o with
            | 0x18 => some (wd (gcCode s g).toNat)
            | 0x1C => some (wd x.blank)
            | 0x20 => some x.evt
            | 0x24 => some (wd x.slope.toNat)
            | _ => none
        | none => none

/-- Writes of the CP_ window: events only. -/
def cpWrites (s : State) (off : Nat) (v : Word) : Option Written :=
  match inBlock off 0x1000 0x40 32 with
  | some (n, 0x20) =>
    served { s with prot := { s.prot with trip := upd s.prot.trip n fun x => { x with evt := w1c x.evt v } } }
  | _ =>
    match inBlock off 0x2000 0x40 8 with
    | some (g, 0x20) =>
      served { s with prot := { s.prot with gc := upd s.prot.gc g fun x => { x with evt := w1c x.evt v } } }
    | _ => none

/-! ## Leg protection (R345, R346) -/

/-- PT_STAT. -/
def ptStat (s : State) : Word :=
  let p := s.prot
  let unres := p.trip.any (·.unres) || p.hard.any (·.unres) || p.gc.any (·.unres)
  wd (p.wrLevel % 8 * 2 ^ 29 + latLevel s % 8 * 2 ^ 26 + p.severity % 8 * 2 ^ 23 + suspectSet s % 4 * 2 ^ 21
    + atBit (p.severity == 6 || isLatched s 0x51) 20 + atBit (isLatched s 0x51) 19 + atBit (isLatched s 0x50) 18
    + atBit p.ov1 17 + atBit p.chopOn 16 + atBit (isLatched s 0x52) 15 + atBit unres 14 + min 255 p.latches.length)

/-- PT_MSAFE of a machine. -/
def msafeReg (s : State) (m : Nat) : Word :=
  let x := nth s.prot.msafe m
  wd (x.st + atBit x.conf1 4 + atBit x.conf0 5 + atBit (machOn s m && (fm s m).isNone) 8 + atBit x.belowAt.isSome 9)

/-- The PT_ window. -/
def ptRegs (s : State) (off : Nat) : Option Word :=
  let p := s.prot
  match off with
  | 0x00 => some (ptStat s)
  | 0x04 => some (wd (p.ptseq % 65536))
  | 0x08 => some (wd (limFrac s))
  | 0x0C => some (if p.wrValid then wd (p.wrFrac.toNat * 65536 + p.wrCode.toNat * 256 + p.wrArg.toNat) else 0)
  | 0x50 => some 0
  | 0x54 => some p.clrStat
  | 0x60 => some (msafeReg s 0)
  | 0x64 => some (msafeReg s 1)
  | 0x70 => some (wd (fld p.chopCnt 15 0 * 65536 + atBit p.chopCur 1 + atBit p.chopOn 0))
  | 0x80 => some (wd (atBit p.logLost 8 + p.log.length))
  | 0x84 => some (match p.log with | (lo, _) :: _ => lo | [] => 0)
  | 0x88 => some p.logHi
  | _ =>
    match inBlock off 0x10 4 5 with
    | some (k, _) => some (maskWord 32 fun b => isLatched s (32 * k + b))
    | none => match inBlock off 0x30 4 5 with
      | some (k, _) => some (ptCfg s k)
      | none => none

/-- What a read of the latch log does beside (R345). -/
def ptReads (s : State) (off : Nat) : State :=
  if off = 0x84 then
    { s with prot := { s.prot with logHi := match s.prot.log with | (_, hi) :: _ => hi | [] => 0 } }
  else if off = 0x88 then { s with prot := { s.prot with log := s.prot.log.tail } }
  else s

/-- A write of PT_CLR (R336). -/
def ptClear (s : State) (v : Word) : State :=
  if bitOf v 31 then
    match clearAll s with
    | (s, some (st, src)) => clearAnswer s st src
    | (s, none) => clearAnswer s.useFree 0 (s.free.toNat % 256)
  else
    let src := fld v 7 0
    let st := clearStatus s src
    clearAnswer (if st = 0 then clearOne s src else s) st src

/-- Writes of the PT_ window. -/
def ptWrites (s : State) (off : Nat) (v : Word) : Option Written :=
  if off = 0x50 then
    let s' := ptClear s v
    some (s', s'.acc.status, s'.acc.ucode)
  else none

/-! ## Watch Room (R380, R381) -/

/-- WR_STAT. -/
def wrStat (s : State) : Word :=
  let w := s.wr
  wd (w.lreact % 4 * 2 ^ 26 + min 255 w.opened.length * 65536 + w.cmd.toNat * 256 + atBit w.lab 7 + atBit w.armed.isSome 6
    + atBit w.noTorq 5 + atBit (w.loaded && wrStill s) 4 + atBit (w.loaded && ctAllCons s) 3 + atBit w.keyset 2 + w.state)

/-- WR_CTSTAT. -/
def ctStat (s : State) : Word :=
  wd (maskOf 6 (fun n => ctReads s n == some true) * 2 ^ 24 + maskOf 6 (fun n => (ctReads s n).isNone) * 65536
    + maskOf 6 (fun n => (nth s.wr.ct n).ctc) * 256 + maskOf 6 (fun n => ctEn s n && ctCons s n))

/-- WR_DEGT: what is left of the degraded time, in ms. -/
def degLeft (s : State) : Nat :=
  match s.wr.degAt with
  | some t => if s.wr.state = 2 then (wrDegTime s * 1000 * msec - (s.now - t)) / msec else 0
  | none => 0

/-- The WR_ window. -/
def wrRegs (s : State) (off : Nat) : Option Word :=
  let w := s.wr
  match off with
  | 0x00 => some (wrStat s)
  | 0x04 => some w.uid0
  | 0x08 => some w.uid1
  | 0x0C => some w.nonce
  | 0x10 => some w.fresh
  | 0x14 => some w.sfstat
  | 0x18 => some w.sfcnt
  | 0x1C => some (wd (degLeft s % 2 ^ 20))
  | 0x20 => some w.evt
  | 0x24 => some (wd w.chal.toNat)
  | 0x28 => some 0
  | 0x2C => some (wd (w.lockCode.toNat * 65536 + w.degCode.toNat))
  | 0x30 => some w.slssel
  | 0x34 => some w.slpsel
  | 0x38 => some w.dirperm
  | 0x3C => some w.ctcmd
  | 0x40 => some (ctStat s)
  | 0x44 => some w.parCrc
  | _ =>
    match inBlock off 0x50 4 4 with
    | some (k, _) => some (match (slsMon s k).v with | some x => wi (satS 32 (rndAway x)) | none => 0x80000000)
    | none => match inBlock off 0x60 4 4 with
      | some (k, _) => some (wd (slpMon s k).p.toNat)
      | none => match inBlock off 0x70 4 2 with
        | some (k, _) => some (wi (satS 32 (sdiMon s k).acc.floor))
        | none => match inBlock off 0x80 4 6 with
          | some (n, _) => some (wd (nth w.ct n).time.toNat)
          | none => none

/-- Writes of the WR_ window: the RWS registers refuse them and count RWSDENY (R35, R371). -/
def wrRegWrites (s : State) (off : Nat) (v : Word) (chal : Byte) : Option Written :=
  match off with
  | 0x20 => served { s with wr := { s.wr with evt := w1c s.wr.evt v } }
  | 0x28 => served (wdKick s v chal)
  | 0x30 => some (sfEvent s 3 (wd off), 4, 7)
  | 0x34 => some (sfEvent s 3 (wd off), 4, 7)
  | 0x38 => some (sfEvent s 3 (wd off), 4, 7)
  | 0x3C => some (sfEvent s 3 (wd off), 4, 7)
  | _ => none

/-! ## Converters (R403, R404) -/

/-- Whether the CS die has accepted the instance's last stage command (R404). -/
def cvAccepted (s : State) (i : Nat) : Bool :=
  match s.x.cmdAcc with
  | some b =>
    (cvPDie s .ds i == .cs || (cvOStage s .ds i && cvODie s .ds i == .cs)) && b.toNat / 4 ^ i % 4 == stageCmd s i
  | none => false

/-- SW_STAT. -/
def swStat (s : State) (i : Nat) : Word :=
  let x := nth s.conv i
  let ks := ((List.range 8).map fun c => ⟨.ds, 8, i, 0, i, c⟩)
    ++ [srcKey (0x81 + 8 * i) 1, srcKey (0x83 + 8 * i) 3]
  if !cvOn s i then 0
  else
    wd (wcount s ⟨.ds, 8, i, 0, i, 2⟩ * 2 ^ 24 + atBit (anyDeclared s ks) 23 + min 15 x.retry * 65536 + x.hcnt % 256 * 256
      + atBit x.enable 7 + atBit x.limHit 6 + atBit x.wrInh 5 + atBit (cvAccepted s i) 4 + x.state)

/-- The SW_ window. -/
def swRegs (s : State) (off : Nat) : Option Word :=
  if off = 0 then some (wd (maskOf 4 (fun i => (nth s.conv i).state != 0) * 65536 + maskOf 4 (cvOn s ·)))
  else if off = 4 then some (maskWord 4 fun i => (nth s.conv i).evt != 0)
  else match inBlock off 0x100 0x80 4 with
    | none => none
    | some (i, o) =>
      let x := nth s.conv i
      if o < 0x28 then some (cvW s .ds i (o / 4))
      else match o with
        | 0x28 => some (swStat s i)
        | 0x2C => some x.evt
        | 0x30 => some x.refr
        | 0x34 => some x.tv.avg
        | 0x38 => some x.ti.avg
        | 0x3C => some x.tp.avg
        | 0x40 => some (x.tt.avg &&& 0xFFFF)
        | 0x44 => some (extremeOf x .vmin)
        | 0x48 => some (extremeOf x .vmax)
        | 0x4C => some (extremeOf x .imin)
        | 0x50 => some (extremeOf x .imax)
        | 0x54 => some (extremeOf x .pmax)
        | 0x58 => some (extremeOf x .tmax)
        | 0x5C => some x.wcnt
        | 0x60 => some (if x.state = 1 || x.state = 2 then wd (min 65535 ((s.now - x.tssAt) / msec)) else 0)
        | 0x64 => some x.limCnt
        | _ => none

/-- A read of a held extreme re-arms it (R398). -/
def swReads (s : State) (off : Nat) : State :=
  match inBlock off 0x100 0x80 4 with
  | some (i, 0x44) => (extremeRead s i .vmin).1
  | some (i, 0x48) => (extremeRead s i .vmax).1
  | some (i, 0x4C) => (extremeRead s i .imin).1
  | some (i, 0x50) => (extremeRead s i .imax).1
  | some (i, 0x54) => (extremeRead s i .pmax).1
  | some (i, 0x58) => (extremeRead s i .tmax).1
  | _ => s

/-- Writes of the SW_ window: events only. -/
def swWrites (s : State) (off : Nat) (v : Word) : Option Written :=
  match inBlock off 0x100 0x80 4 with
  | some (i, 0x2C) => served (s.modConv i fun x => { x with evt := w1c x.evt v })
  | _ => none

/-! ## Charging (R429 to R431) -/

/-- The outputs IDSON and IDSOFF (IDSOFF driven low) of the ideal diode (R415). -/
def idsOut (s : State) : Bool × Bool :=
  let ph := (portAt s 0).phase
  if !bitOf (chW s 0 0) 12 || !s.sys.ready || s.sys.asleep then (false, false)
  else (decide (1 ≤ ph && ph ≤ 5), decide (ph = 9))

/-- CH_PSTAT. -/
def portStat (s : State) (p : Nat) : Word :=
  let x := portAt s p
  wd (countBits s [⟨.cs, 19, p, 0, p, 4⟩] + x.lastEnd * 65536 + x.heldPh * 4096 + atBit x.retried 11
    + atBit (x.fact < 65536) 10 + atBit x.en 9 + x.phase)

/-- CH_ACSTAT. -/
def acStat (s : State) : Word :=
  wd (atBit s.ac.grid 5 + atBit s.mains.form 4 + atBit s.ac.reverse 3 + atBit s.ac.handover 2 + atBit s.ac.acqual 1
    + atBit ((chAc s).isSome && acPresent s) 0)

/-- Seconds of a timer, saturating. -/
def secs (q : Rat) : Word := wd (min (2 ^ 32 - 1) q.floor.toNat)

/-- The CH_ window. -/
def chRegs (s : State) (off : Nat) : Option Word :=
  let a := s.ac
  match off with
  | 0x00 => some (wd (atBit (chRec s 0).isSome 0 + atBit (chRec s 1).isSome 1 + atBit (chAc s).isSome 2))
  | 0x04 => some (wd (atBit ((portAt s 0).evt != 0) 0 + atBit ((portAt s 1).evt != 0) 1 + atBit (a.evt != 0) 2))
  | 0x08 => some a.cmdStat
  | 0x10 => some (wd (a.suppCnt.toNat * 65536 + atBit a.supp 2 + atBit (idsOut s).2 1 + atBit (idsOut s).1 0))
  | 0x228 => some (acStat s)
  | 0x22C => some a.evt
  | 0x230 => some 0
  | 0x234 => some (match a.qualAt with | some t => wd (min 65535 ((s.now - t) / msec)) | none => 0)
  | 0x238 => some (if a.lossAt = 0 then 0 else wd (min 65535 ((s.now - a.lossAt) / msec)))
  | _ =>
    match inBlock off 0x100 0x80 2 with
    | some (p, o) =>
      let x := portAt s p
      if o < 0x3C then some (chW s p (o / 4))
      else match o with
        | 0x3C => some (portStat s p)
        | 0x40 => some x.evt
        | 0x44 => some 0
        | 0x48 => some x.iset
        | 0x4C => some x.vset
        | 0x50 => some (secs (x.tcred / 1000))
        | 0x54 => some (wd (min (2 ^ 32 - 1) (x.treal / 1000)))
        | 0x58 => some (wd (min (2 ^ 32 - 1) (x.tpre / 1000)))
        | 0x5C => some (wd (min (2 ^ 32 - 1) (x.tterm / 1000)))
        | 0x60 => some (wd (x.limch * 2 ^ 24 + x.fact))
        | _ => none
    | none => match inBlock off 0x200 4 10 with
      | some (k, _) => some (chAcW s k)
      | none => none

/-- A command word of a port: exactly one command bit acts, another pattern is answered STATE (R422, assumption log 33). -/
def chCommand (s : State) (p : Nat) (v : Word) : State :=
  match fld v 2 0 with
  | 0 => s.ok []
  | 1 => chStart s p
  | 2 => chStop s p
  | 4 => chClear s p
  | _ => chAnswer s p 1

/-- The same for the AC port. -/
def acCommand (s : State) (v : Word) : State :=
  match fld v 1 0 with
  | 0 => s.ok []
  | 1 => revStart s
  | 2 => revStop s
  | _ => chAnswer s 2 1

/-- Writes of the CH_ window. -/
def chWrites (s : State) (off : Nat) (v : Word) : Option Written :=
  let ans (s' : State) : Option Written := some (s', s'.acc.status, s'.acc.ucode)
  if off = 0x22C then served (s.modAc fun x => { x with evt := w1c x.evt v })
  else if off = 0x230 then ans (acCommand s v)
  else match inBlock off 0x100 0x80 2 with
    | some (p, 0x40) => served (s.modPort p fun x => { x with evt := w1c x.evt v })
    | some (p, 0x44) => ans (chCommand s p v)
    | _ => none

/-! ## Gearbox (R446, R447) -/

/-- GX_ASTAT. -/
def actStat (s : State) (a : Nat) : Word :=
  let x := nth s.gact a
  if (actDef s a).isNone then 0
  else
    wd (maxCount s ((List.range 8).map fun c => ⟨.cs, 20, a, 1, a, c⟩) * 2 ^ 24
      + (if actBldc s a then x.pattern * 256 else 0) + actState s a)

/-- The GX_ registers. -/
def gxRegs (s : State) (off : Nat) : Option Word :=
  if off = 0x8000 then
    some (wd (maskOf 8 (fun n => (gdAt s n).uvUnres) * 65536 + maskOf 8 (fun n => (gdAt s n).vdsoc)))
  else if off = 0x8004 then some 0
  else match inBlock off 0x8100 0x40 3 with
    | some (a, o) =>
      if o < 0x14 then some (actW s a (o / 4))
      else match o with
        | 0x14 => some (actStat s a)
        | 0x18 => some (nth s.gact a).evt
        | _ => none
    | none => none

/-- Writes of the GX_ registers; `present` are the pre-drivers whose over-current is still present (R442). -/
def gxWrites (s : State) (off : Nat) (v : Word) (present : Byte) : Option Written :=
  if off = 0x8004 then
    let s' := gxClear s (fld v 7 0) present
    some (s', s'.acc.status, s'.acc.ucode)
  else match inBlock off 0x8100 0x40 3 with
    | some (a, 0x18) => served (s.modAct a fun x => { x with evt := w1c x.evt v })
    | _ => none

/-! ## Temperature (R473, R474) -/

/-- Whether a channel is configured on a die. -/
def thHere (s : State) (d : Die) (c : Nat) : Bool := thDie c == d && (thRec s c).isSome

/-- TS_CSTAT. -/
def thStat (s : State) (c : Nat) : Word :=
  let x := tempAt s c
  if (thRec s c).isNone then 2
  else
    wd (countBits s ((List.range 8).map fun k => ⟨thDie c, 10, c / 2, if c < 16 then 0 else 1, c, k⟩) + x.ivl * 16
      + atBit x.limit 3 + atBit x.broken 2 + atBit x.unknown 1)

/-- The temperature registers of a die. -/
def tsRegs (s : State) (d : Die) (off : Nat) : Option Word :=
  match off with
  | 0x8000 => some (maskWord 28 (thHere s d ·))
  | 0x8004 => some (match d with
      | .cs => wd (s.lamp.limch * 2 ^ 24 + s.lamp.fCs)
      | .ds => wd ((if s.x.fRx ≤ s.lamp.fDs then s.x.limchRx else s.lamp.dsLimch) * 2 ^ 24 + dsFactor s))
  | 0x8008 => some (wd (match d with | .cs => s.lamp.csTarget | .ds => s.lamp.fDs))
  | 0x800C => some (wd (match d with | .cs => s.x.dsTarget | .ds => s.x.fRx))
  | 0x8010 => some (maskWord 28 fun c => thHere s d c && (tempAt s c).broken)
  | 0x8014 => some (maskWord 28 fun c => thDie c == d && (tempAt s c).evt != 0)
  | _ =>
    match inBlock off 0x8100 0x40 28 with
    | some (c, o) =>
      let x := tempAt s c
      if thDie c != d then (if o < 0x40 then some (if o = 0x30 then 2 else 0) else none)
      else if o < 0x2C then some (thW s c (o / 4))
      else match o with
        | 0x2C => some (wi (thVal s c) &&& 0xFFFF)
        | 0x30 => some (thStat s c)
        | 0x34 => some x.evt
        | 0x38 => some (wd x.knee.toNat)
        | 0x3C => some (wd x.fact)
        | _ => none
    | none => none

/-- Writes of the temperature registers: events only. -/
def tsWrites (s : State) (d : Die) (off : Nat) (v : Word) : Option Written :=
  match inBlock off 0x8100 0x40 28 with
  | some (c, 0x34) => served (if thDie c == d then s.modTemp c fun x => { x with evt := w1c x.evt v } else s)
  | _ => none

/-! ## Lamp-hours (R475) -/

/-- A mean in [15:0]. -/
def mean16 (l : List Nat) : Nat := (rndAway (meanOf l)).toNat % 65536

/-- The target of a quantity instance as LA_LEGTGT shows it; 0 without one. -/
def tgt16 (s : State) (q i : Nat) : Nat :=
  match s.lamp.fences.find? fun f => f.qty == q && f.inst == i with
  | some f => match f.target with | some t => (t % 65536).toNat | none => 0
  | none => 0

/-- τ / τ_0 in 1/1,024 (R475). -/
def zRatio (s : State) (c : Nat) : Word :=
  let x := tempAt s c
  match x.tau, x.tau0 with
  | some t, some t0 => if t0 = 0 then 0 else wd (min 65535 (rndAway (t / t0 * 1024)).toNat)
  | _, _ => 0

/-- The LA_ window. -/
def laRegs (s : State) (off : Nat) : Option Word :=
  let l := s.lamp
  match off with
  | 0x00 => some (wd (atBit (s.temp.any fun x => x.curveAt.isSome) 4
      + atBit (l.fences.any fun f => match f.target with | some t => t != f.value | none => false) 3
      + atBit (commitQual s) 2 + atBit l.freeze 0))
  | 0x04 => some (wd (b2n l.freeze))
  | 0x08 => some l.evt
  | 0x0C => some l.rpCnt
  | 0x30 => some (wd (l.slackDs.toNat * 65536 + l.slackCs.toNat))
  | 0x34 => some (wd l.calErr.toNat)
  | 0x38 => some (wd (l.res1.toNat * 65536 + l.res0.toNat))
  | 0x3C => some (wd l.ctMax.toNat)
  | 0x40 => some (wd l.gband)
  | _ =>
    match inBlock off 0x10 4 8 with
    | some (k, _) => some (wat l.last k)
    | none => match inBlock off 0x44 4 8 with
      | some (k, _) => some (if k < 4 then thCfg s k else laCfg s (k - 4))
      | none => match inBlock off 0x100 4 28 with
        | some (c, _) => some (zRatio s c)
        | none => match inBlock off 0x1000 0x10 48 with
          | some (c, o) =>
            let x := legDelay s c
            match o with
            | 0x0 => some (wd (mean16 x.hOn * 65536 + mean16 x.hOff))
            | 0x4 => some (wd (mean16 x.lOn * 65536 + mean16 x.lOff))
            | 0x8 => some (wd (max (max x.hOn.length x.hOff.length) (max x.lOn.length x.lOff.length)))
            | 0xC => some (wd (tgt16 s 1 c * 65536 + tgt16 s 2 c))
            | _ => none
          | none => none

/-- Writes of the LA_ window. -/
def laWrites (s : State) (off : Nat) (v : Word) : Option Written :=
  if off = 0x04 then served (laFreeze s v)
  else if off = 0x08 then served { s with lamp := { s.lamp with evt := w1c s.lamp.evt v } }
  else none

end Sys2Proof.Machine
end

