-- ==== Sys2Proof/Machine/Regs.lean ====
section
/-! DEFINITION. The device address map: a read and a write of one word through the Keeper (R34, R35). -/

namespace Sys2Proof.Machine

/-- The die of an address. -/
def addrDie (a : Nat) : Die :=
  let w := a / 2 ^ 24
  if 0x20 ≤ w && w ≤ 0x29 then .ds
  else if w = 0x30 && a / 2 ^ 16 % 2 = 0 then .ds
  else .cs

/-- Whether an address lies in one of the six RAM regions (R34); every word of an engine's 0x1000 bytes is a memory word, also
past its block of 0x500 bytes (assumption log 171). -/
def inRam (a : Nat) : Bool :=
  [(0x30000000, 0x10000), (0x30010000, 0x4000), (0x30100000, 0x10000), (0x30110000, 0x8000), (0x30200000, 0x10000),
    (0x30210000, 0x8000)].any fun (b, n) => b ≤ a && a < b + n

/-- Whether an address lies in the store's window (R38). -/
def inStore (a : Nat) : Bool := storeBase ≤ a && a < storeBase + 0x800000

/-- The word of a register window: none where no register stands. A write-only register reads 0. -/
def windowRead (s : State) (a : Nat) : Option Word :=
  let o := a % 2 ^ 24
  match a / 2 ^ 24 with
  | 0x10 => sysRegs s o
  | 0x11 => wrRegs s o
  | 0x12 => kpRegs s o
  | 0x13 => if o / 65536 < 3 then cnRegs s (o / 65536) (o % 65536) else none
  | 0x14 => if o < 0x8000 then fbRegs s o else bmRegs s .cs o
  | 0x15 =>
    if o < 0x8000 then lhRegs s .cs o
    else if o < 0xC000 then leRegs s .cs (o - 0x8000)
    else if o < 0x10000 then pairRegs s .cs (o - 0x8000) else none
  | 0x16 => if o < 0x4000 then pwmRegs s .cs o else if 0x8000 ≤ o then gxRegs s o else none
  | 0x17 => if 0x8000 ≤ o then tsRegs s .cs o else none
  | 0x18 => chRegs s o
  | 0x19 => ckRegs s .cs o
  | 0x1A => laRegs s o
  | 0x1B => hcRegs s o
  | 0x1C => byRegs s o
  | 0x20 => dsysRegs s o
  | 0x21 => if o < 0x8000 then lhRegs s .ds o else bmRegs s .ds o
  | 0x22 => if o < 0x4000 then leRegs s .ds o else pairRegs s .ds o
  | 0x23 => pwmRegs s .ds o
  | 0x24 => cpRegs s o
  | 0x25 => ptRegs s o
  | 0x26 => if 0x8000 ≤ o then tsRegs s .ds o else none
  | 0x27 => swRegs s o
  | 0x28 => ckRegs s .ds o
  | 0x29 => wfRegs s o
  | _ => none

/-- What a read of a register does beside giving its word. -/
def windowActs (s : State) (a : Nat) : State :=
  let o := a % 2 ^ 24
  match a / 2 ^ 24 with
  | 0x12 => kpReads s o
  | 0x13 => cnReads s (o / 65536) (o % 65536)
  | 0x14 => bmReads s .cs o
  | 0x15 => if o < 0x8000 then lhReads s .cs o else s
  | 0x21 => if o < 0x8000 then lhReads s .ds o else bmReads s .ds o
  | 0x25 => ptReads s o
  | 0x27 => swReads s o
  | _ => s

/-- A write of a register window: none where no register stands or it is read-only. The next watchdog challenge, and which
pre-drivers still show over-current, come from outside: they are free values here (assumption log 4). -/
def windowWrite (s : State) (a : Nat) (v : Word) : Option Written :=
  let o := a % 2 ^ 24
  let byte : Byte := s.free.setWidth 8
  match a / 2 ^ 24 with
  | 0x10 => sysWrites s o v
  | 0x11 => if o = 0x28 then wrRegWrites s.useFree o v byte else wrRegWrites s o v byte
  | 0x12 => kpWrites s o v
  | 0x13 => if o / 65536 < 3 then cnWrites s (o / 65536) (o % 65536) v else none
  | 0x14 => if o < 0x8000 then fbWrites s o v else bmWrites s .cs o v
  | 0x15 =>
    if o < 0x8000 then lhWrites s .cs o v
    else if o < 0x10000 then leWrites s .cs (o - 0x8000) v else none
  | 0x16 =>
    if o < 0x4000 then pwmWrites s .cs o v
    else if o = 0x8004 then gxWrites s.useFree o v byte
    else if 0x8000 ≤ o then gxWrites s o v byte else none
  | 0x17 => if 0x8000 ≤ o then tsWrites s .cs o v else none
  | 0x18 => chWrites s o v
  | 0x19 => ckWrites s .cs o v
  | 0x1A => laWrites s o v
  | 0x1B => hcWrites s o v
  | 0x1C => byWrites s o v
  | 0x21 => if o < 0x8000 then lhWrites s .ds o v else bmWrites s .ds o v
  | 0x22 => leWrites s .ds o v
  | 0x23 => pwmWrites s .ds o v
  | 0x24 => cpWrites s o v
  | 0x25 => ptWrites s o v
  | 0x26 => if 0x8000 ≤ o then tsWrites s .ds o v else none
  | 0x27 => swWrites s o v
  | 0x28 => ckWrites s .ds o v
  | 0x29 => wfWrites s o v
  | _ => none

/-- Whether an address lies in the block of a controller's device buffer (R479, R497). -/
def inDevBuf (s : State) (a : Nat) : Bool :=
  let o := a % 2 ^ 24
  a / 2 ^ 24 == 0x13 && decide (o / 65536 < 3) && cnDevtx s (o / 65536) && decide (0x1C0 ≤ o % 65536) && decide (o % 65536 < 0x220)

/-- A read of one word: the state, STATUS, the word (R35). An address where nothing stands is refused with ADDR; a DS
address the crossing cannot carry, with XING; the device buffer, as every host access to it, with REFUSED (R479). -/
def regRead (s : State) (a : Nat) : State × Nat × Word :=
  if a % 4 ≠ 0 then (s, 1, 0)
  else if inDevBuf s a then (s, 4, 0)
  else if inStore a then
    let (s', bs, _) := storeRead s a 4
    (s', 0, wd (ofLe bs))
  else
    match (if inRam a then some (memWord s.mem a) else windowRead s a) with
    | none => (s, 1, 0)
    | some w => if addrDie a == .ds && xingDown s then (s, 2, 0) else (windowActs s a, 0, w)

/-- A write of one word: the state, STATUS and UCODE (R35). -/
def regWrite (s : State) (a : Nat) (v : Word) : State × Nat × Nat :=
  if a % 4 ≠ 0 || inStore a || inRam a then (s, 1, 0)
  else match windowWrite s a v with
    | none => (s, 1, 0)
    | some r => if addrDie a == .ds && xingDown s then (s, 2, 0) else r

end Sys2Proof.Machine
end

