-- ==== Sys2Proof/Machine/HostCore.lean ====
section
/-! DEFINITION. Host frames: layout, the checks of an arriving frame in order, forwarding, answers (R499 to R514). -/

namespace Sys2Proof.Machine

/-! ## Layout (R500, R504) -/

def tREAD : Nat := 1
def tWRITE : Nat := 2
def tCMD : Nat := 3
def tENUM : Nat := 4

/-- A byte of a number. -/
def by8 (n : Nat) : Byte := BitVec.ofNat 8 n

/-- Header and payload of a request. -/
def reqBytes (q : Req) (ty : Nat) (pay : List Byte) : List Byte :=
  [q.dst, q.src, by8 ty, q.seq, q.alive, 0] ++ leBytes 2 q.len.toNat ++ pay

/-- The frame as it stands on the wire: its bytes and the received CRC-32, low byte first. -/
def reqFrame (q : Req) (ty : Nat) (pay : List Byte) : List Byte := reqBytes q ty pay ++ leBytes 4 q.crc.toNat

/-- The payload of a command: its code, two reserved bytes, its arguments (R504, R508). -/
def cmdPay (code : Nat) (args : List Byte) : List Byte := leBytes 2 code ++ [0, 0] ++ args

/-! ## Streams (R503) -/

/-- The stream a frame belongs to: broadcast by its destination, else the port it came by. -/
def reqStream (q : Req) : Stream :=
  if q.dst = 0xFF then .broadcast else match q.stream with | .spi => .spi | _ => .pa

/-- INST of a stream (R525). -/
def streamInst : Stream → Nat
  | .spi => 0
  | .pa => 1
  | .broadcast => 3

/-- Whether the port a frame comes by is enabled (R514, R523). -/
def portOn (s : State) (q : Req) : Bool := bitOf (hcCfg s) (match q.stream with | .spi => 16 | _ => 17)

def aliveRef (s : State) : Stream → Option Byte
  | .spi => s.host.aliveSpi
  | .pa => s.host.alivePa
  | .broadcast => s.host.aliveBc

def setAlive (s : State) (m : Stream) (a : Byte) : State :=
  match m with
  | .spi => { s with host := { s.host with aliveSpi := some a } }
  | .pa => { s with host := { s.host with alivePa := some a } }
  | .broadcast => { s with host := { s.host with aliveBc := some a } }

/-- ALMAX. -/
def alMax (s : State) : Nat := fld (hcCfg s) 3 0

/-- An event of subsystem 18: its bit, its counter. -/
def hcCount (s : State) (cause inst : Nat) (detail : Word) : State :=
  countEvent { s with host := { s.host with evt := orBit s.host.evt cause } } (hcEv s cause inst detail)

/-- HC_ERRCNT: the two halves saturate each by itself (R527). -/
def hcErr (s : State) (crc : Bool) : State :=
  let hi := fld s.host.errCnt 31 16
  let lo := fld s.host.errCnt 15 0
  let w := if crc then min 0xFFFF (hi + 1) * 65536 + lo else hi * 65536 + min 0xFFFF (lo + 1)
  { s with host := { s.host with errCnt := wd w } }

/-! ## Answers (R500, R504, R513) -/

/-- What a request came to: STATUS, UCODE, word index, results. -/
structure Ans where
  status : Nat
  ucode  : Nat := 0
  idx    : Nat := 0xFFFF
  data   : List Word := []
deriving DecidableEq, Repr, Inhabited

/-- The status word. -/
def Ans.word (a : Ans) : Word := wd (a.idx * 65536 + a.ucode * 256 + a.status)

/-- This device's address in a frame it sends; LOCAL while it has none (assumption log 37). -/
def ownAddr (s : State) : Byte := s.host.addr.getD 0xFC

/-- A response frame. -/
def respFrame (s : State) (q : Req) (ty : Nat) (alive : Byte) (a : Ans) : List Byte :=
  let pay := leBytes 4 a.word.toNat ++ bytesOf a.data
  let body := [q.src, ownAddr s, by8 (ty ||| 0x80), q.seq, alive, 0] ++ leBytes 2 pay.length ++ pay
  body ++ leBytes 4 (crc32 body).toNat

/-- A request answered: a broadcast is recorded in HC_BCSTAT, any other frame is answered by the way it came. -/
def respond (s : State) (q : Req) (ty : Nat) (a : Ans) : State :=
  let s := { s with acc := { status := a.status, ucode := a.ucode, idx := BitVec.ofNat 16 a.idx, data := a.data } }
  match reqStream q with
  | .broadcast => { s with host := { s.host with bcStat := a.word } }
  | .spi =>
    { s with host := { s.host with
        resps := s.host.resps ++ [respFrame s q ty s.host.outSpi a]
        outSpi := s.host.outSpi + 1 } }
  | .pa =>
    { s with host := { s.host with
        outPaq := s.host.outPaq ++ [respFrame s q ty s.host.outPa a]
        outPa := s.host.outPa + 1 } }

/-! ## Arrival (R502, R511 to R514) -/

/-- Whether frames can go out on PB: its link is up and the port enabled. -/
def pbOpen (s : State) : Bool := s.host.pbUp && bitOf (hcCfg s) 18

/-- A frame goes out on PB. -/
def sendPb (s : State) (f : List Byte) : State := { s with host := { s.host with outPbq := s.host.outPbq ++ [f] } }

/-- Whether a frame is for this device: LOCAL, its own address, broadcast; ENUM where it has no address or the chain ends
here (R501, R512). -/
def forMe (s : State) (q : Req) : Bool :=
  q.dst == 0xFC || q.dst == 0xFF || s.host.addr == some q.dst
    || (q.dst == 0xFD && (s.host.addr.isNone || !pbOpen s))

/-- Whether a frame for another device goes on to PB (R511, R514). -/
def goesOn (s : State) (q : Req) : Bool :=
  match s.host.addr with
  | some a => decide (a.toNat < q.dst.toNat) && decide (q.dst.toNat ≤ 0x3F)
  | none => false

/-- The alive check: 0 accepted, else the cause of the event (R503). -/
def aliveCheck (s : State) (m : Stream) (a : Byte) : Nat :=
  match aliveRef s m with
  | none => 0
  | some l =>
    let d := (a - l).toNat
    if d = 0 then 2 else if d ≤ alMax s then 0 else 3

/-- Orders 1 to 4 of R502: the state, and whether the frame goes on to order 5. -/
def arrive (s : State) (q : Req) (ty : Nat) (pay : List Byte) : State × Bool :=
  let m := reqStream q
  let body := reqBytes q ty pay
  if !q.coding || crc32 body != q.crc then (hcCount (hcErr s true) 1 (streamInst m) 0, false)
  else
    let s := if m == .broadcast && pbOpen s then sendPb s (reqFrame q ty pay) else s
    if q.len.toNat ≠ pay.length then (respond s q ty { status := 5 }, false)
    else if q.dst == 0xFD && s.host.addr.isSome && pbOpen s then (sendPb s (reqFrame q ty pay), false)
    else if !forMe s q then
      (if !goesOn s q then s
        else if pbOpen s then sendPb s (reqFrame q ty pay) else respond s q ty { status := 8 },
       false)
    else
      let c := aliveCheck s m q.alive
      if c ≠ 0 then
        let last := ((aliveRef s m).getD 0).toNat
        let s := hcCount (hcErr s false) c (streamInst m) (wd (q.alive.toNat * 256 + last))
        (respond s q ty { status := 6 }, false)
      else (setAlive s m q.alive, true)

/-- A request whose frame has passed orders 1 to 4: `bar` is what stands against its type, `f` what it does. Nothing answers
while the Keeper restarts (R515). -/
def handDo (s : State) (q : Req) (ty : Nat) (bar : State → Option Ans) (f : State → State) : State :=
  if s.kp.restarting then s
  else match bar s with
    | some a => respond s q ty a
    | none => f s

/-- The same, answered at once with what it came to. -/
def hand (s : State) (q : Req) (ty : Nat) (bar : State → Option Ans) (f : State → State × Ans) : State :=
  handDo s q ty bar fun s => let (s, a) := f s; respond s q ty a

/-- An SPI request leaves the queue it waited in (R510). -/
def unqueue (s : State) (q : Req) (ty : Nat) (pay : List Byte) : State :=
  match q.stream with
  | .spi =>
    if s.host.reqs.head? == some (reqFrame q ty pay) then { s with host := { s.host with reqs := s.host.reqs.tail } } else s
  | _ => s

/-- A request frame arrives: host access begins with the Keeper in start-up step 2; on the SPI a request waits while four
responses are held (R510, R535; assumption log 37). -/
def requestDo (s : State) (q : Req) (ty : Nat) (pay : List Byte) (bar : State → Option Ans) (f : State → State) : State :=
  if !s.sys.keeperUp || !portOn s q then s
  else if q.stream == .spi && decide (4 ≤ s.host.resps.length) then s
  else
    let (s, ok) := arrive (unqueue s q ty pay) q ty pay
    if ok then handDo s q ty bar f else s

/-- The same, answered at once. -/
def request (s : State) (q : Req) (ty : Nat) (pay : List Byte) (bar : State → Option Ans) (f : State → State × Ans) : State :=
  requestDo s q ty pay bar fun s => let (s, a) := f s; respond s q ty a

/-! ## Order 5 and the state of the Keeper (R502, R507, R513) -/

/-- A type not allowed for the destination. -/
def typeBar (q : Req) (ty : Nat) (bcOk : Bool) : Option Ans :=
  if (q.dst == 0xFD) != (ty == tENUM) || (q.dst == 0xFF && !bcOk) then some { status := 7 } else none

/-- What bars a command: its destination, a sealed device, the no-image state unless `anyImage`, load shedding of its class,
sleep entry. -/
def cmdBar (q : Req) (bcOk anyImage : Bool) (cls : Nat) (s : State) : Option Ans :=
  typeBar q tCMD bcOk
    <|> (if (bootNow s).boot.isSealed then some { status := 4, ucode := 2 }
         else if s.im.noImage && !anyImage then some { status := 7 }
         else if cls == 2 && s.kp.shed2 then some { status := 3 }
         else if s.sys.sleepAcc then some { status := 4, ucode := 2 }
         else none)

/-- A command frame. -/
def command (s : State) (q : Req) (code : Nat) (args : List Byte) (bcOk anyImage : Bool) (cls : Nat)
    (f : State → State × Ans) : State :=
  request s q tCMD (cmdPay code args) (cmdBar q bcOk anyImage cls) f

/-- Answers. -/
def okAns : Ans := { status := 0 }
def lenAns : Ans := { status := 5 }
def refuseAns (u : Nat) : Ans := { status := 4, ucode := u }

end Sys2Proof.Machine
end

