-- ==== Sys2Proof/Machine/ImageRec.lean ====
section
/-! DEFINITION. The consistency rules of records (R57 rules 1 to 6, 9 and 10, and the image rules of the chapters): each gives the section
and the index within it of the first failing record (R56, R571). -/

namespace Sys2Proof.Machine

/-! ## Helpers -/

/-- The records of a section, in order. -/
def secOf (rs : List Rec) (sect : Nat) : List Rec := rs.filter fun r => r.sect == sect

/-- DETAIL of a record of a section. -/
def recDetail (sect i : Nat) : Nat × Nat := (7, sect * 65536 + min i 0xFFFE)

/-- The first record of a type that breaks a rule, which sees its index and payload. -/
def badRec (rs : List Rec) (sect rtype : Nat) (p : Nat → List Word → Bool) : Option (Nat × Nat) :=
  (firstBad (secOf rs sect) fun i r => r.rtype == rtype && p i r.w).map (recDetail sect)

/-- Whether an earlier record of the type has the same key. -/
def dupRec (rs : List Rec) (sect rtype : Nat) (key : List Word → Nat) (i : Nat) (w : List Word) : Bool :=
  ((secOf rs sect).take i).any fun r => r.rtype == rtype && key r.w == key w

/-- A section that lacks a record it must hold. -/
def lackRec (rs : List Rec) (sect rtype : Nat) : Option (Nat × Nat) :=
  if (recsOf rs sect rtype).isEmpty then some (7, sect * 65536 + 0xFFFF) else none

/-- Fields of a payload word, unsigned and signed. -/
def wf (w : List Word) (i hi lo : Nat) : Nat := fld (wat w i) hi lo
def wsf (w : List Word) (i hi lo : Nat) : Int := sfld (wat w i) hi lo
def wb (w : List Word) (i n : Nat) : Bool := bitOf (wat w i) n
def wsi (w : List Word) (i : Nat) : Int := (wat w i).toInt

/-- Records by what names them. -/
def iBuoy (rs : List Rec) (n : Nat) : Option (List Word) := recBy rs sBUOY 1 8 0 n
def iBuoyHome (rs : List Rec) (n : Nat) : Option Die := (iBuoy rs n).map fun w => dieOf (wb w 1 12)
def iBeam (rs : List Rec) (b : Nat) : Option (List Word) := recBy rs sBEAM 1 2 0 b
def iGrp (rs : List Rec) (d : Die) (g : Nat) : Option (List Word) :=
  (recsOf rs sPOWER 1).find? fun w => wf w 0 24 24 == d.bit && wf w 0 19 16 == g
def iChan (rs : List Rec) (d : Die) (c : Nat) : Option (List Word) :=
  (recsOf rs sPOWER 2).find? fun w => wf w 0 24 24 == d.bit && wf w 0 21 16 == c
def iLeg (rs : List Rec) (c : Nat) : Option (List Word) := recBy rs sPOWER 0x10 5 0 c
def iPhase (rs : List Rec) (p : Nat) : Option (List Word) := recBy rs sPOWER 0x11 3 0 p
def iMach (rs : List Rec) (m : Nat) : Option (List Word) := recBy rs sPOWER 0x12 0 0 m
def iWf (rs : List Rec) (m : Nat) : Option (List Word) := recBy rs sPOWER 0x13 0 0 m
def iComp (rs : List Rec) (kind n : Nat) : Option (List Word) :=
  (recsOf rs sGUARD 2).find? fun w => wf w 0 8 8 == kind && wf w 0 4 0 == n
def iRole (rs : List Rec) (g : Nat) : Option Nat := (iComp rs 1 g).map fun w => wf w 0 31 28
def iRow (rs : List Rec) (src : Nat) : Option (List Word) := recBy rs sREACT 1 31 24 src
def iPair (rs : List Rec) (d : Die) (p : Nat) : Option (List Word) :=
  (recsOf rs sENGINE 1).find? fun w => wf w 0 24 24 == d.bit && wf w 0 18 16 == p
def iTherm (rs : List Rec) (c : Nat) : Option (List Word) := recBy rs sTHERMAL 1 28 24 c
def iFb (rs : List Rec) (c : Nat) : Option Rec := rs.find? fun r => r.sect == sFEEDBACK && wf r.w 0 3 0 == c
def iConvs (rs : List Rec) : List (List Word) := recsOf rs sCONV 1

/-- The channels of a group. -/
def iMembers (rs : List Rec) (d : Die) (g : Nat) : List (List Word) :=
  (recsOf rs sPOWER 2).filter fun w => wf w 0 24 24 == d.bit && wf w 0 11 8 == g

/-- Machine of a LEG record, by its phase. -/
def iLegMach (rs : List Rec) (w : List Word) : Option Nat := (iPhase rs (wf w 1 3 0)).map fun p => wf p 0 8 8

/-- Whether a group holds a leg channel. -/
def iLegGroup (rs : List Rec) (g : Nat) : Bool := (iMembers rs .ds g).any fun w => (iLeg rs (wf w 0 21 16)).isSome

/-- Groups of a CONVDEF's stages: primary, and output where there is one. -/
def iStages (w : List Word) : List (Die × Nat) :=
  (dieOf (wb w 0 20), wf w 0 19 16) :: (if wb w 0 12 then [(dieOf (wb w 0 8), wf w 0 3 0)] else [])

/-- WMS and WN in a word of the usual form. -/
def wWin (w : List Word) (i : Nat) : Bool := winOk (wf w i 31 16) (wf w i 7 0)

/-! ## Record types, lengths, reserved bits (R45, R121, R274, R400, R425, R494, R523) -/

/-- Payload words of a record type with the bits that may be set, where its section defines it; a record whose chapter does not
say that bits not listed must be 0 has every bit. -/
def recShape (sect rtype : Nat) : Option (List Nat) :=
  let a (n : Nat) : Option (List Nat) := some (List.replicate n 0xFFFFFFFF)
  let f := 0xFFFFFFFF
  let w := 0xFFFF00FF
  if sect = sROUTE then (if rtype = 1 || rtype = 2 then a 2 else none)
  else if sect = sBUOY then (if rtype = 1 then a 8 else none)
  else if sect = sENGINE then (if rtype = 1 then a 2 else none)
  else if sect = sPOWER then
    match rtype with
    | 1 => a 7
    | 2 => a 4
    | 0x10 => a 2
    | 0x11 => a 2
    | 0x12 => a 2
    | 0x13 => some [0x1F31, f, f, f, 0x01FF01FF, 0x07FFFFFF, 0xFFE0FFFF, 0xFFFFFFF7, 0xFFFF0000, 0xFF00FFFF, f, 0xFF00FFFF,
        0xFFFF01FF, w, 0x81FF01FF, 0x81FF01FF]
    | _ => none
  else if sect = sGUARD then (match rtype with | 1 => a 2 | 2 => a 6 | 3 => a 4 | _ => none)
  else if sect = sREACT then (match rtype with | 1 => a 2 | 2 => a 2 | 3 => a 5 | _ => none)
  else if sect = sFENCE then (if rtype = 1 then a 4 else none)
  else if sect = sBEAM then (if rtype = 1 then a 7 else none)
  else if sect = sFEEDBACK then
    match rtype with
    | 1 => some [f, 0xFFFF0003, f, f, 0xFFFF00FF, 0xFFFF, 0x3FF, 0, w]
    | 2 => some [f, 0x00FFFFFF, f, 0xFF3F0FF3, 0, 0, 0x03FF1FFF, f, w]
    | 3 => some [f, 0xF33117FF, 0xFFFF003F, f, 0, 0, 0x03FF1FFF, f, w]
    | 4 => some [f, 0x7F3F3F7F, 0xFF3FFFFF, 0x3F013F03, 0x00FFFFFF, w, 0, 0xF, w]
    | 5 => some [f, 0x3FFFFFFF, 0x00FFFFFF, 0, 0, 0, 0x03FF1FFF, f, w]
    | _ => none
  else if sect = sNET then
    match rtype with
    | 1 => some [0x031FB100, f, f, 0xFF010000, w, 0x3FFFFFFF, f, f, f, 0xBFFFFFFF, 0xBFFFFFFF]
    | 2 => some [0x033F0302, 0x1FFFFFFF, 0x1FFFFFFF]
    | 3 => some [0x033FFFC0, 0xFFFFFF0F]
    | 4 => some [0x033F00FF, 0x01FF3F03]
    | 0x10 => some [0x0007010F, w]
    | 0x11 => some [0x010F0310, f, 0x01FFFFFF, f, 0xFFFF0000, w]
    | _ => none
  else if sect = sCONV then
    (if rtype = 1 then some [0x0F1F110F, 0x00FFFFFF, 0x00FF1701, f, f, f, 0xFF00FFFF, 0xFFFF0FFF, w, 0xFFFF] else none)
  else if sect = sCHARGE then
    (match rtype with
     | 1 => some ([0x011111FF, 0x07FFFFFF, 0x07FFFFFF] ++ List.replicate 11 f ++ [0xFF])
     | 2 => a 10
     | _ => none)
  else if sect = sGEAR then (match rtype with | 1 => a 2 | 2 => a 5 | _ => none)
  else if sect = sTHERMAL then (match rtype with | 1 => a 11 | 2 => a 4 | 3 => a 4 | _ => none)
  else if sect = sWINDOW then (if rtype = 1 then a 1 else none)
  else if sect = sPAGETAB then (if rtype = 1 then a 2 else none)
  else none

/-- Whether a record has a defined type, the length of its type and its reserved bits clear. -/
def shapeOk (r : Rec) : Bool :=
  match recShape r.sect r.rtype with
  | some l => r.w.length == l.length && (r.w.zip l).all fun (w, m) => Nat.land w.toNat m == w.toNat
  | none => false

/-- The first record of any section without the shape of its type. -/
def checkShapes (rs : List Rec) : Option (Nat × Nat) :=
  firstOf ((List.range 18).map fun s => (firstBad (secOf rs s) fun _ r => !shapeOk r).map (recDetail s))

/-! ## R57: rules 1 to 6, 9, 10 -/

/-- Protection sources a GUARDREC or a CONVDEF uses (R322). -/
def guardSrcs (w : List Word) : List Nat :=
  let n := wf w 0 4 0
  if wb w 0 8 then [0x40 + n] else [n, 0x20 + n]
def convSrcs (w : List Word) : List Nat := [0x81 + 8 * wf w 0 27 26, 0x83 + 8 * wf w 0 27 26]

/-- Rules 1 to 6, 9 and 10 of R57. -/
def checkR57 (rs : List Rec) : List (Option (Nat × Nat)) :=
  let convs := iConvs rs
  let convDs (w : List Word) : List Nat :=
    (iStages w).flatMap fun (d, g) => if d == .ds then (iMembers rs .ds g).map fun m => wf m 0 21 16 else []
  let legs := recsOf rs sPOWER 0x10
  let phases := recsOf rs sPOWER 0x11
  [badRec rs sROUTE 1 (dupRec rs sROUTE 1 fun w => wf w 0 24 24 * 65536 + wf w 0 19 16 * 256 + wf w 0 11 8),
   badRec rs sROUTE 2 (dupRec rs sROUTE 2 fun w => wf w 0 24 24 * 65536 + wf w 0 19 16 * 256 + wf w 0 2 0),
   badRec rs sPOWER 0x10 (dupRec rs sPOWER 0x10 fun w => wf w 0 5 0),
   badRec rs sCONV 1 (fun i w =>
     (convDs w).any fun c => (iLeg rs c).isSome || (convs.take i).any fun v => (convDs v).contains c),
   badRec rs sPOWER 0x11 (fun _ w =>
     let n := wf w 1 2 0
     let pos := (legs.filter fun l => wf l 1 3 0 == wf w 0 3 0).map fun l => wf l 1 9 8
     decide (5 < wf w 0 3 0) || n == 0 || decide (4 < n) || pos.length != n || !((List.range n).all fun j => pos.contains j)),
   badRec rs sPOWER 0x10 (fun _ w => (iPhase rs (wf w 1 3 0)).isNone),
   badRec rs sPOWER 0x11 (fun i w => dupRec rs sPOWER 0x11 (fun v => wf v 0 3 0) i w || (iMach rs (wf w 0 8 8)).isNone),
   badRec rs sPOWER 0x12 (fun i w =>
     let ps := (phases.filter fun p => wf p 0 8 8 == wf w 0 0 0).length
     dupRec rs sPOWER 0x12 (fun v => wf v 0 0 0) i w || ps != wf w 1 2 0 || !(ps == 3 || ps == 6)),
   badRec rs sPOWER 0x11 (fun _ w =>
     (iMach rs (wf w 0 8 8)).any fun m => wf m 1 2 0 == 3 && wf w 0 3 0 / 3 != wf w 0 8 8 && (recsOf rs sPOWER 0x12).length == 2),
   badRec rs sPOWER 0x10 (fun _ w =>
     !((recsOf rs sGUARD 1).any fun g => !wb g 0 8 && wf g 1 5 0 == wf w 0 5 0)),
   badRec rs sENGINE 1 (fun _ w => wb w 0 1 && wb w 0 0),
   badRec rs sFENCE 1 (fun _ w => decide (wsi w 2 < wsi w 1) || decide (wsi w 3 < wsi w 2)),
   badRec rs sGUARD 1 (fun _ w => (guardSrcs w).any fun k => (iRow rs k).isNone),
   badRec rs sCONV 1 (fun _ w => (convSrcs w).any fun k => (iRow rs k).isNone)]

/-! ## Places of pages, buoys, feedback, beams (R47, R83, R119, R144) -/

/-- R47: one PAGEDEF per page, no overlap on a die, each within its lane's part (R180). -/
def checkPagedefs (rs : List Rec) : List (Option (Nat × Nat)) :=
  let part (w : List Word) : Nat := if wb w 0 24 then 1024 else 512
  [badRec rs sPAGETAB 1 (fun i w =>
    let a := wf w 1 27 16
    let e := a + wf w 1 11 0
    let p := part w
    let l := wf w 0 17 16
    let clash := ((secOf rs sPAGETAB).take i).any fun r =>
      r.rtype == 1 && wf r.w 0 24 24 == wf w 0 24 24 && decide (wf r.w 1 27 16 < e)
        && decide (a < wf r.w 1 27 16 + wf r.w 1 11 0)
    dupRec rs sPAGETAB 1 (fun v => wf v 0 24 24 * 256 + wf v 0 17 16 * 16 + wf v 0 3 0) i w || clash
      || decide (a < l * p) || decide ((l + 1) * p < e) || (!wb w 0 24 && (decide (1 < l) || decide (7 < wf w 0 3 0))))]

/-- The home a source kind gives: none where the record sets it (R68). -/
def srcHome (rs : List Rec) (w : List Word) : List Die :=
  let inst := wf w 0 23 16
  match wf w 0 31 24 with
  | 0 => (recsOf rs sROUTE 1).filterMap fun r => if wf r 1 8 0 == wf w 0 8 0 then some (dieOf (wb r 0 24)) else none
  | 4 => [if inst ≤ 7 then .cs else .ds]
  | 5 => []
  | _ => [.cs]

/-- R83 and the ranges of R82. -/
def checkBuoys (rs : List Rec) : List (Option (Nat × Nat)) :=
  let routed (i : Nat) (w : List Word) : Bool := let _ := i; (iBuoy rs (wf w 1 8 0)).isNone
  [badRec rs sBUOY 1 (dupRec rs sBUOY 1 fun w => wf w 0 8 0),
   badRec rs sROUTE 1 routed, badRec rs sROUTE 2 routed,
   badRec rs sBUOY 1 (fun _ w => (srcHome rs w).any (· != dieOf (wb w 1 12))),
   badRec rs sBUOY 1 (fun _ w => decide (255 < wf w 0 8 0) && (wb w 1 12 || wb w 1 13)),
   badRec rs sBUOY 1 (fun _ w =>
     let src := wf w 0 31 24
     let inst := wf w 0 23 16
     let k := wf w 1 19 16
     decide (wsi w 3 < wsi w 2) || decide (5 < src) || (src == 4 && decide (15 < inst))
       || (src == 1 && (decide (11 < inst / 16) || decide (4 < inst % 16) || (iFb rs (inst / 16)).isNone))
       || (match wf w 1 23 22 with
           | 0 => k != 0
           | 1 => k == 0 || decide (4 < k)
           | 2 => k == 0
           | _ => true)
       || wf w 5 27 16 == 0 || wf w 5 15 8 == 0 || !winOk (wf w 6 15 0) (wf w 5 7 0)),
   badRec rs sBUOY 1 (fun _ w =>
     let alt := wf w 1 8 0
     if wf w 1 15 14 ≠ 2 then alt != 0
     else alt == wf w 0 8 0 || (match iBuoy rs alt with
       | some v => wf v 1 12 12 != wf w 1 12 12 || wf v 1 15 14 == 2
       | none => true))]

/-- Whether a SECMAP gives codes 1 to 6 the sectors 0 to 5 once each (R108). -/
def secmapOk (m : Nat) : Bool := (List.range 6).all fun k => (List.range 6).any fun c => m / 8 ^ (c + 1) % 8 == k

/-- The ranges of one feedback record, by kind (R121), CFG word i being payload word i + 1. -/
def fbRange (rs : List Rec) (w : List Word) : Nat → Bool
  | 1 =>
    ((wf w 0 3 0 == 1 && wb w 1 1) || (decide (4000 ≤ wf w 1 31 16) && decide (wf w 1 31 16 ≤ 20000)))
      && decide (250 ≤ wf w 2 15 0) && decide (wf w 2 15 0 ≤ 4000) && wf w 4 31 16 != 0 && decide (1 ≤ wf w 4 7 0) && decide (wf w 4 7 0 ≤ 50) && decide (1 ≤ wf w 6 9 0)
      && decide (wf w 6 9 0 ≤ 1000) && (!wb w 1 1 || (wf w 0 3 0 == 1 && (iFb rs 0).isSome))
  | 2 =>
    decide (4 ≤ wf w 1 23 0) && wf w 3 31 24 != 0 && !(wf w 3 1 0 == 3 && decide (wf w 1 23 0 ≤ (wat w 2).toNat))
  | 3 =>
    let t := wf w 1 10 0
    decide (8 ≤ t) && decide (t ≤ 1024) && wf w 1 21 20 != 0 && wf w 1 25 24 != 3 && decide (16 < wf w 2 31 24)
      && decide (wf w 2 23 16 < 16)
      && (wf w 1 25 24 != 2 || (let c := wf w 1 31 28
          c != wf w 0 3 0 && (iFb rs c).isSome && (decide (c ≤ 5) || c == 8 || c == 9)))
  | 4 =>
    let n := wf w 1 6 0
    let clk := 2 * (wf w 2 15 0 + 1)
    let st := wf w 1 21 16
    let first := wf w 3 13 8
    decide (1 ≤ st) && decide (st + wf w 1 29 24 ≤ 32) && decide (wf w 1 29 24 ≤ 31) && decide (8 ≤ n) && decide (n ≤ 64)
      && wf w 2 31 24 != 0 && decide (19 ≤ wf w 2 15 0) && decide (wf w 2 15 0 ≤ 1999)
      && decide (wf w 1 13 8 + wf w 1 29 24 + st ≤ n)
      && (match wf w 3 1 0 with | 0 => true | 1 => decide (first < n) | 2 => decide (first + 6 ≤ n) | _ => false)
      && decide (n * clk + clk / 2 + wf w 2 31 24 * usec ≤ 4 * wf w 4 23 0)
  | _ => secmapOk (wf w 1 23 0)

/-- Ranges common to encoders, tooth wheels and hall groups. -/
def fbSpeedRange (w : List Word) : Bool :=
  decide (wf w 6 25 16 ≤ 1000) && decide (1 ≤ wf w 6 12 8) && decide (wf w 6 12 8 ≤ 16) && wf w 6 7 0 != 0
    && decide (wf w 7 15 0 ≤ wf w 7 31 16)

/-- R119. -/
def checkFeedback (rs : List Rec) : List (Option (Nat × Nat)) :=
  let kind (c : Nat) : Nat := if c ≤ 1 then 1 else if c ≤ 5 then 2 else if c ≤ 7 then 3 else if c ≤ 9 then 4 else 5
  [(firstBad (secOf rs sFEEDBACK) fun i r =>
      decide (11 < wf r.w 0 3 0) || r.rtype != kind (wf r.w 0 3 0)
        || ((secOf rs sFEEDBACK).take i).any fun q => wf q.w 0 3 0 == wf r.w 0 3 0).map (recDetail sFEEDBACK),
   (firstBad (secOf rs sFEEDBACK) fun _ r =>
      !fbRange rs r.w r.rtype || !wWin r.w 8 || ((r.rtype == 2 || r.rtype == 3 || r.rtype == 5) && !fbSpeedRange r.w)).map
      (recDetail sFEEDBACK)]

/-- Whether the period of a carrier group is locked, directly or through carrier beams, to a beam (R144). -/
def lockedTo (rs : List Rec) (b : Nat) : Nat → Die → Nat → Bool
  | 0, _, _ => false
  | n + 1, d, g =>
    match iGrp rs d g with
    | some w =>
      if wf w 0 5 4 ≠ 2 then false
      else
        let q := wf w 4 18 16
        q == b || (match iBeam rs q with
          | some v => wf v 0 31 28 == 4 && lockedTo rs b n (dieOf (wb v 0 27)) (wf v 0 23 20)
          | none => false)
    | none => false

/-- R144 and the ranges of R143. -/
def checkBeams (rs : List Rec) : List (Option (Nat × Nat)) :=
  let cans := recsOf rs sNET 1
  let comp (b : List Word) : Option (List Word) := if wb b 3 9 then iBuoy rs (wf b 3 8 0) else none
  [badRec rs sBEAM 1 (fun i w =>
    let src := wf w 0 31 28
    let inst := wf w 0 27 20
    dupRec rs sBEAM 1 (fun v => wf v 0 2 0) i w || decide (4 < src) || !wWin w 4
      || (if src = 0 then wf w 0 12 8 == 0 || decide (16 < wf w 0 12 8) else wf w 0 12 8 != 1)
      || (match src with
          | 0 => decide (9 < inst) || (iFb rs inst).isNone || wat w 5 != 0
          | 1 =>
            inst != 0 || wf w 6 31 24 < 5 || decide (100 < wf w 6 31 24) || wf w 6 23 20 == 0 || decide (10 < wf w 6 23 20)
              || wf w 6 18 12 == 0 || wf w 5 7 0 == 0 || wf w 5 31 8 != 0
          | 2 => inst != 0 || decide ((wat w 5).toNat < 1000)
          | 3 => inst != 0 || decide ((wat w 5).toNat < 8)
          | _ => wat w 5 != 0)),
   badRec rs sBEAM 1 (fun _ w =>
     match wf w 0 31 28 with
     | 3 => false
     | 4 => wf w 0 16 16 != wf w 0 27 27
     | _ => wb w 0 16),
   badRec rs sBEAM 1 (fun i w =>
     wf w 0 31 28 == 1 && ((secOf rs sBEAM).take i).any fun r => r.rtype == 1 && wf r.w 0 31 28 == 1),
   badRec rs sBEAM 1 (fun _ w => wf w 0 31 28 == 1 && iBuoyHome rs (wf w 6 8 0) != some .cs),
   badRec rs sBEAM 1 (fun _ w => wf w 0 31 28 == 2 && !(cans.any fun c => wf c 0 13 12 == 1 || wf c 0 13 12 == 2)),
   badRec rs sBEAM 1 (fun _ w =>
     wb w 3 9 && (match comp w with
       | none => true
       | some c =>
         wf c 1 12 12 != wf w 0 16 16
           || (wf c 1 15 14 == 2 && !((recsOf rs sBEAM 1).any fun o =>
                 wb o 3 9 && wf o 3 8 0 == wf c 1 8 0 && wf o 0 16 16 == wf w 0 16 16
                   && (match comp o with | some v => wf v 1 15 14 != 2 | none => false))))),
   badRec rs sBEAM 1 (fun _ w =>
     wf w 0 31 28 == 4 && (wf w 0 26 24 != 0 || (iGrp rs (dieOf (wb w 0 27)) (wf w 0 23 20)).isNone
       || lockedTo rs (wf w 0 2 0) 9 (dieOf (wb w 0 27)) (wf w 0 23 20)))]

/-! ## PWM and waveform (R265 to R268, R278, R306) -/

/-- The ranges of a CGROUP (R266, R265). -/
def groupOk (w : List Word) : Bool :=
  let p0 := (wat w 1).toNat
  let pmin := (wat w 2).toNat
  let pmax := (wat w 3).toNat
  let cs := !wb w 0 24
  let sweep := wf w 5 15 8
  (!cs || decide (wf w 0 19 16 ≤ 7)) && wf w 0 13 12 != 3 && wf w 0 9 8 != 3 && wf w 0 1 0 != 3 && (wf w 0 5 4 == 1 || wf w 0 1 0 == 0) && wWin w 6
    && decide (1024 ≤ pmin) && decide (pmin ≤ p0) && decide (p0 ≤ pmax)
    && (!cs || (p0 % 16 == 0 && pmin % 16 == 0 && pmax % 16 == 0))
    && (match wf w 0 5 4 with
        | 0 => wat w 4 == 0 && wat w 5 == 0 && wf w 0 13 12 == 0 && pmin == p0 && pmax == p0
        | 1 => wat w 4 == 0 && wat w 5 == 0 && wf w 0 13 12 == 0
        | 2 => wf w 4 31 24 != 0 && wat w 5 == 0 && wf w 0 13 12 == 0
        | _ => wat w 4 == 0 && wf w 5 31 16 != 0 && decide (wf w 5 6 0 ≤ 120)
               && (if wf w 0 13 12 = 1 then sweep != 0 else sweep == 0))

/-- The ranges of a CHAN (R267, R265). -/
def chanOk (w : List Word) : Bool :=
  let t := [wf w 1 31 16, wf w 1 15 0, wf w 2 31 16]
  (wb w 0 24 || decide (wf w 0 21 16 ≤ 15)) && decide (wf w 0 21 16 ≤ 47) && wf w 0 5 4 != 0 && wf w 0 3 2 != 3
    && wf w 0 1 0 != 3 && t.all (fun x => decide (x ≤ 16000)) && (wb w 0 24 || t.all fun x => x % 16 == 0)

/-- R268. -/
def checkPower (rs : List Rec) : List (Option (Nat × Nat)) :=
  let dof (w : List Word) : Die := dieOf (wb w 0 24)
  [badRec rs sPOWER 1 (fun i w =>
     dupRec rs sPOWER 1 (fun v => wf v 0 24 24 * 256 + wf v 0 19 16) i w || !groupOk w),
   badRec rs sPOWER 2 (fun i w =>
     dupRec rs sPOWER 2 (fun v => wf v 0 24 24 * 256 + wf v 0 21 16) i w || !chanOk w),
   badRec rs sPOWER 1 (fun _ w =>
     let n := (iMembers rs (dof w) (wf w 0 19 16)).length
     n == 0 || decide (8 < n)),
   badRec rs sPOWER 2 (fun _ w =>
     match iGrp rs (dof w) (wf w 0 11 8) with
     | none => true
     | some g => decide ((wat g 2).toNat < 2 * (wf w 2 31 16 + max (wf w 1 31 16) (wf w 1 15 0)))),
   badRec rs sPOWER 1 (fun _ w => wf w 0 5 4 == 2 && (iBeam rs (wf w 4 18 16)).isNone),
   badRec rs sPOWER 0x10 (fun _ w =>
     match iChan rs .ds (wf w 0 5 0) with | some c => wf c 0 3 2 != 0 | none => true),
   badRec rs sFENCE 1 (fun _ w =>
     let q := wf w 0 23 16
     let nom := (wat w 2).toNat
     if q = 1 || q = 2 || q = 4 then
       match iChan rs .ds (wf w 0 7 0) with
       | some c => nom != (if q = 1 then wf c 1 31 16 else if q = 2 then wf c 1 15 0 else wf c 2 31 16)
       | none => true
     else false)]

/-- Buoys a WFMACH names. -/
def wfBuoys (w : List Word) : List Nat :=
  [wf w 4 24 16, wf w 4 8 0, wf w 5 8 0, wf w 5 17 9, wf w 5 26 18]
    ++ (if wb w 14 31 then [wf w 14 24 16, wf w 14 8 0] else []) ++ (if wb w 15 31 then [wf w 15 24 16, wf w 15 8 0] else [])

/-- The ranges of a WFMACH (R274). -/
def wfOk (w : List Word) : Bool :=
  decide (wf w 0 11 8 ≤ 7) && decide (-16384 ≤ wsf w 2 31 16) && decide (wsf w 2 31 16 ≤ 16383)
    && decide (-16384 ≤ wsf w 2 15 0) && decide (wsf w 2 15 0 ≤ 16383) && decide (512 ≤ wf w 6 31 21)
    && decide (wf w 6 31 21 ≤ 1024) && wf w 7 15 4 != 0 && decide (3 ≤ wf w 8 31 24) && wf w 8 23 16 != 0
    && decide (wf w 10 31 24 ≤ 128) && decide (1 ≤ wf w 12 8 0) && decide (wf w 12 8 0 ≤ 256) && wWin w 13

/-- R306 with R278. -/
def checkWave (rs : List Rec) : List (Option (Nat × Nat)) :=
  let legs := recsOf rs sPOWER 0x10
  let grpOf (l : List Word) : Option (List Word) :=
    match iChan rs .ds (wf l 0 5 0) with | some c => iGrp rs .ds (wf c 0 11 8) | none => none
  let key (g : List Word) : List Nat := Nat.land (wat g 0).toNat 0xFFF0FFFF :: ((g.drop 1).take 5).map (·.toNat)
  let three (m : Nat) : Bool := match iMach rs m with | some w => wf w 1 2 0 == 3 | none => false
  let most (m : Nat) : Nat := (recsOf rs sPOWER 0x11).foldl (fun a p => if wf p 0 8 8 = m then max a (wf p 1 2 0) else a) 1
  [badRec rs sPOWER 0x12 (fun _ w => (iWf rs (wf w 0 0 0)).isNone),
   badRec rs sPOWER 0x13 (fun i w => dupRec rs sPOWER 0x13 (fun v => wf v 0 0 0) i w || !wfOk w),
   badRec rs sPOWER 0x10 (fun _ w =>
     match grpOf w, iLegMach rs w with
     | some g, some m =>
       !(wf g 0 5 4 == 0 || wf g 0 5 4 == 2)
         || legs.any (fun l => iLegMach rs l == some m && (grpOf l).map key != some (key g))
         || (iMembers rs .ds (wf g 0 19 16)).any fun c =>
              match iLeg rs (wf c 0 21 16) with | some l => iLegMach rs l != some m | none => true
     | _, _ => true),
   badRec rs sPOWER 0x13 (fun _ w => decide (10922 < (most (wf w 0 0 0) - 1) * wf w 1 15 0)),
   badRec rs sPOWER 0x13 (fun _ w => decide (wsf w 2 15 0 < wsf w 2 31 16)),
   badRec rs sPOWER 0x13 (fun _ w => (wfBuoys w).any fun n => iBuoyHome rs n != some .ds),
   badRec rs sPOWER 0x13 (fun _ w =>
     let g := wf w 7 2 0
     (recsOf rs sGUARD 1).any (fun r => wb r 0 8 && wf r 0 4 0 == g)
       || (iConvs rs).any fun c => !wb c 2 12 && wf c 2 10 8 == g),
   badRec rs sPOWER 0x13 (fun _ w => three (wf w 0 0 0) && (wb w 0 12 || wf w 1 31 16 != 0 || wb w 15 31)),
   badRec rs sPOWER 0x12 (fun _ w => (List.range 7).any fun c => (iRow rs (0x60 + 16 * wf w 0 0 0 + c)).isNone)]

/-! ## Comparators and reactions (R319, R330, R339 to R341) -/

/-- The ranges of a CPDEF. -/
def compOk (w : List Word) : Bool :=
  let role := wf w 0 31 28
  let tmax := wf w 2 25 16
  let tmin := wf w 2 9 0
  let base := wf w 1 31 16 != 0 && decide (wf w 1 9 0 ≤ 1000) && decide (tmin ≤ wf w 4 9 0) && decide (wf w 4 9 0 ≤ tmax)
  if wb w 0 8 then
    base && decide (wf w 0 4 0 ≤ 7) && decide (role ≤ 5) && (!(role == 1 || role == 2) || wf w 1 9 0 == 0)
      && (!wb w 5 0 || role == 4) && decide (wf w 5 13 8 ≤ 47)
  else
    base && role == 0 && !wb w 0 16 && !wb w 5 0 && decide (tmax < wf w 3 9 0) && decide (wf w 3 9 0 ≤ wf w 4 25 16)
      && decide (wf w 4 25 16 ≤ wf w 3 25 16)

/-- Whether a CP_OMUX selector is defined (R319). -/
def selOk (n : Nat) : Bool := let k := n % 128; decide (k ≤ 0x4A) && !(0x4B ≤ k) || k == 0x7F

/-- Whether a REACTROW may name a source: TRIP, HARD, GUARD, waveform causes, converter causes (R322, R402). -/
def rowSrc (k : Nat) : Bool :=
  k ≤ 0x47 || (0x60 ≤ k && k ≤ 0x66) || (0x70 ≤ k && k ≤ 0x76) || (0x80 ≤ k && k ≤ 0x9F && (k % 8 == 1 || k % 8 == 3))

/-- R341. -/
def checkGuard (rs : List Rec) : List (Option (Nat × Nat)) :=
  let roles (r : Nat) : Nat := ((recsOf rs sGUARD 2).filter fun w => wb w 0 8 && wf w 0 31 28 == r).length
  let machOn (m : Nat) : Bool := (iMach rs m).isSome
  let convChan (c : Nat) : Bool := (iConvs rs).any fun w => (iStages w).any fun (d, g) =>
    d == .ds && (iMembers rs .ds g).any fun v => wf v 0 21 16 == c
  [badRec rs sGUARD 2 (dupRec rs sGUARD 2 fun w => wf w 0 8 8 * 32 + wf w 0 4 0),
   badRec rs sGUARD 2 (fun _ w => !compOk w),
   badRec rs sGUARD 1 (fun _ w =>
     (iComp rs (wf w 0 8 8) (wf w 0 4 0)).isNone || (wb w 0 8 && iRole rs (wf w 0 4 0) != some 0)
       || (iLeg rs (wf w 1 5 0)).isNone),
   badRec rs sCONV 1 (fun _ w => !wb w 2 12 && (iComp rs 1 (wf w 2 10 8)).isNone),
   badRec rs sPOWER 0x13 (fun _ w => iRole rs (wf w 7 2 0) != some 5),
   badRec rs sGUARD 2 (fun _ w =>
     wb w 0 8 && (let r := wf w 0 31 28; (r == 1 || r == 2) && roles r != 1)),
   (if roles 1 = 0 || roles 2 = 0 then some (7, sGUARD * 65536 + 0xFFFF) else none),
   badRec rs sGUARD 3 (fun i w =>
     ((secOf rs sGUARD).take i).any (fun r => r.rtype == 3)
       || !((List.range 16).all fun k => selOk (wf w (k / 4) (8 * (k % 4) + 7) (8 * (k % 4))))),
   badRec rs sFENCE 1 (fun _ w =>
     wf w 0 23 16 == 3 && (match iComp rs 0 (wf w 0 7 0) with | some c => wsi w 2 != wf c 1 9 0 | none => true)),
   badRec rs sREACT 1 (fun i w =>
     let k := wf w 0 31 24
     let lv := wf w 0 18 16
     dupRec rs sREACT 1 (fun v => wf v 0 31 24) i w || !rowSrc k || decide (lv < 2) || decide (6 < lv) || !wWin w 1
       || (decide (k ≤ 0x47) && decide (lv < 3)) || ((wf w 0 7 0 != 0) != (lv == 2))
       || (wb w 0 8 && !(lv == 4 && (k == 0x63 || k == 0x73)
            && (match iMach rs (k / 16 - 6) with | some m => wf m 1 2 0 == 6 | none => false)
            && (match iWf rs (k / 16 - 6) with | some m => wb m 0 12 | none => false)))),
   badRec rs sREACT 2 (fun i w =>
     dupRec rs sREACT 2 (fun v => wf v 0 17 16 * 8 + wf v 1 2 0) i w || decide (wf w 1 2 0 < 2) || decide (6 < wf w 1 2 0)
       || !recPage rs .ds (wf w 0 17 16) (wf w 0 3 0)),
   lackRec rs sREACT 3,
   badRec rs sREACT 3 (fun i w =>
     let ch := wf w 0 29 24
     ((secOf rs sREACT).take i).any (fun r => r.rtype == 3)
       || iBuoyHome rs (wf w 0 8 0) != some .ds || wf w 0 17 16 == 3 || wf w 0 19 18 == 3
       || (machOn 0 && wf w 0 17 16 == 0) || (machOn 1 && wf w 0 19 18 == 0)
       || decide (128 < wf w 3 31 24) || wf w 3 15 0 == 0 || decide (60000 < wf w 3 15 0) || !wWin w 4
       || (if wb w 0 31 then
             roles 3 != 1 || (iLeg rs ch).isSome || convChan ch
               || (match iChan rs .ds ch with | some c => wf c 0 3 2 != 2 | none => true)
           else ch != 0 || roles 3 != 0))]

/-! ## Converters, charging, gearbox (R401, R427, R444) -/

/-- The twin rules of R394 between two CGROUPs. -/
def twinOk (a b : List Word) : Bool :=
  let sel (w : List Word) : Nat := Nat.land (wat w 0).toNat 0x3303
  (wf a 0 5 4 == 0 || wf a 0 5 4 == 3) && (wf b 0 5 4 == 0 || wf b 0 5 4 == 3) && (a.drop 1).take 5 == (b.drop 1).take 5
    && sel a == sel b

/-- R401 and the ranges of R400. -/
def checkConv (rs : List Rec) : List (Option (Nat × Nat)) :=
  let dof (w : List Word) (n : Nat) : Die := dieOf (wb w 0 n)
  let mask (w : List Word) : Nat :=
    let (d, g) := (iStages w).getLastD (.cs, 0)
    2 ^ (iMembers rs d g).length
  [badRec rs sCONV 1 (fun i w =>
     dupRec rs sCONV 1 (fun v => wf v 0 27 26) i w || wf w 0 25 24 == 3 || decide (wsi w 3 ≤ 0)
       || (wb w 2 12 && decide (wsi w 4 ≤ 0)) || decide (wsi w 5 ≤ 0) || wf w 6 31 24 == 0 || wf w 6 15 0 == 0
       || wf w 7 31 16 == 0 || wf w 7 7 0 == 0 || !wWin w 8 || wf w 9 15 0 == 0 || decide (1000 < wf w 9 15 0)),
   badRec rs sCONV 1 (fun i w =>
     (iStages w).any (fun (d, g) => (iGrp rs d g).isNone || (d == .ds && iLegGroup rs g)
         || ((iConvs rs).take i).any fun v => (iStages v).contains (d, g))
       || (iStages w).length != (iStages w).eraseDups.length),
   badRec rs sCONV 1 (fun _ w =>
     if wb w 0 12 then dof w 20 == dof w 8 else wf w 0 3 0 != 0 || wb w 0 8),
   badRec rs sCONV 1 (fun _ w =>
     let gs := (iStages w).filterMap fun (d, g) => iGrp rs d g
     gs.any (fun g => wf g 0 5 4 == 1 || wf g 0 5 4 == 2)
       || (match gs with | [a, b] => !twinOk a b | _ => false)),
   badRec rs sCONV 1 (fun _ w => wf w 0 25 24 == 1 && (!wb w 0 20 || wb w 2 12)),
   badRec rs sCONV 1 (fun _ w => !wb w 0 20 && !wb w 2 12),
   badRec rs sCONV 1 (fun _ w =>
     !wb w 2 12 && (match iComp rs 1 (wf w 2 10 8) with
       | some c => wf c 0 31 28 != 4
           || !((iMembers rs .ds (wf w 0 19 16)).any fun m => wf m 0 21 16 == wf c 5 13 8)
       | none => true)),
   badRec rs sCONV 1 (fun _ w => wf w 2 23 16 == 0 || decide (mask w ≤ wf w 2 23 16)),
   badRec rs sCONV 1 (fun _ w =>
     [wf w 1 8 0, wf w 1 17 9].any fun n => match iBuoy rs n with
       | some b => !wb b 1 12 && !wb b 1 13
       | none => true)]

/-- Whether a buoy may be an output buoy (R427): a HOST buoy, home CS, MIRROR, SUBST with 0, P at most 1 ms. -/
def outBuoyOk (rs : List Rec) (n : Nat) (scale : Option Nat) : Bool :=
  match iBuoy rs n with
  | some w =>
    wf w 0 31 24 == 3 && !wb w 1 12 && wb w 1 13 && wf w 1 15 14 == 1 && wat w 7 == 0
      && decide (wf w 5 27 16 * 10 ^ wf w 5 29 28 ≤ 1000)
      && (match scale with | some k => wf w 1 31 24 == k | none => true)
  | none => false

/-- R427 and the ranges of R425 and R426. -/
def checkCharge (rs : List Rec) : List (Option (Nat × Nat)) :=
  let ports := recsOf rs sCHARGE 1
  let scale (n : Nat) : Option Nat := (iBuoy rs n).map fun w => wf w 1 31 24
  let outs (w : List Word) : List Nat := [wf w 2 26 18, wf w 2 17 9, wf w 2 8 0]
  let fbuoy := (recsOf rs sTHERMAL 2).filterMap fun w => if wb w 2 9 then some (wf w 2 8 0) else none
  let routed := (recsOf rs sROUTE 1).map fun r => wf r 1 8 0
  [badRec rs sCHARGE 1 (fun i w =>
     dupRec rs sCHARGE 1 (fun v => wf v 0 24 24) i w || [8, 9, 10, 11].any (fun k => decide (wsi w k ≤ 0))
       || wf w 12 31 16 == 0 || decide (1440 < wf w 12 31 16) || wf w 12 15 0 == 0 || decide (4095 < wf w 12 15 0)
       || wf w 13 31 16 == 0 || !winOk (wf w 13 15 0) (wf w 14 7 0)),
   badRec rs sCHARGE 1 (fun _ w =>
     decide (wsi w 4 < wsi w 3) || decide (wsi w 5 ≤ wsi w 4) || decide (wsi w 5 ≤ wsi w 6) || decide (wsi w 10 ≤ wsi w 11)),
   badRec rs sCHARGE 1 (fun _ w =>
     wb w 0 24 && (!wb w 0 20 || wb w 0 16 || wb w 0 12 || (recsOf rs sCHARGE 2).isEmpty)),
   badRec rs sCHARGE 1 (fun _ w =>
     !outBuoyOk rs (wf w 2 26 18) none || !outBuoyOk rs (wf w 2 17 9) (scale (wf w 1 8 0))
       || !outBuoyOk rs (wf w 2 8 0) (scale (wf w 0 8 0))),
   badRec rs sCHARGE 1 (fun i w =>
     (outs w).length != (outs w).eraseDups.length
       || (outs w).any fun n => fbuoy.contains n || routed.contains n || (ports.take i).any fun v => (outs v).contains n),
   badRec rs sCHARGE 1 (fun _ w =>
     [wf w 0 8 0, wf w 1 8 0].any (fun n => (iBuoy rs n).isNone)
       || (wb w 0 20 && [wf w 1 26 18, wf w 1 17 9].any fun n => (iBuoy rs n).isNone)),
   badRec rs sCHARGE 2 (fun i w =>
     ((secOf rs sCHARGE).take i).any (fun r => r.rtype == 2)
       || wf w 0 15 8 == 0 || decide (15 < wf w 0 15 8) || wf w 0 7 0 == 0 || decide (wf w 1 31 16 < 20)
       || decide (200 < wf w 1 31 16) || wf w 1 15 0 == 0 || decide (wf w 1 31 16 < wf w 1 15 0) || wf w 7 15 0 == 0
       || decide (50 < wf w 7 15 0)),
   badRec rs sCHARGE 2 (fun _ w =>
     decide (wsi w 2 < wsi w 3) || decide (wsi w 4 ≤ wsi w 2) || decide (wsi w 5 < wsi w 4)),
   badRec rs sCHARGE 2 (fun _ w => match iBeam rs (wf w 0 18 16) with | some b => wf b 0 31 28 != 1 | none => true)]

/-- R444 and the ranges of R443. -/
def checkGear (rs : List Rec) : List (Option (Nat × Nat)) :=
  let drvs := recsOf rs sGEAR 1
  let act (a : Nat) : Option (List Word) := recBy rs sGEAR 2 1 0 a
  [badRec rs sGEAR 2 (fun i w =>
     dupRec rs sGEAR 2 (fun v => wf v 0 1 0) i w || wf w 0 1 0 == 3 || decide (1 < wf w 0 29 28) || decide (1 < wf w 0 25 24)
       || decide (5 < wf w 0 19 16) || !wWin w 4
       || (drvs.filter fun d => wf d 0 1 0 == wf w 0 1 0).length != (if wf w 0 29 28 = 0 then 3 else 2)),
   badRec rs sGEAR 1 (fun i w =>
     dupRec rs sGEAR 1 (fun v => wf v 0 18 16) i w || dupRec rs sGEAR 1 (fun v => wf v 0 11 8) i w
       || (act (wf w 0 1 0)).isNone || wf w 1 19 16 == 0),
   badRec rs sGEAR 1 (fun _ w =>
     match iChan rs .cs (wf w 0 11 8) with
     | some c =>
       wf c 0 3 2 != 0 || (iMembers rs .cs (wf c 0 11 8)).any fun m =>
         drvs.any fun d => wf d 0 11 8 == wf m 0 21 16 && wf d 0 1 0 != wf w 0 1 0
     | none => true),
   badRec rs sGEAR 2 (fun _ w => wf w 0 29 28 == 0 && !(wf w 0 11 8 == 10 || wf w 0 11 8 == 11)),
   badRec rs sGEAR 2 (fun _ w => iBuoyHome rs (wf w 1 8 0) != some .cs)]

/-! ## Temperature, CAN, host, ADC (R470, R495, R524, R562) -/

/-- The value of one fence of a quantity, or the CHAN record's own (R470). -/
def upperOf (rs : List Rec) (q c own : Nat) : Int :=
  match (recsOf rs sFENCE 1).find? fun w => wf w 0 23 16 == q && wf w 0 7 0 == c with
  | some w => wsi w 3
  | none => own

/-- R470 and the ranges of R49 and R469. -/
def checkThermal (rs : List Rec) : List (Option (Nat × Nat)) :=
  [badRec rs sTHERMAL 1 (fun i w =>
     let ext := decide (wf w 0 28 24 ≤ 15)
     let xs := (List.range 8).map fun k => wf w (3 + k) 27 16
     dupRec rs sTHERMAL 1 (fun v => wf v 0 28 24) i w || decide (27 < wf w 0 28 24) || decide (wsf w 1 31 16 ≤ wsf w 1 15 0)
       || (if ext then
             (xs.zip xs.tail).any (fun (a, b) => decide (b ≤ a)) || decide (wf w 2 27 16 ≤ wf w 2 11 0)
           else (w.drop 2).any (· != 0))),
   lackRec rs sTHERMAL 2, lackRec rs sTHERMAL 3,
   badRec rs sTHERMAL 2 (fun i w =>
     ((secOf rs sTHERMAL).take i).any (fun r => r.rtype == 2) || wf w 0 31 16 == 0 || wf w 0 15 0 == 0 || !wWin w 1
       || (wb w 2 9 && !outBuoyOk rs (wf w 2 8 0) none)
       || ((recsOf rs sTHERMAL 1).any (fun c => wb c 0 8) && (iTherm rs (wf w 3 4 0)).isNone)),
   badRec rs sTHERMAL 3 (fun i _ => ((secOf rs sTHERMAL).take i).any fun r => r.rtype == 3),
   badRec rs sFENCE 1 (fun i w =>
     let q := wf w 0 23 16
     let top := if q = 3 then 31 else if q = 6 then 27 else if q = 7 then 0 else 47
     dupRec rs sFENCE 1 (fun v => wf v 0 23 16 * 256 + wf v 0 7 0) i w || q == 0 || decide (7 < q) || decide (top < wf w 0 7 0)
       || (q == 6 && (match iTherm rs (wf w 0 7 0) with
             | some c => decide (wsf c 1 31 16 ≤ wsi w 3)
             | none => true))),
   badRec rs sPOWER 2 (fun _ w =>
     let c := wf w 0 21 16
     wb w 0 24 && (match iGrp rs .ds (wf w 0 11 8) with
       | some g => decide (((wat g 2).toNat : Int)
           < 2 * (upperOf rs 4 c (wf w 2 31 16) + max (upperOf rs 1 c (wf w 1 31 16)) (upperOf rs 2 c (wf w 1 15 0))))
       | none => true))]

/-- The ranges of a CNCFG (R494) and the bit rates of R476 and R477. -/
def canOk (w : List Word) : Bool :=
  let rng (i hi lo a b : Nat) : Bool := decide (a ≤ wf w i hi lo) && decide (wf w i hi lo ≤ b)
  wf w 0 25 24 != 3 && wf w 0 13 12 != 3 && rng 1 31 24 2 255 && rng 1 23 16 1 127 && rng 1 15 8 1 127 && rng 1 7 0 1 255
    && rng 2 31 24 2 31 && rng 2 23 16 1 15 && rng 2 15 8 1 15 && rng 2 7 0 1 32 && rng 3 31 24 0 127 && wWin w 4
    && rng 6 31 16 1 1000 && rng 6 15 8 2 255 && rng 6 7 0 1 255 && (wat w 8).toNat != 0
    && decide ((wat w 8).toNat ≤ 100000 * wf w 6 31 16)
    && decide (80 ≤ wf w 1 7 0 * (1 + wf w 1 31 24 + wf w 1 23 16))
    && decide (10 ≤ wf w 2 7 0 * (1 + wf w 2 31 24 + wf w 2 23 16))

/-- R495. -/
def checkCan (rs : List Rec) : List (Option (Nat × Nat)) :=
  let key (w : List Word) : Nat := wf w 0 25 24 * 64 + wf w 0 21 16
  let filt (w : List Word) : Option (List Word) := (recsOf rs sNET 2).find? fun v => key v == key w
  [badRec rs sNET 1 (fun i w => dupRec rs sNET 1 (fun v => wf v 0 25 24) i w || !canOk w),
   badRec rs sNET 2 (fun i w => dupRec rs sNET 2 key i w || wf w 0 25 24 == 3),
   badRec rs sNET 3 (fun i w =>
     dupRec rs sNET 3 key i w || wf w 0 25 24 == 3 || wf w 1 3 0 == 0 || wf w 1 3 0 == 15 || (filt w).isNone),
   badRec rs sNET 4 (fun i w =>
     let start := wf w 1 24 16
     let len := wf w 1 13 8
     let last := if wb w 1 0 then (start / 8 + (7 - start % 8 + len - 1) / 8) else (start + len - 1) / 8
     dupRec rs sNET 4 (fun v => wf v 0 7 0) i w || len == 0 || decide (32 < len) || decide (63 < last)
       || (match filt w with | some f => !wb f 0 9 | none => true)),
   badRec rs sNET 1 (fun i w =>
     wf w 0 13 12 != 0 && (!wb w 0 20
       || ((secOf rs sNET).take i).any fun r => r.rtype == 1 && wf r.w 0 13 12 != 0)),
   badRec rs sNET 1 (fun _ w => !wb w 0 8 && (wf w 0 13 12 == 1 || wb w 10 31)),
   badRec rs sNET 1 (fun _ w => wb w 9 31 && wf w 9 29 0 == wf w 5 29 0),
   badRec rs sBUOY 1 (fun _ w =>
     wf w 0 31 24 == 2 && !((recsOf rs sNET 4).any fun v => wf v 0 7 0 == wf w 0 23 16))]

/-- Whether a range lies within one region of its die (R518). -/
def ckRegion (d : Die) (a n : Nat) : Bool :=
  let within (lo hi : Nat) : Bool := decide (lo ≤ a) && decide (a + n ≤ hi)
  match d with
  | .cs => within 0x30010000 0x30014000 || within 0x30110000 0x30118000 || within 0x30210000 0x30218000
      || within 0x38000000 0x38800000
  | .ds => within 0x30000000 0x30010000 || within 0x30100000 0x30110000 || within 0x30200000 0x30210000

/-- R524 and the ranges of R523. -/
def checkHost (rs : List Rec) : List (Option (Nat × Nat)) :=
  [badRec rs sNET 0x10 (fun i w =>
     ((secOf rs sNET).take i).any (fun r => r.rtype == 0x10) || wf w 0 3 0 == 0 || !wWin w 1 || wf w 0 17 16 == 0),
   badRec rs sNET 0x11 (fun i w =>
     let d := dieOf (wb w 0 24)
     dupRec rs sNET 0x11 (fun v => wf v 0 24 24 * 16 + wf v 0 19 16) i w
       || decide ((match d with | .cs => 7 | .ds => 3) < wf w 0 19 16)
       || (wat w 1).toNat % 4 != 0 || wf w 2 24 0 % 4 != 0 || wf w 2 24 0 == 0 || decide (16777216 < wf w 2 24 0)
       || !ckRegion d (wat w 1).toNat (wf w 2 24 0) || !wWin w 5 || (wf w 0 9 8 == 1 && wf w 4 31 16 == 0))]

/-- R562: ADCs and channel codes of ADCMAP records. -/
def checkAdc (rs : List Rec) : List (Option (Nat × Nat)) :=
  [badRec rs sROUTE 1 (fun _ w =>
     decide (3 < wf w 0 11 8) || decide ((if wb w 0 24 then 7 else 5) < wf w 0 19 16)),
   badRec rs sROUTE 2 (fun _ w => !wb w 0 24 && decide (7 < wf w 0 19 16)),
   badRec rs sENGINE 1 (fun i w =>
     dupRec rs sENGINE 1 (fun v => wf v 0 24 24 * 8 + wf v 0 18 16) i w
       || (!wb w 0 24 && (decide (3 < wf w 0 18 16) || decide (1 < wf w 1 1 0))))]

/-- All rules over records, in the order R57, then the chapters (assumption log 35). -/
def checkRecords (rs : List Rec) : Option (Nat × Nat) :=
  firstOf ([checkShapes rs] ++ checkR57 rs ++ checkPagedefs rs ++ checkBuoys rs ++ checkFeedback rs ++ checkBeams rs
    ++ checkPower rs ++ checkWave rs ++ checkGuard rs ++ checkConv rs ++ checkCharge rs ++ checkGear rs ++ checkThermal rs
    ++ checkCan rs ++ checkHost rs ++ checkAdc rs)

end Sys2Proof.Machine
end

