-- ==== Sys2Proof/Machine/ImagePage.lean ====
section
/-! DEFINITION. The consistency rules of pages and parameter blocks (R48, R57 rules 7 and 8, R181, R207 to R211, R233, R234 and
the image rules of the chapters about entries), and the verification of an image or stage package (R56, R62). -/

namespace Sys2Proof.Machine

/-! ## What is judged -/

/-- An image under verification: the records in force, its pages and blocks, those of the running image that stay beside a stage
package (marked not own), engines that have a block. -/
structure Cand where
  rs     : List Rec
  pages  : List PageC
  params : List ParamC
  engs   : List (Die × Nat)
deriving Inhabited

/-- The PAGEDEF of a page: its first entry and the most entries it may hold (R47). -/
def iPageDef (rs : List Rec) (d : Die) (l p : Nat) : Option (Nat × Nat) :=
  ((recsOf rs sPAGETAB 1).find? fun w => wf w 0 24 24 == d.bit && wf w 0 17 16 == l && wf w 0 3 0 == p).map
    fun w => (wf w 1 27 16, wf w 1 11 0)

/-- The pages the device holds beside a stage package (R62): the content of the Light List that the package leaves as it is. -/
def residentPages (s : State) (own : List PageC) : List PageC :=
  (s.img.pages.filter fun h => !own.any fun p => p.die == h.die && p.lane == h.lane && p.page == h.page).map fun h =>
    let (a, _) := (iPageDef s.img.recs h.die h.lane h.page).getD (0, 0)
    let n := fld h.w0 31 16
    ⟨h.die, h.lane, h.page, [h.w0, h.w1, h.w2, 0],
      entriesOf n ((List.range (4 * n)).map fun i => memWord s.mem (llBase h.die + 16 * a + 4 * i)), false⟩

def engineCount (d : Die) : Nat := match d with | .ds => 16 | .cs => 8

/-! ## Entries (R181) -/

/-- Whether value references of a space and index exist on a die (R159, R247, R275, R317, R385, R436); the flag: as a
destination. -/
def refOk (rs : List Rec) (d : Die) (w : Bool) (r : Nat) : Bool :=
  let i := refIndex r
  let ds := d == Die.ds
  match refSpace r with
  | 0 => decide (i < 512) && (!w || (match iBuoy rs i with
      | some b => wf b 0 31 24 == 5 && wb b 1 12 == ds
      | none => false))
  | 1 => decide (i < 128) && decide (i / 8 < engineCount d)
  | 2 => !w && decide (i < engineCount d)
  | 3 => decide (i < 16)
  | 4 => !w && decide (i < 16)
  | 5 =>
    let item := i / 256
    let n := i % 256
    let top := if item = 3 then (if ds then 16 else 8) else (if ds then 48 else 16)
    let chan := iChan rs d n
    let unitOwned := if ds then (iLeg rs n).isSome else (recsOf rs sGEAR 1).any fun g => wf g 0 11 8 == n
    decide (item ≤ 3) && decide (n < top) && !((item == 0 || item == 2) && unitOwned)
      && (!(w && item == 1) || (match chan with | some c => wf c 0 3 2 == 1 | none => false))
      && (!(w && item == 3) || (match iGrp rs d n with | some g => wf g 0 5 4 == 1 | none => false))
  | 6 => ds && Nat.land i 0xEE0 == 0 && decide (i % 32 ≤ (if w then 12 else 16))
  | 7 =>
    let item := i / 256
    let n := i % 256
    let gc := iComp rs 1 n
    ds && decide (item ≤ 3) && decide (n < (if item ≤ 1 then 32 else 8))
      && (item != 3 || (match gc with | some c => wf c 0 31 28 == 4 && wb c 5 0 | none => false))
      && (!w || decide (item ≤ 1) || (match gc with
            | some c => !([1, 2, 3, 5].contains (wf c 0 31 28))
            | none => true))
  | 8 => ds && Nat.land i 0xCF0 == 0 && decide (i % 16 ≤ (if w then 1 else 3))
  | 9 => !ds && Nat.land i 0xCF0 == 0 && decide (i / 256 ≤ 2) && decide (i % 16 ≤ (if w then 1 else 3))
  | _ => false

/-- Rule 1: opcode, function, reserved bits, MOD, unused operands, CHK (R151, R160, R163). -/
def entryForm (d : Die) (e : Entry) : Bool :=
  let op := e.opcode
  let a := e.opa
  let b := e.opb
  let c := e.opc
  let mix := op == oBLEND && e.fn == 1
  let lim (n m : Nat) : Bool := decide (n < m)
  let operands : Bool :=
    if op = oNOP || op = oFENCE then a == 0 && b == 0 && c == 0
    else if op = oSAMPLE then (match d with | .ds => lim a 256 | .cs => lim a 64 && lim c 256)
    else if op = oREAD then Nat.land a 0xF0F0 == 0 && b == 0 && c == 0
    else if op = oMOVE then c == 0
    else if op = oRUN || op = oSNAP then lim a 16 && b == 0 && c == 0
    else if op = oLOAD then lim a 16 && lim b 8 && c == 0
    else if op = oWRITE then lim a 16 && c == 0
    else if op = oCOMMIT then lim a 16 && lim b 256 && c == 0
    else if op = oSCAN then lim a 8 && b == 0 && c == 0
    else if op = oMARK then b == 0 && c == 0
    else if op = oSIGNAL then lim a 64 && b == 0 && c == 0
    else true
  (if fnListed op e.fn then manyFn op || e.fn == 0 else false)
    && fld e.w1 26 24 == 0 && !bitOf e.w1 12 && fld e.w3 23 16 == 0 && e.chkOk
    && (e.immb || e.immc || (if mix then lim e.mod 16 else e.mod == 0)) && operands

/-- Rule 2: triggers (R156). -/
def entryTrig (rs : List Rec) (i : Nat) (e : Entry) : Bool :=
  if e.mode = 0 then (iBeam rs e.beam).isSome else i != 0 && e.beam == 0

/-- Rule 3: value references and immediates (R159, R160, R165). -/
def entryRefs (rs : List Rec) (d : Die) (e : Entry) : Bool :=
  let op := e.opcode
  let two := op == oBLEND || op == oLIMIT
  let lv (r : Nat) : Bool := refSpace r == 3 && decide (refIndex r ≤ 14)
  (!e.immb || op == oMOVE || (op == oBLEND && e.fn == 0) || op == oLIMIT) && (!e.immc || (op == oLIMIT && e.fn == 1))
    && (match e.dest with | some r => refOk rs d true r | none => true)
    && (!(op == oMOVE || two) || e.immb || refOk rs d false e.opb)
    && (!two || (if e.fn = 0 then lv e.opc else e.immc || refOk rs d false e.opc))

/-- The locations an entry writes that R162 gives to one lane: buoys, engine inputs, output spaces. -/
def entryLocs (rs : List Rec) (d : Die) (e : Entry) : List (Nat × Nat) :=
  if e.opcode = oREAD then
    match (recsOf rs sROUTE 1).find? fun w =>
        wf w 0 24 24 == d.bit && wf w 0 19 16 == readAdc e && wf w 0 11 8 == readChan e with
    | some w =>
      let n := wf w 1 8 0
      (0, n) :: ((recsOf rs sROUTE 2).filter fun v => wf v 0 24 24 == d.bit && wf v 1 8 0 == n).map
        fun v => (1, wf v 0 19 16 * 8 + wf v 0 2 0)
    | none => []
  else match e.dest with
    | some r => if refSpace r = 3 then [] else [(refSpace r, refIndex r)]
    | none => []

/-- Rule 4 against the pages before: no location that an entry of another lane writes (R162). -/
def entryLane (rs : List Rec) (before : List PageC) (p : PageC) (e : Entry) : Bool :=
  let mine := entryLocs rs p.die e
  !(before.any fun q => q.die == p.die && q.lane != p.lane
      && q.ents.any fun f => (entryLocs rs q.die f).any fun x => mine.contains x)

/-- Whether a pair may be split at run time (rule 5). -/
def canSplit (c : Cand) (d : Die) (p : Nat) : Bool :=
  (match iPair c.rs d p with | some w => wb w 0 0 | none => false)
    || c.pages.any fun q => q.die == d && wb q.hdr 0 0 && (wf q.hdr 2 7 0).testBit p

/-- Rule 5, and rule 8 of R57: engines. -/
def entryEngs (c : Cand) (p : PageC) (e : Entry) : Bool :=
  let op := e.opcode
  if op = oRUN || op = oLOAD || op = oWRITE || op = oSNAP then
    let k := engOf e
    decide (k < engineCount p.die)
      && (match iPair c.rs p.die (k / 2) with | some w => wf w 1 1 0 == p.lane | none => false)
      && (k % 2 == 0 || canSplit c p.die (k / 2))
  else true

/-- Rule 6 and the rules of single opcodes: READ, SAMPLE, COMMIT (R249, R268, R276, R436), SCAN (R180, R524). -/
def entryUnits (rs : List Rec) (p : PageC) (e : Entry) : Bool :=
  let op := e.opcode
  let ds := p.die == Die.ds
  if op = oREAD then !(entryLocs rs p.die e).isEmpty
  else if op = oSAMPLE then
    !(sampleAdcs p.die e).isEmpty && (sampleAdcs p.die e).all fun a => decide (sampleChan e a < 4)
  else if op = oCOMMIT then
    let ms := (iMembers rs p.die e.opa).map fun w => wf w 0 21 16
    decide (e.opa < (if ds then 16 else 8)) && decide (e.opb < 2 ^ ms.length)
      && ms.all fun ch =>
          if ds then
            match (iLeg rs ch).bind (iLegMach rs) |>.bind (iWf rs) with
            | some w => wf w 0 5 4 == p.lane
            | none => true
          else
            match (recsOf rs sGEAR 1).find? fun g => wf g 0 11 8 == ch with
            | some g =>
              match recBy rs sGEAR 2 1 0 (wf g 0 1 0) with | some a => wf a 0 25 24 == p.lane | none => true
            | none => true
  else if op = oSCAN then
    decide (e.opa < (if ds then 4 else 8))
      && (match (recsOf rs sNET 0x11).find? fun w => wf w 0 24 24 == p.die.bit && wf w 0 19 16 == e.opa with
          | some w => wf w 0 9 8 == 2
          | none => false)
  else true

/-- The lanes that write a duty, phase or own period of a stage's channels. -/
def dutyLanes (c : Cand) (d : Die) (g : Nat) : List Nat :=
  let ms := (iMembers c.rs d g).map fun w => wf w 0 21 16
  (c.pages.filter fun q => q.die == d && q.ents.any fun e => match e.dest with
    | some r => refSpace r == 5 && decide (refIndex r / 256 ≤ 1) && ms.contains (refIndex r % 64)
    | none => false).map (·.lane)

/-- Lanes that own a destination: WAVE (R276), GEAR (R436), PROT of a peak comparator (R401). -/
def entryOwner (c : Cand) (p : PageC) (e : Entry) : Bool :=
  match e.dest with
  | none => true
  | some r =>
    let i := refIndex r
    if refSpace r = 6 then
      (match iWf c.rs (i / 256 % 2) with | some w => wf w 0 5 4 == p.lane | none => true)
    else if refSpace r = 9 then
      (match recBy c.rs sGEAR 2 1 0 (i / 256) with | some a => wf a 0 25 24 == p.lane | none => true)
    else if refSpace r = 7 && i / 256 ≥ 2 then
      (iConvs c.rs).all fun w =>
        wb w 2 12 || wf w 2 10 8 != i % 8 || !wb w 0 20 || (dutyLanes c .ds (wf w 0 19 16)).all (· == p.lane)
    else true

/-- Every rule about one entry of a page. -/
def entryGood (c : Cand) (before : List PageC) (p : PageC) (i : Nat) (e : Entry) : Bool :=
  entryForm p.die e && entryTrig c.rs i e && entryRefs c.rs p.die e && entryLane c.rs before p e && entryEngs c p e
    && entryUnits c.rs p e && entryOwner c p e

/-! ## Pages (R48, R57 rule 7, R181 rule 7, R234) -/

/-- A page header; `secLen` is the section's length in bytes. More entries than the PAGEDEF allows is a matter of STAGEREF in a
stage package (R62). -/
def headerGood (rs : List Rec) (p : PageC) (secLen : Nat) (stage : Bool) : Bool :=
  let n := wf p.hdr 0 31 16
  let split := wb p.hdr 0 0
  let merge := wb p.hdr 0 1
  let mask := wf p.hdr 2 7 0
  (match iPageDef rs p.die p.lane p.page with | some (_, m) => 1 ≤ n && (stage || n ≤ m) | none => false)
    && secLen == 16 + 16 * n && !(split && merge) && (split || merge || mask == 0)
    && wf p.hdr 0 15 11 == 0 && wf p.hdr 0 7 2 == 0 && wf p.hdr 1 31 16 == 0 && wf p.hdr 2 31 8 == 0 && wat p.hdr 3 == 0
    && (iBeam rs (wf p.hdr 0 10 8)).isSome
    && (List.range 8).all fun k => !mask.testBit k || (match iPair rs p.die k with
          | some w => wf w 1 1 0 == p.lane
          | none => false)

/-- The rules of every page of the image or package, in order: its header, then its entries. -/
def checkPages (c : Cand) (lens : List Nat) (stage : Bool) : Option (Nat × Nat) :=
  let rest := c.pages.filter fun p => !p.own
  let own := c.pages.filter (·.own)
  let one (k : Nat) (p : PageC) : Option (Nat × Nat) :=
    if !headerGood c.rs p (lens.getD k 0) stage then some (7, 0x20FFFE)
    else (firstBad p.ents fun i e => !entryGood c (rest ++ own.take k) p i e).map fun i => (7, 0x200000 + i)
  firstOf (own.zipIdx.map fun (p, k) => one k p)

/-- The required sections that depend on the pages (R44, R57 rules 7 and 8, R210): page 0 of every lane in use, a block for
every engine that has a PAIR record and that a page names. -/
def checkUsed (c : Cand) : Option (Nat × Nat) :=
  let own := c.pages.filter (·.own)
  let lane0 (p : PageC) : Bool := c.pages.any fun q => q.die == p.die && q.lane == p.lane && q.page == 0
  let block (p : PageC) (e : Entry) : Bool :=
    !(e.opcode == oRUN || e.opcode == oLOAD || e.opcode == oWRITE || e.opcode == oSNAP)
      || (iPair c.rs p.die (engOf e / 2)).isNone || c.engs.contains (p.die, engOf e)
  if !own.all lane0 then some (7, 0x20FFFF)
  else if !own.all (fun p => p.ents.all (block p)) then some (7, 0x21FFFF) else none

/-! ## Parameter blocks (R207, R208, R211, R233) -/

/-- Whether a signed byte of a word is a shift (R211). -/
def shiftOk (w : Word) (hi : Nat) : Bool := let v := sfld w hi (hi - 7); decide (-24 ≤ v) && decide (v ≤ 7)

/-- Whether word k of a parameter set breaks a rule; `blk` the block, `a` the first word of the set. -/
def setWordOk (rs : List Rec) (d : Die) (e : Nat) (blk : List Word) (a k : Nat) : Bool :=
  let w := wat blk (a + k)
  match k with
  | 0 =>
    let sat := fld w 23 20
    Nat.land w.toNat 0x70000E88 == 0
      && (!bitOf w 31 || (!bitOf w 0 && !bitOf w 1 && !bitOf w 2 && !bitOf w 5 && bitOf w 6))
      && (!(bitOf w 5 || sat != 0) || (d == .ds && decide (e < 4))) && decide (sat ≤ 6)
      && (sat == 0 || (iMach rs (if sat = 3 || sat = 4 || sat = 6 then 1 else 0)).isSome)
  | 4 =>
    -- 0 ≤ AD < 1: a mantissa shifted by SAD (R196)
    let ad := w.toInt
    let sh := sfld (wat blk (a + 10)) 31 24
    decide (0 ≤ ad) && decide ((ad : Rat) * pow2 (sh - 31) < 1)
  | 10 => shiftOk w 31 && shiftOk w 23 && shiftOk w 15 && shiftOk w 7
  | 11 => shiftOk w 31 && shiftOk w 23 && shiftOk w 15 && shiftOk w 7
  | 12 => shiftOk w 7 && fld w 31 8 == 0
  | 13 => decide (0 ≤ w.toInt)
  | 14 => decide (0 ≤ w.toInt)
  | 15 => decide (w.toInt ≤ (wat blk (a + 16)).toInt)
  | 17 => decide (0 ≤ w.toInt)
  | _ => if 18 ≤ k then w == 0 else true

/-- Whether a word of a parameter block keeps the rules. -/
def parWordOk (rs : List Rec) (d : Die) (e : Nat) (blk : List Word) (i : Nat) : Bool :=
  let w := wat blk i
  if i = 0 then true
  else if i = 1 then let v := sfld w 31 24; decide (-30 ≤ v) && decide (v ≤ 0)
  else if i = 2 then Nat.land w.toNat 0xFFFFE800 == 0
  else if i = 3 then winWord w
  else if i < 8 then w == 0
  else if i < 16 then
    if e % 2 = 1 then w == 0
    else if i = 8 then winWord w
    else if i = 9 then fld w 31 16 == 0
    else if i = 10 then fld w 31 8 == 0 && fld w 7 0 != 0
    else i == 11 || w == 0
  else if i < 64 then w == 0
  else setWordOk rs d e blk (64 + (i - 64) / 32 * 32) ((i - 64) % 32)

/-- The rules of the parameter blocks of the image or package. -/
def checkParams (rs : List Rec) (ps : List ParamC) : Option (Nat × Nat) :=
  firstOf (ps.map fun p =>
    if p.len ≠ 1280 then some (7, 0x210000 + (if 1280 < p.len then 320 else p.len / 4))
    else ((List.range 320).find? fun i => !parWordOk rs p.die p.eng p.w i).map fun i => (7, 0x210000 + i))

/-! ## Verification (R56, R62) -/

/-- The parts of an image that orders 5 and 6 judge; a stage package is judged beside what it leaves as it is. -/
def candOf (s : State) (stage : Bool) (b : List Byte) : Cand :=
  let own := imPages b
  let ps := imParams b
  { rs := if stage then s.img.recs else imRecs b
    pages := (if stage then residentPages s own else []) ++ own
    params := ps
    engs := (ps.map fun p => (p.die, p.eng)) ++ (if stage then s.img.engines ++ s.im.stagedEngs else []) }

/-- Order 6: every consistency rule (assumption log 35). -/
def checkConsist (s : State) (stage : Bool) (b : List Byte) : Option (Nat × Nat) :=
  let c := candOf s stage b
  let lens := ((sects b).filter fun x => x.ty == 0x20).map (·.len)
  firstOf [if stage then none else checkRecords c.rs, checkPages c lens stage, checkParams c.rs c.params]

/-- The verification of an image in its slot or of a stage package: the cause and DETAIL of the first check that fails. -/
def verify (s : State) (stage : Bool) (room : Nat) (b : List Byte) : Option (Nat × Nat) :=
  checkHeader stage room b
    <|> checkSig s stage b
    <|> checkRollback s stage b
    <|> checkSects stage b
    <|> (if stage then none else checkRequired b)
    <|> checkUsed (candOf s stage b)
    <|> (if stage then none else checkSafety s b)
    <|> checkConsist s stage b

end Sys2Proof.Machine
end

