-- ==== Sys2Proof/Machine/ImageRows.lean ====
section
/-! DEFINITION. Image management: writing, checking and activating a slot, staging, the key table, sealing, the check of the
slot that does not run (R53, R54, R58 to R64, R508, R509, R520, R522, R571). -/

namespace Sys2Proof.Machine

/-! ## Faults and slots (R56, R571) -/

/-- A fault of subsystem 23: INST 0 slot A, 1 slot B, 2 stage package. -/
def f23 (s : State) (cause inst detail : Nat) : State :=
  countEvent { s with im := { s.im with lastCause := cause, err := wd detail } } (direct .cs 23 inst 0 0 cause (wd detail))

/-- The slot that is not running; with none running, the one that is not preferred (assumption log 38). -/
def spareSlot (s : State) : Nat :=
  if s.img.runslot = 0 then 1 else if s.img.runslot = 1 then 0 else if (bootNow s).boot.prefer then 0 else 1

/-- The bytes of the image in a slot, as long as its header says. -/
def readSlot (s : State) (slot : Nat) : State × List Byte :=
  let (s, h, _) := storeRead s (slotBase slot) 64
  let n := min (imLen h) slotSize
  let (s, r, _) := storeRead s (slotBase slot + 64) (n - 64)
  (s, h ++ r)

/-- A slot verified: the cause of the first failing check, 0 for none, is kept in SYS_SLOTSTAT and raised (R56, R58). -/
def verifySlot (s : State) (slot : Nat) : State × Nat × List Byte :=
  let (s, b) := readSlot s slot
  let note (s : State) (c : Nat) : State :=
    let lo := fld s.im.slotStat 15 0
    let hi := fld s.im.slotStat 31 16
    { s with im := { s.im with slotStat := if slot = 0 then wd (hi * 65536 + c) else wd (c * 65536 + lo) } }
  match verify s false slotSize b with
  | none => (note s 0, 0, b)
  | some (c, d) => (f23 (note s c) c slot d, c, b)

/-- A write the store did not take is reported failed; the manual gives its UCODE no value (R39; assumption log 4). -/
def failed (s : State) : State × Ans := (s.useFree, { status := 4, ucode := s.free.toNat % 256 })

/-! ## Slots (R61) -/

/-- IMG_WRITE: up to 240 bytes into the slot that is not running; a check passed before no longer counts. -/
def imgWrite (s : State) (off : Nat) (data : List Byte) : State × Ans :=
  let n := data.length
  if n = 0 || 240 < n || n % 4 ≠ 0 || slotSize < off + n then (s, lenAns)
  else
    let slot := spareSlot s
    let (s, ok) := storeWrite s (slotBase slot + off) data
    let s := { s with im := { s.im with checked := s.im.checked.set slot false } }
    if ok then (s, okAns) else failed s

/-- IMG_WRITE: bytes into the slot that is not running (R61). -/
def execImgWrite (q : Req) (offset : Word) (data : List Byte) (s : State) : Host.Outcome State Fault Refusal :=
  .next (command s q 0x10 (leBytes 4 offset.toNat ++ data) false true 2 fun s => imgWrite s offset.toNat data)

/-- IMG_CHECK: the slot that is not running is verified; the cause is the result. -/
def execImgCheck (q : Req) (s : State) : Host.Outcome State Fault Refusal :=
  .next (command s q 0x11 [] false true 2 fun s =>
    let slot := spareSlot s
    let (s, c, _) := verifySlot s slot
    let s := { s with im := { s.im with checked := s.im.checked.set slot (c == 0) } }
    (s, if c = 0 then okAns else { status := 4, ucode := 6, data := [wd c] }))

/-- IMG_ACTIVATE: PREFER the checked slot, TRIAL 1, ATTEMPTED 0. -/
def execImgActivate (q : Req) (slot : Word) (s : State) : Host.Outcome State Fault Refusal :=
  .next (command s q 0x12 (leBytes 4 slot.toNat) false true 2 fun s =>
    let n := slot.toNat
    if n ≠ spareSlot s || !(s.im.checked.getD n false) then (s, refuseAns 3)
    else
      let (s, ok) := bootSet s fun b => { b with prefer := n == 1, trial := true, attempted := false }
      if ok then (s, okAns) else failed s)

/-! ## Staging (R62 to R64, R508, R520) -/

/-- Size of the staging buffer. -/
def stageSize : Nat := 0x40000

/-- STG_WRITE. -/
def execStgWrite (q : Req) (offset : Word) (data : List Byte) (s : State) : Host.Outcome State Fault Refusal :=
  .next (command s q 0x18 (leBytes 4 offset.toNat ++ data) false false 2 fun s =>
    let n := data.length
    if n = 0 || 240 < n || stageSize < offset.toNat + n then (s, lenAns)
    else ({ s with im := { s.im with stageBuf := memPutBytes s.im.stageBuf offset.toNat data } }, okAns))

/-- The stage package in the buffer. -/
def stageBytes (s : State) : List Byte :=
  let h := memGetBytes s.im.stageBuf 0 64
  h ++ memGetBytes s.im.stageBuf 64 (min (imLen h) stageSize - 64)

/-- Why a page of a package is refused: 0 active, 1 target of a held request, 2 more entries than its PAGEDEF allows (R62). -/
def stageRef (s : State) (p : PageC) : Option Nat :=
  let ln := nth (s.lh p.die).lanes p.lane
  if ln.run && ln.page = p.page then some 0
  else if (match ln.held with | some r => r.page == p.page | none => false) then some 1
  else if (match iPageDef s.img.recs p.die p.lane p.page with
      | some (_, m) => decide (m < wf p.hdr 0 31 16)
      | none => false) then some 2
  else none

/-- The place of a page as STAGEREF's DETAIL shows it. -/
def pagePlace (p : PageC) : Nat := p.die.bit * 256 + p.lane * 16 + p.page

/-- What a package asks to be written: its pages, then its parameter blocks. -/
def stageItems (b : List Byte) : List StageItem :=
  ((imPages b).map fun p =>
    .page ⟨p.die, p.lane, p.page, wat p.hdr 0, wat p.hdr 1, wat p.hdr 2⟩ (bytesOf (p.ents.flatMap fun e => [e.w0, e.w1, e.w2, e.w3])))
    ++ (imParams b).map fun p => .param p.die p.eng p.w

/-- Where an item is written: its first address and its length. -/
def itemRange (s : State) : StageItem → Nat × Nat
  | .page h bs => (llBase h.die + 16 * ((iPageDef s.img.recs h.die h.lane h.page).getD (0, 0)).1, bs.length)
  | .param d e _ => (parBase d e, 1280)

def itemDie : StageItem → Die
  | .page h _ => h.die
  | .param d _ _ => d

/-- A staging write into a range: a scan there is abandoned and starts anew, and HOLDCMP is set (R520). -/
def stageHold (s : State) (it : StageItem) : State :=
  let d := itemDie it
  let (a, n) := itemRange s it
  (List.range (ckCount d)).foldl (fun s k =>
    let b := (ckW s d k 1).toNat
    let m := fld (ckW s d k 2) 24 0
    if (ckRec s d k).isSome && a < b + m && b < a + n then s.modCk d k fun x => { x with hold := true } else s) s

/-- STG_APPLY: the buffer is verified as a stage package, then its items begin to be written; the buffer is cleared. -/
def stgApply (s : State) : State × Ans :=
  let b := stageBytes s
  let s := { s with im := { s.im with stageBuf := [] } }
  match verify s true stageSize b with
  | some (c, d) => (f23 s c 2 d, { status := 4, ucode := 6, data := [wd c] })
  | none =>
    match (imPages b).findSome? fun p => (stageRef s p).map fun k => k * 65536 + pagePlace p with
    | some d => (f23 s 0x0B 2 d, refuseAns 4)
    | none =>
      let items := stageItems b
      let s := { s with im := { s.im with staging := s.im.staging || !items.isEmpty, items := s.im.items ++ items } }
      (items.foldl stageHold s, okAns)

/-- STG_APPLY: the staging buffer is checked and what it holds is loaded into its pages and blocks (R62, R63). -/
def execStgApply (q : Req) (s : State) : Host.Outcome State Fault Refusal :=
  .next (command s q 0x19 [] false false 2 stgApply)

/-- A page's content is in place. -/
def pagePut (s : State) (h : PageHdr) (bs : List Byte) : State :=
  let others := s.img.pages.filter fun p => !(p.die == h.die && p.lane == h.lane && p.page == h.page)
  { s with mem := memPutBytes s.mem (itemRange s (.page h bs)).1 bs, img := { s.img with pages := others ++ [h] } }

/-- Every item of the package is written: its parameter blocks wait for their page boundaries (R63). -/
def stageDone (s : State) : State :=
  let s := lanesDue (lanesDue s .cs) .ds
  let s' := s.im.params.foldl (fun s (d, e, ws) =>
    let s := s.modEng d e fun x => if x.stagedDue then { x with laterBlk := some ws } else { x with staged := some ws }
    if s.im.stagedEngs.contains (d, e) then s else { s with im := { s.im with stagedEngs := s.im.stagedEngs ++ [(d, e)] } }) s
  { s' with im := { s'.im with staging := false, params := [] } }

/-- STAGE_LOAD_COMPLETE: an item has been written; a DS item goes through the crossing (R63). -/
def execStageLoadComplete (item : Nat) (s : State) : Host.Outcome State Fault Refusal :=
  .next (
    match s.im.items[item]? with
    | none => s
    | some it =>
      if s.kp.restarting || (itemDie it == .ds && xingDown s) then s
      else
        let s := { s with im := { s.im with items := s.im.items.eraseIdx item } }
        let s := stageHold s it
        let s := match it with
          | .page h bs => pagePut s h bs
          | .param d e ws => { s with im := { s.im with params := s.im.params ++ [(d, e, ws)] } }
        if s.im.items.isEmpty then stageDone s else s)

/-! ## Keys (R53, R54, R509) -/

/-- The signed message of a command: its code, the UID, the nonce, its arguments up to the signature (R509). -/
def signedMsg (s : State) (code : Nat) (args : List Byte) : List Byte :=
  leBytes 2 code ++ leBytes 4 s.wr.uid0.toNat ++ leBytes 4 s.wr.uid1.toNat ++ leBytes 4 s.host.cnonce.toNat ++ args

/-- Whether the signer is ACTIVE with the IMAGE role and its signature verifies. -/
def signedOk (s : State) (code : Nat) (args : List Byte) (signer : Nat) (sig : List Byte) : Bool :=
  keyHas s signer 0 && keySigned s signer (signedMsg s code args) sig

/-- The next nonce, after an accepted signed command. -/
def newNonce (s : State) (nonce : Word) : State := { s with host := { s.host with cnonce := nonce } }

/-- Whether key commands are carried out: traction inhibited (R54), or every output off. -/
def keyTime (s : State) : Bool := outputsOff s || tractionInhibited s

/-- KEY_ENROL (R54): the first enrolment unsigned, any other signed by an IMAGE key. -/
def keyEnrol (s : State) (entry roles signer resv : Byte) (xy sig : List Byte) (nonce : Word) : State × Ans :=
  let args := [entry, roles, signer, resv] ++ xy
  let ks := (bootNow s).keys
  let n := entry.toNat
  let first := ks.all fun k => k.state == 0
  let put (s : State) : State × Bool :=
    bootWrite s fun b => { b with keys := b.keys.set n ⟨1, roles.setWidth 3, xy⟩ }
  if xy.length ≠ 64 || sig.length ≠ 64 then (s, lenAns)
  else if !keyTime s then (s, refuseAns 2)
  else if !first && !signedOk s 0x20 args signer.toNat sig then (s, refuseAns 5)
  else if 3 < n || (nth ks n).state ≠ 0 then (s, refuseAns 2)
  else
    let (s, ok) := put s
    if !ok then failed s else (if first then s else newNonce s nonce, okAns)

/-- KEY_ENROL: a public key with its roles into an empty entry (R54). -/
def execKeyEnrol (q : Req) (entry roles signer resv : Byte) (xy sig : List Byte) (nonce : Word) (s : State) :
    Host.Outcome State Fault Refusal :=
  .next (command s q 0x20 ([entry, roles, signer, resv] ++ xy ++ sig) false true 2 fun s =>
    keyEnrol s entry roles signer resv xy sig nonce)

/-- Whether an ACTIVE key with a role remains beside an entry. -/
def keyRemains (s : State) (n role : Nat) : Bool := (List.range 4).any fun k => k != n && keyHas s k role

/-- KEY_REVOKE (R54); an EMPTY entry named becomes REVOKED like any other, which R54 leaves open (assumption log 174). -/
def keyRevoke (s : State) (entry signer : Byte) (resv sig : List Byte) (nonce : Word) : State × Ans :=
  let args := [entry] ++ resv.take 3 ++ [signer] ++ resv.drop 3
  let n := entry.toNat
  if resv.length ≠ 6 || sig.length ≠ 64 then (s, lenAns)
  else if !keyTime s then (s, refuseAns 2)
  else if !signedOk s 0x21 args signer.toNat sig then (s, refuseAns 5)
  else if 3 < n || !keyRemains s n 0 || !keyRemains s n 1 then (s, refuseAns 2)
  else
    let (s, ok) := bootWrite s fun b => { b with keys := b.keys.modify n fun k => { k with state := 2 } }
    if ok then (newNonce s nonce, okAns) else failed s

/-- KEY_REVOKE: an entry is revoked while another key of each role remains (R54). -/
def execKeyRevoke (q : Req) (entry signer : Byte) (resv sig : List Byte) (nonce : Word) (s : State) :
    Host.Outcome State Fault Refusal :=
  .next (command s q 0x21 ([entry] ++ resv.take 3 ++ [signer] ++ resv.drop 3 ++ sig) false true 2 fun s =>
    keyRevoke s entry signer resv sig nonce)

/-! ## Return (R522) -/

/-- SEQ and hash of the image in a slot. -/
def slotIdent (s : State) (slot : Nat) : State × List Word :=
  let (s, b) := readSlot s slot
  (s, wd (imN b 16 4) :: wordsOf 8 (sha256 b))

/-- The return record, its fields in the order the manual lists them, then its CRC-32 (assumption log 39). -/
def returnRecord (s : State) : State × List Word :=
  let (s, a) := slotIdent s 0
  let (s, b) := slotIdent s 1
  let w := [s.wr.uid0, s.wr.uid1] ++ a ++ b ++ [(bootNow s).boot.floor, keyStat s, wd s.nv.lseq, wd s.nv.logNext]
  (s, w ++ [crc32 (bytesOf w)])

/-- A range of the store erased; a word that no longer takes a write keeps its content, which the read-back reports as NVWRITE
(R39). -/
def storeErase (s : State) (a n : Nat) : State × Bool :=
  let mem := s.mem.filter fun c => c.1 < a || a + n ≤ c.1 || s.nv.worn.contains (c.1 / 8)
  let flips := s.nv.flips.filter fun f => f.1 < a / 8 || (a + n - 1) / 8 < f.1
  let good := mem.all fun c => c.1 < a || decide (a + n ≤ c.1)
  let s := { s with mem := mem, nv := { s.nv with flips := flips } }
  if good then (s, true) else (nvEvent s 3 1 1, false)

/-- Sealing: the return record, the slots and the staging buffer erased, keys and safety-frame key cleared, SEALED set. -/
def sealDevice (s : State) : State × Bool :=
  let (s, w) := returnRecord s
  let (s, ok) := storeWrite s (storeBase + 0x740000) (bytesOf w)
  if !ok then (s, false)
  else
    let (s, okA) := storeErase s (slotBase 0) slotSize
    let (s, okB) := storeErase s (slotBase 1) slotSize
    let s := { s with
      im := { s.im with stageBuf := [] }
      nv := { s.nv with returned := w }
      wr := { s.wr with key := none, keyset := false } }
    if !okA || !okB then (s, false)
    else bootWrite s fun b => { b with keys := List.replicate 4 {}, boot := { b.boot with isSealed := true } }

/-- SEAL_FOR_RETURN (R508, R522): accepted under the conditions of SYS_RESTART with a valid signature; the device answers, then
seals. -/
def execSealForReturn (q : Req) (signer : Byte) (resv sig : List Byte) (nonce : Word) (s : State) :
    Host.Outcome State Fault Refusal :=
  .next (
    let args := [signer] ++ resv
    let t := command s q 0x41 (args ++ sig) false false 2 fun s =>
      if resv.length ≠ 3 || sig.length ≠ 64 then (s, lenAns)
      else if !restartOk s then (s, refuseAns 2)
      else if !signedOk s 0x41 args signer.toNat sig then (s, refuseAns 5)
      else
        let (s, ok) := sealDevice s
        if ok then (newNonce s nonce, okAns) else failed s
    t)

/-! ## The slot that does not run (R58) -/

/-- SLOT_CHECK: once after READY, as a class 3 service. -/
def execSlotCheck (s : State) : Host.Outcome State Fault Refusal :=
  .next (
    if !s.kp.slotDue || !s.sys.ready || s.kp.defer3 || s.kp.restarting || s.img.runslot = 3 then s
    else (verifySlot { s with kp := { s.kp with slotDue := false } } (spareSlot s)).1)

end Sys2Proof.Machine
end

