-- ==== Sys2Proof/Machine/Checks.lean ====
section
/-! DEFINITION. Check-value scans (R518 to R520, R528). -/

namespace Sys2Proof.Machine

/-- CHECK_SCAN_BACKGROUND_START: every PERIOD ms from the start of page 0, where the channel is idle (R518). -/
def execCheckScanBackgroundStart (die : Die) (ch : Fin 8) (s : State) : Host.Outcome State Fault Refusal :=
  .next (
    let n := ch.val
    if (ckRec s die n).isNone || ckMode s die n ≠ 1 || !s.runs die then s
    else
      let due := (nth (s.cks die) n).bgAt + fld (ckW s die n 4) 31 16 * msec
      let s := (s.advanceTo due).modCk die n fun x => { x with bgAt := due }
      if (nth (s.cks die) n).running then s else ckStart s die n)

/-- CK_CTRL_START: a write of CK_CTRL.START (R518, R528). -/
def execCkCtrlStart (die : Die) (ch : Fin 8) (s : State) : Host.Outcome State Fault Refusal :=
  .next (writeGate s die fun s => if ckCount die ≤ ch.val then s.answer 1 0 [] else (ckCtrl s die ch.val 1).ok [])

/-- CK_EXP_WRITE: the host writes the expected value (R519, R520, R528). -/
def execCkExpWrite (die : Die) (ch : Fin 8) (value : Word) (s : State) : Host.Outcome State Fault Refusal :=
  .next (writeGate s die fun s => if ckCount die ≤ ch.val then s.answer 1 0 [] else (ckSetExp s die ch.val value).ok [])

/-- The result of a scan is taken: shown, learned where AUTOEXP asks, compared unless HOLDCMP is set (R519, R520). -/
def scanTake (s : State) (d : Die) (n : Nat) (r : Word) : State :=
  let x := nth (s.cks d) n
  let auto := bitOf (ckW s d n 0) 4
  let learn := auto && (!x.learnt || x.hold)
  let s := s.modCk d n fun x =>
    { x with res := r, done := x.done + 1, has := true, running := false
             exp := if learn then r else x.exp
             learnt := x.learnt || auto
             hold := x.hold && !learn
             mismatch := if x.hold && !learn then x.mismatch else !learn && r != x.exp }
  if learn || x.hold || r == x.exp then s else ckEvent s d n 1 r

/-- SCAN_COMPLETE: a scan has read its range; an uncorrectable word of the store ends it with no result (R519, R523). `unc` is the
address of the word that cannot be corrected, where reading the range met one. -/
def execScanComplete (die : Die) (ch : Fin 8) (unc : Option Word) (s : State) : Host.Outcome State Fault Refusal :=
  .next (
    let n := ch.val
    if !(nth (s.cks die) n).running || (ckRec s die n).isNone then s
    else
      let a := (ckW s die n 1).toNat
      let len := fld (ckW s die n 2) 24 0
      let (s, bs, bad) := if storeBase ≤ a then storeRead s a len else (s, memGetBytes s.mem a len, none)
      match unc, bad with
      | some w, _ => ckEvent (s.modCk die n fun x => { x with running := false }) die n 2 w
      | none, some w => ckEvent (s.modCk die n fun x => { x with running := false }) die n 2 (wd (8 * w))
      | none, none => scanTake s die n (crc32 bs))

end Sys2Proof.Machine
end

