-- ==== Sys2Proof/Machine/HostRows.lean ====
section
/-! DEFINITION. Host access: reads and writes, enumeration, forwarding, the SPI, the chain links, the Keeper's lockstep and
load, the fault log (R499 to R516, R521, R529). -/

namespace Sys2Proof.Machine

/-! ## READ and WRITE (R504) -/

/-- Words read from an address on, up to the first that fails: the state, the words so far, the failure and its index. The one
read that a unit refuses is that of the device buffer, with DEV (R479, R506; assumption log 183). -/
def readWords : Nat → State → Nat → Nat → List Word → State × Ans
  | 0, s, _, _, ws => (s, { status := 0, data := ws })
  | n + 1, s, a, i, ws =>
    let (s', st, w) := regRead s a
    if st = 0 then readWords n s' (a + 4) (i + 1) (ws ++ [w]) else (s', { status := st, ucode := if st = 4 then 0x20 else 0, idx := i, data := ws })

/-- Words written from an address on, up to the first that is refused. -/
def writeWords : List Word → State → Nat → Nat → State × Ans
  | [], s, _, _ => (s, okAns)
  | v :: vs, s, a, i =>
    let (s', st, u) := regWrite s a v
    if st = 0 then writeWords vs s' (a + 4) (i + 1) else (s', { status := st, ucode := u, idx := i })

/-- HOST_READ: a read of up to 63 words (R504, R35). -/
def execHostRead (q : Req) (addr : Word) (count : BitVec 16) (s : State) : Host.Outcome State Fault Refusal :=
  .next (request s q tREAD (leBytes 4 addr.toNat ++ leBytes 2 count.toNat)
    (fun s => typeBar q tREAD false <|> (if s.kp.shed2 then some { status := 3 } else none))
    fun s =>
      let n := count.toNat
      if n = 0 || 63 < n then (s, lenAns) else readWords n s addr.toNat 0 [])

/-- HOST_WRITE: words written in order, to the first refused (R504, R35, R513). -/
def execHostWrite (q : Req) (addr : Word) (words : List Word) (s : State) : Host.Outcome State Fault Refusal :=
  .next (request s q tWRITE (leBytes 4 addr.toNat ++ bytesOf words)
    (fun s => typeBar q tWRITE true <|> ((writeBar s).map fun (st, u) => { status := st, ucode := u }))
    fun s =>
      let n := words.length
      if n = 0 || 63 < n then (s, lenAns) else writeWords words s addr.toNat 0)

/-! ## The chain (R511, R512) -/

/-- ENUM: the address is taken, or refused at the end of the chain; forwarding is part of the arrival (R512). It is taken
in the no-image state too (assumption log 173). -/
def execEnum (q : Req) (addr : Byte) (s : State) : Host.Outcome State Fault Refusal :=
  .next (request s q tENUM [addr] (fun _ => typeBar q tENUM false) fun s =>
    if 63 < addr.toNat then (s, lenAns)
    else if s.host.addr.isSome then (s, refuseAns 2)
    else
      ({ s with host := { s.host with addr := some addr, aliveSpi := none, alivePa := none, aliveBc := none } },
       { status := 0, data := [s.wr.uid0, s.wr.uid1, 0x906400C0] }))

/-- The header of a frame that passes through, as a request. -/
def frameReq (f : List Byte) : Req :=
  { stream := .pa, dst := f.getD 0 0, src := f.getD 1 0, seq := f.getD 3 0, alive := f.getD 4 0
    len := BitVec.ofNat 16 (ofLe ((f.drop 6).take 2)), crc := 0, coding := true }

/-- Whether a frame's last four bytes are its CRC-32. -/
def frameCrcOk (f : List Byte) : Bool :=
  12 ≤ f.length && (crc32 (f.take (f.length - 4))).toNat == ofLe (f.drop (f.length - 4))

/-- FRAME_FORWARD: a frame for another device goes on: from PB to PA, from PA to PB above the own address, or it is answered
NOROUTE (R511). -/
def execFrameForward (port : Port) (frame : List Byte) (s : State) : Host.Outcome State Fault Refusal :=
  .next (
    if !s.sys.keeperUp then s
    else match port with
      | .pb =>
        if !bitOf (hcCfg s) 18 then s
        else if !frameCrcOk frame then hcCount (hcErr s true) 1 2 0
        else if frame.getD 0 0 = 0xFC then s
        else { s with host := { s.host with outPaq := s.host.outPaq ++ [frame] } }
      | .pa =>
        let q := frameReq frame
        if !bitOf (hcCfg s) 17 then s
        else if !frameCrcOk frame then hcCount (hcErr s true) 1 1 0
        else if forMe s q || !goesOn s q then s
        else if pbOpen s then sendPb s frame
        else respond s q ((frame.getD 2 0).toNat) { status := 8 })

/-- Whether a port's link is up. -/
def linkIsUp (s : State) : Port → Bool
  | .pa => s.host.paUp
  | .pb => s.host.pbUp

/-- A port's link set. -/
def setLinkUp (s : State) (p : Port) (v : Bool) : State :=
  match p with
  | .pa => { s with host := { s.host with paUp := v } }
  | .pb => { s with host := { s.host with pbUp := v } }

def portNo : Port → Nat
  | .pa => 0
  | .pb => 1

/-- LINK_UP: 256 consecutive valid idles on an enabled port (R511). -/
def execLinkUp (port : Port) (s : State) : Host.Outcome State Fault Refusal :=
  .next (if s.sys.csReset || !bitOf (hcCfg s) (17 + portNo port) then s else setLinkUp s port true)

/-- LINKDN: code violations or silence (R511). -/
def execLinkDn (port : Port) (s : State) : Host.Outcome State Fault Refusal :=
  .next (
    if !linkIsUp s port then s
    else hcCount (setLinkUp s port false) 4 (portNo port + 1) (wd (portNo port)))

/-! ## The host SPI (R510) -/

/-- Whether the SPI answers. -/
def spiOn (s : State) : Bool := s.sys.keeperUp && bitOf (hcCfg s) 16

/-- SPI_SEND: a frame joins the queue of four, or is discarded. -/
def execSpiSend (frame : List Byte) (complete : Bool) (s : State) : Host.Outcome State Fault Refusal :=
  .next (
    if !spiOn s then s
    else if !complete || frame.length < 12 || 4 ≤ s.host.reqs.length then { s with host := { s.host with spiDisc := true } }
    else { s with host := { s.host with reqs := s.host.reqs ++ [frame], spiDisc := false } })

/-- SPI_RECV: LEN of the oldest held response, then the frame, which is removed; what was sent is in `acc`, LEN and then one
byte a word. -/
def execSpiRecv (s : State) : Host.Outcome State Fault Refusal :=
  .next (
    if !spiOn s then s
    else match s.host.resps with
      | [] => s.ok [0]
      | f :: fs =>
        ({ s with host := { s.host with resps := fs } } : State).ok
          (wd (ofLe ((f.drop 6).take 2)) :: f.map fun b => b.setWidth 32))

/-- SPI_STATUS. -/
def execSpiStatus (s : State) : Host.Outcome State Fault Refusal :=
  .next (
    if !spiOn s then s
    else s.ok [wd (atBit s.host.spiDisc 2 + atBit (decide (4 ≤ s.host.reqs.length)) 1 + atBit (!s.host.resps.isEmpty) 0)])

/-! ## The Keeper (R515, R516, R529) -/

/-- An event of subsystem 16 (R526). -/
def kpCount (s : State) (cause : Nat) (detail : Word) : State :=
  countEvent { s with kp := { s.kp with evt := orBit s.kp.evt cause } } (direct .cs 16 0 0 0 cause detail)

/-- KLOCK: the Keeper restarts from its firmware; requests in flight receive no response (R515). -/
def execKlock (s : State) : Host.Outcome State Fault Refusal :=
  .next (
    if !s.sys.keeperUp || s.kp.restarting then s
    else
      let s := kpCount s 1 0
      { s with
        kp := { s.kp with restarting := true, restarts := s.kp.restarts + 1, queue := [] }
        host := { s.host with reqs := [] }
        sys := { s.sys with rstCause := orBit s.sys.rstCause 6 } })

/-- KEEPER_RESTART_COMPLETE: within 5 ms (R515). -/
def execKeeperRestartComplete (s : State) : Host.Outcome State Fault Refusal :=
  .next (if s.kp.restarting then { s with kp := { s.kp with restarting := false } } else s)

/-- KEEPER_LOAD_UPDATE: U of the last 10 ms, and what is shed (R516). -/
def execKeeperLoadUpdate (u : Nat) (s : State) : Host.Outcome State Fault Refusal :=
  .next (
    if !s.sys.keeperUp || s.kp.restarting then s
    else
      let s := s.advanceTo (s.kp.loadAt + msec)
      let u := min 100 u
      let enter := !s.kp.shed2 && decide (98 < u)
      let s := { s with kp := { s.kp with
        u := u
        peak := max s.kp.peak u
        loadAt := s.now
        defer3 := decide (90 < u) || (s.kp.defer3 && decide (80 < u))
        shed2 := decide (98 < u) || (s.kp.shed2 && decide (95 < u)) } }
      if enter then kpCount s 2 (wd u) else s)

/-- KP_LOAD_READ: the read re-arms the peak (R529). -/
def execKpLoadRead (s : State) : Host.Outcome State Fault Refusal :=
  .next (regGate s .cs fun s => (kpReads s 4).ok [(kpRegs s 4).getD 0])

/-! ## The fault log (R521) -/

/-- LOG_READ: the lowest index held, then the records held among `count` from `first` on. -/
def logReadAns (s : State) (first count : Nat) : State × Ans :=
  if count = 0 || 7 < count then (s, lenAns)
  else
    let lo := max first (logLowest s)
    let hi := min s.nv.logNext (first + count)
    let (s', bs) := (List.range (hi - lo)).foldl (fun (s, bs) k =>
      let (s', b, _) := storeRead s (logAddr (lo + k)) 32
      (s', bs ++ b)) (s, [])
    (s', { status := 0, data := wd (logLowest s) :: wordsOf (bs.length / 4) bs })

/-- What bars LOG_READ: a sealed device still serves it (R522). -/
def logBar (q : Req) (s : State) : Option Ans :=
  typeBar q tCMD false
    <|> (if s.im.noImage && !(bootNow s).boot.isSealed then some { status := 7 }
         else if s.sys.sleepAcc then some { status := 4, ucode := 2 }
         else if s.kp.defer3 && decide (8 ≤ s.kp.queue.length) then some { status := 3 }
         else none)

/-- LOG_READ (R508, R516, R521): class 3, deferred under load. -/
def execLogRead (q : Req) (first count : Word) (s : State) : Host.Outcome State Fault Refusal :=
  let pay := cmdPay 0x40 (leBytes 4 first.toNat ++ leBytes 4 count.toNat)
  .next (
    if !s.sys.keeperUp || !portOn s q || (q.stream == .spi && decide (4 ≤ s.host.resps.length)) then s
    else
      let (s, ok) := arrive (unqueue s q tCMD pay) q tCMD pay
      if !ok then s
      else if s.kp.defer3 && !s.kp.restarting && (logBar q s).isNone then
        { s with kp := { s.kp with queue := s.kp.queue ++ [⟨q, first, count⟩] } }
      else hand s q tCMD (logBar q) fun s => logReadAns s first.toNat count.toNat)

/-- DEFERRED_REQUEST_SERVE: the oldest deferred request, once U has fallen to 80 % (R516). -/
def execDeferredRequestServe (s : State) : Host.Outcome State Fault Refusal :=
  .next (
    match s.kp.queue with
    | [] => s
    | d :: ds =>
      if s.kp.defer3 || s.kp.restarting || !s.sys.keeperUp
          || (d.req.stream == .spi && decide (4 ≤ s.host.resps.length)) then s
      else
        let (s, a) := logReadAns { s with kp := { s.kp with queue := ds } } d.first.toNat d.count.toNat
        respond s d.req tCMD a)

end Sys2Proof.Machine
end

