-- ==== Sys2Proof/Machine/Power.lean ====
section
/-! DEFINITION. Supplies, resets, the boot state of the DS die, sleep and wake, the clocks that come back (R26, R28, R530 to R534,
R538 to R546). -/

namespace Sys2Proof.Machine

/-! ## What a reset leaves (R531, R533, R534, R544) -/

/-- The RAM of a die cleared: after a reset it reads as memory that nothing has written (assumption log 5). -/
def clearRam (m : List Host.Cell) (d : Die) : List Host.Cell :=
  memErase (memErase (memErase m (llBase d) (16 * llEntries d)) (parBase d 0) (0x1000 * engCount d)) (cpBase d 0) (0x1000 * engCount d)

/-- A buoy after a reset of the CS die: a DS-home one keeps what the DS die holds, a CS-home one the DS die's copy. -/
def csBuoy (s : State) (n : Nat) (b : Buoy) : Buoy :=
  if !s.dsLoaded || !byOn s n then {}
  else match byHome s n with
    | .cs => { mval := b.mval, mscale := b.mscale, mstale := b.mstale, mAt := b.mAt }
    | .ds => { b with mval := 0, mscale := 0, mstale := true, mAt := 0, rdecl := false, rwcount := 0, rviol := 0 }

/-- A buoy after a reset of the DS die. -/
def dsBuoy (s : State) (n : Nat) (b : Buoy) : Buoy :=
  if !byOn s n then b
  else match byHome s n with
    | .cs => { b with mval := 0, mscale := 0, mstale := true, mAt := 0 }
    | .ds => { mval := b.mval, mscale := b.mscale, mstale := b.mstale, mAt := b.mAt, rdecl := b.rdecl, rwcount := b.rwcount
               rviol := b.rviol }

/-- The units of the CS die other than the Keeper, the image management and the system unit at their reset values; what the DS
die holds stays (R533, R544). The safety-frame key and the UID are in the store (R370). -/
def csUnitsReset (s : State) : State :=
  let w0 : Wr := {}
  let x0 : Crossing := {}
  let l0 : Lamp := State.reset.lamp
  let temp := s.temp.mapIdx fun c t => if thDie c == .cs then {} else t
  let buoys := s.buoys.mapIdx (csBuoy s)
  { s with
    mem := clearRam s.mem .cs
    csLoaded := false
    buoys := buoys
    ctrs := s.ctrs.filter fun c => c.key.die == .ds
    fb := State.reset.fb
    fbTick := 0
    beamsCs := State.reset.beamsCs
    mains := {}
    lhCs := {}
    engCs := State.reset.engCs
    pairCs := State.reset.pairCs
    pwmCs := State.reset.pwmCs
    wr := { w0 with key := s.wr.key, keyset := s.wr.keyset, uid0 := s.wr.uid0, uid1 := s.wr.uid1 }
    ports := State.reset.ports
    ac := {}
    gd := State.reset.gd
    gact := State.reset.gact
    bridgeUnres := true
    bridgeBad := true
    temp := temp
    lamp := { l0 with legs := s.lamp.legs, fDs := s.lamp.fDs, dsLimch := s.lamp.dsLimch }
    can := State.reset.can
    net := {}
    ckCs := State.reset.ckCs
    x := { x0 with ds := s.x.ds, evq := s.x.evq, fly := s.x.fly, again := s.x.again, evnext := s.x.evnext, sending := s.x.sending
                   lost := s.x.lost, qovfDue := s.x.qovfDue, judged := s.x.judged, resumeAt := s.x.resumeAt, cmdAcc := s.x.cmdAcc
                   heldRx := s.x.heldRx, fRx := s.x.fRx, limchRx := s.x.limchRx } }

/-- The running image forgotten on the CS die; while the DS die still runs it keeps what it has loaded. -/
def imgDropped (s : State) : Image :=
  let i0 : Image := {}
  if s.dsLoaded then { i0 with recs := s.img.recs, pages := s.img.pages, engines := s.img.engines } else i0

/-- A reset of the whole CS die with its causes (SYS_RSTCAUSE, R549): start-up begins again at step 1 once the reset is
released. The VWK domain, the store and the DS die keep theirs. -/
def csResetFull (s : State) (cause : Nat) : State :=
  let y0 : Sys := {}
  { csUnitsReset s with
    csOfs := 0 - wd s.now
    netZero := s.now
    t0 := if s.sys.dsReady then s.t0 else none
    img := imgDropped s
    im := {}
    host := {}
    kp := {}
    clk := { dsLock := s.clk.dsLock }
    sup := { s.sup with dsSeen := 0 }
    acc := {}
    sys := { y0 with
      rstCause := orBit s.sys.rstCause cause, wkCnt := s.sys.wkCnt, wakePin := s.sys.wakePin, wakeUnres := s.sys.wakeUnres
      resetLow := s.sys.resetLow, resetUnres := s.sys.resetUnres, dsPor := s.sys.dsPor, dsBoot := s.sys.dsBoot, dsUp := false
      dsReady := s.sys.dsReady, stepStart := s.now } }

/-- The DS die enters its boot state: every DS unit is reset and every gate-command output of it is high-impedance; the injection
results of its pairs stay for as long as its supplies last (R219, R534). -/
def dsBootIn (s : State) : State :=
  let pair (p : Pair) : Pair := { injDone := p.injDone, injMask := p.injMask, injWord := p.injWord, disabled := p.disabled }
  let temp := s.temp.mapIdx fun c t => if thDie c == .ds then {} else t
  let buoys := s.buoys.mapIdx (dsBuoy s)
  { s with
    mem := clearRam s.mem .ds
    dsLoaded := false
    buoys := buoys
    ctrs := s.ctrs.filter fun c => c.key.die == .cs
    beamsDs := State.reset.beamsDs
    lhDs := {}
    engDs := State.reset.engDs
    pairDs := s.pairDs.map pair
    pwmDs := {}
    mach := State.reset.mach
    candle := State.reset.candle
    legs := State.reset.legs
    prot := {}
    conv := State.reset.conv
    cvTick := 0
    temp := temp
    lamp := { s.lamp with legs := State.reset.lamp.legs, fDs := 0, dsLimch := 0 }
    ckDs := State.reset.ckDs
    x := { s.x with ds := {}, evq := [], fly := [], again := [], evnext := 0, sending := none, lost := 0, qovfDue := false
                    judged := [], resumeAt := 0, cmdAcc := none, heldRx := 0, fRx := 0, limchRx := 0 }
    sys := { s.sys with dsBoot := true, dsUp := false, dsReady := false } }

/-- A power-on reset of the DS die: the injection results and the PLL lock are lost too. -/
def dsPorIn (s : State) : State :=
  let s := dsBootIn s
  { s with pairDs := State.reset.pairDs, clk := { s.clk with dsLock := false }, sys := { s.sys with dsPor := true } }

/-! ## Supplies (R530 to R532) -/

/-- Whether every CS supply is in range. -/
def csSupplies (s : State) : Bool := (List.range 8).all s.sup.csOk.getLsbD

/-- The CS die leaves its reset: its supplies valid, RESET_N high, not asleep (R531, R533). -/
def csRelease (s : State) : State :=
  if s.sys.csReset && csSupplies s && !s.sys.resetLow && !s.sys.asleep then
    { s with sys := { s.sys with csReset := false, step := 1, stepStart := s.now } }
  else s

/-- One supply code's bit, on the die it belongs to. -/
def setSupply (s : State) (code : Nat) (ok : Bool) : State :=
  let put (w : BitVec 12) : BitVec 12 := if ok then w ||| BitVec.ofNat 12 (2 ^ code) else w &&& ~~~(BitVec.ofNat 12 (2 ^ code))
  if code < 8 then { s with sup := { s.sup with csOk := put s.sup.csOk } }
  else { s with sup := { s.sup with dsOk := put s.sup.dsOk } }

/-- Every comparator, TRIP before HARD of one input (R338). -/
def allComps : List Comp :=
  ((List.finRange 32).flatMap fun n => [.trip n, .hard n]) ++ (List.finRange 8).map fun n => .gc n

/-- Every live level taken afresh. -/
def liveAll (s : State) : State := allComps.foldl liveUpdate s

/-- SUPUV or SUPOV of a supply: DETAIL the measured voltage in mV (R532, R547). -/
def supplyEvent (s : State) (code : Nat) (isOver : Bool) (mv : BitVec 16) : State :=
  let d : Die := if code < 8 then .cs else .ds
  let s := { s with sys := { s.sys with sysEvt := orBit s.sys.sysEvt 4 } }
  countEvent s (direct d 0 code 0 0 (if isOver then 0x11 else 0x10) (mv.setWidth 32))

/-- The DS supplies out of range, as DETAIL of DSRST shows them (R547). -/
def dsOutMask (s : State) : Nat := (List.range 4).foldl (fun a k => a + atBit (!s.sup.dsOk.getLsbD (8 + k)) (8 + k)) 0

/-- SUPPLY_OUT_OF_RANGE: the 10 µs filter of a supply monitor finds it outside its thresholds (R530, R532). VCS_CORE resets the
CS die, VDS_CORE the DS die; a loss of VWK holds the device in reset until its power-on. -/
def execSupplyOutOfRange (code : Fin 12) (isOver : Bool) (mv : BitVec 16) (s : State) : Host.Outcome State Fault Refusal :=
  .next (
    let n := code.val
    if n = 7 then
      if isOver then s
      else
        let s := dsBootIn (csResetFull s 0)
        { s with sup := { s.sup with csOk := 0, vwkLow := true } }
    else if n < 8 then
      if !s.sup.csOk.getLsbD n || s.sys.asleep then s
      else if n = 0 then csResetFull (setSupply s 0 false) 3
      else if s.sys.csReset then setSupply s n false
      else supplyEvent (setSupply s n false) n isOver mv
    else if s.sys.dsPor || !s.sup.dsOk.getLsbD n then s
    else if n = 8 then
      let s := dsPorIn (setSupply s 8 false)
      let m := dsOutMask s
      let s := { s with sup := { s.sup with dsOk := 0 } }
      if s.sys.csReset || s.sys.asleep then s
      else
        let s := { s with sys := { s.sys with rstCause := orBit s.sys.rstCause 5 } }
        countEvent s (direct .cs 0 0 0 0 0x12 (wd m))
    else
      let s := supplyEvent (setSupply s n false) n isOver mv
      if n = 9 then liveAll s else s)

/-- SUPPLY_BACK_IN_RANGE: a monitored supply is in range again; the comparators are believed again 100 µs after VDS_ANA has come
back (R532). -/
def execSupplyBackInRange (code : Fin 12) (s : State) : Host.Outcome State Fault Refusal :=
  .next (
    let n := code.val
    if n = 0 || n = 7 || n = 8 || (if n < 8 then s.sys.csReset || s.sys.asleep || s.sup.csOk.getLsbD n else s.sys.dsPor || s.sup.dsOk.getLsbD n)
    then s
    else
      let s := setSupply s n true
      if n = 9 then
        let s := { s with sup := { s.sup with since := s.sup.since.set 9 (s.now + 100 * usec) } }
        liveAll (s.advanceTo (s.now + 100 * usec))
      else s)

/-- VWK_POWER_ON: VWK rises past its power-on threshold: the whole device starts cold; the VWK domain takes its reset values and
WAKE_REQ is driven low (R531, R533, R542). -/
def execVwkPowerOn (s : State) : Host.Outcome State Fault Refusal :=
  .next (
    let s := csResetFull (dsPorIn s) 0
    { s with
      sup := { s.sup with csOk := 0x80, dsOk := 0, vwkLow := false }
      sys := { s.sys with rstCause := 1, wkCnt := 0, wakePin := true, wakeUnres := true, resetLow := true, resetUnres := true } })

/-! ## The injection test (R219) -/

/-- A die's injection test: each pair that fails is disabled and keeps its result; a pair that failed an earlier test of the same
run of the device stays disabled, with the result that disabled it where the new test passes (R219, assumption log 178). -/
def injTest (s : State) (d : Die) (fails : List InjFail) : State :=
  let mark (p : Nat) (x : Pair) : Pair :=
    match fails.find? fun f => f.pair.val == p && f.mask ≠ 0 with
    | some f => { x with injDone := true, injMask := f.mask, injWord := f.word.val, disabled := true }
    | none => if x.disabled then { x with injDone := true } else { x with injDone := true, injMask := 0, injWord := 0 }
  s.setPairs d ((s.pairs d).mapIdx mark)

/-- POWER_ON_RESET_RELEASE: every supply of a die has been in range for 100 µs. The CS die starts at step 1 once RESET_N is high;
the DS die waits in its boot state and runs its half of the injection test (R531, R537). -/
def execPowerOnResetRelease (die : Die) (inj : List InjFail) (s : State) : Host.Outcome State Fault Refusal :=
  .next (
    match die with
    | .cs =>
      if !s.sys.csReset || s.sys.asleep || s.sup.vwkLow || s.sup.csOk.getLsbD 0 then s
      else csRelease { s with sup := { s.sup with csOk := 0xFF }, sys := { s.sys with validAt := s.now } }
    | .ds =>
      if !s.sys.dsPor then s
      else injTest { s with sup := { s.sup with dsOk := 0xF00 }, sys := { s.sys with dsPor := false, dsStartAt := s.now } } .ds inj)

/-! ## RESET_N (R533, R546) -/

/-- RESET_N_LOW: RESET_N has been low for 1 µs: the CS die is in reset until it rises; in sleep it has no effect, and a sleep entry
is abandoned. -/
def execResetNLow (s : State) : Host.Outcome State Fault Refusal :=
  .next (
    if s.sys.asleep || s.sys.resetLow then s
    else
      let s := csResetFull s 2
      { s with sys := { s.sys with resetLow := true } })

/-- RESET_N high: the pin is resolved and start-up runs from step 1. -/
def resetHigh (s : State) : State :=
  csRelease { s with sys := { s.sys with
    resetLow := false, resetUnres := false, validAt := if s.sys.csReset && s.sys.resetLow then s.now else s.sys.validAt } }

/-- RESET_N_RISE: RESET_N rises after a reset through it (R533). -/
def execResetNRise (s : State) : Host.Outcome State Fault Refusal :=
  .next (if !s.sys.resetLow || s.sys.resetUnres then s else resetHigh s)

/-- DS_BOOT_ENTRY: the DS die has received K28.7 on all four lanes for 1 µs, which the CS lane transmitters send while the CS die
is in its power-on reset or held in reset (R534, R535). -/
def execDsBootEntry (s : State) : Host.Outcome State Fault Refusal :=
  .next (
    if (s.sys.csReset || s.sys.step = 1) && s.sup.csOk.getLsbD 0 && !s.sys.asleep && !s.sys.dsPor then dsBootIn s else s)

/-! ## SYS_RESTART (R61, R533, R538) -/

/-- What a SYS_RESTART resets and keeps: both dies but for the Keeper and the store, and the pairs the injection test disabled (R219); start-up resumes at step 3. The staged
content is lost (R64); the DS die returns to its boot state (R534). -/
def restart (s : State) : State :=
  let fails (p : Pair) : Pair := if p.disabled then { injMask := p.injMask, injWord := p.injWord, disabled := true } else {}
  let s1 := dsBootIn (csUnitsReset { s with sys := { s.sys with rstCause := orBit s.sys.rstCause 4 } })
  let y0 : Sys := {}
  { s1 with
    t0 := none
    pairCs := s.pairCs.map fails
    ctrs := s.ctrs.filter fun c => c.key.die == .cs && [18, 22, 23].contains c.key.sub
    clk := { s.clk with wrMism := false, clkDev := 0, wrTxOff := false, winAt := 0 }
    img := {}
    im := { s.im with fallback := false, noImage := true, staging := false, items := [], params := [], stagedEngs := [], stageBuf := [], repeated := false }
    host := { s.host with cfgLoaded := false }
    kp := { s.kp with slotDue := false }
    sys := { y0 with
      step := 3, rstCause := s1.sys.rstCause, wkCnt := s.sys.wkCnt, wakePin := s.sys.wakePin, wakeUnres := s.sys.wakeUnres
      wakeReq := s.sys.wakeReq, resetLow := s.sys.resetLow, resetUnres := s.sys.resetUnres, csReset := false, dsPor := s.sys.dsPor
      dsBoot := true, keeperUp := s.sys.keeperUp, sysEvt := s.sys.sysEvt, almask := s.sys.almask, stepT := s.sys.stepT
      validAt := s.sys.validAt, stepStart := s.now } }

/-- SYS_RESTART: accepted only under the conditions of R61; a broadcast is taken too (R507, R513). -/
def execSysRestart (q : Req) (s : State) : Host.Outcome State Fault Refusal :=
  .next (command s q 0x13 [] true true 2 fun s => if restartOk s then (restart s, okAns) else (s, refuseAns 2))

/-! ## Sleep and wake (R542 to R546) -/

/-- SYS_SLEEP: a write of the sleep register (R543). -/
def execSysSleep (value : Word) (s : State) : Host.Outcome State Fault Refusal :=
  .next (writeGate s .cs fun s =>
    let (s, st, u) := sleepRequest s value
    if st = 0 then s.ok [] else s.refuse u)

/-- The wake circuit drives WAKE_REQ low; the CS die goes to step 1 once its supplies are valid (R545). -/
def wakeUp (s : State) : State :=
  { s with sys := { s.sys with
    asleep := false, wakeReq := true, wakePend := false, rstCause := orBit s.sys.rstCause 1, wkCnt := satInc s.sys.wkCnt } }

/-- The last step of sleep entry: the CS die in reset, the wake circuit takes SLEEP; a WAKE that completed its filter on the way
ends the sleep at once (R543, R546). -/
def sleepEnd (s : State) : State :=
  let pend := s.sys.wakePend
  let was := s.sys.rstCause
  let s := csResetFull s 1
  let s := { s with sup := { s.sup with csOk := 0x80 }
                    sys := { s.sys with rstCause := was, asleep := true, wakeReq := false } }
  if pend then wakeUp s else s

/-- SLEEP_ENTRY_STEP: the next step of an accepted sleep request (R543): at 50 ms the cooling curves are discarded and the CAN FD
controllers go OFF and a lockout record still due is written, at 50.1 ms the Watch Room stops and the DS die enters its boot state, at 50.2 ms the CS die is in reset. -/
def execSleepEntryStep (s : State) : Host.Outcome State Fault Refusal :=
  .next (
    if !s.sys.sleepAcc then s
    else
      let k := s.sys.sleepStep
      let s := s.advanceTo (s.sys.sleepAt + (if k = 1 then 50 * msec else if k = 2 then 50 * msec + 100 * usec else 50 * msec + 200 * usec))
      let s := { s with sys := { s.sys with sleepStep := k + 1 } }
      if k = 1 then
        let temp := s.temp.map fun t => { t with curveAt := none }
        let off (c : Can) : Can := { c with state := 0 }
        { s with temp := temp, can := s.can.map off, nv := { s.nv with lockRec := s.nv.lockRec || (s.wr.state = 3 && wrLockPersist s) } }
      else if k = 2 then
        let s := if s.sys.dsPor then s else dsBootIn s
        { s with wr := { s.wr with loaded := false }, x := { s.x with cs := {}, trained := false } }
      else sleepEnd s)

/-- WAKE: in sleep, WAKE has stayed high for 1 ms (R545). -/
def execWake (s : State) : Host.Outcome State Fault Refusal :=
  .next (
    if !s.sys.asleep || s.sup.vwkLow then s
    else wakeUp { s with sys := { s.sys with wakePin := true, wakeUnres := false } })

/-- WAKE_LEVEL_CHANGE: the filtered level of WAKE changes while the device is awake (R540, R546, R548). -/
def wakeLevel (s : State) (level : Bool) : State :=
  let y := s.sys
  { s with sys := { y with
    wakePin := level, wakeUnres := false
    sysEvt := if y.csReset || level = y.wakePin then y.sysEvt else orBit y.sysEvt 5
    wakePend := y.wakePend || (level && y.sleepAcc) } }

/-- WAKE_LEVEL_CHANGE: the level of WAKE while the block is awake (R540). -/
def execWakeLevelChange (level : Bool) (s : State) : Host.Outcome State Fault Refusal :=
  .next (if s.sys.asleep then s else wakeLevel s level)

/-! ## Clocks that come back (R26, R28) -/

/-- PLL_RELOCK: a PLL has locked again; the latched source and the faults stay until cleared. -/
def execPllRelock (die : Die) (s : State) : Host.Outcome State Fault Refusal :=
  .next (
    match die with
    | .cs => if s.sys.csReset then s else { s with clk := { s.clk with csLock := true } }
    | .ds => if s.sys.dsPor then s else { s with clk := { s.clk with dsLock := true } })

/-- CRYSTAL_RESTORED: crystal edges arrive again. -/
def execCrystalRestored (s : State) : Host.Outcome State Fault Refusal :=
  .next (if s.sys.csReset then s else { s with clk := { s.clk with xtalOk := true } })

end Sys2Proof.Machine
end

