-- ==== Sys2Proof/Machine/Inputs.lean ====
section
/-! DEFINITION. Inputs with hysteresis that become resolved (R89, R94, R320, R365, R434, R478, R533, R540). -/

namespace Sys2Proof.Machine

/-- A line of a feedback channel resolved with its level. -/
def lineResolved (s : State) (c l : Nat) (level : Bool) : State :=
  let bit : BitVec 3 := 1#3 <<< l
  s.modFb c fun f =>
    { f with unresLines := f.unresLines &&& ~~~bit, lines := if level then f.lines ||| bit else f.lines &&& ~~~bit }

/-- An encoder line: in NONE and WRAP the position is certain from the moment both lines are resolved, unless a
QJUMP or wire-disagree has upset it (R94). -/
def encResolved (s : State) (c l : Nat) (level : Bool) : State :=
  let was := (nth s.fb c).unresLines.toNat % 4
  let s := lineResolved s c l level
  let f := nth s.fb c
  if fbLive s c && was ≠ 0 && f.unresLines.toNat % 4 = 0 && 2 ≤ fld (fbCfg s c 2) 1 0 && !encBad f && !f.upset then
    staleCheck (s.modFb c fun f => { f with uncertain := false })
  else s

/-- A hall line: once all three are resolved their levels are the group's code (R89, R108). -/
def hallResolved (s : State) (c l : Nat) (level : Bool) : State :=
  let was := (nth s.fb c).unresLines
  let s := lineResolved s c l level
  let f := nth s.fb c
  if was ≠ 0 && f.unresLines = 0 then hallTake s c f.lines.toNat else s

/-- FBPOL of the contactor that names a CF input (R365, R377). -/
def cfPol (s : State) (n : Nat) : Bool :=
  match (List.range 6).find? fun k => ctEn s k && ctCf s k == n with
  | some k => bitOf (ctW s k 0) 16
  | none => false

/-- INPUT_RESOLVED: an input first leaves its band with a level. Where the fault side is one level of the input, only the other
one resolves it (R320, R365, R540); a contactor's feedback takes each later level here too. -/
def inputResolved (s : State) (i : InputId) (level : Bool) : State :=
  match i with
  | .encLine ch line => encResolved s (2 + ch.val) line.val level
  | .tooth ch => lineResolved s (6 + ch.val) 0 level
  | .hall g line => hallResolved s (10 + g.val) line.val level
  | .ssi ch => lineResolved s (8 + ch.val) 0 level
  | .comparator c => compInput s c level
  | .canRx n => if level then s.modCan n.val fun x => { x with rxUnres := false } else s
  | .contactor n =>
    s.modCt n.val fun x => { x with unres := x.unres && level != cfPol s n.val, level := level }
  | .bootstrap g => if level then { s with gd := upd s.gd g.val fun x => { x with uvUnres := false, uv := false } } else s
  | .bridge => if level then { s with bridgeUnres := false, bridgeBad := false } else s
  | .resetN => if level && s.sys.resetUnres then resetHigh s else s
  | .wake => if !level && s.sys.wakeUnres && !s.sys.asleep then wakeLevel s false else s

/-- INPUT_RESOLVED: an UNRESOLVED input takes a level (R320, R365, R434, R478, R540). -/
def execInputResolved (i : InputId) (level : Bool) (s : State) : Host.Outcome State Fault Refusal := .next (inputResolved s i level)

end Sys2Proof.Machine
end

