-- ==== Sys2Proof/Machine/StartUp.lean ====
section
/-! DEFINITION. Start-up steps 1 to 10 and their time limits (R52, R58, R59, R173, R215, R219, R320, R453, R459, R466, R535 to
R537). -/

namespace Sys2Proof.Machine

/-! ## Steps 1 and 2 -/

/-- The next step begins. -/
def toStep (s : State) (k : Nat) : State := { s with sys := { s.sys with step := k, stepStart := s.now } }

/-- A record of an event from before the Keeper ran is written (R79). -/
def flushOne (s : State) (w : List Word) : State :=
  let t := logAppend s w
  if t.nv.logNext = s.nv.logNext then countOnce t.useFree (nvEv t 3 1 1) else t

/-- The Keeper starts: host access begins, HC_CNONCE takes a new value, the records of earlier events are written (R79, R509,
R535). -/
def keeperStart (s : State) (cnonce : Word) : State :=
  let early := s.kp.early
  let s := { s with sys := { s.sys with keeperUp := true }
                    host := { s.host with cnonce := cnonce }
                    kp := { s.kp with early := [], loadAt := s.now } }
  early.foldl flushOne s

/-! ## Step 3: selection (R58, R59) -/

/-- A slot's name as INST. -/
def slotNo (b : Bool) : Nat := b2n b

/-- The trial rules: a trial that did not reach READY goes back to the other slot (R58). -/
def trialRules (s : State) : State :=
  let b := (bootNow s).boot
  let s :=
    if b.trial && b.attempted then
      (bootSet (f23 s 9 (slotNo b.prefer) 0) fun b => { b with prefer := !b.prefer, trial := false, attempted := false }).1
    else s
  if (bootNow s).boot.trial then (bootSet s fun b => { b with attempted := true }).1 else s

/-- The slot to run with its bytes, verified; none where neither slot passes (R58). -/
def selectSlot (s : State) : State × Option (Nat × List Byte) :=
  let s := trialRules s
  let p := slotNo (bootNow s).boot.prefer
  let (s, c, b) := verifySlot s p
  if c = 0 then (s, some (p, b))
  else
    let (s, c2, b2) := verifySlot s (1 - p)
    if c2 = 0 then (f23 s 2 (1 - p) c, some (1 - p, b2))
    else (f23 s 1 0 (if p = 0 then c2 * 256 + c else c * 256 + c2), none)

/-- On the repeat of R59 only the other slot is tried. -/
def otherSlot (s : State) : State × Option (Nat × List Byte) :=
  let n := 1 - s.img.runslot
  let (s, c, b) := verifySlot s n
  (s, if c = 0 then some (n, b) else none)

/-- The image of a slot as the device takes it. -/
def imageOf (slot : Nat) (b : List Byte) : Image :=
  let cont := (sectOf b 7).map (sectBytes b)
  let sb := cont.getD []
  { valid := true
    runslot := slot
    seq := wd (imN b 16 4)
    floor := wd (imN b 20 4)
    hash := (List.range 8).map fun k => wd (ofLe (((sha256 b).drop (4 * k)).take 4))
    recs := imRecs b
    safety := (sb.drop 16).take (ofLe ((sb.drop 4).take 4))
    sbcrc := wd (ofLe ((sb.drop 8).take 4))
    pages := []
    engines := (imParams b).map fun p => (p.die, p.eng) }

/-- The pages and parameter blocks of a die loaded from the image. -/
def loadRam (s : State) (d : Die) (b : List Byte) : State :=
  let s := ((imPages b).filter (·.die == d)).foldl (fun s p =>
    pagePut s ⟨p.die, p.lane, p.page, wat p.hdr 0, wat p.hdr 1, wat p.hdr 2⟩ (bytesOf (p.ents.flatMap fun e => [e.w0, e.w1, e.w2, e.w3]))) s
  ((imParams b).filter (·.die == d)).foldl (fun s p => { s with mem := memPutWords s.mem (parBase d p.eng) p.w }) s

/-- CK_EXP of the channels of a die, as the image gives it (R519). -/
def loadCks (s : State) (d : Die) : State :=
  s.setCks d ((s.cks d).mapIdx fun n (x : Ck) => { x with exp := ckW s d n 3 })

/-- The buoys of a die with a record begin STALE (R73). -/
def staleBuoys (s : State) (d : Die) : State :=
  let buoys := s.buoys.mapIdx fun n (x : Buoy) => if byOn s n && byHome s n == d then { x with state := 1 } else x
  { s with buoys := buoys }

/-- No PAIR record in effect: the pairs of both dies read NONE (R237). -/
def pairsNone (s : State) : State :=
  let none7 (p : Pair) : Pair := { p with mode := 7 }
  (s.setPairs .cs ((s.pairs .cs).map none7)).setPairs .ds ((s.pairs .ds).map none7)

/-- The no-image state: start-up stops (R60, R536). -/
def noImageAt (s : State) (step : Nat) : State :=
  let s := pairsNone s
  haltAt { s with csLoaded := false, dsLoaded := false, img := {}, im := { s.im with noImage := true, fallback := false } } step

/-- Step 3: the boot area is read through its code, the image is selected (R39, R58), and its CS records, pages and parameter blocks are loaded. -/
def step3 (s : State) : State :=
  let s := codeEvents s (storeBase / 8) ((storeBase + 0x10000) / 8)
  let (s, run) := if s.im.repeated then otherSlot s else selectSlot s
  match run with
  | none => noImageAt s 3
  | some (n, b) =>
    let s := { s with img := imageOf n b
                      im := { s.im with noImage := false, fallback := n ≠ slotNo (bootNow s).boot.prefer }
                      csLoaded := true }
    toStep (staleBuoys (loadCks (loadRam s .cs b) .cs) .cs) 4

/-! ## Steps 4 and 5 -/

/-- Step 4: the Watch Room's own copy of its parameters and their CRC, its nonce, its challenge, its self-test (R28, R52, R369). -/
def step4 (s : State) (x : StepIn) : State :=
  let c := crc32 s.img.safety
  let bad := c != s.img.sbcrc
  let s := s.modWr fun w =>
    { w with par := s.img.safety, parCrc := c, sbBad := bad, loaded := true, nonce := x.nonce, fresh := 0, chal := x.challenge
             selfOk := x.selfTest, sbAt := s.now }
  let s := { s with clk := { s.clk with winAt := s.now } }
  toStep (if bad then wrFixed s 0 0 0 1 c else s) 5

/-- The first pattern a pair failed, counted from 1. -/
def firstPattern (m : BitVec 4) : Nat := ((List.range 4).find? fun k => m.getLsbD k).getD 0 + 1

/-- INJFAIL of the pairs a die's test disabled (R219, R235). -/
def injEvents (s : State) (d : Die) : State :=
  ((List.range (pairCount d)).filter fun p => (nth (s.pairs d) p).disabled).foldl (fun s p =>
    let x := nth (s.pairs d) p
    pairFixed s d p 3 (wd (firstPattern x.injMask * 65536 + x.injWord))) s

/-- The first disabled pair of a die that the image names (R59). -/
def namedDisabled (s : State) (d : Die) : Option Nat :=
  (List.range (pairCount d)).find? fun p =>
    (nth (s.pairs d) p).disabled
      && ((recsOf s.img.recs sENGINE 1).any fun w => fld (wat w 0) 24 24 == d.bit && fld (wat w 0) 18 16 == p)

/-- PAIRREF: the image is refused; steps 3 to 5 are repeated once with the other slot (R59, R571). -/
def pairRefused (s : State) (d : Die) (p step : Nat) : State :=
  let s := f23 s 0x0A s.img.runslot (d.bit * 256 + p)
  if s.im.repeated then noImageAt s step
  else toStep { pairsNone s with csLoaded := false, im := { s.im with repeated := true } } 3

/-- The PAIR records of a die take effect (R215, R227, R237). -/
def pairModes (s : State) (d : Die) : State :=
  s.setPairs d ((s.pairs d).mapIdx fun p (x : Pair) =>
    if (pairRec s d p).isNone then { x with mode := 7 } else { x with mode := if pairSplit0 s d p then 1 else 0 })

/-- Step 5: the injection test of the CS pairs; on a repeat of R59 that follows a DS refusal, step 7 comes next. -/
def step5 (s : State) (x : StepIn) : State :=
  let s := injEvents (injTest s .cs x.inj) .cs
  match namedDisabled s .cs with
  | some p => pairRefused s .cs p 5
  | none => toStep (pairModes s .cs) (if s.x.trained then 7 else 6)

/-! ## Step 7 -/

/-- Step 7: the DS units leave the boot state with the DS half of the image, CPOUT and HCCFG; the Keeper takes the DS injection
results (R319, R514, R537). -/
def step7 (s : State) : State :=
  let s := injEvents s .ds
  match namedDisabled s .ds with
  | some p => pairRefused s .ds p 7
  | none =>
    let (s, b) := readSlot s s.img.runslot
    let s := { s with dsLoaded := true, sys := { s.sys with dsBoot := false, dsUp := true, dsStartAt := s.now }, host := { s.host with cfgLoaded := true } }
    let s := staleBuoys (loadCks (loadRam s .ds b) .ds) .ds
    let s := match recsOf s.img.recs sGUARD 3 with
      | w :: _ => { s with prot := { s.prot with omux := (List.range 4).map (wat w) } }
      | [] => s
    toStep (pairModes s .ds) 8

/-! ## Step 8 (R320, R453, R459, R461, R547) -/

/-- A comparator takes its codes, or is disabled for want of a record (R320, R339). -/
def loadShunt (s : State) (isHard : Bool) (n : Nat) (x : CompSt) : CompSt :=
  if (cpDef s 0 n).isNone then { x with enabled := false, live := false, raw := false, unres := false }
  else { x with code := BitVec.ofNat 10 (if isHard then fld (cpW s 0 n 4) 25 16 else fld (cpW s 0 n 4) 9 0)
                blank := fld (cpW s 0 n 1) 9 0 }

def loadGc (s : State) (n : Nat) (x : CompSt) : CompSt :=
  if (cpDef s 1 n).isNone then { x with enabled := false, live := false, raw := false, unres := false }
  else { x with code := BitVec.ofNat 10 (fld (cpW s 1 n 4) 9 0), slope := BitVec.ofNat 16 (fld (cpW s 1 n 5) 31 16)
                blank := fld (cpW s 1 n 1) 9 0 }

def loadThresholds (s : State) : State :=
  { s with prot := { s.prot with trip := s.prot.trip.mapIdx (loadShunt s false), hard := s.prot.hard.mapIdx (loadShunt s true)
                                 gc := s.prot.gc.mapIdx (loadGc s) } }

/-- ADCCAL of the converters whose offset or gain error after calibration exceeds 8 LSB (R547, R561). -/
def adcCals (s : State) (l : List (Die × Fin 8 × BitVec 16)) : State :=
  l.foldl (fun s (d, a, e) => if 8 < e.toNat then countEvent s (direct d 0 a 0 0 0x13 (e.setWidth 32)) else s) s

/-- Whether every configured temperature channel has its sample (R453). -/
def tempsGiven (s : State) (l : List (Fin 28 × BitVec 16)) : Bool :=
  (List.range 28).all fun c => (thRec s c).isNone || l.any fun x => x.1.val == c

/-- The excitation-feedback amplitudes of the start-up calibration (R111). -/
def excCals (s : State) (l : List (Fin 2 × BitVec 16)) : State :=
  l.foldl (fun s (c, a) => s.modFb c.val fun f => { f with res := { f.res with excCal := a } }) s

/-- Step 8. -/
def step8 (s : State) (x : StepIn) : State :=
  let s := excCals s x.excCal
  let s := adcCals (loadThresholds s) x.adcCal
  let s := x.temps.foldl (fun s (c, v) => if (thRec s c.val).isSome then thSample s c.val v else s) s
  let s := lampStart s
  let s := { s with lamp := { s.lamp with calErr := x.calErr, gband := s.lamp.gbandNext } }
  let s := if fld (laCfg s 3) 31 24 < x.calErr.toNat then laEvent s 0 0 0 2 (x.calErr.setWidth 32) else s
  toStep (slackMeasured s x.slackCs x.slackDs) 9

/-! ## Steps 9 and 10 -/

/-- Step 9: the path test of the protection unit; a level that does not arrive stops start-up (R537, R547). -/
def step9 (s : State) (x : StepIn) : State :=
  match x.protMiss with
  | some b => haltAt (countEvent s (direct .ds 0 0 0 0 0x15 (b.setWidth 32))) 9
  | none => toStep { s with sys := { s.sys with protPath := true } } 10

/-- Step 10: the Keeper sets T0, 1.0 to 1.1 ms ahead, in both dies (R173). -/
def step10 (s : State) (x : StepIn) : State :=
  let t := s.now + max 400000 (min 440000 x.t0Lead)
  let s := { s with t0 := some t }
  let s := s.setLh .cs { s.lh .cs with p0time := countAt s .cs t }
  toStep (s.setLh .ds { s.lh .ds with p0time := countAt s .cs t }) 11

/-- START_UP_STEP_COMPLETE: the step in progress ends, with what it met from outside (R535). Step 6 ends once the crossing is
trained, step 7 begins once the DS die is out of its power-on reset, step 11 ends with PAGE0_START. -/
def stepComplete (s : State) (x : StepIn) : State :=
  if s.sys.csReset || s.sys.halt || s.sys.ready || s.sys.sleepAcc then s
  else match s.sys.step with
    | 1 =>
      let s := if s.sys.dsPor then s else dsBootIn s
      toStep { s with clk := { s.clk with xtalOk := true, csLock := true } } 2
    | 2 => if x.fwOk then toStep (keeperStart s x.cmdNonce) 3 else haltAt { s with sys := { s.sys with fwFail := true } } 2
    | 3 => step3 s
    | 4 => step4 s x
    | 5 => step5 s x
    | 6 => if s.x.trained then toStep s 7 else s
    | 7 => if s.sys.dsPor then s else step7 s
    | 8 => if tempsGiven s x.temps then step8 s x else s
    | 9 => step9 s x
    | 10 => step10 s x
    | _ => s

/-- START_UP_STEP_COMPLETE: the current step of start-up ends (R535 to R539). -/
def execStartUpStepComplete (inp : StepIn) (s : State) : Host.Outcome State Fault Refusal := .next (stepComplete s inp)

/-! ## STEPTMO (R536) -/

/-- The slots step 3 verifies. -/
def slotsTried (s : State) : Nat :=
  if s.im.repeated then 1 else let t := trialRules s; if (verifySlot t (slotNo (bootNow t).boot.prefer)).2.1 = 0 then 1 else 2

/-- A step's time limit in µs. -/
def stepLimit (s : State) : Nat :=
  match s.sys.step with
  | 1 => 2500
  | 2 => 4000
  | 3 => 12000 * slotsTried s
  | 4 => 1000
  | 5 => 50
  | 6 => 600
  | 7 => 3000
  | 8 => 5000
  | 9 => 1000
  | 10 => 100
  | _ => 1100

/-- STEPTMO: a step has exceeded its limit: start-up stops, DETAIL the elapsed time in µs (R536, R547). -/
def execStepTmo (elapsed : Word) (s : State) : Host.Outcome State Fault Refusal :=
  .next (
    if s.sys.csReset || s.sys.halt || s.sys.ready || elapsed.toNat ≤ stepLimit s then s
    else
      let s := s.advanceTo (s.sys.stepStart + elapsed.toNat * usec)
      haltAt (countEvent s (direct .cs 0 s.sys.step 0 0 0x14 elapsed)) s.sys.step)

end Sys2Proof.Machine
end

