-- ==== Sys2Proof/Machine/Page0.lean ====
section
/-! DEFINITION. The start of page 0: the cycle T0 in which both dies begin to run (R55, R58, R79, R94, R112, R141, R149, R173,
R186, R189, R199, R200, R226, R245, R254, R305, R321, R353, R384, R424, R467, R478, R490, R519, R535, R573). -/

namespace Sys2Proof.Machine

/-! ## Engines (R186, R189, R199, R200, R226) -/

/-- An engine's start: its inputs, the active copy of set ISET, INITPEND from INIT0, every state zero. -/
def page0Eng (s : State) (d : Die) (e : Nat) : State :=
  let w := blkW s d e 2
  let n := fld w 10 8
  let x0 : Eng := {}
  let inp := startInputs s d e
  let act := setWords s d e n
  s.modEng d e fun _ => { x0 with inp := inp, act := act, actSet := n, initPend := bitOf w 12 }

/-- Every engine of a die starts; every checkpoint holds the start state. -/
def page0Engs (s : State) (d : Die) : State :=
  let es := List.range (engCount d)
  let s := es.foldl (fun s e => page0Eng s d e) s
  es.foldl (fun s e => writeCkpt s d e) s

/-! ## Lanes (R149, R161, R173) -/

/-- A lane with a page 0 begins to watch at T0 + 1 of its die's count; its registers read 0. -/
def page0Lanes (s : State) (d : Die) : State :=
  let lane (l : Nat) (x : Lane) : Lane :=
    if l < laneCount d && hasContent s d l 0 then { x with run := true, watch := p0At s d + 1 } else x
  let lanes : List Lane := (List.replicate 4 {}).mapIdx lane
  s.setLh d { s.lh d with lanes := lanes }

/-! ## Feedback (R94, R112) -/

/-- A channel at the start of page 0. -/
def page0Fb (s : State) (c : Nat) (f : Fb) : Fb :=
  if !fbOn s c then f
  else if c < 2 then { f with amp := true, res := { f.res with phase := fld (fbCfg s c 1) 31 16 * 1000000 } }
  else if c < 6 then
    let mode := fld (fbCfg s c 2) 1 0
    { f with pos := fbCfg s c 1, loadRef := fbCfg s c 1, turn := 0, ref := false, armed := mode == 1, upset := false
             uncertain := decide (mode < 2) || encBad f }
  else f

def page0Fbs (s : State) : State :=
  let s := { s with fb := s.fb.mapIdx (page0Fb s) }
  [2, 3, 4, 5, 6, 7].foldl (fun s c => if fbOn s c then fbSetAngle s c else s) s

/-! ## PWM (R245, R254) -/

/-- A channel: PHS0, dead times, minimum pulse and trim from its record or from the re-planned values; a leg floats (R305). -/
def page0Chan (s : State) (d : Die) (c : Nat) : Chan :=
  let w1 := chanW s d c 1
  let w2 := chanW s d c 2
  let re (q v : Nat) : Nat := if d == .ds then ((fenceVal s q c).map Int.toNat).getD v else v
  let dtr := re 1 (fld w1 31 16)
  let dtf := re 2 (fld w1 15 0)
  let minp := re 4 (fld w2 31 16)
  let trim : Int := if d == .ds then (fenceVal s 5 c).getD 0 else 0
  { phs := fld w2 15 0, dtr := dtr, dtf := dtf, minp := minp, trim := trim, pdtr := dtr, pdtf := dtf, pminp := minp, ptrim := trim
    flt := d == .ds && isLeg s c }

/-- A group before its first boundary: the nominal period, the greatest one where it follows a beam, the LFSR at its seed. -/
def page0Grp (s : State) (d : Die) (g : Nat) : Grp :=
  let beam := grpPsrc s d g == 2
  { per := (grpW s d g (if beam then 3 else 1)).toNat, unlock := beam, lfsr := BitVec.ofNat 16 (fld (grpW s d g 5) 31 16) }

/-- Every channel and group of a die, then each group's first boundary, k = 0. -/
def page0Pwm (s : State) (d : Die) : State :=
  let chans := (s.pwm d).chans.mapIdx fun c (x : Chan) => if (chanRec s d c).isSome then page0Chan s d c else x
  let grps := (s.pwm d).grps.mapIdx fun g (x : Grp) => if (grpRec s d g).isSome then page0Grp s d g else x
  let s := s.setPwm d { grps := grps, chans := chans }
  ((List.range (grpCount d)).filter fun g => (grpRec s d g).isSome).foldl (fun s g => boundaryAt s d g (16 * p0At s d) false false) s

/-! ## Beams, time, CAN (R478, R490, R573) -/

/-- The times of every beam's checks begin; FREE and NETTIME beams are anchored, and the policy of every other beam that is stale
applies (R135). -/
def page0Beams (s : State) : State :=
  let s := (List.range 8).foldl (fun s b => if bmOn s b then s.modBeam (bmHome s b) b fun m => { m with lastUpd := s.now } else s) s
  (List.range 8).foldl (fun s b =>
    if !bmOn s b || bmSrc s b = 4 then s
    else if bmSrc s b = 2 || bmSrc s b = 3 then directUpdate s b
    else if (nth (s.beams (bmHome s b)) b).stale then stalePolicy s (bmHome s b) b else s) s

/-- The controllers in use begin bus integration. -/
def page0Can (s : State) : State :=
  let s := { s with can := s.can.mapIdx fun n (x : Can) => if (cnCfg s n).isSome then { x with state := 1 } else x }
  if (timeRole s).2 = 1 then { s with net := s.net.withSync true s.now } else s

/-! ## Protection (R321) -/

/-- An asserted level latches its source as though it had just been asserted, with cause UNRES in place of its own (R321). -/
def page0Comp (s : State) (c : Comp) : State :=
  let s := modComp s c fun x => { x with live := liveNow s c }
  if !(compSt s c).live || (cpDef s (compPlace c).1 (compPlace c).2).isNone then s
  else
    let source (s : State) : State :=
      if (srcLevel s (compSrc c)).isSome then latchComp (cpEvtBit s c 4) (compSrc c) true else s
    match c with
    | .gc g =>
      if gcRole s g.val = 0 then source s
      else if gcRole s g.val = 2 then
        latchWith s 0x50 0 fun s => countEvent (cpEvtBit s c 4)
          { key := ⟨.ds, 5, g.val, 1, g.val, 4⟩, cause := 4, w := 1, n := 1, detail := latchDetail s 0x50, early := true }
      else liveAsserts s c
    | _ => source s

/-- Every comparator in order, then the conditions of 0x58 to 0x5A that are present. -/
def page0Prot (s : State) : State :=
  let s := allComps.foldl page0Comp (setSeverity s)
  let s := if s.x.ds.loss then latchPlain s 0x58 id else s
  let s := if s.x.ds.safeLoss then latchPlain s 0x59 id else s
  if !s.clk.dsLock then latchPlain s 0x5A id else s

/-! ## The boot record and the system unit (R55, R58, R535) -/

/-- The running image has reached READY: TRIAL and ATTEMPTED clear, the floor rises to its FLOOR. -/
def bootReady (s : State) : State :=
  let b := (bootNow s).boot
  let b' := { b with trial := false, attempted := false, floor := if b.floor.toNat < s.img.floor.toNat then s.img.floor else b.floor }
  if b = b' then s else (bootSet s fun _ => b').1

/-- SYS_STEPT: supplies valid to READY in 10 µs, kept over a SYS_RESTART. -/
def steptNow (s : State) : Word :=
  if s.sys.stepT = 0 then wd (min 65535 ((s.now - s.sys.validAt) / 4000)) else s.sys.stepT

/-- Check-value channels: background scans are due from T0; AUTOEXP learns the first complete result (R518, R519). -/
def page0Cks (s : State) (d : Die) : State :=
  s.setCks d ((s.cks d).map fun x => { x with bgAt := s.now, learnt := false })

/-- Everything that starts in cycle T0. -/
def page0 (s : State) : State :=
  let s := { s with sys := { s.sys with ready := true, dsReady := true, sysEvt := orBit s.sys.sysEvt 0, stepT := steptNow s }
                    kp := { s.kp with slotDue := true }
                    im := { s.im with repeated := false }
                    lamp := { s.lamp with freeze := bitOf (laCfg s 0) 31 } }
  let s := page0Cks (page0Cks s .cs) .ds
  let s := page0Engs (page0Engs s .cs) .ds
  let s := page0Beams (page0Fbs (page0Can s))
  let s := page0Pwm (page0Pwm s .ds) .cs
  let s := page0Lanes (page0Lanes s .cs) .ds
  let s := applyCsOverrides (page0Prot s)
  bootReady (applyHolds (wrPage0 s))

/-- PAGE0_START: both dies' cycle counts reach T0 (R173). -/
def execPage0Start (s : State) : Host.Outcome State Fault Refusal :=
  .next (
    match s.t0 with
    | none => s
    | some t => if s.sys.step ≠ 11 || s.sys.halt || s.sys.ready || s.sys.csReset then s else page0 (s.advanceTo t))

end Sys2Proof.Machine
end

