-- ==== Sys2Proof/Machine/WatchEval.lean ====
section
/-! DEFINITION. The Watch Room's evaluation (R347) and the rows by which safety frames reach it (R368 to R374). -/

namespace Sys2Proof.Machine

/-! ## The evaluation (R347) -/

/-- The status of a safety frame goes back the way the frame came (R369, R488, R508). -/
def frameAnswer (s : State) (f : SafeFrame) (st : Nat) : State :=
  match f.path with
  | .keeper => if st = 0 then s.ok [] else s.refuse st
  | .host q => if s.sys.keeperUp && !s.kp.restarting then respond s q tCMD (if st = 0 then okAns else refuseAns st) else s
  | .can n =>
    if bitOf (cnW s n 10) 31 && cnDevtx s n then
      queueResponse s n ([BitVec.ofNat 8 st] ++ leBytes 2 (frField f.bytes 0 2) ++ [0] ++ leBytes 4 (frField f.bytes 16 4))
    else s

/-- Step 2 of an evaluation: the frames received since the last one in order of arrival; `new` says that step 1 took a declaration
of class A or B (R355). -/
def wrStep2 (s : State) (new : Bool) : State :=
  s.wr.frames.foldl (fun s f =>
    let (s, st) := judgeFrame s f.bytes new
    frameAnswer s f st) (s.modWr fun x => { x with frames := [] })

/-- Whether the Watch Room evaluates: its die is out of reset and sleep entry has not stopped it (R543). -/
def wrRuns (s : State) : Bool := !s.sys.csReset && !(s.sys.sleepAcc && 3 ≤ s.sys.sleepStep)

/-- The next evaluation up to the end of step 1: 10 µs after the last one, what was accepted before takes effect first (R347, R371,
R373). With it, whether step 1 took a declaration of class A or B (R355). -/
def wrOpen (s : State) : State × Bool :=
  let s := s.advanceTo (if s.wr.evalAt = 0 then s.now else s.wr.evalAt + 10 * usec)
  let s := wrReset (wrWrites (s.modWr fun x => { x with evalAt := s.now }))
  let s1 := armLapse (wrStep1 s)
  (s1, s1.wr.opened.any fun g => !s.wr.opened.any fun h => h == g)

/-- Where a frame that comes after those already received is judged: after them, in the next evaluation (R347). -/
def frameTaken (s : State) : State × Bool :=
  let (s1, new) := wrOpen s
  (wrStep2 s1 new, new)

/-- One evaluation: the five steps in their order (R347). -/
def wrEvaluate (s : State) : State :=
  if wrRuns s then wrStep5 (wrContactors (wrMonitors (frameTaken s).1)) else s

/-- WATCH_ROOM_EVALUATION: every 10 µs the Watch Room takes its five steps in order (R347). -/
def execWatchRoomEvaluation (s : State) : Host.Outcome State Fault Refusal := .next (wrEvaluate s)

/-! ## Safety frames (R368 to R374) -/

/-- A frame of one type, the last received before an evaluation: the row is that evaluation (assumption log 74). A frame of another
type is not this event. -/
def frameOfType (s : State) (ty : Nat) (f : List Byte) : State :=
  if frField f 0 2 ≠ ty || !wrRuns s then s else wrEvaluate (wrFrameIn s f .keeper)

/-- SAFETY_FRAME_WRITE: a WRITE frame is judged; accepted, it writes one RWS register at the next evaluation (R347, R370, R371). -/
def execSafetyFrameWrite (frame : List Byte) (s : State) : Host.Outcome State Fault Refusal := .next (frameOfType s 1 frame)

/-- RESET_ARM (R370, R372). -/
def execResetArm (frame : List Byte) (s : State) : Host.Outcome State Fault Refusal := .next (frameOfType s 2 frame)

/-- RESET_CONFIRM: accepted inside the window it takes effect in the next evaluation (R372, R373). -/
def execResetConfirm (frame : List Byte) (s : State) : Host.Outcome State Fault Refusal := .next (frameOfType s 3 frame)

/-- LAB_ENTER (R370, R374). -/
def execLabEnter (frame : List Byte) (s : State) : Host.Outcome State Fault Refusal := .next (frameOfType s 4 frame)

/-- LAB_EXIT (R370, R374). -/
def execLabExit (frame : List Byte) (s : State) : Host.Outcome State Fault Refusal := .next (frameOfType s 5 frame)

/-- SFKEY: the decrypted key takes the place of the current one (R370). -/
def execSfkey (frame : List Byte) (s : State) : Host.Outcome State Fault Refusal := .next (frameOfType s 6 frame)

/-- SAFE_FRAME: passed unchanged to the Watch Room; class 1, never shed. The answer carries the status once the frame has been
judged (R347, R369, R508). -/
def execSafeFrame (q : Req) (frame : List Byte) (s : State) : Host.Outcome State Fault Refusal :=
  .next (requestDo s q tCMD (cmdPay 0x30 frame) (cmdBar q false false 1) fun s => wrFrameIn s frame (.host q))

end Sys2Proof.Machine
end

