-- ==== Sys2Proof/Machine/Dispatch.lean ====
section
/-! DEFINITION. The dispatch of a command to its meaning, one arm per row of the table. -/

namespace Sys2Proof.Machine

def exec (i : Instr) (s : State) : Host.Outcome State Fault Refusal :=
  match i with
  | .superframeSend die => Sys2Proof.Machine.execSuperframeSend die s
  | .superframeReceived die frame viol => Sys2Proof.Machine.execSuperframeReceived die frame viol s
  | .snapshotAdopt die beam => Sys2Proof.Machine.execSnapshotAdopt die beam s
  | .xloss die => Sys2Proof.Machine.execXloss die s
  | .crossingTraining ok align => Sys2Proof.Machine.execCrossingTraining ok align s
  | .safetyMessageSend die => Sys2Proof.Machine.execSafetyMessageSend die s
  | .safetyMessageReceived die b0 b1 b2 b3 => Sys2Proof.Machine.execSafetyMessageReceived die b0 b1 b2 b3 s
  | .sloss die => Sys2Proof.Machine.execSloss die s
  | .pllul die => Sys2Proof.Machine.execPllul die s
  | .xtal => Sys2Proof.Machine.execXtal s
  | .wrclkWindow count => Sys2Proof.Machine.execWrclkWindow count s
  | .vwkPowerOn => Sys2Proof.Machine.execVwkPowerOn s
  | .powerOnResetRelease die inj => Sys2Proof.Machine.execPowerOnResetRelease die inj s
  | .supplyOutOfRange code isOver mv => Sys2Proof.Machine.execSupplyOutOfRange code isOver mv s
  | .resetNLow => Sys2Proof.Machine.execResetNLow s
  | .dsBootEntry => Sys2Proof.Machine.execDsBootEntry s
  | .startUpStepComplete inp => Sys2Proof.Machine.execStartUpStepComplete inp s
  | .stepTmo elapsed => Sys2Proof.Machine.execStepTmo elapsed s
  | .page0Start => Sys2Proof.Machine.execPage0Start s
  | .slotCheck => Sys2Proof.Machine.execSlotCheck s
  | .imgWrite q offset data => Sys2Proof.Machine.execImgWrite q offset data s
  | .imgCheck q => Sys2Proof.Machine.execImgCheck q s
  | .imgActivate q slot => Sys2Proof.Machine.execImgActivate q slot s
  | .sysRestart q => Sys2Proof.Machine.execSysRestart q s
  | .stgWrite q offset data => Sys2Proof.Machine.execStgWrite q offset data s
  | .stgApply q => Sys2Proof.Machine.execStgApply q s
  | .stageLoadComplete item => Sys2Proof.Machine.execStageLoadComplete item s
  | .keyEnrol q entry roles signer resv xy sig nonce => Sys2Proof.Machine.execKeyEnrol q entry roles signer resv xy sig nonce s
  | .keyRevoke q entry signer resv sig nonce => Sys2Proof.Machine.execKeyRevoke q entry signer resv sig nonce s
  | .safeFrame q frame => Sys2Proof.Machine.execSafeFrame q frame s
  | .logRead q first count => Sys2Proof.Machine.execLogRead q first count s
  | .sealForReturn q signer resv sig nonce => Sys2Proof.Machine.execSealForReturn q signer resv sig nonce s
  | .hostRead q addr count => Sys2Proof.Machine.execHostRead q addr count s
  | .hostWrite q addr words => Sys2Proof.Machine.execHostWrite q addr words s
  | .enum q addr => Sys2Proof.Machine.execEnum q addr s
  | .frameForward port frame => Sys2Proof.Machine.execFrameForward port frame s
  | .spiSend frame complete => Sys2Proof.Machine.execSpiSend frame complete s
  | .spiRecv => Sys2Proof.Machine.execSpiRecv s
  | .spiStatus => Sys2Proof.Machine.execSpiStatus s
  | .linkUp port => Sys2Proof.Machine.execLinkUp port s
  | .linkDn port => Sys2Proof.Machine.execLinkDn port s
  | .klock => Sys2Proof.Machine.execKlock s
  | .keeperRestartComplete => Sys2Proof.Machine.execKeeperRestartComplete s
  | .keeperLoadUpdate u => Sys2Proof.Machine.execKeeperLoadUpdate u s
  | .deferredRequestServe => Sys2Proof.Machine.execDeferredRequestServe s
  | .kpLoadRead => Sys2Proof.Machine.execKpLoadRead s
  | .buoyUpdate b path m e => Sys2Proof.Machine.execBuoyUpdate b path m e s
  | .buoyTimeout b => Sys2Proof.Machine.execBuoyTimeout b s
  | .byWexpWrite b e => Sys2Proof.Machine.execByWexpWrite b e s
  | .mirrorStale b => Sys2Proof.Machine.execMirrorStale b s
  | .windowBinRollover k => Sys2Proof.Machine.execWindowBinRollover k s
  | .inputResolved k level => Sys2Proof.Machine.execInputResolved k level s
  | .unres ch => Sys2Proof.Machine.execUnres ch s
  | .encoderEdge ch a b z => Sys2Proof.Machine.execEncoderEdge ch a b z s
  | .wireLevelChange ch line same level => Sys2Proof.Machine.execWireLevelChange ch line same level s
  | .wiredis ch line => Sys2Proof.Machine.execWiredis ch line s
  | .arm ch => Sys2Proof.Machine.execArm ch s
  | .resync ch => Sys2Proof.Machine.execResync ch s
  | .toothEdge ch dirLevel => Sys2Proof.Machine.execToothEdge ch dirLevel s
  | .hallCodeChange g code => Sys2Proof.Machine.execHallCodeChange g code s
  | .standstill ch => Sys2Proof.Machine.execStandstill ch s
  | .feedbackTick => Sys2Proof.Machine.execFeedbackTick s
  | .resolverUpdate ch sinD cosD excAmp excSeen => Sys2Proof.Machine.execResolverUpdate ch sinD cosD excAmp excSeen s
  | .ssiRequest ch dataHigh => Sys2Proof.Machine.execSsiRequest ch dataHigh s
  | .ssiFrameComplete ch bits => Sys2Proof.Machine.execSsiFrameComplete ch bits s
  | .beamSourceUpdate beam => Sys2Proof.Machine.execBeamSourceUpdate beam s
  | .beamReanchor beam => Sys2Proof.Machine.execBeamReanchor beam s
  | .beamStaleTimeout beam => Sys2Proof.Machine.execBeamStaleTimeout beam s
  | .mainsPllUpdate => Sys2Proof.Machine.execMainsPllUpdate s
  | .bmphaseRead die beam => Sys2Proof.Machine.execBmphaseRead die beam s
  | .nop die lane => Sys2Proof.Machine.execNop die lane s
  | .sample die lane codes => Sys2Proof.Machine.execSample die lane codes s
  | .read die lane => Sys2Proof.Machine.execRead die lane s
  | .move die lane => Sys2Proof.Machine.execMove die lane s
  | .run die lane => Sys2Proof.Machine.execRun die lane s
  | .load die lane => Sys2Proof.Machine.execLoad die lane s
  | .write die lane => Sys2Proof.Machine.execWrite die lane s
  | .blendRamp die lane => Sys2Proof.Machine.execBlendRamp die lane s
  | .blendMix die lane => Sys2Proof.Machine.execBlendMix die lane s
  | .limitRange die lane => Sys2Proof.Machine.execLimitRange die lane s
  | .limitSym die lane => Sys2Proof.Machine.execLimitSym die lane s
  | .commit die lane => Sys2Proof.Machine.execCommit die lane s
  | .scan die lane => Sys2Proof.Machine.execScan die lane s
  | .snap die lane => Sys2Proof.Machine.execSnap die lane s
  | .fenceAll die lane => Sys2Proof.Machine.execFenceAll die lane s
  | .fenceData die lane => Sys2Proof.Machine.execFenceData die lane s
  | .fenceOut die lane => Sys2Proof.Machine.execFenceOut die lane s
  | .mark die lane => Sys2Proof.Machine.execMark die lane s
  | .signalKeeper die lane => Sys2Proof.Machine.execSignalKeeper die lane s
  | .signalWatchRoom die lane => Sys2Proof.Machine.execSignalWatchRoom die lane s
  | .entryAccept die codes => Sys2Proof.Machine.execEntryAccept die codes s
  | .entryRetire die upset => Sys2Proof.Machine.execEntryRetire die upset s
  | .restoreComplete die pair upset => Sys2Proof.Machine.execRestoreComplete die pair upset s
  | .lhSwapRequest die lane page => Sys2Proof.Machine.execLhSwapRequest die lane page s
  | .lhSwapCancel die lane => Sys2Proof.Machine.execLhSwapCancel die lane s
  | .pageSwap die lane => Sys2Proof.Machine.execPageSwap die lane s
  | .drainComplete die lane => Sys2Proof.Machine.execDrainComplete die lane s
  | .mergeCopyComplete die lane pair upset => Sys2Proof.Machine.execMergeCopyComplete die lane pair upset s
  | .traceReadLow die => Sys2Proof.Machine.execTraceReadLow die s
  | .traceReadHigh die => Sys2Proof.Machine.execTraceReadHigh die s
  | .lePdbgWrite die pair value => Sys2Proof.Machine.execLePdbgWrite die pair value s
  | .engineHalt die engine => Sys2Proof.Machine.execEngineHalt die engine s
  | .carrierBoundary die group => Sys2Proof.Machine.execCarrierBoundary die group s
  | .carrierMidpoint die group => Sys2Proof.Machine.execCarrierMidpoint die group s
  | .carrierUnlock die group => Sys2Proof.Machine.execCarrierUnlock die group s
  | .channelHalfStart die ch second => Sys2Proof.Machine.execChannelHalfStart die ch second s
  | .intlk die ch => Sys2Proof.Machine.execIntlk die ch s
  | .waveDutyUpdate m => Sys2Proof.Machine.execWaveDutyUpdate m s
  | .legStepEdge ch => Sys2Proof.Machine.execLegStepEdge ch s
  | .electricalTurnEnd m => Sys2Proof.Machine.execElectricalTurnEnd m s
  | .candleCommutate m => Sys2Proof.Machine.execCandleCommutate m s
  | .catchTimeout m => Sys2Proof.Machine.execCatchTimeout m s
  | .candto m => Sys2Proof.Machine.execCandto m s
  | .subexp m => Sys2Proof.Machine.execSubexp m s
  | .comparatorLevelChange c asserted => Sys2Proof.Machine.execComparatorLevelChange c asserted s
  | .blankingEnd c => Sys2Proof.Machine.execBlankingEnd c s
  | .chopf => Sys2Proof.Machine.execChopf s
  | .speedRuleTick => Sys2Proof.Machine.execSpeedRuleTick s
  | .speedRuleHysteresisEnd m => Sys2Proof.Machine.execSpeedRuleHysteresisEnd m s
  | .ptClr src => Sys2Proof.Machine.execPtClr src s
  | .ptClrAll => Sys2Proof.Machine.execPtClrAll s
  | .ptLogReadLow => Sys2Proof.Machine.execPtLogReadLow s
  | .ptLogReadHigh => Sys2Proof.Machine.execPtLogReadHigh s
  | .watchRoomEvaluation => Sys2Proof.Machine.execWatchRoomEvaluation s
  | .contactorSettleEnd n => Sys2Proof.Machine.execContactorSettleEnd n s
  | .contactorDropout n => Sys2Proof.Machine.execContactorDropout n s
  | .contactorCheckStart => Sys2Proof.Machine.execContactorCheckStart s
  | .degexp => Sys2Proof.Machine.execDegexp s
  | .lockoutContactorOpen => Sys2Proof.Machine.execLockoutContactorOpen s
  | .resetArmLapse => Sys2Proof.Machine.execResetArmLapse s
  | .sbcrcCheck => Sys2Proof.Machine.execSbcrcCheck s
  | .safetyFrameWrite frame => Sys2Proof.Machine.execSafetyFrameWrite frame s
  | .resetArm frame => Sys2Proof.Machine.execResetArm frame s
  | .resetConfirm frame => Sys2Proof.Machine.execResetConfirm frame s
  | .labEnter frame => Sys2Proof.Machine.execLabEnter frame s
  | .labExit frame => Sys2Proof.Machine.execLabExit frame s
  | .sfkey frame => Sys2Proof.Machine.execSfkey frame s
  | .rwsDeny offset => Sys2Proof.Machine.execRwsDeny offset s
  | .wrWdkickWrite value next => Sys2Proof.Machine.execWrWdkickWrite value next s
  | .wdogTimeout next => Sys2Proof.Machine.execWdogTimeout next s
  | .refrUpdate => Sys2Proof.Machine.execRefrUpdate s
  | .hiccupExpiry k => Sys2Proof.Machine.execHiccupExpiry k s
  | .retryCountReset k => Sys2Proof.Machine.execRetryCountReset k s
  | .telemetryWindowEnd k => Sys2Proof.Machine.execTelemetryWindowEnd k s
  | .telemetryExtremeRead k x => Sys2Proof.Machine.execTelemetryExtremeRead k x s
  | .chargeEvaluation p => Sys2Proof.Machine.execChargeEvaluation p s
  | .pretmo p => Sys2Proof.Machine.execPretmo p s
  | .totalTimerExpiry p => Sys2Proof.Machine.execTotalTimerExpiry p s
  | .terminationTimeout p => Sys2Proof.Machine.execTerminationTimeout p s
  | .chargeStart p => Sys2Proof.Machine.execChargeStart p s
  | .chargeStop p => Sys2Proof.Machine.execChargeStop p s
  | .chargeClear p => Sys2Proof.Machine.execChargeClear p s
  | .revstart => Sys2Proof.Machine.execRevstart s
  | .revstop => Sys2Proof.Machine.execRevstop s
  | .acQualified => Sys2Proof.Machine.execAcQualified s
  | .srclost byLock => Sys2Proof.Machine.execSrclost byLock s
  | .handoverRampEnd => Sys2Proof.Machine.execHandoverRampEnd s
  | .handoverEnd => Sys2Proof.Machine.execHandoverEnd s
  | .gridWatchArm => Sys2Proof.Machine.execGridWatchArm s
  | .grid => Sys2Proof.Machine.execGrid s
  | .gearDutyUpdate a => Sys2Proof.Machine.execGearDutyUpdate a s
  | .overcur a => Sys2Proof.Machine.execOvercur a s
  | .stall a => Sys2Proof.Machine.execStall a s
  | .vdsoc gd high => Sys2Proof.Machine.execVdsoc gd high s
  | .bsuv gd => Sys2Proof.Machine.execBsuv gd s
  | .supuvBridge => Sys2Proof.Machine.execSupuvBridge s
  | .gxClr mask present => Sys2Proof.Machine.execGxClr mask present s
  | .temperatureSample c code => Sys2Proof.Machine.execTemperatureSample c code s
  | .throttleUpdate => Sys2Proof.Machine.execThrottleUpdate s
  | .lampMeasurement x => Sys2Proof.Machine.execLampMeasurement x s
  | .switchingDelayEdge ch high turnOn delay => Sys2Proof.Machine.execSwitchingDelayEdge ch high turnOn delay s
  | .coolingCurveStart c => Sys2Proof.Machine.execCoolingCurveStart c s
  | .coolingCurveEnd c => Sys2Proof.Machine.execCoolingCurveEnd c s
  | .replanTarget => Sys2Proof.Machine.execReplanTarget s
  | .laFreezeWrite value => Sys2Proof.Machine.execLaFreezeWrite value s
  | .canIntegrationEnd n => Sys2Proof.Machine.execCanIntegrationEnd n s
  | .canArbitration n => Sys2Proof.Machine.execCanArbitration n s
  | .canFrameSent n => Sys2Proof.Machine.execCanFrameSent n s
  | .canBusError n tx arbLost tec rec => Sys2Proof.Machine.execCanBusError n tx arbLost tec rec s
  | .busOffRecoveryEnd n => Sys2Proof.Machine.execBusOffRecoveryEnd n s
  | .canFrameReceived n frame sofAgo => Sys2Proof.Machine.execCanFrameReceived n frame sofAgo s
  | .txReq n buf => Sys2Proof.Machine.execTxReq n buf s
  | .txCancel n buf => Sys2Proof.Machine.execTxCancel n buf s
  | .txBufferWrite n buf offset value => Sys2Proof.Machine.execTxBufferWrite n buf offset value s
  | .pop n => Sys2Proof.Machine.execPop n s
  | .flush n => Sys2Proof.Machine.execFlush n s
  | .recover n => Sys2Proof.Machine.execRecover n s
  | .referenceMessageDue => Sys2Proof.Machine.execReferenceMessageDue s
  | .ntloss => Sys2Proof.Machine.execNtloss s
  | .slewEnd => Sys2Proof.Machine.execSlewEnd s
  | .cnNtsethiWrite value => Sys2Proof.Machine.execCnNtsethiWrite value s
  | .cnNtloRead => Sys2Proof.Machine.execCnNtloRead s
  | .checkScanBackgroundStart die ch => Sys2Proof.Machine.execCheckScanBackgroundStart die ch s
  | .ckCtrlStart die ch => Sys2Proof.Machine.execCkCtrlStart die ch s
  | .scanComplete die ch unc => Sys2Proof.Machine.execScanComplete die ch unc s
  | .ckExpWrite die ch value => Sys2Proof.Machine.execCkExpWrite die ch value s
  | .sysSleep value => Sys2Proof.Machine.execSysSleep value s
  | .sleepEntryStep => Sys2Proof.Machine.execSleepEntryStep s
  | .wake => Sys2Proof.Machine.execWake s
  | .supplyBackInRange code => Sys2Proof.Machine.execSupplyBackInRange code s
  | .pllRelock die => Sys2Proof.Machine.execPllRelock die s
  | .crystalRestored => Sys2Proof.Machine.execCrystalRestored s
  | .bridgeSupplyInRange => Sys2Proof.Machine.execBridgeSupplyInRange s
  | .bootstrapRecovered gd => Sys2Proof.Machine.execBootstrapRecovered gd s
  | .wakeLevelChange level => Sys2Proof.Machine.execWakeLevelChange level s
  | .resetNRise => Sys2Proof.Machine.execResetNRise s

end Sys2Proof.Machine
end

