-- ==== Sys2Proof/Machine/Step.lean ====
section
/-! DEFINITION. One step of the block: the command at the front of the queue, or one Lighthouse cycle of idling. -/

namespace Sys2Proof.Machine

/-- On an empty queue one Lighthouse cycle of 2.5 ns passes and nothing else happens (R27; assumption log 1). -/
def idle (s : State) : State := { s with now := s.now + 1 }

/-- One step: take the command at the front of the queue and answer what its meaning does to the block with the
queue's rest. -/
def step (s : State) : Host.Outcome State Fault Refusal :=
  match s.pending with
  | [] => .next (idle s)
  | c :: rest => exec c { s with pending := rest }

/-- `s` with the command a word spells at the front of its queue; `s` itself where the word spells none. -/
def State.withFetchWord (s : State) (nbits w : Nat) : State :=
  match decodeTableWord nbits w with
  | none => s
  | some c => { s with pending := c :: s.pending }

end Sys2Proof.Machine
end

