-- ==== Sys2Proof/Safety.lean ====
section
/-! DEFINITION. What counts as a safe run, in the terms the claims use: the parts of the state, what a command leaves alone,
the invariant every step keeps. -/

namespace Sys2Proof.Machine

/-- Whether an address lies in the ring of the fault log (R38, R521). -/
def inLog (a : Nat) : Bool := decide (storeBase + 0x610000 ≤ a) && decide (a < storeBase + 0x610000 + 32 * logSize)

/-- The parts of State: one for each field, and apart from their field the places that a counted event may touch: the bytes of
the fault log and its position, SYS_EVT, the DS fault-event queue, what reports to the Watch Room, HC_EVT, the Keeper's sequence
number and the records it keeps until it runs. -/
inductive Part where
  | pending | now | freeCtr | csOfs | dsOfs | t0 | netZero | fwRev | mem | acc | sys | sup | clk | x | nv |
  img | im | csLoaded | dsLoaded | ctrs | buoys | fb | fbTick | beamsCs | beamsDs | mains | lhCs | lhDs |
  engCs | engDs | pairCs | pairDs | pwmCs | pwmDs | mach | candle | legs | prot | wr | conv | cvTick | ports |
  ac | gd | bridgeUnres | bridgeBad | gact | temp | lamp | can | net | host | kp | ckCs | ckDs
  | log | sysEvt | evq | logNext | inbox | hostEvt | kpLog
deriving DecidableEq, Repr

/-- One part of two states is the same; every byte of memory reads as before where the part is memory. -/
def Part.agree : Part → State → State → Prop
  | .pending, s, t => t.pending = s.pending
  | .now, s, t => t.now = s.now
  | .freeCtr, s, t => t.freeCtr = s.freeCtr
  | .csOfs, s, t => t.csOfs = s.csOfs
  | .dsOfs, s, t => t.dsOfs = s.dsOfs
  | .t0, s, t => t.t0 = s.t0
  | .netZero, s, t => t.netZero = s.netZero
  | .fwRev, s, t => t.fwRev = s.fwRev
  | .mem, s, t => ∀ a, inLog a = false → memGet t.mem a = memGet s.mem a
  | .acc, s, t => t.acc = s.acc
  | .sys, s, t => { t.sys with sysEvt := 0 } = { s.sys with sysEvt := 0 }
  | .sup, s, t => t.sup = s.sup
  | .clk, s, t => t.clk = s.clk
  | .x, s, t => { t.x with evq := [], lost := 0, qovfDue := false } = { s.x with evq := [], lost := 0, qovfDue := false }
  | .nv, s, t => { t.nv with logNext := 0 } = { s.nv with logNext := 0 }
  | .img, s, t => t.img = s.img
  | .im, s, t => t.im = s.im
  | .csLoaded, s, t => t.csLoaded = s.csLoaded
  | .dsLoaded, s, t => t.dsLoaded = s.dsLoaded
  | .ctrs, s, t => t.ctrs = s.ctrs
  | .buoys, s, t => t.buoys = s.buoys
  | .fb, s, t => t.fb = s.fb
  | .fbTick, s, t => t.fbTick = s.fbTick
  | .beamsCs, s, t => t.beamsCs = s.beamsCs
  | .beamsDs, s, t => t.beamsDs = s.beamsDs
  | .mains, s, t => t.mains = s.mains
  | .lhCs, s, t => t.lhCs = s.lhCs
  | .lhDs, s, t => t.lhDs = s.lhDs
  | .engCs, s, t => t.engCs = s.engCs
  | .engDs, s, t => t.engDs = s.engDs
  | .pairCs, s, t => t.pairCs = s.pairCs
  | .pairDs, s, t => t.pairDs = s.pairDs
  | .pwmCs, s, t => t.pwmCs = s.pwmCs
  | .pwmDs, s, t => t.pwmDs = s.pwmDs
  | .mach, s, t => t.mach = s.mach
  | .candle, s, t => t.candle = s.candle
  | .legs, s, t => t.legs = s.legs
  | .prot, s, t => t.prot = s.prot
  | .wr, s, t => { t.wr with inbox := [] } = { s.wr with inbox := [] }
  | .conv, s, t => t.conv = s.conv
  | .cvTick, s, t => t.cvTick = s.cvTick
  | .ports, s, t => t.ports = s.ports
  | .ac, s, t => t.ac = s.ac
  | .gd, s, t => t.gd = s.gd
  | .bridgeUnres, s, t => t.bridgeUnres = s.bridgeUnres
  | .bridgeBad, s, t => t.bridgeBad = s.bridgeBad
  | .gact, s, t => t.gact = s.gact
  | .temp, s, t => t.temp = s.temp
  | .lamp, s, t => t.lamp = s.lamp
  | .can, s, t => t.can = s.can
  | .net, s, t => t.net = s.net
  | .host, s, t => { t.host with evt := 0 } = { s.host with evt := 0 }
  | .kp, s, t => { t.kp with seqNo := 0, early := [] } = { s.kp with seqNo := 0, early := [] }
  | .ckCs, s, t => t.ckCs = s.ckCs
  | .ckDs, s, t => t.ckDs = s.ckDs
  | .log, s, t => ∀ a, inLog a = true → memGet t.mem a = memGet s.mem a
  | .sysEvt, s, t => t.sys.sysEvt = s.sys.sysEvt
  | .evq, s, t => t.x.evq = s.x.evq ∧ t.x.lost = s.x.lost ∧ t.x.qovfDue = s.x.qovfDue
  | .logNext, s, t => t.nv.logNext = s.nv.logNext
  | .inbox, s, t => t.wr.inbox = s.wr.inbox
  | .hostEvt, s, t => t.host.evt = s.host.evt
  | .kpLog, s, t => t.kp.seqNo = s.kp.seqNo ∧ t.kp.early = s.kp.early

/-- What a counted event may touch (R16, R33, R78 to R81, R521). -/
def trace : List Part := [.freeCtr, .ctrs, .log, .sysEvt, .evq, .logNext, .inbox, .hostEvt, .kpLog]

/-- The named parts and what a counted event may touch. -/
def traced (parts : List Part) : List Part := parts ++ trace

/-- Nothing but the named parts differs from s in t. -/
def OnlyChanges (parts : List Part) (s t : State) : Prop := ∀ p : Part, p ∉ parts → p.agree s t

/-- The named parts of s and t are the same. -/
def Keeps (parts : List Part) (s t : State) : Prop := ∀ p ∈ parts, p.agree s t

/-- A command completes: exec answers a next state, of which p holds. -/
def Runs (c : Instr) (s : State) (p : State → Prop) : Prop := ∃ t, exec c s = .next t ∧ p t

/-- Register access to a die is served: the Keeper is up and not restarting, class 2 is not shed, and the crossing is up where
the register lies on the DS die (R504 to R507, R516). -/
def ReadOpen (s : State) (d : Die) : Prop :=
  s.sys.keeperUp = true ∧ s.kp.restarting = false ∧ s.kp.shed2 = false ∧ (d = .ds → xingDown s = false)

/-- A register write to a die is served: access is, and nothing bars writes as a whole (R60, R516, R522, R543). -/
def WriteOpen (s : State) (d : Die) : Prop := ReadOpen s d ∧ writeBar s = none

/-- The answer to the last access. -/
def Answered (t : State) (status : Nat) (data : List Word) : Prop := t.acc = { status := status, ucode := 0, idx := 0xFFFF, data := data }

/-- A refusal with a UCODE. -/
def Refused (t : State) (ucode : Nat) : Prop := t.acc = { status := 4, ucode := ucode, idx := 0, data := [] }

/-- A request frame that passes orders 1 to 4 of R502 and finds the Keeper running: its port is enabled and, on the SPI, a
response has room; coding, CRC-32, LEN and ALIVE are right, and it is for this device. -/
def Heard (s : State) (q : Req) (ty : Nat) (pay : List Byte) : Prop :=
  s.sys.keeperUp = true ∧ s.kp.restarting = false ∧ portOn s q = true
    ∧ (q.stream == .spi && decide (4 ≤ s.host.resps.length)) = false
    ∧ q.coding = true ∧ crc32 (reqBytes q ty pay) = q.crc ∧ q.len.toNat = pay.length
    ∧ (q.dst == 0xFD && s.host.addr.isSome && pbOpen s) = false ∧ forMe s q = true
    ∧ aliveCheck s (reqStream q) q.alive = 0

/-- A command frame that is heard and that nothing bars. -/
def Commanded (s : State) (q : Req) (code : Nat) (args : List Byte) (bcOk anyImage : Bool) (cls : Nat) : Prop :=
  Heard s q tCMD (cmdPay code args) ∧ cmdBar q bcOk anyImage cls s = none

/-- The answer a request came to. -/
def Replied (t : State) (a : Ans) : Prop :=
  t.acc = { status := a.status, ucode := a.ucode, idx := BitVec.ofNat 16 a.idx, data := a.data }

/-- How many units of each kind State holds. -/
def shape (s : State) : List Nat :=
  [s.buoys.length, s.fb.length, s.beamsCs.length, s.beamsDs.length, s.lhCs.lanes.length, s.lhDs.lanes.length, s.engCs.length,
    s.engDs.length, s.pairCs.length, s.pairDs.length, s.pwmCs.grps.length, s.pwmCs.chans.length, s.pwmDs.grps.length,
    s.pwmDs.chans.length, s.mach.length, s.candle.length, s.legs.length, s.prot.trip.length, s.prot.hard.length,
    s.prot.gc.length, s.prot.msafe.length, s.conv.length, s.ports.length, s.gd.length, s.gact.length,
    s.temp.length, s.can.length, s.ckCs.length, s.ckDs.length]

/-- The invariant of every state a run can reach: memory lists rising addresses and no byte equal to what an unlisted address
reads as, so that equal memories are equal data; and the block has the buoys, channels, beams, lanes, engines, pairs, groups,
machines, comparators, converters, ports and controllers that it has at reset, no more and no fewer. -/
def Inv (s : State) : Prop := Memory.wf s.mem = true ∧ shape s = shape State.reset

/-- A safe outcome: the command ends in a next state, no fault and no refusal stops the block. -/
def SafeOutcome (o : Host.Outcome State Fault Refusal) : Prop := ∃ t, o = .next t

/-- A safe outcome that keeps the invariant and never runs time back. -/
def SafeStep (s : State) (o : Host.Outcome State Fault Refusal) : Prop :=
  ∃ t, o = .next t ∧ s.now ≤ t.now ∧ (Inv s → Inv t)

end Sys2Proof.Machine
end

