-- ==== Sys2Proof/Certificates/Slice0/Obligations.lean ====
section
/-! DEFINITION. The statements about the block: one definition each, from the numbered rules of the manual. -/

open Sys2Proof Sys2Proof.Machine

/-- A step executes the command at the front of the queue on the rest of the queue; on an empty queue one cycle passes.
For every command c, state s and rest of the queue: with c in front of the rest, step is exec of c at the state whose queue is
that rest. At a state with an empty queue step answers the next state in which the cycle counter is one higher and everything
else as it was. The queue and the idle step are the model's own choices (log entries 1 and 6).
Rests on 98_reader.md, 95_what_each_step_holds.md. -/
def Obligations.StepTakesTheFrontOrIdles : Prop :=
  (∀ (c : Instr) (rest : List Instr) (s : State), step { s with pending := c :: rest } = exec c { s with pending := rest })
    ∧ ∀ s : State, s.pending = [] → step s = .next { s with now := s.now + 1 }

/-- Memory at reset is in its canonical form, and the block has its units.
The state after reset meets the invariant Inv: its memory lists rising addresses and no byte that equals what an unlisted
address reads, and it has the buoys, channels, beams, lanes, engines, carrier groups, machines, comparators, converters, ports
and controllers of the block. The canonical form, and that an unlisted byte reads 0, are the model's choices (log entry 5).
Rests on 01_architecture.md, 02_configuration_image.md. -/
def Obligations.ResetKeepsTheInvariant : Prop :=
  Inv State.reset

/-- Every step answers a next state, keeps memory canonical and the units, and never runs time back.
For every state s: step answers a next state t; the cycle counter of t is not below that of s; and if the memory of s is in
canonical form and s has the units of the block, so have that of t and t. So no command stops the block, whatever its operands,
and equal memories are equal data after every step.
Rests on 01_architecture.md, 02_configuration_image.md, 95_what_each_step_holds.md. -/
def Obligations.EveryStepKeepsTheInvariant : Prop :=
  ∀ s : State, SafeStep s (step s)

/-- No command adds to, takes from or reorders the queue of commands that wait.
For every command and state, the next state that exec answers has the same queue as before, and exec answers a next state.
Rests on 95_what_each_step_holds.md. -/
def Obligations.CommandsLeaveTheQueueAlone : Prop :=
  ∀ (c : Instr) (s : State), Runs c s fun t => t.pending = s.pending

/-- A trained crossing sends superframes every 200 ns and safety messages every 400 ns.
SUPERFRAME_SEND on a crossing that is up completes at the later of now and the sending time: a superframe that ends in the
CRC-32 of its body is on the lanes, the next one is due sfLen cycles later. SAFETY_MESSAGE_SEND completes likewise: the alive
counter is one higher, the next message is due smLen cycles later, and the message ends in its CRC-8, or nothing is sent where
the clock monitor has stopped the CS transmitter. Each with its frame.
Rests on R11, R13, R16, R20, R21, R28, 01_architecture.md. -/
def Obligations.CrossingTransmittersAdvance : Prop :=
  ∀ (die : Die) (s : State), (s.link die).up = true →
    (Runs (.superframeSend die) s fun t =>
      t.now = max s.now (s.link die).sendAt ∧ (t.link die).sendAt = t.now + sfLen
        ∧ (∃ body, (t.link die).sent = body ++ wordBytes (crc32 body)) ∧ OnlyChanges [.now, .freeCtr, .x, .ctrs, .lamp, .evq] s t)
    ∧ (Runs (.safetyMessageSend die) s fun t =>
      t.now = max s.now (s.link die).safeSendAt ∧ (t.link die).safeAlive = (s.link die).safeAlive + 1
        ∧ (t.link die).safeSendAt = t.now + smLen
        ∧ ((die == .cs && s.clk.wrTxOff) = true → (t.link die).safeSent = [])
        ∧ ((die == .cs && s.clk.wrTxOff) = false → ∃ m, m.length = 3 ∧ (t.link die).safeSent = m ++ [crc8 m])
        ∧ OnlyChanges [.now, .x] s t)

/-- A good superframe or safety message is accepted and ends a loss; a bad one is counted and rejected.
On a crossing that is up, SUPERFRAME_RECEIVED is taken at its arrival, sfLen + sfLat after the start before it at the earliest.
A frame without violation, of 200 bytes, with the right CRC-32, with a cycle count within one of the receiver's at its start,
and with a count 1 to 9 above the last accepted one (any count during a loss or before the first acceptance) is accepted: its
count is the last accepted one and a loss is over. One with a violation, a wrong length or a wrong CRC-32, or a count outside
that window, advances the die's rejected-superframe counter by one, saturating. SAFETY_MESSAGE_RECEIVED with the right CRC-8, a
command code of the table (a level 1 to 6 on the CS die) and the alive counter that stands as many steps past the last as
message times have passed (any after start-up) is taken: it is held, messages are up and a loss is over. With a wrong CRC-8 the
discarded-message counter is one higher, saturating. The acceptance of any first count and first alive counter is the model's
choice (log entry 169). Each with its frame.
Rests on R16, R17, R24, R31, 01_architecture.md. -/
def Obligations.CrossingReceiversTakeFrames : Prop :=
  ∀ (die : Die) (s : State), (s.link die).up = true →
    let l := s.link die;
    let at_ := max s.now (l.rxAt + sfLen + sfLat);
    let start := l.rxAt + (at_ - sfLat - l.rxAt) / sfLen * sfLen;
    let msgAt := max s.now (l.safeRxAt + 2 * smLen + smLat);
    let slot := l.safeRxAt + (msgAt - smLen - smLat - l.safeRxAt) / smLen * smLen;
    (∀ (frame : List Byte) (viol : Option (Fin 4)),
      let good := viol.isNone && frame.length == 200 && crc32 (frame.take 196) == wd (ofLe (frame.drop 196));
      let n := BitVec.ofNat 16 (ofLe ((frame.drop 2).take 2));
      let ahead := (n - l.lastCount).toNat;
      let inWindow := l.loss = true ∨ l.haveCount = false ∨ (1 ≤ ahead ∧ ahead ≤ 9);
      (good = true → inWindow → (sx 16 (ofLe (frame.take 2) + 65536 - (countAt s die start).toNat % 65536)).natAbs ≤ 1 →
        Runs (.superframeReceived die frame viol) s fun t =>
          t.now = at_ ∧ (t.link die).lastCount = n ∧ (t.link die).haveCount = true ∧ (t.link die).loss = false
            ∧ (t.link die).acceptAt = start + sfLen + sfLat ∧ OnlyChanges (traced [.now, .sup, .x, .buoys, .beamsCs, .beamsDs, .lhCs, .lhDs, .pwmCs, .pwmDs, .mach, .candle, .prot, .wr, .conv, .ac, .gact, .temp, .lamp]) s t)
      ∧ (good = false ∨ ¬ inWindow →
        Runs (.superframeReceived die frame viol) s fun t =>
          t.now = at_ ∧ (t.link die).errCnt = satInc l.errCnt ∧ (t.link die).lastCount = l.lastCount ∧ OnlyChanges (traced [.now, .sup, .x, .buoys, .beamsCs, .beamsDs, .lhCs, .lhDs, .pwmCs, .pwmDs, .mach, .candle, .prot, .wr, .conv, .ac, .gact, .temp, .lamp]) s t))
    ∧ (∀ b0 b1 b2 : Byte,
      let alive := BitVec.ofNat 4 (b1.toNat / 16);
      (match die with | .ds => (cmdLevel b0).isSome | .cs => decide (1 ≤ b0.toNat / 32) && decide (b0.toNat / 32 ≤ 6)) = true →
      (∀ a, l.rxAlive = some a → alive = a + BitVec.ofNat 4 ((slot - l.safeGoodAt) / smLen)) →
      Runs (.safetyMessageReceived die b0 b1 b2 (crc8 [b0, b1, b2])) s fun t =>
        t.now = msgAt ∧ (t.link die).safeUp = true ∧ (t.link die).safeLoss = false ∧ (t.link die).rxAlive = some alive
          ∧ (t.link die).safeRx = [b0, b1, b2, crc8 [b0, b1, b2]] ∧ OnlyChanges (traced [.now, .x, .lhCs, .lhDs, .pwmDs, .prot, .wr, .temp, .lamp]) s t)
    ∧ (∀ b0 b1 b2 b3 : Byte, crc8 [b0, b1, b2] ≠ b3 →
      Runs (.safetyMessageReceived die b0 b1 b2 b3) s fun t =>
        t.now = msgAt ∧ (t.link die).safeErrCnt = satInc l.safeErrCnt ∧ (t.link die).safeRx = l.safeRx ∧ OnlyChanges (traced [.now, .x, .lhCs, .lhDs, .pwmDs, .prot, .wr, .temp, .lamp]) s t)

/-- Loss of superframes, messages, PLL lock, crystal or oscillator is noted; lock and crystal come back.
XLOSS on an up crossing without loss completes with the loss noted, 2 µs after the last acceptance at the earliest. SLOSS notes
that messages are lost and drops the held message. PLLUL on a locked PLL drops the lock, XTAL notes that the crystal is gone,
and WRCLK_WINDOW outside a CS reset sets the deviation and says whether it is more than 4 %. PLL_RELOCK of a die out of its
reset sets its lock, CRYSTAL_RESTORED the crystal, and nothing else: the latched source and the faults stay. Each with its
frame.
Rests on R18, R24, R26, R28, 01_architecture.md. -/
def Obligations.CrossingAndClockLossesAreRaised : Prop :=
  (∀ (die : Die) (s : State), (s.link die).up = true → (s.link die).loss = false →
      Runs (.xloss die) s fun t =>
        t.now = max s.now ((s.link die).acceptAt + 2 * usec) ∧ (t.link die).loss = true ∧ OnlyChanges (traced [.now, .x, .buoys, .beamsCs, .beamsDs, .lhCs, .lhDs, .pwmCs, .pwmDs, .mach, .prot, .conv, .ac, .temp, .lamp]) s t)
    ∧ (∀ (die : Die) (s : State), (s.link die).up = true → (s.link die).safeLoss = false →
      Runs (.sloss die) s fun t =>
        t.now = max s.now ((s.link die).safeGoodAt + 4 * smLen + smLat)
          ∧ (t.link die).safeLoss = true ∧ (t.link die).safeUp = false ∧ OnlyChanges (traced [.now, .x, .lhCs, .lhDs, .pwmDs, .prot, .temp, .lamp]) s t)
    ∧ (∀ s : State, s.clk.csLock = true → Runs (.pllul .cs) s fun t => t.clk = { s.clk with csLock := false } ∧ OnlyChanges (traced [.clk, .lhCs, .lhDs, .pwmDs, .prot, .temp, .lamp]) s t)
    ∧ (∀ s : State, s.clk.dsLock = true → Runs (.pllul .ds) s fun t => t.clk = { s.clk with dsLock := false } ∧ OnlyChanges (traced [.clk, .lhCs, .lhDs, .pwmDs, .prot, .temp, .lamp]) s t)
    ∧ (∀ s : State, s.clk.xtalOk = true → Runs .xtal s fun t => t.clk = { s.clk with xtalOk := false } ∧ OnlyChanges (traced [.clk]) s t)
    ∧ (∀ (cnt : Nat) (s : State), s.sys.csReset = false →
      Runs (.wrclkWindow cnt) s fun t =>
        t.clk.clkDev = BitVec.ofInt 16 (satS 16 ((cnt : Int) - 10000))
          ∧ t.clk.wrMism = decide (400 < ((cnt : Int) - 10000).natAbs) ∧ t.clk.winAt = t.now ∧ OnlyChanges (traced [.now, .clk]) s t)
    ∧ (∀ s : State, s.sys.csReset = false →
      Runs (.pllRelock .cs) s fun t => t.clk = { s.clk with csLock := true } ∧ OnlyChanges [.clk] s t)
    ∧ (∀ s : State, s.sys.dsPor = false →
      Runs (.pllRelock .ds) s fun t => t.clk = { s.clk with dsLock := true } ∧ OnlyChanges [.clk] s t)
    ∧ (∀ s : State, s.sys.csReset = false →
      Runs .crystalRestored s fun t => t.clk = { s.clk with xtalOk := true } ∧ OnlyChanges [.clk] s t)

/-- A waiting snapshot is adopted at its cycle; training aligns the DS cycle count.
SNAPSHOT_ADOPT of a far beam with a snapshot waiting completes at its cycle: the snapshot leaves the queue and its status half-
word, speed and phase are those of the beam on this die. CROSSING_TRAINING in step 6 with success completes 200 µs later with
the crossing trained and the DS count within one of the CS count; without success and with fewer than two attempts before, the
attempt is counted and the crossing stays untrained.
Rests on R19, R27, R132, R136, 01_architecture.md, 05_beams.md. -/
def Obligations.SnapshotsAreAdoptedAndTrainingAlignsTheDies : Prop :=
  (∀ (die : Die) (beam : Fin 8) (at_ : Nat) (x : Snap) (rest : List (Nat × Snap)) (s : State),
      (s.link die).snaps.getD beam.val [] = (at_, x) :: rest → (s.link die).snaps.length = 8 → (s.beams die).length = 8 →
      bmOn s beam.val = true → (bmHome s beam.val == die) = false →
      Runs (.snapshotAdopt die beam) s fun t =>
        t.now = max s.now at_ ∧ (nth (t.beams die) beam.val).far = x.status ∧ (nth (t.beams die) beam.val).adopted = true
          ∧ (nth (t.beams die) beam.val).a = { p0 := x.p0, cyc := x.cyc, speed := x.speed, t0 := x.t0, lim := none }
          ∧ (nth (t.beams die) beam.val).lastUpd = t.now ∧ OnlyChanges (traced [.now, .x, .beamsCs, .beamsDs, .lhCs, .lhDs, .pwmCs, .pwmDs, .mach, .prot, .temp, .lamp]) s t)
    ∧ (∀ (align : Fin 3) (s : State), s.sys.step = 6 → s.sys.halt = false → s.x.trained = false → s.sys.csReset = false →
      Runs (.crossingTraining true align) s fun t =>
        t.now = s.now + 200 * usec ∧ t.x.trained = true ∧ t.x.attempts = s.x.attempts + 1
          ∧ t.dsOfs = s.csOfs + wd align.val - 1 ∧ t.x.cs.up = true ∧ t.x.ds.up = true ∧ OnlyChanges (traced [.now, .dsOfs, .sys, .clk, .x]) s t)
    ∧ (∀ (align : Fin 3) (s : State), s.sys.step = 6 → s.sys.halt = false → s.x.trained = false → s.sys.csReset = false →
      s.x.attempts < 2 →
      Runs (.crossingTraining false align) s fun t =>
        t.x.trained = false ∧ t.x.attempts = s.x.attempts + 1 ∧ t.sys = s.sys ∧ OnlyChanges (traced [.now, .dsOfs, .sys, .clk, .x]) s t)

/-- A supply out of range resets its die or is noted; a supply back in range is noted.
SUPPLY_OUT_OF_RANGE of VCS_CORE (code 0) in range on an awake device resets the CS die with its cause 3 and step 1; VWK (7)
falling low takes every CS supply as gone and holds both dies, and VWK rising above its range does nothing; another CS supply in
range (1 to 6) of a CS die out of reset loses its bit, sets SYS_EVT bit 4 and resets nothing, and of a CS die in reset it loses
its bit alone; VDS_CORE (8) in range takes the DS die into its power-on reset with every DS supply as gone; another DS supply in
range (9 to 11) of a DS die out of its power-on reset loses its bit and sets SYS_EVT bit 4. SUPPLY_BACK_IN_RANGE of code 1 to 6
or 9 to 11 out of range, its die out of that reset and, for a CS supply, the device awake, sets the bit again, of code 9 with
100 µs passing. Each with its frame.
Rests on R530, R531, R532, 19_power_reset_wake.md. -/
def Obligations.SuppliesStartAndStopTheDies : Prop :=
  (∀ (isOver : Bool) (mv : BitVec 16) (s : State), s.sup.csOk.getLsbD 0 = true → s.sys.asleep = false →
      Runs (.supplyOutOfRange 0 isOver mv) s fun t =>
        t.sys.csReset = true ∧ t.sys.step = 1 ∧ t.sys.ready = false ∧ t.sys.keeperUp = false ∧ t.sys.rstCause = orBit s.sys.rstCause 3
          ∧ t.sup.csOk = s.sup.csOk &&& ~~~1#12 ∧ t.csLoaded = false ∧ Keeps [.pending, .now, .freeCtr, .dsOfs, .fwRev, .nv, .dsLoaded, .beamsDs, .lhDs, .engDs, .pairDs, .pwmDs, .mach, .candle, .legs, .prot, .conv, .cvTick, .ckDs, .evq, .logNext] s t)
    ∧ (∀ (mv : BitVec 16) (s : State),
      (Runs (.supplyOutOfRange 7 false mv) s fun t =>
        t.sup.csOk = 0 ∧ t.sup.vwkLow = true ∧ t.sys.csReset = true ∧ t.sys.dsBoot = true ∧ t.sys.dsUp = false
          ∧ Keeps [.pending, .now, .freeCtr, .dsOfs, .fwRev, .nv, .logNext] s t)
      ∧ Runs (.supplyOutOfRange 7 true mv) s fun t => t = s)
    ∧ (∀ (code : Fin 12) (isOver : Bool) (mv : BitVec 16) (s : State), 1 ≤ code.val → code.val ≤ 6 →
      s.sup.csOk.getLsbD code.val = true → s.sys.asleep = false →
      Runs (.supplyOutOfRange code isOver mv) s fun t =>
        t.sup = { s.sup with csOk := s.sup.csOk &&& ~~~(BitVec.ofNat 12 (2 ^ code.val)) }
          ∧ (s.sys.csReset = false → bitOf t.sys.sysEvt 4 = true) ∧ (s.sys.csReset = true → t.sys = s.sys)
          ∧ OnlyChanges (traced [.sup]) s t)
    ∧ (∀ (isOver : Bool) (mv : BitVec 16) (s : State), s.sys.dsPor = false → s.sup.dsOk.getLsbD 8 = true →
      Runs (.supplyOutOfRange 8 isOver mv) s fun t =>
        t.sup.dsOk = 0 ∧ t.sup.csOk = s.sup.csOk ∧ t.sys.dsPor = true ∧ t.sys.dsBoot = true ∧ t.sys.dsReady = false
          ∧ t.dsLoaded = false ∧ t.clk.dsLock = false ∧ OnlyChanges (traced [.mem, .sys, .sup, .clk, .x, .dsLoaded, .buoys, .beamsDs, .lhDs, .engDs, .pairDs, .pwmDs, .mach, .candle, .legs, .prot, .conv, .cvTick, .temp, .lamp, .ckDs]) s t)
    ∧ (∀ (code : Fin 12) (isOver : Bool) (mv : BitVec 16) (s : State), 9 ≤ code.val → s.sys.dsPor = false →
      s.sup.dsOk.getLsbD code.val = true →
      Runs (.supplyOutOfRange code isOver mv) s fun t =>
        t.sup = { s.sup with dsOk := s.sup.dsOk &&& ~~~(BitVec.ofNat 12 (2 ^ code.val)) } ∧ bitOf t.sys.sysEvt 4 = true
          ∧ OnlyChanges (traced [.sup, .lhCs, .lhDs, .pwmCs, .pwmDs, .candle, .legs, .prot, .conv, .temp, .lamp]) s t)
    ∧ (∀ (code : Fin 12) (s : State), 1 ≤ code.val → code.val ≤ 6 → s.sup.csOk.getLsbD code.val = false → s.sys.asleep = false →
      s.sys.csReset = false →
      Runs (.supplyBackInRange code) s fun t =>
        t.sup = { s.sup with csOk := s.sup.csOk ||| BitVec.ofNat 12 (2 ^ code.val) } ∧ OnlyChanges [.sup] s t)
    ∧ (∀ (code : Fin 12) (s : State), 9 ≤ code.val → s.sup.dsOk.getLsbD code.val = false → s.sys.dsPor = false →
      Runs (.supplyBackInRange code) s fun t =>
        t.sup.dsOk = s.sup.dsOk ||| BitVec.ofNat 12 (2 ^ code.val) ∧ t.sup.csOk = s.sup.csOk
          ∧ t.now = (if code.val = 9 then s.now + 100 * usec else s.now) ∧ OnlyChanges (traced [.now, .sup, .lhCs, .lhDs, .pwmCs, .pwmDs, .candle, .legs, .prot, .conv, .temp, .lamp]) s t)

/-- VWK power-on resets the whole device; the end of the supply wait releases each die.
VWK_POWER_ON leaves both dies in their power-on reset with only VWK in range, the power-on cause alone in SYS_RSTCAUSE, no wake
counted and RESET_N taken as low. POWER_ON_RESET_RELEASE of the CS die in reset with RESET_N high starts step 1 now; with
RESET_N low it waits on; of the DS die it ends the DS power-on reset with every DS supply in range and the injection test done
on each pair, one that failed it disabled. Each with its frame.
Rests on R531, R533, R537, R542, 19_power_reset_wake.md. -/
def Obligations.PowerOnStartsBothDiesFromReset : Prop :=
  (∀ s : State, Runs .vwkPowerOn s fun t =>
      t.sys.csReset = true ∧ t.sys.dsPor = true ∧ t.sys.dsBoot = true ∧ t.sys.step = 1 ∧ t.sys.ready = false ∧ t.sys.dsReady = false
        ∧ t.sys.rstCause = 1 ∧ t.sys.wkCnt = 0 ∧ t.sys.resetLow = true ∧ t.sys.wakeReq = true ∧ t.sys.asleep = false
        ∧ t.sup.csOk = 0x80 ∧ t.sup.dsOk = 0 ∧ t.csLoaded = false ∧ t.dsLoaded = false ∧ t.im.noImage = true ∧ Keeps [.pending, .now, .freeCtr, .dsOfs, .fwRev, .nv, .logNext] s t)
    ∧ (∀ (inj : List InjFail) (s : State), s.sys.csReset = true → s.sys.asleep = false → s.sup.vwkLow = false →
      s.sup.csOk.getLsbD 0 = false →
      Runs (.powerOnResetRelease .cs inj) s fun t =>
        t.sup = { s.sup with csOk := 0xFF } ∧ t.sys.validAt = s.now ∧ t.sys.csReset = s.sys.resetLow
          ∧ (s.sys.resetLow = false → t.sys.step = 1 ∧ t.sys.stepStart = s.now) ∧ OnlyChanges [.sys, .sup] s t)
    ∧ (∀ (inj : List InjFail) (s : State), s.sys.dsPor = true →
      Runs (.powerOnResetRelease .ds inj) s fun t =>
        t.sup = { s.sup with dsOk := 0xF00 } ∧ t.sys = { s.sys with dsPor := false, dsStartAt := s.now }
          ∧ t.pairDs.length = s.pairDs.length ∧ (∀ p ∈ t.pairDs, p.injDone = true)
          ∧ (∀ f ∈ inj, f.pair.val < s.pairDs.length → f.mask ≠ 0 → (nth t.pairDs f.pair.val).disabled = true) ∧ OnlyChanges [.sys, .sup, .pairDs] s t)

/-- RESET_N low holds the CS die in reset until it rises; K28.7 takes the DS die to its boot state.
RESET_N_LOW on an awake device completes in a CS reset with its cause 2, the step back at 1 and nothing of the image in force;
RESET_N_RISE after it releases the CS die into step 1 where every CS supply is in range. DS_BOOT_ENTRY, while the CS die is held
in reset or in start-up step 1, with its core supplied and the DS die out of its power-on reset, puts the DS die in its boot
state with its image half gone. Each with its frame.
Rests on R533, R534, 19_power_reset_wake.md. -/
def Obligations.ResetPinAndBootStateRestartADie : Prop :=
  (∀ s : State, s.sys.asleep = false → s.sys.resetLow = false →
      Runs .resetNLow s fun t =>
        t.sys.csReset = true ∧ t.sys.resetLow = true ∧ t.sys.step = 1 ∧ t.sys.ready = false ∧ t.sys.keeperUp = false
          ∧ t.sys.rstCause = orBit s.sys.rstCause 2 ∧ t.csLoaded = false ∧ t.kp = {} ∧ t.host = {} ∧ t.t0 = (if s.sys.dsReady then s.t0 else none)
          ∧ Keeps [.pending, .now, .freeCtr, .dsOfs, .fwRev, .nv, .dsLoaded, .beamsDs, .lhDs, .engDs, .pairDs, .pwmDs, .mach, .candle, .legs, .prot, .conv, .cvTick, .ckDs, .evq, .logNext] s t)
    ∧ (∀ s : State, s.sys.resetLow = true → s.sys.resetUnres = false → s.sys.csReset = true → s.sys.asleep = false →
      (∀ k < 8, s.sup.csOk.getLsbD k = true) →
      Runs .resetNRise s fun t =>
        t.sys.csReset = false ∧ t.sys.resetLow = false ∧ t.sys.step = 1 ∧ t.sys.stepStart = s.now ∧ t.sys.validAt = s.now ∧ OnlyChanges [.sys] s t)
    ∧ (∀ s : State, s.sys.csReset = true ∨ s.sys.step = 1 → s.sup.csOk.getLsbD 0 = true → s.sys.asleep = false → s.sys.dsPor = false →
      Runs .dsBootEntry s fun t =>
        t.sys = { s.sys with dsBoot := true, dsUp := false, dsReady := false } ∧ t.dsLoaded = false ∧ t.prot = {} ∧ t.lhDs = {}
          ∧ t.engDs = State.reset.engDs ∧ t.pwmDs = {} ∧ OnlyChanges [.mem, .sys, .x, .dsLoaded, .ctrs, .buoys, .beamsDs, .lhDs, .engDs, .pairDs, .pwmDs, .mach, .candle, .legs, .prot, .conv, .cvTick, .temp, .lamp, .ckDs, .log, .evq] s t)

/-- SYS_RESTART is taken only under the conditions of R61 and resumes start-up at step 3.
SYS_RESTART, received and not barred, answers status 0 where its conditions hold: start-up is at step 3, not ready, T0 is gone,
SYS_RSTCAUSE has bit 4 set, no image is loaded on either die, the DS die is in its boot state and the staged content is lost.
Where they do not hold it is refused with UCODE 2 and start-up is as it was. With its frame.
Rests on R61, R64, R533, R534, 02_configuration_image.md, 19_power_reset_wake.md. -/
def Obligations.RestartResumesStartUpAtStepThree : Prop :=
  ∀ (q : Req) (s : State), Commanded s q 0x13 [] true true 2 →
    (restartOk s = true →
      Runs (.sysRestart q) s fun t =>
        Replied t okAns ∧ t.sys.step = 3 ∧ t.sys.ready = false ∧ t.sys.csReset = false ∧ t.sys.keeperUp = s.sys.keeperUp
          ∧ t.sys.rstCause = orBit s.sys.rstCause 4 ∧ t.sys.dsBoot = true ∧ t.t0 = none ∧ t.csLoaded = false ∧ t.dsLoaded = false
          ∧ t.im.items = [] ∧ t.im.stageBuf = [] ∧ Keeps [.pending, .now, .csOfs, .dsOfs, .netZero, .fwRev, .sup, .nv] s t)
    ∧ (restartOk s = false →
      Runs (.sysRestart q) s fun t => Replied t (refuseAns 2) ∧ OnlyChanges (traced [.acc, .host]) s t)

/-- SYS_SLEEP is accepted under its conditions; entry runs in three steps; WAKE ends the sleep.
A write of 0xA55A to SYS_SLEEP where writes are served and the conditions hold begins sleep entry; any other value, or
conditions that do not hold, is refused with UCODE 2 and begins nothing. The first entry step comes 50 ms after and turns every
CAN controller off, the second 0.1 ms later and stops the Watch Room, the third puts the CS die in reset, asleep and WAKE_REQ
low. WAKE in sleep ends it, counts the wake and sets the wake cause; a level change of WAKE on an awake device is taken over.
Each with its frame.
Rests on R543, R544, R545, R546, R548, 19_power_reset_wake.md. -/
def Obligations.SleepIsEnteredInStepsAndEndsWithWake : Prop :=
  (∀ s : State, WriteOpen s .cs → sleepOk s = true →
      Runs (.sysSleep 0xA55A) s fun t =>
        Answered t 0 [] ∧ t.sys = { s.sys with sleepAcc := true, sleepAt := s.now, sleepStep := 1 } ∧ OnlyChanges [.acc, .sys] s t)
    ∧ (∀ (value : Word) (s : State), WriteOpen s .cs → value ≠ 0xA55A ∨ sleepOk s = false →
      Runs (.sysSleep value) s fun t => Refused t 2 ∧ OnlyChanges [.acc] s t)
    ∧ (∀ s : State, s.sys.sleepAcc = true → s.sys.sleepStep = 1 →
      Runs .sleepEntryStep s fun t =>
        t.now = max s.now (s.sys.sleepAt + 50 * msec) ∧ t.sys.sleepStep = 2 ∧ (∀ c ∈ t.can, c.state = 0) ∧ (∀ c ∈ t.temp, c.curveAt = none)
          ∧ OnlyChanges [.now, .sys, .temp, .can] s t)
    ∧ (∀ s : State, s.sys.sleepAcc = true → s.sys.sleepStep = 2 →
      Runs .sleepEntryStep s fun t =>
        t.now = max s.now (s.sys.sleepAt + 50 * msec + 100 * usec) ∧ t.sys.sleepStep = 3 ∧ t.wr.loaded = false ∧ t.x.trained = false
          ∧ (s.sys.dsPor = false → t.sys.dsBoot = true) ∧ OnlyChanges [.now, .mem, .sys, .x, .dsLoaded, .ctrs, .buoys, .beamsDs, .lhDs, .engDs, .pairDs, .pwmDs, .mach, .candle, .legs, .prot, .wr, .conv, .cvTick, .temp, .lamp, .ckDs, .log, .evq] s t)
    ∧ (∀ s : State, s.sys.sleepAcc = true → s.sys.sleepStep = 3 → s.sys.wakePend = false →
      Runs .sleepEntryStep s fun t =>
        t.now = max s.now (s.sys.sleepAt + 50 * msec + 200 * usec) ∧ t.sys.asleep = true ∧ t.sys.wakeReq = false ∧ t.sys.csReset = true
          ∧ t.sys.rstCause = s.sys.rstCause ∧ t.sup.csOk = 0x80 ∧ Keeps [.pending, .freeCtr, .dsOfs, .fwRev, .nv, .dsLoaded, .beamsDs, .lhDs, .engDs, .pairDs, .pwmDs, .mach, .candle, .legs, .prot, .conv, .cvTick, .ckDs, .evq, .logNext] s t)
    ∧ (∀ s : State, s.sys.asleep = true → s.sup.vwkLow = false →
      Runs .wake s fun t =>
        t.sys = { s.sys with asleep := false, wakeReq := true, wakePend := false, wakePin := true, wakeUnres := false
                             rstCause := orBit s.sys.rstCause 1, wkCnt := satInc s.sys.wkCnt } ∧ OnlyChanges [.sys] s t)
    ∧ (∀ (level : Bool) (s : State), s.sys.asleep = false →
      Runs (.wakeLevelChange level) s fun t =>
        t.sys.wakePin = level ∧ t.sys.wakeUnres = false ∧ t.sys.wakePend = (s.sys.wakePend || (level && s.sys.sleepAcc))
          ∧ t.sys.sysEvt = (if s.sys.csReset = true ∨ level = s.sys.wakePin then s.sys.sysEvt else orBit s.sys.sysEvt 5)
          ∧ OnlyChanges [.sys, .sysEvt] s t)

/-- A start-up step completes into the next; a step past its limit, or one that fails, stops start-up.
START_UP_STEP_COMPLETE outside reset, not stopped, not ready and not in sleep entry: step 1 ends in step 2 with crystal and CS
PLL good; step 2 in step 3 with the Keeper up, or, with a failed firmware check, in a stop at step 2; step 6 in step 7 only once
the crossing is trained; step 9 in step 10, or in a stop; step 10 in step 11 with T0 1.0 to 1.1 ms ahead. STEPTMO past the limit
stops start-up at its step. Each with its frame.
Rests on R535, R536, R537, R173, 19_power_reset_wake.md. -/
def Obligations.StartUpStepsFollowOneAnother : Prop :=
  ∀ (x : StepIn) (s : State), s.sys.csReset = false → s.sys.halt = false → s.sys.ready = false → s.sys.sleepAcc = false →
    (s.sys.step = 1 → Runs (.startUpStepComplete x) s fun t =>
      t.sys.step = 2 ∧ t.sys.stepStart = s.now ∧ t.clk.xtalOk = true ∧ t.clk.csLock = true ∧ OnlyChanges [.mem, .sys, .clk, .x, .dsLoaded, .ctrs, .buoys, .beamsDs, .lhDs, .engDs, .pairDs, .pwmDs, .mach, .candle, .legs, .prot, .conv, .cvTick, .temp, .lamp, .ckDs, .log, .evq] s t)
    ∧ (s.sys.step = 2 → x.fwOk = true → Runs (.startUpStepComplete x) s fun t =>
      t.sys.step = 3 ∧ t.sys.keeperUp = true ∧ t.host.cnonce = x.cmdNonce ∧ OnlyChanges [.freeCtr, .sys, .ctrs, .host, .kp, .log, .sysEvt, .evq, .logNext, .inbox, .kpLog] s t)
    ∧ (s.sys.step = 2 → x.fwOk = false → Runs (.startUpStepComplete x) s fun t =>
      t.sys.halt = true ∧ t.sys.haltStep = 2 ∧ t.sys.fwFail = true ∧ OnlyChanges [.sys, .sysEvt] s t)
    ∧ (s.sys.step = 6 → Runs (.startUpStepComplete x) s fun t =>
      t.sys.step = (if s.x.trained then 7 else 6) ∧ OnlyChanges [.sys] s t)
    ∧ (s.sys.step = 9 → x.protMiss = none → Runs (.startUpStepComplete x) s fun t =>
      t.sys.step = 10 ∧ t.sys.protPath = true ∧ OnlyChanges [.sys] s t)
    ∧ (s.sys.step = 9 → x.protMiss.isSome = true → Runs (.startUpStepComplete x) s fun t =>
      t.sys.halt = true ∧ t.sys.haltStep = 9 ∧ OnlyChanges (traced [.sys]) s t)
    ∧ (s.sys.step = 10 → Runs (.startUpStepComplete x) s fun t =>
      t.sys.step = 11 ∧ (∃ k, t.t0 = some k ∧ s.now + 400000 ≤ k ∧ k ≤ s.now + 440000
        ∧ t.lhCs.p0time = countAt s .cs k ∧ t.lhDs.p0time = countAt s .cs k) ∧ OnlyChanges [.t0, .sys, .lhCs, .lhDs] s t)
    ∧ (∀ elapsed : Word, stepLimit s < elapsed.toNat → Runs (.stepTmo elapsed) s fun t =>
      t.sys.halt = true ∧ t.sys.haltStep = s.sys.step ∧ t.now = max s.now (s.sys.stepStart + elapsed.toNat * usec) ∧ OnlyChanges (traced [.now, .sys]) s t)

/-- PAGE0_START in step 11 makes both dies ready at T0.
PAGE0_START with T0 set, in step 11, not stopped, not ready and not in reset completes at T0: the device and the DS die are
ready, a start-up time kept from before stays, the slot check is due and the CS background scans are due from then on. With its
frame: the image, the crossing, the host interface, the buoys and the supplies stay.
Rests on R173, R535, R58, R518, 19_power_reset_wake.md, 06_lighthouse.md. -/
def Obligations.PageZeroStartsBothDiesAtTZero : Prop :=
  ∀ (k : Nat) (s : State), s.t0 = some k → s.sys.step = 11 → s.sys.halt = false → s.sys.ready = false → s.sys.csReset = false →
    Runs .page0Start s fun t =>
      t.now = max s.now k ∧ t.sys.ready = true ∧ t.sys.dsReady = true ∧ t.kp.slotDue = true ∧ t.im.repeated = false
        ∧ (∀ c ∈ t.ckCs, c.bgAt = max s.now k) ∧ (s.sys.stepT ≠ 0 → t.sys.stepT = s.sys.stepT) ∧ Keeps [.pending, .csOfs, .dsOfs, .t0, .netZero, .fwRev, .acc, .sup, .clk, .x, .img, .csLoaded, .dsLoaded, .buoys, .fbTick, .mains, .pairCs, .pairDs, .cvTick, .ports, .ac, .gd, .bridgeUnres, .bridgeBad, .host] s t

/-- HOST_READ answers the words of consecutive addresses; nothing but the answer changes.
HOST_READ of 1 to 63 words, received, of an allowed destination and not shed, where every address lies in a RAM region that can
be reached, answers status 0, index 0xFFFF and the little-endian words in the order of their addresses. Only the answer and the
host interface change: not a byte of memory. A count of 0 or above 63 is answered with status LEN, a first address that is no
multiple of 4 with status ADDR at word 0, and one in a controller's device buffer is refused there with UCODE 0x20; each changes
the answer and the host interface alone. That a read of the device buffer is refused like a write is the model's reading of R479
(log entry 183).
Rests on R34, R35, R479, R504, 18_host_chain.md. -/
def Obligations.HostReadsMemoryInOrder : Prop :=
  ∀ (q : Req) (addr : Word) (count : BitVec 16) (s : State),
    Heard s q tREAD (leBytes 4 addr.toNat ++ leBytes 2 count.toNat) → typeBar q tREAD false = none → s.kp.shed2 = false →
    (1 ≤ count.toNat → count.toNat ≤ 63 → addr.toNat % 4 = 0 →
      (∀ k < count.toNat, inRam (addr.toNat + 4 * k) = true ∧ (addrDie (addr.toNat + 4 * k) = .ds → xingDown s = false)) →
      Runs (.hostRead q addr count) s fun t =>
        Replied t { status := 0, data := (List.range count.toNat).map fun k => memWord s.mem (addr.toNat + 4 * k) }
          ∧ OnlyChanges [.acc, .host] s t)
    ∧ (count.toNat = 0 ∨ 63 < count.toNat →
      Runs (.hostRead q addr count) s fun t => Replied t lenAns ∧ OnlyChanges [.acc, .host] s t)
    ∧ (1 ≤ count.toNat → count.toNat ≤ 63 → addr.toNat % 4 ≠ 0 →
      Runs (.hostRead q addr count) s fun t => Replied t { status := 1, idx := 0 } ∧ OnlyChanges [.acc, .host] s t)
    ∧ (1 ≤ count.toNat → count.toNat ≤ 63 → addr.toNat % 4 = 0 → inDevBuf s addr.toNat = true →
      Runs (.hostRead q addr count) s fun t => Replied t { status := 4, ucode := 0x20, idx := 0 } ∧ OnlyChanges [.acc, .host] s t)

/-- HOST_WRITE to a register takes effect; to RAM, the store or an odd address it is refused with ADDR.
HOST_WRITE of one word to SYS_ALMASK, received and not barred, answers status 0 and the mask holds the six bits written.
HOST_WRITE of 1 to 63 words whose first address is no multiple of 4, or lies in the store's window or in a RAM region (a
checkpoint RAM among them), is answered with status ADDR at word 0 and changes nothing but the answer and the host interface.
Rests on R34, R35, R224, R504, R548, 18_host_chain.md. -/
def Obligations.HostWritesARegisterButNoMemory : Prop :=
  ∀ (q : Req) (addr : Word) (words : List Word) (s : State),
    Heard s q tWRITE (leBytes 4 addr.toNat ++ bytesOf words) → typeBar q tWRITE true = none → writeBar s = none →
    (∀ v : Word, addr = 0x1000001C → words = [v] →
      Runs (.hostWrite q addr words) s fun t =>
        Replied t okAns ∧ t.sys = { s.sys with almask := v &&& 0x3F } ∧ OnlyChanges [.acc, .host, .sys] s t)
    ∧ (1 ≤ words.length → words.length ≤ 63 → addr.toNat % 4 ≠ 0 ∨ inStore addr.toNat = true ∨ inRam addr.toNat = true →
      Runs (.hostWrite q addr words) s fun t =>
        Replied t { status := 1, idx := 0 } ∧ OnlyChanges [.acc, .host] s t)

/-- ENUM gives an unassigned device its address; frames for others go on; links come and go.
ENUM with an address up to 63, received by a device without one, is answered with status 0, the two UID words and the
identification word, and the device has that address. FRAME_FORWARD of a frame with a good CRC-32 puts it in the outgoing queue
of PA where it came from PB, and of PB where it came from PA for a device above the own address with the link up. LINK_UP of an
enabled port sets its link; LINKDN of a link that is up drops it and notes the event. Each with its frame.
Rests on R501, R511, R512, R525, 18_host_chain.md. -/
def Obligations.ChainTakesAnAddressAndForwards : Prop :=
  (∀ (q : Req) (addr : Byte) (s : State), Heard s q tENUM [addr] → typeBar q tENUM false = none → addr.toNat ≤ 63 → s.host.addr = none →
      Runs (.enum q addr) s fun t =>
        Replied t { status := 0, data := [s.wr.uid0, s.wr.uid1, 0x906400C0] } ∧ t.host.addr = some addr
          ∧ OnlyChanges [.acc, .host] s t)
    ∧ (∀ (frame : List Byte) (s : State), s.sys.keeperUp = true → bitOf (hcCfg s) 18 = true → frameCrcOk frame = true →
      frame.getD 0 0 ≠ 0xFC →
      Runs (.frameForward .pb frame) s fun t => t.host = { s.host with outPaq := s.host.outPaq ++ [frame] } ∧ OnlyChanges [.host] s t)
    ∧ (∀ (frame : List Byte) (s : State), s.sys.keeperUp = true → bitOf (hcCfg s) 17 = true → frameCrcOk frame = true →
      forMe s (frameReq frame) = false → goesOn s (frameReq frame) = true → pbOpen s = true →
      Runs (.frameForward .pa frame) s fun t => t.host = { s.host with outPbq := s.host.outPbq ++ [frame] } ∧ OnlyChanges [.host] s t)
    ∧ (∀ (port : Port) (s : State), s.sys.csReset = false → bitOf (hcCfg s) (17 + portNo port) = true →
      Runs (.linkUp port) s fun t => linkIsUp t port = true ∧ OnlyChanges [.host] s t)
    ∧ (∀ (port : Port) (s : State), linkIsUp s port = true →
      Runs (.linkDn port) s fun t => linkIsUp t port = false ∧ bitOf t.host.evt 4 = true ∧ OnlyChanges (traced [.host]) s t)

/-- SPI: a whole frame joins the queue of four, any other is discarded; responses come out oldest first.
With the SPI on: SPI_SEND of a complete frame of at least 12 bytes joins the end of a request queue that holds fewer than four
and clears the discard bit; any other frame is discarded, which the discard bit shows. SPI_RECV gives LEN and the bytes of the
oldest held response and removes it, or LEN 0 where none is held. SPI_STATUS gives the three status bits and changes nothing but
the answer.
Rests on R510, 18_host_chain.md. -/
def Obligations.SpiQueuesFourRequestsAndFourResponses : Prop :=
  ∀ s : State, spiOn s = true →
    (∀ (frame : List Byte) (complete : Bool),
      Runs (.spiSend frame complete) s fun t =>
        (complete = true → 12 ≤ frame.length → s.host.reqs.length < 4 → t.host = { s.host with reqs := s.host.reqs ++ [frame], spiDisc := false })
          ∧ (complete = false ∨ frame.length < 12 ∨ 4 ≤ s.host.reqs.length → t.host = { s.host with spiDisc := true })
          ∧ OnlyChanges [.host] s t)
    ∧ (∀ (f : List Byte) (fs : List (List Byte)), s.host.resps = f :: fs →
      Runs .spiRecv s fun t =>
        Answered t 0 (wd (ofLe ((f.drop 6).take 2)) :: f.map fun b => b.setWidth 32) ∧ t.host = { s.host with resps := fs }
          ∧ OnlyChanges [.acc, .host] s t)
    ∧ (s.host.resps = [] → Runs .spiRecv s fun t => Answered t 0 [0] ∧ OnlyChanges [.acc] s t)
    ∧ (Runs .spiStatus s fun t =>
        let w := t.acc.data.headD 0;
        (Answered t 0 [w] ∧ (bitOf w 2 = s.host.spiDisc) ∧ (bitOf w 1 = decide (4 ≤ s.host.reqs.length))
          ∧ (bitOf w 0 = !s.host.resps.isEmpty) ∧ fld w 31 3 = 0) ∧ OnlyChanges [.acc] s t)

/-- A lockstep mismatch restarts the Keeper; its load decides what is deferred and shed.
KLOCK with the Keeper up and not restarting begins a restart: it is counted, requests in flight are gone, SYS_RSTCAUSE has bit
6. KEEPER_RESTART_COMPLETE ends it. KEEPER_LOAD_UPDATE a millisecond after the last sets U of at most 100 and its peak; class 3
is deferred above 90 % and served again at 80 %, class 2 is shed above 98 % and served again at 95 %. A read of KP_LOAD gives
peak and U and re-arms the peak. Each with its frame.
Rests on R515, R516, R526, R529, 18_host_chain.md. -/
def Obligations.KeeperRestartsAndShedsByItsLoad : Prop :=
  (∀ s : State, s.sys.keeperUp = true → s.kp.restarting = false →
      Runs .klock s fun t =>
        t.kp.restarting = true ∧ t.kp.restarts = s.kp.restarts + 1 ∧ t.kp.queue = [] ∧ t.host.reqs = []
          ∧ t.sys = { s.sys with rstCause := orBit s.sys.rstCause 6, sysEvt := t.sys.sysEvt } ∧ bitOf t.kp.evt 1 = true ∧ OnlyChanges (traced [.sys, .host, .kp]) s t)
    ∧ (∀ s : State, s.kp.restarting = true →
      Runs .keeperRestartComplete s fun t => t.kp = { s.kp with restarting := false } ∧ OnlyChanges [.kp] s t)
    ∧ (∀ (u : Nat) (s : State), s.sys.keeperUp = true → s.kp.restarting = false →
      Runs (.keeperLoadUpdate u) s fun t =>
        t.now = max s.now (s.kp.loadAt + msec) ∧ t.kp.loadAt = t.now ∧ t.kp.u = min 100 u ∧ t.kp.peak = max s.kp.peak (min 100 u)
          ∧ (90 < u → t.kp.defer3 = true) ∧ (u ≤ 80 → t.kp.defer3 = false) ∧ (80 < u → u ≤ 90 → t.kp.defer3 = s.kp.defer3)
          ∧ (98 < u → t.kp.shed2 = true) ∧ (u ≤ 95 → t.kp.shed2 = false) ∧ (95 < u → u ≤ 98 → t.kp.shed2 = s.kp.shed2)
          ∧ (98 < u → s.kp.shed2 = false → bitOf t.kp.evt 2 = true) ∧ OnlyChanges (traced [.now, .kp]) s t)
    ∧ (∀ s : State, ReadOpen s .cs →
      Runs .kpLoadRead s fun t =>
        Answered t 0 [wd (s.kp.peak * 65536 + s.kp.u)] ∧ t.kp = { s.kp with peak := s.kp.u } ∧ OnlyChanges [.acc, .kp] s t)

/-- LOG_READ answers the records held or waits its turn; a SAFE_FRAME goes unchanged to the Watch Room.
LOG_READ of 1 to 7 records, received and not barred, with class 3 served, answers status 0, the lowest index held and the eight
words of each record held from the first one on, which are the words of the log where no stored word is in error; deferred, it
joins the end of the queue and nothing is answered. DEFERRED_REQUEST_SERVE, with the Keeper up, not restarting and class 3
served, takes the oldest deferred request off the queue and answers it the same way; a request of the SPI waits while four
responses are held. SAFE_FRAME, received and not barred, is last among the frames that wait for the next evaluation of the Watch
Room, as it came. Each with its frame.
Rests on R508, R516, R521, R347, R368, 18_host_chain.md. -/
def Obligations.FaultLogAndSafetyFramesAreServed : Prop :=
  ∀ s : State,
    let records := fun (first count : Nat) =>
      (List.range (min s.nv.logNext (first + count) - max first (logLowest s))).flatMap fun k =>
        (List.range 8).map fun j => memWord s.mem (logAddr (max first (logLowest s) + k) + 4 * j);
    let served := fun (t : State) (first count : Nat) =>
      ∃ ws : List Word, Replied t { status := 0, data := wd (logLowest s) :: ws } ∧ (s.nv.flips = [] → ws = records first count)
        ∧ ws.length = 8 * (min s.nv.logNext (first + count) - max first (logLowest s));
    (∀ (q : Req) (first count : Word),
      Heard s q tCMD (cmdPay 0x40 (leBytes 4 first.toNat ++ leBytes 4 count.toNat)) → logBar q s = none →
      (s.kp.defer3 = false → 1 ≤ count.toNat → count.toNat ≤ 7 →
        Runs (.logRead q first count) s fun t => served t first.toNat count.toNat ∧ t.kp.queue = s.kp.queue ∧ OnlyChanges (traced [.acc, .host, .kp]) s t)
      ∧ (s.kp.defer3 = true →
        Runs (.logRead q first count) s fun t =>
          t.kp = { s.kp with queue := s.kp.queue ++ [⟨q, first, count⟩] } ∧ OnlyChanges [.host, .kp] s t))
    ∧ (∀ (d : Deferred) (ds : List Deferred), s.kp.queue = d :: ds → s.kp.defer3 = false → s.kp.restarting = false → s.sys.keeperUp = true →
      ((d.req.stream == .spi && decide (4 ≤ s.host.resps.length)) = false → 1 ≤ d.count.toNat → d.count.toNat ≤ 7 →
        Runs .deferredRequestServe s fun t =>
          t.kp.queue = ds ∧ served t d.first.toNat d.count.toNat ∧ OnlyChanges (traced [.acc, .host, .kp]) s t)
      ∧ ((d.req.stream == .spi && decide (4 ≤ s.host.resps.length)) = true → Runs .deferredRequestServe s fun t => t = s))
    ∧ (∀ (q : Req) (frame : List Byte), Commanded s q 0x30 frame false false 1 →
      Runs (.safeFrame q frame) s fun t =>
        t.wr = { s.wr with frames := s.wr.frames ++ [⟨frame, .host q⟩] } ∧ OnlyChanges [.wr, .host] s t)

/-- The slot that does not run is written, checked, and after a good check activated on trial.
IMG_WRITE of 4 to 240 bytes inside the spare slot, received, not barred, with a store that takes writes (supplied, no word worn
out), stores those bytes there, changes no other byte of memory and withdraws an earlier check. IMG_CHECK answers status 0 or
the cause of the first failing check of that slot and remembers which. IMG_ACTIVATE, such a store given, of the spare slot after
a good check makes it PREFER with TRIAL 1 and ATTEMPTED 0, the floor as it was; without a good check it is refused with UCODE 3.
SLOT_CHECK is done once. Each with its frame.
Rests on R38, R56, R58, R61, 02_configuration_image.md. -/
def Obligations.SpareSlotIsWrittenCheckedAndActivated : Prop :=
  (∀ (q : Req) (offset : Word) (data : List Byte) (s : State), Inv s → Commanded s q 0x10 (leBytes 4 offset.toNat ++ data) false true 2 →
      1 ≤ data.length → data.length ≤ 240 → data.length % 4 = 0 → offset.toNat + data.length ≤ slotSize →
      s.sup.csOk.getLsbD 2 = true → s.nv.worn = [] →
      Runs (.imgWrite q offset data) s fun t =>
        let a := slotBase (spareSlot s) + offset.toNat;
        Replied t okAns ∧ (∀ i < data.length, memGet t.mem (a + i) = data.getD i 0)
          ∧ (∀ x, x < a ∨ a + data.length ≤ x → memGet t.mem x = memGet s.mem x)
          ∧ t.im = { s.im with checked := s.im.checked.set (spareSlot s) false } ∧ OnlyChanges [.mem, .acc, .nv, .im, .host] s t)
    ∧ (∀ (q : Req) (s : State), Commanded s q 0x11 [] false true 2 →
      Runs (.imgCheck q) s fun t =>
        ∃ u, OnlyChanges [.host] s u ∧ (let c := (verifySlot u (spareSlot s)).2.1;
          Replied t (if c = 0 then okAns else { status := 4, ucode := 6, data := [wd c] })
            ∧ t.im.checked = s.im.checked.set (spareSlot s) (c == 0)) ∧ OnlyChanges (traced [.acc, .im, .host]) s t)
    ∧ (∀ (q : Req) (slot : Word) (s : State), Commanded s q 0x12 (leBytes 4 slot.toNat) false true 2 → s.sup.csOk.getLsbD 2 = true → s.nv.worn = [] →
      (slot.toNat = spareSlot s → s.im.checked.getD slot.toNat false = true →
        Runs (.imgActivate q slot) s fun t =>
          Replied t okAns ∧ (bootNow t).boot = { (bootNow s).boot with prefer := slot.toNat == 1, trial := true, attempted := false }
            ∧ (bootNow t).keys = (bootNow s).keys ∧ OnlyChanges [.acc, .nv, .host] s t)
      ∧ (slot.toNat ≠ spareSlot s ∨ s.im.checked.getD slot.toNat false = false →
        Runs (.imgActivate q slot) s fun t => Replied t (refuseAns 3) ∧ OnlyChanges [.acc, .host] s t))
    ∧ (∀ s : State, s.kp.slotDue = true → s.sys.ready = true → s.kp.defer3 = false → s.kp.restarting = false → s.img.runslot ≠ 3 →
      Runs .slotCheck s fun t =>
        t.kp.slotDue = false ∧ (spareSlot s = 1 → fld t.im.slotStat 15 0 = fld s.im.slotStat 15 0) ∧ OnlyChanges (traced [.im, .kp]) s t)

/-- STG_WRITE fills the buffer; STG_APPLY takes a verified package as a whole; its items are then loaded.
STG_WRITE of 1 to 240 bytes inside the 256 KiB buffer, received and not barred, stores them there. STG_APPLY clears the buffer;
of a package that fails a check it changes nothing else of image management but the last cause and its detail and answers UCODE
6 with the cause; a package that passes, none of whose pages is refused, is answered with status 0, and its pages and blocks
wait to be written. STAGE_LOAD_COMPLETE of a waiting CS page puts its bytes at its place in the CS Light List RAM and takes the
item off. Each with its frame.
Rests on R62, R63, R64, R508, 02_configuration_image.md. -/
def Obligations.StagePackageIsBufferedVerifiedAndLoaded : Prop :=
  (∀ (q : Req) (offset : Word) (data : List Byte) (s : State), Commanded s q 0x18 (leBytes 4 offset.toNat ++ data) false false 2 →
      1 ≤ data.length → data.length ≤ 240 → offset.toNat + data.length ≤ stageSize →
      Runs (.stgWrite q offset data) s fun t =>
        Replied t okAns ∧ t.im = { s.im with stageBuf := memPutBytes s.im.stageBuf offset.toNat data } ∧ OnlyChanges [.acc, .im, .host] s t)
    ∧ (∀ (q : Req) (s : State), Commanded s q 0x19 [] false false 2 →
      Runs (.stgApply q) s fun t =>
        t.im.stageBuf = [] ∧ (∃ u, OnlyChanges [.host, .im] s u ∧ u.im = { s.im with stageBuf := [] }
          ∧ (∀ c d, verify u true stageSize (stageBytes s) = some (c, d) →
            Replied t { status := 4, ucode := 6, data := [wd c] } ∧ t.im = { u.im with lastCause := c, err := wd d })
          ∧ (verify u true stageSize (stageBytes s) = none → (∀ p ∈ imPages (stageBytes s), stageRef u p = none) →
            Replied t okAns ∧ t.im = { u.im with staging := u.im.staging || !(stageItems (stageBytes s)).isEmpty, items := u.im.items ++ stageItems (stageBytes s) })) ∧ OnlyChanges (traced [.acc, .im, .host, .ckCs, .ckDs]) s t)
    ∧ (∀ (item : Nat) (h : PageHdr) (bs : List Byte) (s : State), s.im.items[item]? = some (.page h bs) → h.die = .cs →
      s.kp.restarting = false → 2 ≤ s.im.items.length →
      Runs (.stageLoadComplete item) s fun t =>
        t.mem = memPutBytes s.mem (itemRange s (.page h bs)).1 bs ∧ t.im = { s.im with items := s.im.items.eraseIdx item }
          ∧ h ∈ t.img.pages ∧ t.img.recs = s.img.recs ∧ OnlyChanges [.mem, .img, .im, .ctrs, .lhCs, .lhDs, .engCs, .engDs, .ckCs, .ckDs, .log] s t)

/-- The first key needs no signature; later key changes and sealing need that of an ACTIVE IMAGE key.
Received and not barred, with traction inhibited or the outputs off, and a store that takes writes: KEY_ENROL into an EMPTY
entry 0 to 3, unsigned where no key is enrolled and else signed by an ACTIVE IMAGE key, answers status 0, makes the entry ACTIVE
with its roles and key and, where it was signed, takes the new nonce. KEY_REVOKE signed so, with keys of both roles left beside
its entry, answers status 0, makes the entry REVOKED and takes the new nonce. Without that signature both are refused with UCODE
5, and without those conditions of time or entry with UCODE 2, and no key changes. SEAL_FOR_RETURN under the conditions of a
restart and signed so seals the device: no keys, no safety-frame key, both slots and the staging buffer erased. Unsigned it is
refused with UCODE 5 and seals nothing. Each with its frame.
Rests on R39, R40, R54, R508, R509, R522, 02_configuration_image.md, 18_host_chain.md. -/
def Obligations.KeysChangeOnlyBySignedCommands : Prop :=
  ∀ (q : Req) (sig : List Byte) (nonce : Word) (s : State), sig.length = 64 →
    let ks := (bootNow s).keys;
    let stores := s.sup.csOk.getLsbD 2 = true ∧ s.nv.worn = [];
    let kept := fun (t : State) (u : Nat) => Replied t (refuseAns u) ∧ t.host.cnonce = s.host.cnonce ∧ OnlyChanges [.acc, .host] s t;
    (∀ (entry roles signer resv : Byte) (xy : List Byte), Commanded s q 0x20 ([entry, roles, signer, resv] ++ xy ++ sig) false true 2 → xy.length = 64 →
      let first := ks.all fun k => k.state == 0;
      let signed := signedOk s 0x20 ([entry, roles, signer, resv] ++ xy) signer.toNat sig;
      (keyTime s = true → first = true ∨ signed = true → entry.toNat ≤ 3 → (nth ks entry.toNat).state = 0 → stores →
        Runs (.keyEnrol q entry roles signer resv xy sig nonce) s fun t =>
          Replied t okAns ∧ (bootNow t).keys = ks.set entry.toNat ⟨1, roles.setWidth 3, xy⟩ ∧ (bootNow t).boot = (bootNow s).boot
            ∧ t.host.cnonce = (if first then s.host.cnonce else nonce) ∧ OnlyChanges [.acc, .nv, .host] s t)
      ∧ (keyTime s = true → first = false → signed = false →
        Runs (.keyEnrol q entry roles signer resv xy sig nonce) s fun t => kept t 5)
      ∧ (keyTime s = false ∨ ((first = true ∨ signed = true) ∧ (3 < entry.toNat ∨ (nth ks entry.toNat).state ≠ 0)) →
        Runs (.keyEnrol q entry roles signer resv xy sig nonce) s fun t => kept t 2))
    ∧ (∀ (entry signer : Byte) (resv : List Byte),
      Commanded s q 0x21 ([entry] ++ resv.take 3 ++ [signer] ++ resv.drop 3 ++ sig) false true 2 → resv.length = 6 →
      let signed := signedOk s 0x21 ([entry] ++ resv.take 3 ++ [signer] ++ resv.drop 3) signer.toNat sig;
      let left := keyRemains s entry.toNat 0 = true ∧ keyRemains s entry.toNat 1 = true;
      (keyTime s = true → signed = true → entry.toNat ≤ 3 → left → stores →
        Runs (.keyRevoke q entry signer resv sig nonce) s fun t =>
          Replied t okAns ∧ (bootNow t).keys = ks.modify entry.toNat (fun k => { k with state := 2 }) ∧ (bootNow t).boot = (bootNow s).boot
            ∧ t.host.cnonce = nonce ∧ OnlyChanges [.acc, .nv, .host] s t)
      ∧ (keyTime s = true → signed = false → Runs (.keyRevoke q entry signer resv sig nonce) s fun t => kept t 5)
      ∧ (keyTime s = false ∨ (signed = true ∧ (3 < entry.toNat ∨ ¬ left)) →
        Runs (.keyRevoke q entry signer resv sig nonce) s fun t => kept t 2))
    ∧ (∀ (signer : Byte) (resv : List Byte), Commanded s q 0x41 ([signer] ++ resv ++ sig) false false 2 → resv.length = 3 → restartOk s = true →
      (signedOk s 0x41 ([signer] ++ resv) signer.toNat sig = true → Inv s → stores →
        Runs (.sealForReturn q signer resv sig nonce) s fun t =>
          Replied t okAns ∧ (bootNow t).boot.isSealed = true ∧ (bootNow t).keys = List.replicate 4 {} ∧ t.wr.key = none
            ∧ t.wr.keyset = false ∧ t.im.stageBuf = [] ∧ t.host.cnonce = nonce
            ∧ (∀ a, slotBase 0 ≤ a → a < slotBase 1 + slotSize → memGet t.mem a = 0) ∧ OnlyChanges (traced [.mem, .acc, .nv, .im, .wr, .host]) s t)
      ∧ (signedOk s 0x41 ([signer] ++ resv) signer.toNat sig = false →
        Runs (.sealForReturn q signer resv sig nonce) s fun t => kept t 5))

/-- Check-value scans start when due or asked; a result is shown, learned or compared.
A background scan of an idle BACKGROUND channel starts at its due time, its period after the last. CK_CTRL.START starts a scan
of an idle HOST channel. A write of CK_EXP sets the expected value and ends HOLDCMP where AUTOEXP is 0. SCAN_COMPLETE of a range
in RAM shows the CRC-32 of its bytes and counts the scan; without AUTOEXP and HOLDCMP it sets MISMATCH exactly where the result
is not the expected value; with AUTOEXP not yet learned it learns the result; an uncorrectable word ends the scan with no
result. Every other channel stays as it was.
Rests on R518, R519, R520, R523, R528, 18_host_chain.md. -/
def Obligations.CheckScansStartCompareAndLearn : Prop :=
  ∀ (die : Die) (ch : Fin 8) (s : State), Inv s → ch.val < ckCount die →
    (let due := (nth (s.cks die) ch.val).bgAt + fld (ckW s die ch.val 4) 31 16 * msec;
      (ckRec s die ch.val).isSome = true → ckMode s die ch.val = 1 → s.runs die = true → (nth (s.cks die) ch.val).running = false →
      Runs (.checkScanBackgroundStart die ch) s fun t =>
        t.now = max s.now due ∧ t.cks die = upd (s.cks die) ch.val (fun x => { x with running := true, bgAt := due })
          ∧ OnlyChanges [.now, .ckCs, .ckDs] s t)
    ∧ (WriteOpen s die → ckMode s die ch.val = 3 → (nth (s.cks die) ch.val).running = false →
      Runs (.ckCtrlStart die ch) s fun t =>
        Answered t 0 [] ∧ t.cks die = upd (s.cks die) ch.val (fun x => { x with running := true }) ∧ OnlyChanges [.acc, .ckCs, .ckDs] s t)
    ∧ (∀ value : Word, WriteOpen s die →
      Runs (.ckExpWrite die ch value) s fun t =>
        Answered t 0 [] ∧ t.cks die = upd (s.cks die) ch.val (fun x => { x with exp := value, hold := x.hold && bitOf (ckW s die ch.val 0) 4 })
          ∧ OnlyChanges [.acc, .ckCs, .ckDs] s t)
    ∧ ((nth (s.cks die) ch.val).running = true → (ckRec s die ch.val).isSome = true →
      (let r := crc32 (memGetBytes s.mem (ckW s die ch.val 1).toNat (fld (ckW s die ch.val 2) 24 0));
        let x := nth (s.cks die) ch.val;
        (ckW s die ch.val 1).toNat < storeBase →
        Runs (.scanComplete die ch none) s fun t =>
          let y := nth (t.cks die) ch.val;
          y.res = r ∧ y.done = x.done + 1 ∧ y.has = true ∧ y.running = false
            ∧ (bitOf (ckW s die ch.val 0) 4 = false → x.hold = false → y.exp = x.exp ∧ (y.mismatch = true ↔ r ≠ x.exp))
            ∧ (bitOf (ckW s die ch.val 0) 4 = true → x.learnt = false → y.exp = r ∧ y.mismatch = false ∧ y.hold = false)
            ∧ (∀ k, k ≠ ch.val → nth (t.cks die) k = nth (s.cks die) k) ∧ OnlyChanges (traced [.ckCs, .ckDs]) s t)
      ∧ (∀ w : Word, (ckW s die ch.val 1).toNat < storeBase →
        Runs (.scanComplete die ch (some w)) s fun t =>
          (nth (t.cks die) ch.val).running = false ∧ (nth (t.cks die) ch.val).res = (nth (s.cks die) ch.val).res
            ∧ bitOf (nth (t.cks die) ch.val).evt 2 = true ∧ OnlyChanges (traced [.ckCs, .ckDs]) s t))

/-- INPUT_RESOLVED gives an input its level; where one level is the fault side only the other resolves.
INPUT_RESOLVED of a contactor's feedback gives that contactor its level, leaves it UNRESOLVED only on its fault side, closed,
and changes no other; of an encoder or hall line it resolves that line and no other of its channel; of a pre-driver's bootstrap,
of the bridge supply and of a CAN receive line the good level resolves it and the other level changes nothing at all; of an SSI
data line or a tooth sensor it sets that line of its channel. Of a comparator it is its raw level, and the side away from the
threshold resolves it from step 9 or page 0 on. RESET_N resolves high and ends the reset; WAKE resolves low; the other level of
both changes nothing. Each with its frame.
Rests on R320, R365, R434, R478, R540, 11_leg_protection.md, 15_gearbox_actuators.md. -/
def Obligations.InputsLeaveTheirUnresolvedState : Prop :=
  (∀ (n : Fin 6) (level : Bool) (s : State),
      Runs (.inputResolved (.contactor n) level) s fun t =>
        t.wr = { s.wr with ct := upd s.wr.ct n.val fun x => { x with unres := x.unres && level != cfPol s n.val, level := level } } ∧ OnlyChanges [.wr] s t)
    ∧ (∀ (g : Fin 8) (s : State),
      (Runs (.inputResolved (.bootstrap g) true) s fun t =>
        t.gd = upd s.gd g.val (fun x => { x with uvUnres := false, uv := false }) ∧ OnlyChanges [.gd] s t)
      ∧ Runs (.inputResolved (.bootstrap g) false) s fun t => t = s)
    ∧ (∀ s : State,
      (Runs (.inputResolved .bridge true) s fun t => t.bridgeUnres = false ∧ t.bridgeBad = false ∧ OnlyChanges [.bridgeUnres, .bridgeBad] s t)
      ∧ Runs (.inputResolved .bridge false) s fun t => t = s)
    ∧ (∀ (n : Fin 3) (s : State),
      (Runs (.inputResolved (.canRx n) true) s fun t =>
        t.can = upd s.can n.val (fun x => { x with rxUnres := false }) ∧ OnlyChanges [.can] s t)
      ∧ Runs (.inputResolved (.canRx n) false) s fun t => t = s)
    ∧ (∀ (line : Fin 3) (level : Bool) (s : State), Inv s →
      (∀ ch : Fin 4, Runs (.inputResolved (.encLine ch line) level) s fun t =>
        (nth t.fb (2 + ch.val)).unresLines = (nth s.fb (2 + ch.val)).unresLines &&& ~~~(1#3 <<< line.val)
          ∧ (nth t.fb (2 + ch.val)).lines.getLsbD line.val = level ∧ (∀ k, k ≠ 2 + ch.val → nth t.fb k = nth s.fb k) ∧ OnlyChanges (traced [.fb, .beamsCs, .beamsDs, .lhCs, .lhDs, .pwmCs, .pwmDs, .mach, .prot, .temp, .lamp]) s t)
      ∧ ∀ g : Fin 2, Runs (.inputResolved (.hall g line) level) s fun t =>
        (nth t.fb (10 + g.val)).unresLines = (nth s.fb (10 + g.val)).unresLines &&& ~~~(1#3 <<< line.val)
          ∧ (nth t.fb (10 + g.val)).lines.getLsbD line.val = level ∧ (∀ k, k ≠ 10 + g.val → nth t.fb k = nth s.fb k) ∧ OnlyChanges (traced [.fb, .beamsCs, .beamsDs, .lhCs, .lhDs, .pwmCs, .pwmDs, .mach, .prot, .gact, .temp, .lamp]) s t)
    ∧ (∀ (ch : Fin 2) (level : Bool) (s : State),
      (Runs (.inputResolved (.ssi ch) level) s fun t =>
        t.fb = upd s.fb (8 + ch.val) (fun f => { f with
          unresLines := f.unresLines &&& ~~~1#3, lines := if level then f.lines ||| 1#3 else f.lines &&& ~~~1#3 }) ∧ OnlyChanges [.fb] s t)
      ∧ Runs (.inputResolved (.tooth ch) level) s fun t =>
        t.fb = upd s.fb (6 + ch.val) (fun f => { f with
          unresLines := f.unresLines &&& ~~~1#3, lines := if level then f.lines ||| 1#3 else f.lines &&& ~~~1#3 }) ∧ OnlyChanges [.fb] s t)
    ∧ (∀ (c : Comp) (asserted : Bool) (s : State), Inv s →
      Runs (.inputResolved (.comparator c) asserted) s fun t =>
        (compSt t c).raw = asserted
          ∧ (compSt t c).unres = ((compSt s c).unres && (asserted || !(decide (9 ≤ s.sys.step) || s.sys.dsReady))) ∧ OnlyChanges (traced [.lhCs, .lhDs, .pwmCs, .pwmDs, .candle, .legs, .prot, .conv, .temp, .lamp]) s t)
    ∧ (∀ s : State,
      (s.sys.resetUnres = true → s.sys.csReset = true → s.sys.asleep = false → (∀ k < 8, s.sup.csOk.getLsbD k = true) →
        Runs (.inputResolved .resetN true) s fun t =>
          t.sys.csReset = false ∧ t.sys.resetUnres = false ∧ t.sys.resetLow = false ∧ t.sys.step = 1 ∧ t.sys.stepStart = s.now ∧ OnlyChanges [.sys] s t)
      ∧ Runs (.inputResolved .resetN false) s fun t => t = s)
    ∧ (∀ s : State,
      (s.sys.wakeUnres = true → s.sys.asleep = false →
        Runs (.inputResolved .wake false) s fun t =>
          t.sys.wakePin = false ∧ t.sys.wakeUnres = false ∧ OnlyChanges [.sys] s t)
      ∧ Runs (.inputResolved .wake true) s fun t => t = s)

/-- A buoy takes values by its own source path alone; a host write to any other is refused with SRC.
A buoy whose record names one of the six sources takes values by exactly one path. BUOY_UPDATE by any other path changes
nothing. A host write of BY_WEXP to a buoy whose source is not HOST is refused with UCODE 0x10 (SRC), and nothing but the answer
changes.
Formalises R67. -/
def Obligations.EachBuoyHasOneSource : Prop :=
  (∀ (n : Nat) (s : State), bySrc s n ≤ 5 → ∃ p, pathOk s n p = true ∧ ∀ p', pathOk s n p' = true → p' = p)
    ∧ (∀ (b : Fin 512) (path : SrcPath) (m : Word) (e : Byte) (s : State), pathOk s b.val path = false →
      Runs (.buoyUpdate b path m e) s fun t => t = s)
    ∧ (∀ (b : Fin 512) (e : Byte) (s : State), WriteOpen s .cs → bySrc s b.val ≠ 3 →
      Runs (.byWexpWrite b e) s fun t => Refused t 0x10 ∧ OnlyChanges [.acc] s t)

/-- A value in range is admitted and becomes the output; one out of range is rejected; silence makes STALE.
BUOY_UPDATE by the buoy's path of a value that, moved to SCALE, lies in MIN to MAX, with no rate limit and no filter and not in
FAULT, is admitted: it is the last value and the output, the buoy is VALID and its timeout starts anew. A value out of range, or
one that saturates, is rejected: RANGE is noted, output and last value stay. A host write of BY_WEXP offers BY_WMANT at that
exponent in the same way. BUOY_TIMEOUT of a running buoy notes TIMEOUT at its due time and a VALID buoy is VALID no more. Every
other buoy stays as it was. Each with its frame.
Rests on R69, R70, R71, R72, R73, R76, 03_buoys.md. -/
def Obligations.BuoysAdmitRejectAndTimeOut : Prop :=
  ∀ (b : Fin 512) (s : State), Inv s → byOn s b.val = true →
    (∀ (path : SrcPath) (m : Word) (e : Byte), pathOk s b.val path = true →
      let x := rescale m.toInt (if pathExp path then e.toInt else byScale s b.val) (byScale s b.val);
      (-(2 ^ 31) ≤ x → x < 2 ^ 31 → byMin s b.val ≤ x → x ≤ byMax s b.val → byRate s b.val = 0 → byFilt s b.val = 0 → (nth s.buoys b.val).state ≠ 2 →
        Runs (.buoyUpdate b path m e) s fun t =>
          let y := nth t.buoys b.val;
          y.last = wi x ∧ y.out = wi x ∧ y.state = 0 ∧ y.admitted = true ∧ y.lastAt = s.now
            ∧ y.tmoAt = s.now + byTmo s b.val * byPeriod s b.val ∧ (∀ k, k ≠ b.val → nth t.buoys k = nth s.buoys k) ∧ OnlyChanges (traced [.buoys, .beamsCs, .beamsDs, .lhCs, .lhDs, .pwmCs, .pwmDs, .mach, .candle, .prot, .conv, .ac, .gact, .temp, .lamp]) s t)
      ∧ (x < byMin s b.val ∨ byMax s b.val < x ∨ x < -(2 ^ 31) ∨ 2 ^ 31 ≤ x →
        Runs (.buoyUpdate b path m e) s fun t =>
          let y := nth t.buoys b.val;
          let z := nth s.buoys b.val;
          y.lastViol = vRANGE ∧ y.last = z.last ∧ y.out = z.out ∧ y.lastAt = z.lastAt ∧ (y.state = z.state ∨ y.state = 2)
            ∧ (∀ k, k ≠ b.val → nth t.buoys k = nth s.buoys k) ∧ OnlyChanges (traced [.buoys, .beamsCs, .beamsDs, .lhCs, .lhDs, .pwmCs, .pwmDs, .mach, .candle, .prot, .conv, .ac, .gact, .temp, .lamp]) s t))
    ∧ (∀ e : Byte, WriteOpen s .cs → pathOk s b.val .host = true →
      let x := rescale (nth s.buoys b.val).wmant.toInt e.toInt (byScale s b.val);
      -(2 ^ 31) ≤ x → x < 2 ^ 31 → byMin s b.val ≤ x → x ≤ byMax s b.val → byRate s b.val = 0 → byFilt s b.val = 0 → (nth s.buoys b.val).state ≠ 2 →
      Runs (.byWexpWrite b e) s fun t =>
        Answered t 0 [] ∧ (nth t.buoys b.val).last = wi x ∧ (nth t.buoys b.val).out = wi x ∧ (nth t.buoys b.val).state = 0
          ∧ (∀ k, k ≠ b.val → nth t.buoys k = nth s.buoys k) ∧ OnlyChanges (traced [.acc, .buoys, .beamsCs, .beamsDs, .lhCs, .lhDs, .pwmCs, .pwmDs, .mach, .candle, .prot, .conv, .ac, .gact, .temp, .lamp]) s t)
    ∧ (s.runs (byHome s b.val) = true →
      Runs (.buoyTimeout b) s fun t =>
        t.now = max s.now (byDue s b.val) ∧ (nth t.buoys b.val).lastViol = vTIMEOUT
          ∧ (nth t.buoys b.val).tmoAt = byDue s b.val + byTmo s b.val * byPeriod s b.val
          ∧ ((nth s.buoys b.val).state = 0 → (nth t.buoys b.val).state = 1 ∨ (nth t.buoys b.val).state = 2)
          ∧ (nth t.buoys b.val).out = (nth s.buoys b.val).out ∧ (∀ k, k ≠ b.val → nth t.buoys k = nth s.buoys k) ∧ OnlyChanges (traced [.now, .buoys, .beamsCs, .beamsDs, .lhCs, .lhDs, .pwmCs, .pwmDs, .mach, .prot, .ac, .temp, .lamp]) s t)

/-- A mirrored copy not refreshed goes stale; a counter rolls into its next bin and is released at 0.
MIRROR_STALE of a mirrored buoy whose copy is not stale makes the copy stale, holding its value, four refresh intervals after
its last refresh at the earliest. WINDOW_BIN_ROLLOVER of a counter that exists takes its bins to the end of the current bin: one
that is not declared, or has something left to count, changes in nothing but its bins; a declared buoy counter with nothing left
lets a buoy in FAULT end it with its next admitted value. Each with its frame.
Rests on R77, R79, R81, R74, 03_buoys.md. -/
def Obligations.MirrorsGoStaleAndCountersRollOver : Prop :=
  (∀ (b : Fin 256) (s : State), byOn s b.val = true → byMirror s b.val = true → (nth s.buoys b.val).mstale = false →
      Runs (.mirrorStale b) s fun t =>
        t.now = max s.now ((nth s.buoys b.val).mAt + 4 * mirInterval s (byHome s b.val) * 80)
          ∧ t.buoys = upd s.buoys b.val (fun x => { x with mstale := true }) ∧ OnlyChanges (traced [.now, .buoys, .beamsCs, .beamsDs, .lhCs, .lhDs, .pwmCs, .pwmDs, .mach, .prot, .ac, .temp, .lamp]) s t)
    ∧ (∀ (k : CtrKey) (c : Ctr) (s : State), ctrOf s k = some c →
      let u := c.roll (max s.now (c.binAt + c.binLen));
      (u.releases = false →
        Runs (.windowBinRollover k) s fun t =>
          t.now = max s.now (c.binAt + c.binLen) ∧ t.ctrs = putCtr s.ctrs u ∧ OnlyChanges [.now, .ctrs] s t)
      ∧ (u.releases = true → Inv s → k.sub = 14 → (nth s.buoys (k.unit * 256 + k.elem)).state = 2 → k.unit * 256 + k.elem < 512 →
        Runs (.windowBinRollover k) s fun t =>
          t.now = max s.now (c.binAt + c.binLen) ∧ (nth t.buoys (k.unit * 256 + k.elem)).relWait = true
            ∧ (∀ j, j ≠ k.unit * 256 + k.elem → nth t.buoys j = nth s.buoys j) ∧ OnlyChanges (traced [.now, .buoys, .beamsCs, .beamsDs, .lhCs, .lhDs, .pwmCs, .pwmDs, .mach, .prot, .ac, .temp, .lamp]) s t))

/-- A quadrature step counts by one; an impossible step and a wire disagree make the position uncertain.
ENCODER_EDGE on a running encoder channel with lines A and B resolved and agreeing: without index and in WRAP one step along the
sequence moves the position by one in the direction the channel's DIR gives, in WRAP modulo the counts of a turn; the lines take
their levels and the time stamp is the edge's. A step in which both changed counts nothing, makes the position uncertain and
sets event bit 5. WIRE_LEVEL_CHANGE starts or ends the watch of a pair; WIREDIS sets the disagree flag and event bit 4, and for
A or B uncertain and speed status STALE. Every other channel stays as it was.
Rests on R91, R93, R94, R98, 04_position_speed.md. -/
def Obligations.EncodersCountQuadratureSteps : Prop :=
  ∀ (ch : Fin 4) (s : State), Inv s →
    let c := 2 + ch.val;
    let f := nth s.fb c;
    let other := fun (t : State) => ∀ k, k ≠ c → nth t.fb k = nth s.fb k;
    (∀ a b z : Bool, fbLive s c = true → encBad f = false →
      let old := 2 * b2n (f.lines.getLsbD 0) + b2n (f.lines.getLsbD 1);
      let k := quadCount old (2 * b2n a + b2n b);
      let n := if bitOf (fbCfg s c 2) 7 then -k else k;
      (k ≠ 0 → fld (fbCfg s c 2) 1 0 = 2 →
        Runs (.encoderEdge ch a b z) s fun t =>
          (nth t.fb c).pos = f.pos + wi n ∧ (nth t.fb c).lines = BitVec.ofNat 3 (b2n a + 2 * b2n b + 4 * b2n z)
            ∧ (nth t.fb c).tstamp = countAt s .cs (edgeTime s c) ∧ (nth t.fb c).dirNeg = decide (n < 0) ∧ other t ∧ OnlyChanges (traced [.fb, .beamsCs, .beamsDs, .lhCs, .lhDs, .pwmCs, .pwmDs, .mach, .prot, .gact, .temp, .lamp]) s t)
      ∧ (k ≠ 0 → fld (fbCfg s c 2) 1 0 = 3 → f.pos.toNat < max 1 (fbCounts s c) →
        Runs (.encoderEdge ch a b z) s fun t =>
          ((nth t.fb c).pos.toNat : Int) = ((f.pos.toNat : Int) + n) % ((max 1 (fbCounts s c) : Nat) : Int) ∧ other t ∧ OnlyChanges (traced [.fb, .beamsCs, .beamsDs, .lhCs, .lhDs, .pwmCs, .pwmDs, .mach, .prot, .gact, .temp, .lamp]) s t)
      ∧ (k = 0 → old ≠ 2 * b2n a + b2n b →
        Runs (.encoderEdge ch a b z) s fun t =>
          (nth t.fb c).pos = f.pos ∧ (nth t.fb c).uncertain = true ∧ bitOf (nth t.fb c).evt 5 = true ∧ other t ∧ OnlyChanges (traced [.fb, .beamsCs, .beamsDs, .lhCs, .lhDs, .pwmCs, .pwmDs, .mach, .prot, .gact, .temp, .lamp]) s t))
    ∧ (∀ (line : Fin 3) (level : Bool),
      Runs (.wireLevelChange ch line true level) s fun t =>
        (nth t.fb c).wdAct = f.wdAct ||| 1#3 <<< line.val ∧ (nth t.fb c).wdSince = f.wdSince.set line.val s.now ∧ other t ∧ OnlyChanges [.fb] s t)
    ∧ (∀ (line : Fin 3) (level : Bool),
      Runs (.wireLevelChange ch line false level) s fun t =>
        (nth t.fb c).wdAct = f.wdAct &&& ~~~(1#3 <<< line.val) ∧ (nth t.fb c).wdis = f.wdis &&& ~~~(1#3 <<< line.val) ∧ other t
          ∧ OnlyChanges (traced [.fb, .beamsCs, .beamsDs, .lhCs, .lhDs, .pwmCs, .pwmDs, .mach, .prot, .temp, .lamp]) s t)
    ∧ (∀ line : Fin 3, fbLive s c = true → f.wdAct.getLsbD line.val = true → f.wdis.getLsbD line.val = false →
      Runs (.wiredis ch line) s fun t =>
        t.now = max s.now (f.wdSince.getD line.val 0 + 40 * fld (fbCfg s c 2) 31 24 + 1) ∧ (nth t.fb c).wdis = f.wdis ||| 1#3 <<< line.val
          ∧ bitOf (nth t.fb c).evt 4 = true ∧ (line.val < 2 → (nth t.fb c).uncertain = true ∧ (nth t.fb c).spstat = 5) ∧ other t ∧ OnlyChanges (traced [.now, .fb, .beamsCs, .beamsDs, .lhCs, .lhDs, .pwmCs, .pwmDs, .mach, .prot, .temp, .lamp]) s t)

/-- ARM acts by the index mode, RESYNC returns a tooth wheel to SEARCH, rest and UNRESOLVED inputs are noted.
ARM of a configured encoder, writes being served, drops the reference in ALWAYS and ONCE and arms ONCE, loads the position in
NONE, and loads it modulo the counts of a turn in WRAP; the position is uncertain exactly while A or B is in trouble. RESYNC of
a configured tooth wheel drops reference and certainty. STANDSTILL of a running, healthy edge channel sets speed 0 and status 1.
UNRES of a running channel with unresolved inputs is counted at its due time and sets event bit 12. Every other channel stays as
it was.
Rests on R90, R94, R101, R105, 04_position_speed.md. -/
def Obligations.FeedbackChannelsArmResyncAndRest : Prop :=
  ∀ (ch : Fin 12) (s : State), Inv s →
    let c := ch.val;
    let f := nth s.fb c;
    let other := fun (t : State) => ∀ k, k ≠ c → nth t.fb k = nth s.fb k;
    (WriteOpen s .cs → 2 ≤ c → c ≤ 5 → fbOn s c = true →
      Runs (.arm ch) s fun t =>
        Answered t 0 [] ∧ (nth t.fb c).uncertain = encBad f
          ∧ (fld (fbCfg s c 2) 1 0 = 0 → (nth t.fb c).ref = false ∧ (nth t.fb c).pos = f.pos)
          ∧ (fld (fbCfg s c 2) 1 0 = 1 → (nth t.fb c).ref = false ∧ (nth t.fb c).armed = true ∧ (nth t.fb c).pos = f.pos)
          ∧ (fld (fbCfg s c 2) 1 0 = 2 → (nth t.fb c).pos = f.load)
          ∧ (fld (fbCfg s c 2) 1 0 = 3 → (nth t.fb c).pos.toNat = f.load.toNat % max 1 (fbCounts s c)) ∧ other t ∧ OnlyChanges (traced [.acc, .fb, .beamsCs, .beamsDs, .lhCs, .lhDs, .pwmCs, .pwmDs, .mach, .prot, .temp, .lamp]) s t)
    ∧ (WriteOpen s .cs → c = 6 ∨ c = 7 → fbOn s c = true →
      Runs (.resync ch) s fun t =>
        Answered t 0 [] ∧ nth t.fb c = { f with ref := false, uncertain := true } ∧ other t ∧ OnlyChanges (traced [.acc, .fb, .beamsCs, .beamsDs, .lhCs, .lhDs, .pwmCs, .pwmDs, .mach, .prot, .temp, .lamp]) s t)
    ∧ (fbLive s c = true → fbEdges c = true → fbUnres s c = 0 → f.wdis = 0 → f.hallInv = false → f.spstat ≠ 1 →
      Runs (.standstill ch) s fun t =>
        t.now = max s.now (max f.hist.lastAt (s.t0.getD 0) + fbStill s c) ∧ nth t.fb c = { f with spstat := 1, speed := 0 } ∧ other t
          ∧ OnlyChanges (traced [.now, .fb, .beamsCs, .beamsDs, .lhCs, .lhDs, .pwmCs, .pwmDs, .mach, .prot, .temp, .lamp]) s t)
    ∧ (fbLive s c = true → c ≠ 6 → c ≠ 7 → fbUnres s c ≠ 0 →
      let due := (if f.unresAt = 0 then s.t0.getD 0 else f.unresAt) + 10 * msec;
      Runs (.unres ch) s fun t =>
        t.now = max s.now due ∧ (nth t.fb c).unresAt = due ∧ bitOf (nth t.fb c).evt 12 = true ∧ other t ∧ OnlyChanges (traced [.now, .fb]) s t)

/-- A tooth counts by the direction, the gap counts the missing ones and synchronises; hall sectors count by one.
TOOTH_EDGE on a running, resolved tooth wheel that takes the edge for an ordinary tooth before synchronisation moves position
and index by one in the tooth's direction; one that ends the gap, before synchronisation or where the gap is expected, counts
the missing teeth too, synchronises the channel and puts the index at the gap. HALL_CODE_CHANGE on a running, resolved group to
a neighbouring sector moves the position by one and makes it certain; code 0 or 7 newly seen makes it uncertain, STALE, and sets
event bit 10. Every other channel stays as it was.
Rests on R103, R104, R105, R107, R108, 04_position_speed.md. -/
def Obligations.ToothWheelsAndHallGroupsCount : Prop :=
  (∀ (ch : Fin 2) (dirLevel : Bool) (s : State), Inv s →
      let c := 6 + ch.val;
      let f := nth s.fb c;
      let x := toothCase s c (edgeTime s c);
      let fwd := toothForward s c dirLevel;
      let teeth := max 1 (fbCounts s c);
      let gapm := fld (fbCfg s c 0) 21 20;
      let other := fun (t : State) => ∀ k, k ≠ c → nth t.fb k = nth s.fb k;
      fbLive s c = true → f.unresLines.getLsbD 0 = false → x.extra = false →
      (x.gap = false → f.ref = false → f.tooth.extra = false →
        Runs (.toothEdge ch dirLevel) s fun t =>
          (nth t.fb c).pos = (if fwd then f.pos + 1 else f.pos - 1) ∧ (nth t.fb c).tooth.index = toothNext teeth f.tooth.index fwd
            ∧ (nth t.fb c).tooth.lastT = edgeTime s c ∧ (nth t.fb c).ref = false ∧ other t ∧ OnlyChanges (traced [.fb, .beamsCs, .beamsDs, .lhCs, .lhDs, .pwmCs, .pwmDs, .mach, .prot, .gact, .temp, .lamp]) s t)
      ∧ (x.gap = true → fld (fbCfg s c 0) 16 16 = 0 → f.ref = false ∨ f.tooth.index = (if fwd then teeth - gapm - 1 else 0) →
        Runs (.toothEdge ch dirLevel) s fun t =>
          (nth t.fb c).pos = (if fwd then f.pos + wd (gapm + 1) else f.pos - wd (gapm + 1)) ∧ (nth t.fb c).ref = true
            ∧ (nth t.fb c).uncertain = false ∧ (nth t.fb c).tooth.index = (if fwd then 0 else teeth - gapm - 1) ∧ other t ∧ OnlyChanges (traced [.fb, .beamsCs, .beamsDs, .lhCs, .lhDs, .pwmCs, .pwmDs, .mach, .prot, .gact, .temp, .lamp]) s t))
    ∧ (∀ (g : Fin 2) (code : Fin 8) (s : State), Inv s →
      let c := 10 + g.val;
      let f := nth s.fb c;
      let d := (hallSector s c code.val + 6 - f.sector) % 6;
      let other := fun (t : State) => ∀ k, k ≠ c → nth t.fb k = nth s.fb k;
      fbLive s c = true → fbUnres s c = 0 →
      (code.val ≠ 0 → code.val ≠ 7 → f.restart = false → d = 1 ∨ d = 5 →
        Runs (.hallCodeChange g code) s fun t =>
          (nth t.fb c).pos = (if d = 1 then f.pos + 1 else f.pos - 1) ∧ (nth t.fb c).sector = hallSector s c code.val
            ∧ (nth t.fb c).hallCode = code.val ∧ (nth t.fb c).uncertain = false ∧ (nth t.fb c).hallInv = false ∧ other t ∧ OnlyChanges (traced [.fb, .beamsCs, .beamsDs, .lhCs, .lhDs, .pwmCs, .pwmDs, .mach, .prot, .gact, .temp, .lamp]) s t)
      ∧ (code.val = 0 ∨ code.val = 7 → f.hallInv = false →
        Runs (.hallCodeChange g code) s fun t =>
          (nth t.fb c).hallInv = true ∧ (nth t.fb c).uncertain = true ∧ (nth t.fb c).spstat = 5 ∧ (nth t.fb c).pos = f.pos
            ∧ bitOf (nth t.fb c).evt 10 = true ∧ other t ∧ OnlyChanges (traced [.fb, .beamsCs, .beamsDs, .lhCs, .lhDs, .pwmCs, .pwmDs, .mach, .prot, .gact, .temp, .lamp]) s t))

/-- Each microsecond speeds are recomputed; resolver and SSI samples give position, status and faults.
FEEDBACK_TICK after READY completes a microsecond after the last, moves no position and gives each running edge channel its
clamped speed. RESOLVER_UPDATE of a running resolver keeps the tracked speed within 2,500 turns/s; EXC is set exactly where the
excitation amplitude is off its calibration by more than EXCTOL % or no feedback period has ended for two excitation periods;
the position is uncertain and the status UNKNOWN or STALE by REF, AMP, EXC and LOT. SSI_REQUEST starts a frame, or notes SSIIDLE
where data is low or the pause too short; SSI_FRAME_COMPLETE of a running frame takes the field where the check is right, else
keeps the position, sets CHKFAIL and event bit 8.
Rests on R100, R110, R111, R112, R113, R114, R115, R116, 04_position_speed.md. -/
def Obligations.SensorsReportEveryPeriod : Prop :=
  (∀ s : State, s.sys.ready = true →
      let u := { s with now := max s.now ((if s.fbTick = 0 then s.t0.getD 0 else s.fbTick) + usec), fbTick := max s.now ((if s.fbTick = 0 then s.t0.getD 0 else s.fbTick) + usec) };
      Runs .feedbackTick s fun t =>
        t.now = u.now ∧ t.fbTick = u.now ∧ (∀ c, (nth t.fb c).pos = (nth s.fb c).pos)
          ∧ (∀ c < s.fb.length, c < 12 → fbOn s c = true → fbEdges c = true → (nth s.fb c).spstat = 0 →
            (nth t.fb c).speed = speedReg u c (speedClamp u c u.now (speedV u c u.now))) ∧ OnlyChanges (traced [.now, .buoys, .fb, .fbTick, .beamsCs, .beamsDs, .lhCs, .lhDs, .pwmCs, .pwmDs, .mach, .candle, .prot, .conv, .ac, .gact, .temp, .lamp]) s t)
    ∧ (∀ (ch : Fin 2) (sinD cosD excAmp : BitVec 16) (excSeen : Bool) (s : State), Inv s → fbLive s ch.val = true →
      Runs (.resolverUpdate ch sinD cosD excAmp excSeen) s fun t =>
        let y := nth t.fb ch.val;
        t.now = max s.now ((if (nth s.fb ch.val).hist.lastAt = 0 then s.t0.getD 0 else (nth s.fb ch.val).hist.lastAt) + usec)
          ∧ y.res.omega.natAbs ≤ 2500 * 2 ^ 32 ∧ y.exc = excBad t ch.val y.res excAmp
          ∧ y.res.excSeenAt = (if excSeen then t.now else (nth s.fb ch.val).res.excSeenAt)
          ∧ y.uncertain = (!y.ref || y.amp || y.exc || y.lot) ∧ y.spstat = (if y.ref then if y.amp || y.exc || y.lot then 5 else 0 else 4)
          ∧ y.angle = wd y.res.th ∧ (∀ k, k ≠ ch.val → nth t.fb k = nth s.fb k) ∧ OnlyChanges (traced [.now, .fb, .beamsCs, .beamsDs, .lhCs, .lhDs, .pwmCs, .pwmDs, .mach, .prot, .temp, .lamp]) s t)
    ∧ (∀ (ch : Fin 2) (s : State), Inv s → fbLive s (8 + ch.val) = true → fbUnres s (8 + ch.val) = 0 →
      let c := 8 + ch.val;
      let x := (nth s.fb c).ssi;
      let at_ := max s.now ((if x.reqAt = 0 then s.t0.getD 0 else x.reqAt) + 4 * fld (fbCfg s c 3) 23 0);
      (x.clkAt = 0 ∨ x.clkAt + fld (fbCfg s c 1) 31 24 * usec ≤ at_ →
        Runs (.ssiRequest ch true) s fun t =>
          t.now = at_ ∧ (nth t.fb c).ssi = { x with reqAt := at_, busy := true, clkAt := at_ + fld (fbCfg s c 0) 6 0 * ssiClk s c + ssiClk s c / 2 }
            ∧ OnlyChanges (traced [.now, .fb]) s t)
      ∧ Runs (.ssiRequest ch false) s fun t =>
          t.now = at_ ∧ (nth t.fb c).ssi = { x with reqAt := at_ } ∧ bitOf (nth t.fb c).evt 9 = true ∧ OnlyChanges (traced [.now, .fb]) s t)
    ∧ (∀ (ch : Fin 2) (bits : List Bool) (s : State), Inv s → fbLive s (8 + ch.val) = true → (nth s.fb (8 + ch.val)).ssi.busy = true →
      let c := 8 + ch.val;
      let bs := (List.range (fld (fbCfg s c 0) 6 0)).map fun i => bits.getD i false;
      ((ssiCheck s c bs).1 = (ssiCheck s c bs).2 →
        Runs (.ssiFrameComplete ch bits) s fun t =>
          (nth t.fb c).pos = wd (ssiField s c bs) ∧ (nth t.fb c).uncertain = false ∧ (nth t.fb c).chkFail = false ∧ (nth t.fb c).ssi.busy = false
            ∧ OnlyChanges (traced [.now, .buoys, .fb, .beamsCs, .beamsDs, .lhCs, .lhDs, .pwmCs, .pwmDs, .mach, .candle, .prot, .conv, .ac, .gact, .temp, .lamp]) s t)
      ∧ ((ssiCheck s c bs).1 ≠ (ssiCheck s c bs).2 →
        Runs (.ssiFrameComplete ch bits) s fun t =>
          (nth t.fb c).pos = (nth s.fb c).pos ∧ (nth t.fb c).chkFail = true ∧ (nth t.fb c).spstat = 5 ∧ (nth t.fb c).ssi.busy = false
            ∧ bitOf (nth t.fb c).evt 8 = true ∧ OnlyChanges (traced [.now, .buoys, .fb, .beamsCs, .beamsDs, .lhCs, .lhDs, .pwmCs, .pwmDs, .mach, .candle, .prot, .conv, .ac, .gact, .temp, .lamp]) s t))

/-- A source update sets the anchor, an old anchor moves on without a break, silence makes the beam stale.
BEAM_SOURCE_UPDATE of a running FEEDBACK beam with a new time stamp: the beam notes the update, and unless it is stale it stands
on an anchor of plus or minus the channel's angle times PP plus OFFSET, of the speed scaled alike and of the time stamp less
LATCOMP, and UPD advances; of a beam of another source it notes the update. BEAM_REANCHOR of a FREE or NETTIME beam whose last
update is 2^20 cycles back is such an update; of any other beam whose anchor is 2^20 cycles old it moves the anchor on by 2^20
cycles, its speed kept, and no other beam of the die changes. BEAM_STALE_TIMEOUT of a running timed beam with a STALETIME leaves
it stale, STALETIME after the last update at the earliest. Each with its frame.
Rests on R124, R125, R126, R127, R134, R573, 05_beams.md. -/
def Obligations.BeamsFollowTheirSources : Prop :=
  ∀ (beam : Fin 8) (s : State), Inv s →
    let b := beam.val;
    let d := bmHome s b;
    let m := nth (s.beams d) b;
    let f := nth s.fb (bmInst s b);
    bmOn s b = true → s.runs d = true →
    (bmSrc s b = 0 → m.adopted = false ∨ m.edgeT ≠ f.tstamp →
      Runs (.beamSourceUpdate beam) s fun t =>
        let y := nth (t.beams d) b;
        y.lastUpd = s.now ∧ y.adopted = true ∧ y.edgeT = f.tstamp
          ∧ (y.stale = false → y.a.p0 = fbPhase s b f.angle ∧ y.a.speed = fbSpeed s b f.speed
              ∧ y.a.t0 = f.tstamp - wi (bmLatcomp s b) ∧ y.upd = m.upd + 1)
          ∧ OnlyChanges (traced [.beamsCs, .beamsDs, .lhCs, .lhDs, .pwmCs, .pwmDs, .mach, .prot, .temp, .lamp]) s t)
    ∧ (bmSrc s b ≠ 0 →
      Runs (.beamSourceUpdate beam) s fun t =>
        (nth (t.beams d) b).lastUpd = s.now ∧ (nth (t.beams d) b).adopted = true ∧ OnlyChanges (traced [.beamsCs, .beamsDs, .lhCs, .lhDs, .pwmCs, .pwmDs, .mach, .prot, .temp, .lamp]) s t)
    ∧ (bmSrc s b = 2 ∨ bmSrc s b = 3 → m.lastUpd + 2 ^ 20 ≤ s.now →
      Runs (.beamReanchor beam) s fun t =>
        t.now = s.now ∧ (nth (t.beams d) b).lastUpd = s.now ∧ (nth (t.beams d) b).adopted = true ∧ OnlyChanges (traced [.now, .beamsCs, .beamsDs, .lhCs, .lhDs, .pwmCs, .pwmDs]) s t)
    ∧ (bmSrc s b ≠ 2 → bmSrc s b ≠ 3 → (2 ^ 20 : Int) ≤ sinceT0 s d m.a s.now →
      Runs (.beamReanchor beam) s fun t =>
        t.now = s.now ∧ (nth (t.beams d) b).a = anchorOn m.a ∧ (nth (t.beams d) b).a.speed = m.a.speed ∧ (nth (t.beams d) b).stale = m.stale
          ∧ (∀ k, k ≠ b → nth (t.beams d) k = nth (s.beams d) k) ∧ OnlyChanges (traced [.now, .beamsCs, .beamsDs, .lhCs, .lhDs, .pwmCs, .pwmDs]) s t)
    ∧ (bmTimed s b = true → bmStaletime s b ≠ 0 →
      Runs (.beamStaleTimeout beam) s fun t =>
        t.now = max s.now (m.lastUpd + bmStaletime s b * usec) ∧ (nth (t.beams d) b).stale = true ∧ OnlyChanges (traced [.now, .beamsCs, .beamsDs, .lhCs, .lhDs, .pwmCs, .pwmDs, .mach, .prot, .temp, .lamp]) s t)

/-- The mains loop updates each 10 µs inside its frequency band; a phase read latches the rest of the beam.
MAINS_PLL_UPDATE of a ready block with a MAINS beam runs 4,000 cycles after the last one (or after T0) at the earliest; in FORM
the frequency is the nominal one; in TRACK it stays within the record's band about it, and a locked loop has just had an update
inside the record's tolerance (its run of such updates is not 0). BMPHASE_READ, register access being served, answers the phase
of the cycle before, 0 of a beam that is not configured, and latches that cycle's speed, cycle count and status and the count of
the read itself; no other beam changes. Each with its frame.
Rests on R138, R139, R146, 05_beams.md. -/
def Obligations.MainsLoopHoldsItsBandAndReadsLatch : Prop :=
  (∀ (b : Nat) (s : State), mainsBeam s = some b → s.sys.ready = true →
      let q : Int := 2 ^ 32
      let nom : Int := mainsNom s b
      let band : Int := fld (bmW s b 6) 23 20
      Runs .mainsPllUpdate s fun t =>
        t.now = max s.now ((if s.mains.at10 = 0 then s.t0.getD 0 else s.mains.at10) + 4000) ∧ t.mains.at10 = t.now
          ∧ t.mains.form = s.mains.pendForm ∧ (s.mains.pendForm = true → t.mains.freq = nom * q)
          ∧ (s.mains.pendForm = false → (nom - band) * q ≤ t.mains.freq ∧ t.mains.freq ≤ (nom + band) * q)
          ∧ (t.mains.locked = true → t.mains.lockRun ≠ 0) ∧ OnlyChanges (traced [.now, .buoys, .beamsCs, .beamsDs, .mains, .lhCs, .lhDs, .pwmCs, .pwmDs, .mach, .candle, .prot, .conv, .ports, .ac, .gact, .temp, .lamp]) s t)
    ∧ (∀ (die : Die) (beam : Fin 8) (s : State), Inv s → ReadOpen s die →
      let b := beam.val;
      Runs (.bmphaseRead die beam) s fun t =>
        Answered t 0 [beamPhase (beamsCommitted s die) die b ((s.now : Int) - 1)]
          ∧ (bmOn s b = false → Answered t 0 [0])
          ∧ (nth (t.beams die) b).latSpeed = beamSpeed (beamsCommitted s die) die b ∧ (nth (t.beams die) b).latRdt = countAt s die s.now ∧ (nth (t.beams die) b).a = (nth (s.beams die) b).a
          ∧ (∀ k, k ≠ b → nth (t.beams die) k = nth (s.beams die) k) ∧ OnlyChanges [.acc, .beamsCs, .beamsDs, .mains, .net] s t)

/-- An entry that is not held back issues at its trigger, the page pointer moves on and the entry is in the window.
Each of the twenty rows of the Light List, on a running lane whose next entry is one of that row, which ORD, a FENCE and the
window do not hold back, whose trigger is known and comes neither before now nor before the entry before it, and which is not
entry 0 at a later page turn: the entry issues in its trigger cycle, the lane's pointer goes to the next entry or, past the
last, to 0 with one more pass, the sequence number advances by one and lateness is not noted. A NOP, or a FENCE that waits for
nothing, leaves the window as it was. Any other entry whose CHK is right and whose engine may be used is in the window with its
four words; one that needs no unit and is no FENCE is accepted in that cycle and retires its latency later. A wrong CHK sets
lane event 2, a bad engine lane event 3, and neither enters the window. Of another lane nothing changes but the note that its
page boundary has passed. With its frame.
Rests on R149, R150, R153, R154, R155, R156, R163, R167, 06_lighthouse.md. -/
def Obligations.EntriesIssueAtTheirTrigger : Prop :=
  ∀ (die : Die) (lane : Fin 4) (codes : List (BitVec 16)) (tr : Nat) (s : State), Inv s →
    let ln := nth (s.lh die).lanes lane.val;
    let e := nextEntry s die lane.val;
    let q := (s.lh die).seqn;
    let last := pageCount s die lane.val ln.page ≤ ln.ptr + 1;
    ∀ r ∈ ([(.nop die lane, oNOP, 0), (.sample die lane codes, oSAMPLE, 0), (.read die lane, oREAD, 0), (.move die lane, oMOVE,
        0), (.run die lane, oRUN, 0), (.load die lane, oLOAD, 0), (.write die lane, oWRITE, 0), (.blendRamp die lane, oBLEND,
        0), (.blendMix die lane, oBLEND, 1), (.limitRange die lane, oLIMIT, 0), (.limitSym die lane, oLIMIT, 1), (.commit die
        lane, oCOMMIT, 0), (.scan die lane, oSCAN, 0), (.snap die lane, oSNAP, 0), (.fenceAll die lane, oFENCE, 0),
        (.fenceData die lane, oFENCE, 1), (.fenceOut die lane, oFENCE, 2), (.mark die lane, oMARK, 0), (.signalKeeper die
        lane, oSIGNAL, 0), (.signalWatchRoom die lane, oSIGNAL, 1)] : List (Instr × Nat × Nat)),
    ln.run = true → lane.val < laneCount die → ln.drain = false → ln.merging = false → e.isRow r.2.1 r.2.2 = true →
    blocked s die lane.val e = false → laneTrigger s die lane.val = some tr → s.now ≤ tr → ln.predIssue ≤ tr → ln.issueN < 4 →
    (0 < ln.ptr ∨ ln.fresh = true) →
      Runs r.1 s fun t =>
        let y := nth (t.lh die).lanes lane.val;
        let idle := e.opcode = oNOP ∨ (e.opcode = oFENCE ∧ (awaited s die lane.val e.fn q).length = 0);
        t.now = tr ∧ (last → y.ptr = 0 ∧ y.passes = ln.passes + 1) ∧ (¬ last → y.ptr = ln.ptr + 1 ∧ y.passes = ln.passes)
          ∧ y.issueCyc = tr ∧ (t.lh die).seqn = q + 1 ∧ y.ovrCnt = ln.ovrCnt
          ∧ (e.chkOk = false → bitOf y.levt 2 = true ∧ (t.lh die).infl = (s.lh die).infl)
          ∧ (e.chkOk = true → engRefBad s die e = true → bitOf y.levt 3 = true ∧ (t.lh die).infl = (s.lh die).infl)
          ∧ (e.chkOk = true → engRefBad s die e = false → y.levt = ln.levt
            ∧ (idle → (t.lh die).infl = (s.lh die).infl)
            ∧ (¬ idle → ∃ x ∈ (t.lh die).infl, x.seqn = q ∧ x.lane = lane.val ∧ x.entry = e ∧ x.issueAt = tr
              ∧ (e.needsUnit = false → e.opcode ≠ oFENCE → x.acceptAt = some tr ∧ x.retireAt = some (tr + latency s die e))))
          ∧ (∀ k, k ≠ lane.val → nth (t.lh die).lanes k = { nth (s.lh die).lanes k with wrapDone := (nth (t.lh die).lanes k).wrapDone })
          ∧ OnlyChanges (traced [.now, .mem, .buoys, .beamsCs, .beamsDs, .lhCs, .lhDs, .engCs, .engDs, .pairCs, .pairDs, .pwmCs, .pwmDs, .mach, .candle, .legs, .prot, .wr, .conv, .ac, .gact, .temp, .lamp, .ckCs, .ckDs]) s t

/-- An entry that issues more than one cycle after its trigger is an OVERRUN of its lane, with its lateness.
A running lane whose next entry is a NOP, is not held back and is triggered, the trigger and the issue before it more than one
cycle back, issues that entry now: the count of overruns is one more unless it is at its end, DETAIL gives the lateness beyond
one cycle with page and entry, lane event 1 is set and the maximum lateness takes it in. The same of FENCE ALL and of RUN. Of
another lane nothing changes but the note that its page boundary has passed. With its frame.
Rests on R153, R157, R172, 06_lighthouse.md. -/
def Obligations.LateEntriesCountAsOverruns : Prop :=
  ∀ (die : Die) (lane : Fin 4) (tr : Nat) (s : State), Inv s →
    let ln := nth (s.lh die).lanes lane.val;
    let e := nextEntry s die lane.val;
    ∀ r ∈ ([(.nop die lane, oNOP, 0), (.run die lane, oRUN, 0), (.fenceAll die lane, oFENCE, 0)] : List (Instr × Nat × Nat)),
    ln.run = true → lane.val < laneCount die → ln.drain = false → ln.merging = false → e.isRow r.2.1 r.2.2 = true →
    blocked s die lane.val e = false → laneTrigger s die lane.val = some tr → tr + 1 < s.now → ln.predIssue + 1 < s.now → ln.issueN < 4 →
    (0 < ln.ptr ∨ ln.fresh = true) →
      Runs r.1 s fun t =>
        let y := nth (t.lh die).lanes lane.val;
        let late := s.now - tr - 1;
        t.now = s.now ∧ y.issueCyc = s.now ∧ y.ovrCnt = satInc ln.ovrCnt ∧ y.ovrLast = laneDetail late ln.page ln.ptr
          ∧ bitOf y.levt 1 = true ∧ y.ovrMax.toNat = max ln.ovrMax.toNat (fld (laneDetail late ln.page ln.ptr) 31 16)
          ∧ (∀ k, k ≠ lane.val → nth (t.lh die).lanes k = { nth (s.lh die).lanes k with wrapDone := (nth (t.lh die).lanes k).wrapDone })
          ∧ OnlyChanges (traced [.now, .mem, .buoys, .beamsCs, .beamsDs, .lhCs, .lhDs, .engCs, .engDs, .pairCs, .pairDs, .pwmCs, .pwmDs, .mach, .candle, .legs, .prot, .wr, .conv, .ac, .gact, .temp, .lamp, .ckCs, .ckDs]) s t

/-- An entry is accepted when its unit is free, retires its latency later, and its effect stands from then on.
ENTRY_ACCEPT takes the waiting entry that can be accepted first: at its cycle it is accepted and retires its latency later; the
other entries of the window stay; with none waiting nothing changes. ENTRY_RETIRE takes the entry whose retire cycle is first
(none: nothing changes); page boundaries that have come by then pass first, it leaves the window and its effect stands. SAMPLE:
the results of the named channels. READ: an ADC buoy in range, without rate limit and filter and not in FAULT, has the result.
MOVE, WRITE, BLEND and LIMIT onto a lane register: the value captured at acceptance as its mantissa and exponent. COMMIT:
pending for each named member. MARK: a record in a trace buffer with room, LOST in a full one. SIGNAL 0 to 31 to the Keeper:
that bit. SCAN: an idle entry-mode channel runs. FENCE: nothing but the window. Of an engine that computes alone with no staged
block due, LOAD: the captured words are the active set; RUN: state and latch as the evaluation gives them; SNAP: the
checkpoint's words in its RAM; and the engine is free. Each with its frame.
Rests on R161, R164, R166, R169, R183, R189, R196, R223, R249, 06_lighthouse.md. -/
def Obligations.EntriesAreAcceptedAndRetire : Prop :=
  ∀ (die : Die) (s : State), Inv s →
    (∀ (codes : List (BitVec 16)),
      (nextAccept s die = none → Runs (.entryAccept die codes) s fun t => t = s)
      ∧ ∀ (tm : Nat) (x : InFl), nextAccept s die = some (tm, x) →
        Runs (.entryAccept die codes) s fun t =>
          t.now = max s.now tm
            ∧ (∀ z ∈ (t.lh die).infl, z.seqn = x.seqn → z.acceptAt = some t.now ∧ z.retireAt = some (t.now + latency t die x.entry) ∧ z.w = x.w)
            ∧ (t.lh die).infl.filter (fun z => z.seqn != x.seqn) = (s.lh die).infl.filter (fun z => z.seqn != x.seqn)
            ∧ (∀ k, nth (t.lh die).lanes k = { nth (s.lh die).lanes k with wrapDone := (nth (t.lh die).lanes k).wrapDone }) ∧ OnlyChanges (traced [.now, .mem, .buoys, .beamsCs, .beamsDs, .lhCs, .lhDs, .engCs, .engDs, .pairCs, .pairDs, .pwmCs, .pwmDs, .mach, .candle, .legs, .prot, .wr, .conv, .ac, .gact, .temp, .lamp, .ckCs, .ckDs]) s t)
    ∧ (∀ (up : Option Upset),
      (nextRetire s die = none → Runs (.entryRetire die up) s fun t => t = s)
      ∧ ∀ (x : InFl), nextRetire s die = some x →
        let u := lanesDue (s.advanceTo (x.retireAt.getD 0)) die;
        let e := x.entry;
        let k := engOf e;
        let v := x.vals.getD 0 0;
        let q : Rat := ((v : Int) : Rat) / ((x.vals.getD 1 1 : Int) : Rat)
        Runs (.entryRetire die up) s fun t =>
          t.now = max s.now (x.retireAt.getD 0) ∧ (∀ z ∈ (t.lh die).infl, z.seqn ≠ x.seqn)
            ∧ (e.opcode = oSAMPLE → ∀ a ∈ sampleAdcs die e, a < (u.lh die).adc.length → sampleChan e a < (nth (u.lh die).adc a).length →
              wat (nth (t.lh die).adc a) (sampleChan e a) = wi (x.vals.getD a 0))
            ∧ (e.opcode = oREAD → ∀ n, adcMap u die (readAdc e) (readChan e) = some n → n < 512 → byOn u n = true → bySrc u n = 0 →
              (die = .cs → s.sup.csOk.getLsbD 1 = true) → byMin u n ≤ v → v ≤ byMax u n → -(2 ^ 31) ≤ v → v < 2 ^ 31 → byRate u n = 0 →
              byFilt u n = 0 → (nth u.buoys n).state ≠ 2 → (nth t.buoys n).last = wi v ∧ (nth t.buoys n).out = wi v ∧ (nth t.buoys n).state = 0)
            ∧ (e.opcode = oMOVE ∨ e.opcode = oWRITE ∨ e.opcode = oBLEND ∨ e.opcode = oLIMIT → ∀ r : Nat, e.dest = some r → refSpace r = 3 →
              x.lane < laneCount die → refIndex r % 16 < (nth (s.lh die).lanes x.lane).lv.length →
              (nth (t.lh die).lanes x.lane).lv.getD (refIndex r % 16) default = ((laneVal q).1, (laneVal q).2.1))
            ∧ (e.opcode = oCOMMIT → ∀ j < 8, hasBit e.opb j = true → ∀ c, (members u die (e.opa % 16))[j]? = some c →
              nth (t.pwm die).chans c = (nth (u.pwm die).chans c).setCommit t.now)
            ∧ (e.opcode = oMARK → (s.lh die).trace.length < 64 → x.page < 16 → x.lane < 4 →
              (t.lh die).trace = (s.lh die).trace ++ [(t.lh die).trace.getLastD 0]
              ∧ ((t.lh die).trace.getLastD 0).toNat / 2 ^ 32 = (countAt s die x.issueAt).toNat)
            ∧ (e.opcode = oMARK → 64 ≤ (s.lh die).trace.length → (t.lh die).trace = (s.lh die).trace ∧ (t.lh die).lost = true)
            ∧ (e.opcode = oSIGNAL → e.fn = 0 → e.opa % 64 < 32 → bitOf (t.lh die).sig0 (e.opa % 64) = true)
            ∧ (e.opcode = oSCAN → e.opa % 8 < ckCount die → (nth (s.cks die) (e.opa % 8)).running = false → ckMode u die (e.opa % 8) = 2 →
              (nth (t.cks die) (e.opa % 8)).running = true)
            ∧ (e.opcode = oFENCE → OnlyChanges [.lhCs, .lhDs] u t)
            ∧ (engSet u die k = [k] → compares u die k = false → k < engCount die → (nth (u.engs die) (2 * (k / 2))).stagedDue = false →
                (nth (u.engs die) (2 * (k / 2) + 1)).stagedDue = false →
              let y := nth (t.engs die) k;
              (e.opcode = oLOAD → y.act = x.vals.map wi ∧ y.actSet = e.opb % 8 ∧ y.busy = false)
              ∧ (e.opcode = oSNAP → y.busy = false ∧ y.cpAge = 0
                ∧ memGetBytes t.mem (cpBase die k) 152 = bytesOf (ckptWords { nth (u.engs die) k with busy := false } (count u die)))
              ∧ (e.opcode = oRUN →
                let o := runEval (nth (u.engs die) k) (iexp u die k) (oexp u die k) (x.vals.take 8) (x.vals.getD 8 0 != 0) (x.vals.getD 9 0 != 0);
                y.st = o.eng.st ∧ y.latch = o.eng.latch ∧ y.bexp = o.eng.bexp ∧ y.busy = false))
            ∧ OnlyChanges (traced [.now, .mem, .buoys, .beamsCs, .beamsDs, .lhCs, .lhDs, .engCs, .engDs, .pairCs, .pairDs, .pwmCs, .pwmDs, .mach, .candle, .legs, .prot, .wr, .conv, .ac, .gact, .temp, .lamp, .ckCs, .ckDs]) s t)

/-- At the start of page 0 every engine state is 0.
PAGE0_START with T0 set, in step 11, not stopped, not ready and not in reset answers a next state in which every state mantissa,
every block exponent and the latch of every engine of both dies is 0.
Formalises R200. -/
def Obligations.EnginesStartClearedAtPageZero : Prop :=
  ∀ (k : Nat) (s : State), s.t0 = some k → s.sys.step = 11 → s.sys.halt = false → s.sys.ready = false → s.sys.csReset = false →
    Runs .page0Start s fun t => ∀ (die : Die) (e : Nat), e < engCount die →
      (nth (t.engs die) e).st = List.replicate 22 0 ∧ (nth (t.engs die) e).bexp = List.replicate 4 0 ∧ (nth (t.engs die) e).latch = 0

/-- A swap request is held or refused, the held page becomes active at its crossing, SPLIT and MERGE drain.
LH_SWAP_REQUEST of a lane that exists, writes being served, is held at rank 1 where nothing refuses it, and is otherwise refused
with the first of LOADING, NOPAGE, ACTIVE and PRIO, which LASTREF keeps. LH_SWAP_CANCEL withdraws a held Keeper request unless
its crossing comes in this cycle. PAGE_SWAP of a running lane that does not drain, with a held request whose crossing is known:
at that cycle the page is the held one, the pointer is 0, nothing is held any more and LASTREF is SWAPPED. DRAIN_COMPLETE of a
drained lane ends the drain, and with MERGE every configured pair of the page copies. No other lane changes. Each with its
frame.
Rests on R174, R175, R176, R178, R179, 06_lighthouse.md. -/
def Obligations.PagesSwapAtTheirCrossing : Prop :=
  ∀ (die : Die) (lane : Fin 4) (s : State), Inv s → lane.val < laneCount die →
    let ln := nth (s.lh die).lanes lane.val;
    let other := fun (t : State) => ∀ k, k ≠ lane.val → nth (t.lh die).lanes k = nth (s.lh die).lanes k;
    (∀ page : Fin 16, WriteOpen s die →
      let c := swapRefusal s die lane.val page.val;
      Runs (.lhSwapRequest die lane page) s fun t =>
        let y := nth (t.lh die).lanes lane.val;
        y.lastRef = c ∧ (c = 0 → Answered t 0 [] ∧ y.held = some ⟨1, page.val, s.now, none⟩) ∧ (c ≠ 0 → Refused t c ∧ y.held = ln.held)
          ∧ (pageLoading s die lane.val page.val = true → c = 3)
          ∧ (pageLoading s die lane.val page.val = false → hasContent s die lane.val page.val = false → c = 1)
          ∧ (pageLoading s die lane.val page.val = false → hasContent s die lane.val page.val = true → ln.run = true → ln.page = page.val → c = 2)
          ∧ (c = 4 → ln.prio = true ∨ ∃ r, ln.held = some r ∧ 2 ≤ r.rank)
          ∧ other t ∧ OnlyChanges [.acc, .lhCs, .lhDs] s t)
    ∧ (WriteOpen s die →
      Runs (.lhSwapCancel die lane) s fun t =>
        let y := nth (t.lh die).lanes lane.val;
        Answered t 0 []
          ∧ (∀ r, ln.held = some r → r.rank = 1 → ¬ (ln.run = true ∧ swapCycle s die lane.val = some s.now) → y = { ln with held := none })
          ∧ (∀ r, ln.held = some r → r.rank = 1 → ln.run = true → swapCycle s die lane.val = some s.now → y = { ln with lastRef := 5 })
          ∧ (ln.held = none → y = ln) ∧ other t ∧ OnlyChanges [.acc, .lhCs, .lhDs] s t)
    ∧ (∀ (r : SwapReq) (tm : Nat), ln.held = some r → swapCycle s die lane.val = some tm → ln.run = true → ln.drain = false → ln.merging = false →
      Runs (.pageSwap die lane) s fun t =>
        let y := nth (t.lh die).lanes lane.val;
        t.now = max s.now tm ∧ y.page = r.page ∧ y.prev = ln.page ∧ y.ptr = 0 ∧ y.passes = 0 ∧ y.held = none ∧ y.lastRef = 5
          ∧ y.swTime = count t die ∧ (t.lh die).infl = (s.lh die).infl ∧ other t ∧ OnlyChanges (traced [.now, .mem, .nv, .lhCs, .lhDs, .engCs, .engDs, .pairCs, .pairDs, .pwmCs, .pwmDs, .prot, .temp, .lamp]) s t)
    ∧ (ln.drain = true → drainWaits s die lane.val = false →
      Runs (.drainComplete die lane) s fun t =>
        let y := nth (t.lh die).lanes lane.val;
        let ps := (maskPairs die ln.drainPairs.toNat).filter fun p => (nth (s.pairs die) p).mode != 7;
        t.now = max s.now ln.drainAt ∧ y.drain = false ∧ y.page = ln.page ∧ other t
          ∧ (ln.drainMerge = true → (y.merging = true ↔ ps ≠ []) ∧ (∀ p ∈ ps, (nth (t.pairs die) p).mode = 2))
          ∧ (ln.drainMerge = false → ∀ p ∈ ps, (nth (t.pairs die) p).mode = 1)
          ∧ (∀ p, p ∉ ps → nth (t.pairs die) p = nth (s.pairs die) p) ∧ OnlyChanges [.now, .lhCs, .lhDs, .engCs, .engDs, .pairCs, .pairDs] s t)

/-- A merge copies and compares, a restore reloads the pair, debug halts stop engines, the trace is read in order.
MERGE_COPY_COMPLETE of a pair of a merging lane, with no upset and no halted engine, leaves the shadow with the primary's state
and the pair merged; with a halted engine it is BROKEN. RESTORE_COMPLETE ends the restore at its cycle (a merged pair whose
compare then fails begins another); where the checkpoint was not usable in that cycle, and no staged block is due, both engines
have state 0 and their start flag set. LE_PDBG_WRITE of a pair that exists, writes being served, sets the halt requests and ends
the halts whose bit is clear. ENGINE_HALT of a free engine whose halt is requested halts it; a merged pair is BROKEN with it.
TRACE_READ_LOW answers the low word of the oldest record and latches the high one; TRACE_READ_HIGH answers the latch and removes
the record. Each with its frame.
Rests on R184, R221, R229, R231, R236, 08_engine_pairs.md. -/
def Obligations.PairsMergeRestoreAndHalt : Prop :=
  (∀ (die : Die) (lane : Fin 4) (pair : Fin 8) (s : State), Inv s → lane.val < laneCount die → pair.val < pairCount die →
      let ln := nth (s.lh die).lanes lane.val;
      let x := nth (s.pairs die) pair.val;
      ln.merging = true → hasBit ln.drainPairs.toNat pair.val = true → x.mode = 2 →
      Runs (.mergeCopyComplete die lane pair none) s fun t =>
        let y := nth (t.pairs die) pair.val;
        let e := nth (t.engs die) (2 * pair.val + 1);
        let p := nth (s.engs die) (2 * pair.val);
        t.now = max s.now (ln.mergeAt + 31) ∧ e.st = p.st ∧ e.bexp = p.bexp ∧ e.latch = p.latch ∧ e.inp = p.inp ∧ e.act = p.act
          ∧ nth (t.engs die) (2 * pair.val) = p
          ∧ (x.haltE = false → x.haltO = false → y.mode = 0 ∧ y.apart = false)
          ∧ (x.haltE = true ∨ x.haltO = true → y.mode = 3 ∧ y.apart = true ∧ y.dbgBroken = true)
          ∧ (∀ k, k ≠ pair.val → nth (t.pairs die) k = nth (s.pairs die) k) ∧ OnlyChanges (traced [.now, .lhCs, .lhDs, .engCs, .engDs, .pairCs, .pairDs]) s t)
    ∧ (∀ (die : Die) (pair : Fin 8) (s : State), Inv s → pair.val < pairCount die → (nth (s.pairs die) pair.val).restoring = true →
      Runs (.restoreComplete die pair none) s fun t =>
        t.now = max s.now (nth (s.pairs die) pair.val).restoreAt
          ∧ ((nth (t.pairs die) pair.val).restoring = true ↔ (nth (s.pairs die) pair.val).mode = 0 ∧ pairDiff t die pair.val none ≠ none)
          ∧ (∀ k, k ≠ pair.val → nth (t.pairs die) k = nth (s.pairs die) k)
          ∧ (∀ e, e = 2 * pair.val ∨ e = 2 * pair.val + 1 → (nth (s.engs die) (2 * pair.val)).stagedDue = false →
              (nth (s.engs die) (2 * pair.val + 1)).stagedDue = false → ckptUsable s die (2 * pair.val) = false →
              (nth (t.engs die) e).st = List.replicate 22 0 ∧ (nth (t.engs die) e).bexp = List.replicate 4 0
                ∧ (nth (t.engs die) e).initPend = true)
          ∧ OnlyChanges (traced [.now, .mem, .lhCs, .lhDs, .engCs, .engDs, .pairCs, .pairDs]) s t)
    ∧ (∀ (die : Die) (pair : Fin 8) (value : Word) (s : State), Inv s → WriteOpen s die → pair.val < pairCount die →
      Runs (.lePdbgWrite die pair value) s fun t =>
        let x := nth (s.pairs die) pair.val;
        Answered t 0 [] ∧ nth (t.pairs die) pair.val
            = { x with dbg := value &&& 3, haltE := x.haltE && bitOf value 0, haltO := x.haltO && bitOf value 1 }
          ∧ (∀ k, k ≠ pair.val → nth (t.pairs die) k = nth (s.pairs die) k) ∧ OnlyChanges [.acc, .pairCs, .pairDs] s t)
    ∧ (∀ (die : Die) (engine : Fin 16) (s : State), Inv s → engine.val < engCount die →
      let p := engine.val / 2;
      let x := nth (s.pairs die) p;
      bitOf x.dbg (engine.val % 2) = true → engHalted s die engine.val = false → (nth (s.engs die) engine.val).busy = false → x.mode ≠ 2 →
      Runs (.engineHalt die engine) s fun t =>
        engHalted t die engine.val = true ∧ (x.mode = 0 → (nth (t.pairs die) p).mode = 3 ∧ (nth (t.pairs die) p).dbgBroken = true)
          ∧ (x.mode ≠ 0 → (nth (t.pairs die) p).mode = x.mode) ∧ (∀ k, k ≠ p → nth (t.pairs die) k = nth (s.pairs die) k)
          ∧ t.engs die = s.engs die ∧ OnlyChanges (traced [.pairCs, .pairDs]) s t)
    ∧ (∀ (die : Die) (s : State), ReadOpen s die →
      (Runs (.traceReadLow die) s fun t =>
        (∀ r rs, (s.lh die).trace = r :: rs → Answered t 0 [wd r.toNat] ∧ (t.lh die).trcHi = wd (r.toNat / 2 ^ 32))
          ∧ ((s.lh die).trace = [] → Answered t 0 [0]) ∧ (t.lh die).trace = (s.lh die).trace ∧ OnlyChanges [.acc, .lhCs, .lhDs] s t)
      ∧ (Runs (.traceReadHigh die) s fun t =>
        Answered t 0 [(s.lh die).trcHi] ∧ (t.lh die).trace = (s.lh die).trace.tail ∧ OnlyChanges [.acc, .lhCs, .lhDs] s t))

/-- At its boundary a carrier group counts on and its committed members take their written duties.
CARRIER_BOUNDARY of a running group that does not follow a beam: at the end of its period (in 1/16 cycle) the group's count is
one more, its boundary and the one before are noted with the period that ended; a FIXED group keeps its period, a DITHER group
takes the dithered one, a SHADOW group whose pair is complete the written one. Outside SHADOW a member whose COMMIT is pending
two cycles before, with UPD not MID and a written DUTYA, has that duty from then on; without COMMIT it keeps its own; of a
SHADOW group with a complete pair every member takes its duty. CARRIER_MIDPOINT does the same for members with UPD MID or BOTH
of a group that is not SHADOW. CARRIER_UNLOCK of a locked BEAM group that has no crossing to come sets UNLOCK, runs the group at
PMAX and sets event bit 3: at once where its beam is stale or does not advance, else PMAX after its last boundary; with a
crossing to come it changes nothing. Each with its frame.
Rests on R240, R243, R245, R250, R251, R253, R254, 09_pwm.md. -/
def Obligations.CarrierGroupsTurnAndTransfer : Prop :=
  ∀ (die : Die) (group : Fin 16) (s : State), Inv s → (grpRec s die group.val).isSome = true → (nth (s.pwm die).grps group.val).run = true →
    let g := group.val;
    let gr := nth (s.pwm die).grps g;
    (grpPsrc s die g ≠ 2 →
      let b := gr.bAt + gr.per;
      let cut := b / 16 - 2;
      let pair := ∀ c ∈ members s die g, (nth (s.pwm die).chans c).commitAsOf cut = true ∧ dutyWritten s die c cut true = true;
      Runs (.carrierBoundary die group) s fun t =>
        let y := nth (t.pwm die).grps g;
        t.now = max s.now (b / 16) ∧ y.run = true ∧ y.k = gr.k + 1 ∧ y.bAt = b ∧ y.pbAt = gr.bAt ∧ y.pper = gr.per
          ∧ y.bt = countAt s die (b / 16) ∧ (grpPsrc s die g = 0 → y.per = gr.per)
          ∧ (grpPsrc s die g = 3 → y.per = (ditherPeriod s die g gr.k gr.lfsr).1)
          ∧ (grpPsrc s die g ≠ 1 → ∀ c ∈ members s die g,
              let x := nth (s.pwm die).chans c;
              (x.commitAsOf cut = false → (nth (t.pwm die).chans c).da = x.da)
              ∧ (x.commitAsOf cut = true → chanUpd s die c ≠ 2 → x.dash.wrAsOf cut = true →
                (nth (t.pwm die).chans c).da = (x.dash.asOf cut).toNat ∧ (nth (t.pwm die).chans c).active = true))
          ∧ (grpPsrc s die g = 1 → members s die g ≠ [] → gr.persh.wrAsOf cut = true → pair →
            y.per = (gr.persh.asOf cut).toNat
              ∧ ∀ c ∈ members s die g, (nth (t.pwm die).chans c).da = ((nth (s.pwm die).chans c).dash.asOf cut).toNat)
          ∧ OnlyChanges (traced [.now, .beamsCs, .beamsDs, .lhCs, .lhDs, .pwmCs, .pwmDs, .mach, .candle, .legs, .prot, .conv, .gact, .temp, .lamp]) s t)
    ∧ (let u := (gr.bAt + gr.per / 2) / 16;
      Runs (.carrierMidpoint die group) s fun t =>
        t.now = max s.now u
          ∧ (∀ c ∈ members s die g,
            let x := nth (s.pwm die).chans c;
            grpPsrc s die g ≠ 1 → x.commitAsOf (u - 2) = true → 2 ≤ chanUpd s die c → x.dash.wrAsOf (u - 2) = true →
              (nth (t.pwm die).chans c).da = (x.dash.asOf (u - 2)).toNat)
          ∧ (grpPsrc s die g = 1 → ∀ c, (nth (t.pwm die).chans c).da = (nth (s.pwm die).chans c).da)
          ∧ (nth (t.pwm die).grps g).per = gr.per ∧ (nth (t.pwm die).grps g).k = gr.k ∧ OnlyChanges (traced [.now, .lhCs, .lhDs, .pwmCs, .pwmDs, .mach, .candle, .legs, .prot, .temp, .lamp]) s t)
    ∧ (grpPsrc s die g = 2 → gr.unlock = false →
      Runs (.carrierUnlock die group) s fun t =>
        let y := nth (t.pwm die).grps g;
        ((lockCross s die g).isSome = true → t = s)
          ∧ (lockCross s die g = none → y.unlock = true ∧ y.per = (grpW s die g 3).toNat ∧ bitOf y.evt 3 = true
              ∧ ((unlockReason s die g).isSome = true → t.now = s.now)
              ∧ (unlockReason s die g = none → t.now = max s.now ((gr.bAt + (grpW s die g 3).toNat) / 16)))
          ∧ (∀ k, k ≠ g → nth (t.pwm die).grps k = nth (s.pwm die).grps k) ∧ OnlyChanges (traced [.now, .pwmCs, .pwmDs]) s t)

/-- A half-period starts at its time and takes the re-planned values at the boundary; an interlock turns both sides off.
CHANNEL_HALF_START of a configured channel whose next half is of that kind: at its time the half is taken from the list and the
channel stands in its period; at a first half the dead times, the minimum pulse and TRIM that were planned come into force and
the on-time counted so far becomes the period's. INTLK of a configured INDEP channel whose outputs would be on together: at that
instant both go off until the channel's next boundary, the count is one more unless it is at its end, and event bit 2 is set. No
other channel changes. Each with its frame.
Rests on R242, R255, R262, 09_pwm.md. -/
def Obligations.HalfPeriodsStartAndInterlockTurnsOff : Prop :=
  ∀ (die : Die) (ch : Fin 48) (s : State), Inv s → ch.val < chanCount die → (chanRec s die ch.val).isSome = true →
    let c := ch.val;
    let x := nth (s.pwm die).chans c;
    let other := fun (t : State) => ∀ k, k ≠ c → nth (t.pwm die).chans k = nth (s.pwm die).chans k;
    (∀ h : Half, nextHalf x = some h →
      Runs (.channelHalfStart die ch h.second) s fun t =>
        let y := nth (t.pwm die).chans c;
        t.now = max s.now (h.t / 16) ∧ y.c0 = h.c0 ∧ y.cper = h.per ∧ y.halves = x.halves.filter (fun z => z.t ≠ h.t)
          ∧ (h.second = false → y.dtr = x.pdtr ∧ y.dtf = x.pdtf ∧ y.minp = x.pminp ∧ y.trim = x.ptrim ∧ y.intOff = false ∧ y.relWait = false)
          ∧ (h.second = true → y.dtr = x.dtr ∧ y.dtf = x.dtf ∧ y.minp = x.minp ∧ y.trim = x.trim ∧ y.onTime = x.onTime)
          ∧ y.da = x.da ∧ y.db = x.db ∧ other t ∧ OnlyChanges [.now, .pwmCs, .pwmDs, .legs] s t)
    ∧ (∀ tm : Nat, chanOmode s die c = 1 → overlapAt x (chanMode s die c) (now16 s) = some tm →
      Runs (.intlk die ch) s fun t =>
        let y := nth (t.pwm die).chans c;
        t.now = max s.now (tm / 16) ∧ y.intOff = true ∧ bitOf y.evt 2 = true ∧ y.intCnt = satInc x.intCnt
          ∧ (y.ovr = 0 → ∀ u, y.hiAt u = false ∧ y.loAt (chanMode s die c) u = false) ∧ other t ∧ OnlyChanges (traced [.now, .pwmCs, .pwmDs]) s t)

/-- Three cycles before its update point the unit writes the fill duties; a step edge and a turn end act at their times.
WAVE_DUTY_UPDATE of a running machine with an update point ahead: in the third cycle before it the machine takes MODE and FILLW
for that point, every leg's duty shadow is its fill duty, never above P0, weighted by FILLW, and no other channel changes.
LEG_STEP_EDGE of a leg whose next crossing of its slot offset is known: at that cycle H is the step state there and the edge is
stamped. ELECTRICAL_TURN_END at a cycle in which the cycle count has changed clears the peaks and notes the count; in MODE RUN
with a valid position a phase whose peak is below the share of the others is OPENPH. Each with its frame.
Rests on R277, R279, R280, R285, R288, 10_traction_waveforms.md. -/
def Obligations.WaveformUnitDrivesItsLegs : Prop :=
  (∀ (m : Fin 2) (s : State) (p : Nat), Inv s → machOn s m.val = true → s.sys.dsReady = true → nextUpdate s m.val = some p →
      let u := p / 16;
      let s1 := s.advanceTo (u - 3);
      let i := waveBefore s1 m.val;
      let th := beamPhase s1 .ds (machBeam s1 m.val) (u + fld (wfW s1 m.val 6) 15 0);
      let duty := fun c => fillDuty s1 m.val (phaseSet s1 (legPhase s1 c)) (phaseIdx s1 (legPhase s1 c)) (limited s1 m.val i) th (grpW s1 .ds (chanGrp s1 .ds c) 1).toNat;
      Runs (.waveDutyUpdate m) s fun t =>
        t.now = max s.now (u - 3) ∧ (nth t.mach m.val).pend = some (i.mode.toNat, i.fillw) ∧ (nth t.mach m.val).mode = (nth s.mach m.val).mode
          ∧ (∀ c ∈ machLegs s m.val, duty c ≤ (grpW s .ds (chanGrp s .ds c) 1).toNat
            ∧ (nth t.pwmDs.chans c).dash
                = (nth s.pwmDs.chans c).dash.write t.now (wd ((2 * i.fillw.toNat * duty c + 65536) / 131072)))
          ∧ (∀ c, c ∉ machLegs s m.val → nth t.pwmDs.chans c = nth s.pwmDs.chans c) ∧ OnlyChanges [.now, .pwmCs, .pwmDs, .mach, .legs] s t)
    ∧ (∀ (ch : Fin 48) (s : State) (tm : Int) (f : Nat), Inv s → isLeg s ch.val = true → machOn s (legMach s ch.val) = true →
      bmOn s (machBeam s (legMach s ch.val)) = true → s.sys.dsReady = true →
      let m := legMach s ch.val;
      let i := waveBefore s m;
      let ahead := ((-(nth s.pwmDs.chans ch.val).trim).toNat + 15) / 16;
      let n := phaseLegs s (legPhase s ch.val);
      let j := legPos s ch.val;
      nextStep (nth s.legs ch.val).h j n i.grade.toInt (fun t => psiAt s m ch.val i (t + ahead)) s.now = some (tm, f) →
      Runs (.legStepEdge ch) s fun t =>
        t.now = max s.now tm.toNat
          ∧ (nth t.legs ch.val).h = stepState j n i.grade.toInt (psiAt (s.advanceTo tm.toNat) m ch.val i (tm + ahead))
          ∧ (nth t.legs ch.val).edgT = count t .ds ∧ (∀ k, k ≠ ch.val → nth t.legs k = nth s.legs k)
          ∧ (∀ k, k ≠ ch.val → nth t.pwmDs.chans k = nth s.pwmDs.chans k) ∧ OnlyChanges [.now, .pwmCs, .pwmDs, .legs] s t)
    ∧ (∀ (m : Fin 2) (s : State), Inv s → machOn s m.val = true → bmOn s (machBeam s m.val) = true → s.sys.dsReady = true →
      let x := nth s.mach m.val;
      beamCyc s .ds (machBeam s m.val) s.now ≠ x.turnCyc →
      Runs (.electricalTurnEnd m) s fun t =>
        let y := nth t.mach m.val;
        t.now = s.now ∧ y.turnCyc = beamCyc s .ds (machBeam s m.val) s.now ∧ y.peaks = List.replicate 6 0
          ∧ (x.mode = 1 → posValid s m.val = true → ∀ p : Fin 6, p.val < machPhases s m.val →
              let pk := fun (k : Nat) => x.peaks.getD (3 * (p.val / 3) + k % 3) 0;
              let sum := pk (p.val % 3 + 1) + pk (p.val % 3 + 2);
              2 * 256 * pk (p.val % 3) < fld (wfW s m.val 10) 23 16 * sum → fld (wfW s m.val 10) 15 0 * 65536 * 2 ≤ sum →
              y.openPh.getLsbD p.val = true)
          ∧ OnlyChanges (traced [.now, .lhCs, .lhDs, .pwmDs, .mach, .prot, .temp, .lamp]) s t)

/-- Candle drive commutates, advances without crossings, and stops at its timer; substitution time is counted once.
CANDLE_COMMUTATE of a catching machine with a commutation due: at its cycle the pattern is the last crossing's moved one on in
the sense of rotation, three further for a negative CDIR, and the drive is noted. CATCH_TIMEOUT of a driving catch with no
crossing since its last commutation moves the pattern by one in the sense of CDIR, CATCHTMO after that; while set 0 floats with
its voltages valid CATCH_TIMEOUT makes the estimate 0, and a catch that does not drive yet starts to drive with CSECT. CANDTO of
a machine that has a pattern applied: when the drive timer reaches CANDTMAX the pattern is off, the drive ended and event bit 6
set. SUBEXP of a machine whose substitution time runs: when it reaches SUBTIME (500 ms where that is 0) event bit 3 is set,
once. Each with its frame.
Rests on R292, R293, R300, 10_traction_waveforms.md. -/
def Obligations.CandleDriveCommutatesAndTimesOut : Prop :=
  ∀ (m : Fin 2) (s : State), Inv s →
    let k := nth s.candle m.val;
    let x := nth s.mach m.val;
    (∀ tm : Nat, k.pend = some tm → x.mode = 2 → k.timedOut = false →
      Runs (.candleCommutate m) s fun t =>
        let y := nth t.candle m.val;
        t.now = max s.now tm ∧ (y.pattern : Int) = ((k.lastM.getD 0 : Nat) + k.dir + (if x.inp.cdir.toInt < 0 then 3 else 0)) % 6
          ∧ y.pend = none ∧ y.driving = true ∧ y.commuteAt = t.now ∧ y.commutes = k.commutes + 1 ∧ OnlyChanges [.now, .pwmCs, .pwmDs, .candle, .legs] s t)
    ∧ (machOn s m.val = true → s.sys.dsReady = true → k.timedOut = false → x.mode = 2 → k.driving = true → k.lastX ≤ k.commuteAt →
      Runs (.catchTimeout m) s fun t =>
        let y := nth t.candle m.val;
        let one : Int := if 0 < x.inp.cdir.toInt then 1 else if x.inp.cdir.toInt < 0 then -1 else 0
        t.now = max s.now (k.commuteAt + catchTmo s m.val) ∧ (y.pattern : Int) = ((k.pattern : Int) + one) % 6 ∧ y.commuteAt = t.now
          ∧ y.driving = true ∧ OnlyChanges [.now, .pwmCs, .pwmDs, .candle, .legs] s t)
    ∧ (machOn s m.val = true → s.sys.dsReady = true → ¬ (x.mode = 2 ∧ k.driving = true ∧ k.timedOut = false) →
      setFloats s m.val 0 = true → (∀ i ∈ [0, 1, 2], (nth s.buoys (vBuoy s m.val i)).state = 0) →
      Runs (.catchTimeout m) s fun t =>
        let y := nth t.candle m.val;
        t.now = max s.now (max (max k.lastX k.modeAt) (s.t0.getD 0) + catchTmo s m.val) ∧ y.cspd = 0 ∧ y.cvalid = true
          ∧ (x.mode = 2 → k.catching = true → k.timedOut = false →
              y.pattern = x.inp.csect.toNat % 6 ∧ y.driving = true ∧ y.commuteAt = t.now ∧ y.commutes = 1)
          ∧ (x.mode ≠ 2 ∨ k.catching = false ∨ k.timedOut = true → y = { k with cspd := 0, cvalid := true }) ∧ OnlyChanges [.now, .pwmCs, .pwmDs, .candle, .legs] s t)
    ∧ (machOn s m.val = true → s.sys.dsReady = true → x.mode = 2 ∨ x.mode = 3 → k.pattern ≤ 5 →
      Runs (.candto m) s fun t =>
        let y := nth t.candle m.val;
        t.now = s.now + (fld (wfW s m.val 7) 15 4 * msec - driveTime s m.val) ∧ y.pattern = 7 ∧ y.timedOut = true ∧ y.driving = false
          ∧ y.pend = none ∧ bitOf (nth t.mach m.val).evt 6 = true ∧ OnlyChanges (traced [.now, .lhCs, .lhDs, .pwmCs, .pwmDs, .mach, .candle, .legs, .prot, .temp, .lamp]) s t)
    ∧ (machOn s m.val = true → s.sys.dsReady = true → x.subAct = true → x.subDone = false →
      let lim := if fld (wfW s m.val 9) 15 0 = 0 then 500 else fld (wfW s m.val 9) 15 0;
      Runs (.subexp m) s fun t =>
        t.now = s.now + (lim * msec - subTime s m.val) ∧ (nth t.mach m.val).subDone = true ∧ bitOf (nth t.mach m.val).evt 3 = true
          ∧ OnlyChanges (traced [.now, .lhCs, .lhDs, .pwmDs, .mach, .prot, .temp, .lamp]) s t)

/-- A live comparator level latches its source, raises the severity and overrides its legs; blanking and ASC hold it off.
COMPARATOR_LEVEL_CHANGE notes the raw level. A TRIP or HARD comparator that is defined, enabled, not live and not blanked, whose
source has a level, asserted while the die runs and no ASC holds its legs: the source is latched, the severity is at least its
level where it was not latched before, and every configured channel it guards is overridden. A disabled comparator latches
nothing. TRIP of a leg that an ASC holds on latches nothing and sets event bit 5. BLANKING_END of a window not yet counted,
resolved and with its supply good: at its end the window is noted; with the raw level deasserted nothing latches, with an
enabled comparator's asserted the live level asserts. Each with its frame.
Rests on R312, R313, R323, R324, R331, 11_leg_protection.md. -/
def Obligations.ComparatorsLatchAndInhibitTheirLegs : Prop :=
  ∀ (c : Comp) (s : State), Inv s →
    (∀ asserted : Bool,
      Runs (.comparatorLevelChange c asserted) s fun t =>
        (compSt t c).raw = asserted ∧ ((compSt s c).enabled = false → t.prot.latches = s.prot.latches ∧ (compSt t c).live = false)
          ∧ OnlyChanges (traced [.lhCs, .lhDs, .pwmCs, .pwmDs, .candle, .legs, .prot, .conv, .temp, .lamp]) s t)
    ∧ (∀ (n : Fin 32) (lvl : Nat), c = .trip n ∨ c = .hard n → s.sys.dsReady = true → (cpDef s 0 n.val).isSome = true →
      srcLevel s (compSrc c) = some lvl → (compSt s c).enabled = true → (compSt s c).live = false → blanked s c = false →
      ascTripLeg s c = none →
      Runs (.comparatorLevelChange c true) s fun t =>
        (compSt t c).live = true ∧ isLatched t (compSrc c) = true ∧ (isLatched s (compSrc c) = false → lvl ≤ t.prot.severity)
          ∧ (∀ ch ∈ guarded s 0 n.val, ch < 48 → (chanRec s .ds ch).isSome = true → (nth t.pwmDs.chans ch).ovr ≠ 0))
    ∧ (∀ (n : Fin 32) (ch : Nat), c = .trip n → (cpDef s 0 n.val).isSome = true → (compSt s c).enabled = true →
      (compSt s c).live = false → blanked s c = false → ascTripLeg s c = some ch →
      Runs (.comparatorLevelChange c true) s fun t =>
        t.prot.latches = s.prot.latches ∧ t.prot.severity = s.prot.severity ∧ bitOf (compSt t c).evt 5 = true)
    ∧ (let b := blankStart s c;
      let fin := (10 * b + blank64 (compSt s c).blank + 159) / 160;
      (compSt s c).blankUntil < b → (compSt s c).blank ≠ 0 → (compSt s c).unres = false → anaForced s = false →
      anaForced (s.advanceTo fin) = false → blanked (s.advanceTo fin) c = false →
      Runs (.blankingEnd c) s fun t =>
        t.now = max s.now fin ∧ (compSt t c).blankUntil = b ∧ (compSt t c).raw = (compSt s c).raw
          ∧ ((compSt s c).raw = false → t.prot.latches = s.prot.latches ∧ (compSt t c).live = false)
          ∧ ((compSt s c).raw = true → (compSt s c).enabled = true → (compSt t c).live = true) ∧ OnlyChanges (traced [.now, .lhCs, .lhDs, .pwmCs, .pwmDs, .candle, .legs, .prot, .conv, .temp, .lamp]) s t)

/-- Under the speed rule a machine goes to ASC when fast or unknown and back when slow for SRTIME; CHOPF turns the chopper off.
SPEED_RULE_TICK, 1 µs after the last one at the earliest and with no suspect latched: a machine under the rule in pulse inhibit
whose speed is not known to be below f_ug takes group ASC and one below keeps its state; a machine in group ASC notes since when
it is below the hysteresis speed; a machine not under the rule is left alone. SPEED_RULE_HYSTERESIS_END of a machine in group
ASC under the rule, below since a known time: SRTIME later it is in pulse inhibit where it is still below, else the time is
forgotten. CHOPF of an enabled chopper commanded on without current: 2 µs after the command its source latches and the chopper
is off. Each with its frame.
Rests on R327, R333, 11_leg_protection.md. -/
def Obligations.SpeedRuleChoosesTheSafeState : Prop :=
  (∀ (m : Fin 2) (s : State), Inv s → liveSuspects s = 0 →
      let s1 := s.advanceTo (if s.prot.ticked = 0 then s.now else s.prot.ticked + usec);
      let x := nth s.prot.msafe m.val;
      Runs .speedRuleTick s fun t =>
        let y := nth t.prot.msafe m.val;
        t.now = s1.now ∧ t.prot.ticked = s1.now
          ∧ (machOn s m.val = false ∨ ruleActive s x = false → y = x)
          ∧ (machOn s m.val = true → ruleActive s x = true →
            (x.st = 1 → fmBelow s1 m.val = true → y = x)
            ∧ (x.st = 1 → fmBelow s1 m.val = false → (y.st = 2 ∨ y.st = 3) ∧ y.st = ascState s1 m.val ∧ y.belowAt = none)
            ∧ (x.st = 2 ∨ x.st = 3 → belowHyst s1 m.val = true → y.st = x.st ∧ y.belowAt = some (x.belowAt.getD s1.now))
            ∧ (x.st = 2 ∨ x.st = 3 → belowHyst s1 m.val = false → y.st = x.st ∧ y.belowAt = none))
          ∧ t.prot.latches = s.prot.latches ∧ t.prot.severity = s.prot.severity ∧ OnlyChanges (traced [.now, .lhCs, .lhDs, .pwmDs, .prot, .temp, .lamp]) s t)
    ∧ (∀ (m : Fin 2) (tb : Nat) (s : State), Inv s →
      let x := nth s.prot.msafe m.val;
      x.belowAt = some tb → ruleActive s x = true → 2 ≤ x.st →
      let s1 := s.advanceTo (tb + fld (ptCfg s 3) 15 0 * msec);
      Runs (.speedRuleHysteresisEnd m) s fun t =>
        let y := nth t.prot.msafe m.val;
        t.now = s1.now ∧ y.belowAt = none ∧ (belowHyst s1 m.val = true → y.st = 1) ∧ (belowHyst s1 m.val = false → y.st = x.st)
          ∧ (∀ k, k ≠ m.val → nth t.prot.msafe k = nth s.prot.msafe k) ∧ t.prot.severity = s.prot.severity ∧ OnlyChanges [.now, .pwmDs, .prot, .temp, .lamp] s t)
    ∧ (∀ s : State, chopEn s = true → s.sys.dsReady = true → isLatched s 0x52 = false → s.prot.chopOn = true → s.prot.chopCur = false →
      (∀ g, gcOf s 3 = some g → (nth s.prot.gc g).live = false) →
      Runs .chopf s fun t =>
        t.now = max s.now (s.prot.chopAt + 2 * usec) ∧ isLatched t 0x52 = true ∧ t.prot.chopOn = false ∧ OnlyChanges (traced [.now, .lhCs, .lhDs, .pwmDs, .prot, .temp, .lamp]) s t)

/-- A clear removes its latch and lets the severity fall, or is refused with its reason; the log reads oldest first.
PT_CLR, register writes to the DS die being served: with the source's conditions met the source is latched no more, the severity
is that of the latches left and the command in force, and the answer is OK; otherwise it is refused with the first of NOLATCH,
ACTIVE, DECLARED, SPEED and PERMIT, which PT_CLRSTAT keeps with the source, and no latch changes. PT_CLR ALL with one latched
source that can be cleared clears it; with latched sources none of which can be cleared it is refused with the first one's
reason; with none it answers OK. Reads of the latch log answer the oldest record's count, latch its other word, answer that and
remove the record. Each with its frame.
Rests on R336, R337, R345, 11_leg_protection.md. -/
def Obligations.ClearsObeyTheirConditions : Prop :=
  ∀ s : State,
    (∀ src : Byte, WriteOpen s .ds →
      let c := clearStatus s src.toNat;
      Runs (.ptClr src) s fun t =>
        t.prot.clrStat = wd (c * 2 ^ 24 + src.toNat)
          ∧ (isLatched s src.toNat = false → c = 1)
          ∧ (c = 0 → Answered t 0 [] ∧ isLatched t src.toNat = false ∧ t.prot.severity = severityOf t
            ∧ (∀ n, n ≠ src.toNat → isLatched t n = isLatched s n))
          ∧ (c ≠ 0 → Refused t c ∧ t.prot.latches = s.prot.latches ∧ t.prot.severity = s.prot.severity) ∧ OnlyChanges [.acc, .lhCs, .lhDs, .pwmDs, .mach, .prot, .conv, .temp, .lamp] s t)
    ∧ (WriteOpen s .ds →
      Runs .ptClrAll s fun t =>
        (s.prot.latches = [] → Answered t 0 [] ∧ t.prot.latches = [])
          ∧ (∀ l, s.prot.latches = [l] → clearStatus s l.src = 0 → Answered t 0 [] ∧ t.prot.latches = [])
          ∧ (∀ l ls, s.prot.latches = l :: ls → l.src < 256 → (∀ x ∈ ls, l.src ≤ x.src) → (∀ x ∈ s.prot.latches, clearStatus s x.src ≠ 0) →
            Refused t (clearStatus s l.src) ∧ t.prot.latches = s.prot.latches
              ∧ t.prot.clrStat = wd (clearStatus s l.src * 2 ^ 24 + l.src))
          ∧ OnlyChanges [.freeCtr, .acc, .lhCs, .lhDs, .pwmDs, .mach, .prot, .conv, .temp, .lamp] s t)
    ∧ (ReadOpen s .ds →
      (Runs .ptLogReadLow s fun t =>
        (∀ lo hi r, s.prot.log = (lo, hi) :: r → Answered t 0 [lo] ∧ t.prot.logHi = hi) ∧ (s.prot.log = [] → Answered t 0 [0] ∧ t.prot.logHi = 0)
          ∧ t.prot.log = s.prot.log ∧ OnlyChanges [.acc, .prot] s t)
      ∧ (Runs .ptLogReadHigh s fun t =>
        Answered t 0 [s.prot.logHi] ∧ t.prot.log = s.prot.log.tail ∧ OnlyChanges [.acc, .prot] s t))

/-- Each 10 µs the Watch Room takes what was accepted, and its command follows from its state.
WATCH_ROOM_EVALUATION of a block that is neither in reset nor going to sleep comes 10 µs after the last one at the earliest; the
safety frames received before are judged, a host frame alone among them is answered with its status; with none of them, writes
and a confirmed reset that were accepted before are used up and no reset is armed afresh; the command is PERMIT (0x96) in NORMAL
and LIMIT (0xA5) with DEGTQ in DEGRADED where nothing keeps torque off, SAFE (0xC3) in START, in LOCKOUT with reaction 0 and
wherever torque is kept off outside LOCKOUT, 0x3C with the group in LOCKOUT with reaction 1 or 2 and FULL (0x69) in LOCKOUT with
reaction 3. With its frame.
Rests on R347, R353, R368, R369, R371, R373, 12_watch_room.md. -/
def Obligations.WatchRoomEvaluatesAndCommands : Prop :=
  ∀ s : State, wrRuns s = true →
    Runs .watchRoomEvaluation s fun t =>
      let w := t.wr;
      t.now = max s.now (if s.wr.evalAt = 0 then s.now else s.wr.evalAt + 10 * usec) ∧ w.evalAt = t.now ∧ w.frames = []
        ∧ (s.wr.frames = [] → w.writes = [] ∧ w.confirm = false ∧ (s.wr.armed = none → w.armed = none))
        ∧ (∀ f q, s.wr.frames = [⟨f, .host q⟩] → s.sys.keeperUp = true → s.kp.restarting = false →
            let j := judgeFrame { (wrOpen s).1 with wr := { (wrOpen s).1.wr with frames := [] } } f (wrOpen s).2;
            t.wr.sfstat = wd (j.2 * 2 ^ 24 + frField f 0 2) ∧ Replied t (if j.2 = 0 then okAns else refuseAns j.2))
        ∧ (w.state = 1 → w.noTorq = false → w.cmd = 0x96) ∧ (w.state = 2 → w.noTorq = false → w.cmd = 0xA5 ∧ w.cmdFrac = BitVec.ofNat 8 (wrDegTq t))
        ∧ (w.state ≠ 3 → w.noTorq = true → w.cmd = 0xC3) ∧ (w.state = 0 → w.cmd = 0xC3) ∧ (w.state = 3 → w.lreact = 0 → w.cmd = 0xC3)
        ∧ (w.state = 3 → w.lreact = 1 ∨ w.lreact = 2 → w.cmd = 0x3C ∧ w.cmdArg.toNat = w.lreact) ∧ (w.state = 3 → w.lreact = 3 → w.cmd = 0x69)
        ∧ OnlyChanges (traced [.now, .acc, .nv, .lhCs, .lhDs, .pwmCs, .wr, .lamp, .can, .net, .host]) s t

/-- A settle time, a dropout and the start of the checks judge the feedback; LOCKOUT opens every contactor after 2 ms.
CONTACTOR_SETTLE_END of a contactor that settles: at that time the settling is over, and where its command has changed or the
checks run, an enabled contactor commanded open that reads closed is WELD, one commanded closed, not seen closed and reading
open NOCLOSE. CONTACTOR_DROPOUT of an enabled contactor commanded closed and seen closed that reads open since a known time: 10
ms later it is NOCLOSE. CONTACTOR_CHECK_START, after T0 and once: CFTIME later the checks run. LOCKOUT_CONTACTOR_OPEN in LOCKOUT
with the contactors not yet opened: 2 ms after the entry every command is open and WR_CTCMD is 0. Each with its frame.
Rests on R358, R365, R366, 12_watch_room.md. -/
def Obligations.ContactorsAreCheckedAndOpened : Prop :=
  (∀ (n : Fin 6) (tm : Nat) (s : State), n.val < s.wr.ct.length → (ctAt s n.val).settle = some tm →
      Runs (.contactorSettleEnd n) s fun t =>
        let x := ctAt s n.val;
        t.now = max s.now tm ∧ (ctAt t n.val).settle = none ∧ (ctAt t n.val).ctc = x.ctc
          ∧ (ctEn s n.val = true → s.wr.checks = true ∨ x.changed = true → x.ctc = false → ctReads s n.val = some true →
            (ctAt t n.val).weld = true ∧ (x.weld = false → bitOf t.wr.evt 0x0A = true))
          ∧ (ctEn s n.val = true → s.wr.checks = true ∨ x.changed = true → x.ctc = true → x.seen = false → ctReads s n.val = some false →
            (ctAt t n.val).noclose = true ∧ (x.noclose = false → bitOf t.wr.evt 0x0B = true))
          ∧ (ctEn s n.val = true → ctReads s n.val = some false → (ctAt t n.val).weld = false)
          ∧ (∀ k, k ≠ n.val → ctAt t k = ctAt s k) ∧ OnlyChanges (traced [.now, .wr, .lamp]) s t)
    ∧ (∀ (n : Fin 6) (tm : Nat) (s : State), n.val < s.wr.ct.length → ctEn s n.val = true → ctReads s n.val = some false →
      let x := ctAt s n.val;
      x.ctc = true → x.seen = true → x.openAt = some tm →
      Runs (.contactorDropout n) s fun t =>
        t.now = max s.now (tm + 10 * msec) ∧ (ctAt t n.val).noclose = true ∧ (x.noclose = false → bitOf t.wr.evt 0x0B = true)
          ∧ (∀ k, k ≠ n.val → ctAt t k = ctAt s k) ∧ OnlyChanges (traced [.now, .wr, .lamp]) s t)
    ∧ (∀ (tz : Nat) (s : State), s.t0 = some tz → s.wr.checks = false →
      Runs .contactorCheckStart s fun t =>
        t.now = max s.now (tz + wrCfTime s * msec) ∧ t.wr.checks = true ∧ (∀ k, (ctAt t k).ctc = (ctAt s k).ctc) ∧ OnlyChanges (traced [.now, .wr, .lamp]) s t)
    ∧ (∀ s : State, s.wr.state = 3 → s.wr.lockOpen = false →
      Runs .lockoutContactorOpen s fun t =>
        t.now = max s.now (s.wr.lockAt + 2 * msec) ∧ t.wr.lockOpen = true ∧ t.wr.ctcmd = 0 ∧ (∀ k, k < 6 → (ctAt t k).ctc = false)
          ∧ OnlyChanges [.now, .wr, .inbox] s t)

/-- The degraded timer, the arm window, the parameter CRC, RWSDENY and the Keeper watchdog act as the manual says.
DEGEXP in DEGRADED: DEGTIME after the entry what has been reported by then is taken first; where that leaves it in DEGRADED the
Watch Room is in NORMAL if no fault is open any more, and else in LOCKOUT with the reaction of the fault that degraded it.
RESET_ARM_LAPSE of an armed reset: RSTMAX later it is not armed. SBCRC_CHECK of loaded parameters: 10 ms after the last one the
CRC-32 of the copy stands, and it is bad exactly where it is not the image's. A write of WR_WDKICK is served, takes the new
challenge and restarts the timing; too early or with a wrong answer it sets event bit 4, otherwise no event. WDOG_TIMEOUT of a
ready block sets event bit 4 at WDMAX and does the same. RWSDENY, register writes being served, is refused with UCODE 7,
counted, and sets event bit 3. Each with its frame.
Rests on R349, R356, R371, R375, 12_watch_room.md. -/
def Obligations.WatchRoomTimersAndKeeperWatchdog : Prop :=
  (∀ (tz : Nat) (s : State), s.wr.state = 2 → s.wr.degAt = some tz →
      let u := closeFaults (wrStep1 (s.advanceTo (tz + wrDegTime s * 1000 * msec)));
      Runs .degexp s fun t =>
        t.now = max s.now (tz + wrDegTime s * 1000 * msec) ∧ (u.wr.state ≠ 2 → t = u)
          ∧ (u.wr.state = 2 → u.wr.opened = [] → t.wr.state = 1 ∧ t.wr.degAt = none)
          ∧ (u.wr.state = 2 → u.wr.opened ≠ [] →
              t.wr.state = 3 ∧ t.wr.lreact = u.wr.degReact ∧ t.wr.lockAt = t.now ∧ t.wr.lockOpen = false)
          ∧ OnlyChanges (traced [.now, .nv, .lhCs, .lhDs, .pwmCs, .wr]) s t)
    ∧ (∀ (tz : Nat) (s : State), s.wr.armed = some tz →
      Runs .resetArmLapse s fun t => t.now = max s.now (tz + wrRstMax s * msec) ∧ t.wr = { s.wr with armed := none } ∧ OnlyChanges [.now, .wr] s t)
    ∧ (∀ s : State, s.wr.loaded = true →
      Runs .sbcrcCheck s fun t =>
        t.now = max s.now (s.wr.sbAt + 10 * msec) ∧ t.wr.sbAt = t.now ∧ t.wr.parCrc = crc32 s.wr.par
          ∧ (t.wr.sbBad = true ↔ crc32 s.wr.par ≠ s.img.sbcrc) ∧ (crc32 s.wr.par ≠ s.img.sbcrc → bitOf t.wr.evt 1 = true)
          ∧ (crc32 s.wr.par = s.img.sbcrc → t.wr.evt = s.wr.evt) ∧ OnlyChanges (traced [.now, .wr]) s t)
    ∧ (∀ (value : Word) (next : Byte) (s : State), WriteOpen s .cs →
      Runs (.wrWdkickWrite value next) s fun t =>
        let bad := s.sys.ready = true ∧ (s.now < s.wr.wdAt + wrWdMin s * msec ∨ crc8 [s.wr.chal] ≠ value.truncate 8);
        Answered t 0 [] ∧ t.wr.chal = next ∧ t.wr.wdAt = s.now ∧ (bad → bitOf t.wr.evt 4 = true) ∧ (¬ bad → t.wr.evt = s.wr.evt)
          ∧ OnlyChanges (traced [.acc, .wr]) s t)
    ∧ (∀ (next : Byte) (s : State), s.sys.ready = true →
      Runs (.wdogTimeout next) s fun t =>
        t.now = max s.now (s.wr.wdAt + wrWdMax s * msec) ∧ bitOf t.wr.evt 4 = true ∧ t.wr.chal = next ∧ t.wr.wdAt = t.now ∧ OnlyChanges (traced [.now, .wr]) s t)
    ∧ (∀ (offset : BitVec 24) (s : State), WriteOpen s .cs →
      Runs (.rwsDeny offset) s fun t =>
        Refused t 7 ∧ t.wr.sfcnt = satInc s.wr.sfcnt ∧ bitOf t.wr.evt 3 = true ∧ t.wr.ctcmd = s.wr.ctcmd ∧ t.wr.writes = s.wr.writes ∧ OnlyChanges (traced [.acc, .wr]) s t)

/-- A safety frame that passes the checks takes effect by its type; a wrong CMAC or an old counter has no effect.
Each of the six frame rows is the evaluation that judges the frame after those already received (assumption log 74). With the
Watch Room running, for a frame of 52 bytes with the UID and the nonce held, a key held or the type SFKEY, judged by the state
step 1 and the frames before it left: with a right CMAC and a counter above the last the counter is taken, WR_SFSTAT gives
status and type, and: a WRITE of defined bits of an RWS register waits for the next evaluation; RESET_ARM in LOCKOUT with the
reset conditions met arms now; RESET_CONFIRM inside RSTMIN to RSTMAX of the arm, the conditions met and no declaration of class
A or B in the same evaluation, is confirmed, too early it is refused with status 11 and disarms; LAB_ENTER in NORMAL where
allowed and still enters the lab state, LAB_EXIT leaves it; SFKEY in START, or still in LOCKOUT, replaces the key by the
decrypted one, 16 zero bytes standing for a key not yet held. A wrong CMAC is refused with status 5, an old counter with 6; they
are counted, set event bit 2 and change nothing else named here. Each with its frame.
Rests on R347, R369, R370, R372, R373, R374, 12_watch_room.md. -/
def Obligations.SafetyFramesActOnceAndInOrder : Prop :=
  ∀ (f : List Byte) (s : State), wrRuns s = true →
    let u := (frameTaken s).1;
    let key := u.wr.key.getD (List.replicate 16 0);
    let ty := frField f 0 2;
    f.length = 52 → u.wr.key.isSome = true ∨ ty = 6 →
    frField f 4 4 = u.wr.uid0.toNat → frField f 8 4 = u.wr.uid1.toNat → frField f 12 4 = u.wr.nonce.toNat →
    let stat := fun (t : State) (st : Nat) => t.now = u.now ∧ t.wr.sfstat = wd (st * 2 ^ 24 + ty);
    (aesCmac key (f.take 36) = f.drop 36 → u.wr.fresh.toNat < frField f 16 4 →
      let took := fun (t : State) => Answered t 0 [] ∧ stat t 0 ∧ t.wr.fresh = wd (frField f 16 4);
      (∀ m : Nat, ty = 1 → rwsMask (frField f 20 4) = some m → Nat.land (frField f 24 4) m = frField f 24 4 →
        Runs (.safetyFrameWrite f) s fun t => took t ∧ t.wr.writes = u.wr.writes ++ [(frField f 20 4, wd (frField f 24 4))] ∧ OnlyChanges (traced [.now, .acc, .nv, .lhCs, .lhDs, .pwmCs, .wr, .lamp, .can, .net, .host]) s t)
      ∧ (ty = 2 → u.wr.state = 3 → resetOk u = true →
        Runs (.resetArm f) s fun t => took t ∧ t.wr.armed = some u.now ∧ t.wr.writes = u.wr.writes ∧ OnlyChanges (traced [.now, .acc, .nv, .lhCs, .lhDs, .pwmCs, .wr, .lamp, .can, .net, .host]) s t)
      ∧ (∀ ta : Nat, ty = 3 → u.wr.armed = some ta →
        ((frameTaken s).2 = false → u.wr.state = 3 → resetOk u = true → ta + wrRstMin u * msec ≤ u.now → u.now ≤ ta + wrRstMax u * msec →
          Runs (.resetConfirm f) s fun t => took t ∧ t.wr.confirm = true ∧ OnlyChanges (traced [.now, .acc, .nv, .lhCs, .lhDs, .pwmCs, .wr, .lamp, .can, .net, .host]) s t)
        ∧ (u.now < ta + wrRstMin u * msec →
          Runs (.resetConfirm f) s fun t => Refused t 11 ∧ stat t 11 ∧ t.wr.armed = none ∧ t.wr.confirm = u.wr.confirm ∧ OnlyChanges (traced [.now, .acc, .nv, .lhCs, .lhDs, .pwmCs, .wr, .lamp, .can, .net, .host]) s t))
      ∧ (ty = 4 → u.wr.state = 1 → wrLabAllow u = true → wrStill u = true →
        Runs (.labEnter f) s fun t => took t ∧ t.wr.lab = true ∧ OnlyChanges (traced [.now, .acc, .nv, .lhCs, .lhDs, .pwmCs, .wr, .lamp, .can, .net, .host]) s t)
      ∧ (ty = 5 → Runs (.labExit f) s fun t => took t ∧ t.wr.lab = false ∧ OnlyChanges (traced [.now, .acc, .nv, .lhCs, .lhDs, .pwmCs, .wr, .lamp, .can, .net, .host]) s t)
      ∧ (ty = 6 → u.wr.state = 0 ∨ (u.wr.state = 3 ∧ wrStill u = true) →
        Runs (.sfkey f) s fun t => took t ∧ t.wr.key = some (aesDec key ((f.drop 20).take 16)) ∧ t.wr.keyset = true ∧ OnlyChanges (traced [.now, .acc, .nv, .lhCs, .lhDs, .pwmCs, .wr, .lamp, .can, .net, .host]) s t))
    ∧ (∀ c : Instr, (c, ty) ∈ [(Instr.safetyFrameWrite f, 1), (.resetArm f, 2), (.resetConfirm f, 3), (.labEnter f, 4), (.labExit f, 5), (.sfkey f, 6)] →
      ∀ st : Nat, (st = 5 ∧ aesCmac key (f.take 36) ≠ f.drop 36) ∨ (st = 6 ∧ aesCmac key (f.take 36) = f.drop 36 ∧ frField f 16 4 ≤ u.wr.fresh.toNat) →
      Runs c s fun t =>
        Refused t st ∧ stat t st ∧ t.wr.fresh = u.wr.fresh ∧ t.wr.sfcnt = satInc u.wr.sfcnt ∧ bitOf t.wr.evt 2 = true
          ∧ t.wr.writes = u.wr.writes ∧ t.wr.key = u.wr.key ∧ t.wr.lab = u.wr.lab ∧ t.wr.confirm = u.wr.confirm)

/-- REFR ramps by SSRATE, a hiccup ends in a new soft start, retries are forgiven, windows average, extremes re-arm.
REFR_UPDATE of a running die, 1 µs after the last: REFR of a configured instance in SOFTSTART or RUN moves toward REF by at most
SSRATE and is REF where it was that near; in every other state it is 0; an instance that is not configured stays. HICCUP_EXPIRY
of an instance in HICCUP: at the first boundary of its primary group from then on it is in OFF with event bit 4 where its
telemetry is not usable; with usable telemetry and no over-voltage it is in SOFTSTART where enabled and in OFF with no retries
where not. RETRY_COUNT_RESET of an instance in RUN: no retries. TELEMETRY_WINDOW_END: the averages are those of the window's
samples, a window without samples keeps the last, and the window counter is one more. TELEMETRY_EXTREME_READ, access to the DS
die being served, answers the held value and re-arms it. No other instance changes but in the first. Each with its frame.
Rests on R386, R389, R397, R398, 13_converters.md. -/
def Obligations.ConvertersRampRetryAndReport : Prop :=
  (∀ s : State, Inv s → s.sys.dsReady = true →
      Runs .refrUpdate s fun t =>
        t.now = max s.now ((if s.cvTick = 0 then s.t0.getD 0 else s.cvTick) + usec) ∧ t.cvTick = t.now
          ∧ (∀ i, i < 4 →
            let x := nth s.conv i;
            let y := nth t.conv i;
            let d := x.ref.toInt - x.refr.toInt;
            (cvOn s i = false → y = x)
              ∧ (cvOn s i = true → x.state ≠ 1 → x.state ≠ 2 → y = { x with refr := 0 })
              ∧ (cvOn s i = true → x.state = 1 ∨ x.state = 2 → 0 ≤ cvSsrate s i →
                y.state = x.state ∧ (-(cvSsrate s i) ≤ d → d ≤ cvSsrate s i → y.refr = x.ref)
                  ∧ (cvSsrate s i < d → y.refr = x.refr + wi (cvSsrate s i)) ∧ (d < -(cvSsrate s i) → y.refr = x.refr - wi (cvSsrate s i))))
          ∧ OnlyChanges [.now, .conv, .cvTick] s t)
    ∧ (∀ (i : Fin 4) (s : State), Inv s → cvOn s i.val = true →
      let x := nth s.conv i.val;
      let other := fun (t : State) => ∀ k, k ≠ i.val → nth t.conv k = nth s.conv k;
      (x.state = 3 → s.sys.dsReady = true →
        let s1 := s.advanceTo x.hiccAt;
        let s2 := s1.advanceTo (cvNextBoundary s1 i.val s1.now);
        Runs (.hiccupExpiry i) s fun t =>
          let y := nth t.conv i.val;
          let good := cvStaleBuoy s2 i.val = none ∧ cvOut s2 i.val ≤ cvOvp s2 i.val;
          t.now = s2.now ∧ ((cvStaleBuoy s2 i.val).isSome = true → y.state = 0 ∧ y.retry = x.retry ∧ bitOf y.evt 4 = true)
            ∧ (good → x.enable = true → y.state = 1 ∧ y.tssAt = t.now ∧ y.hcnt = 0 ∧ y.retry = x.retry)
            ∧ (good → x.enable = false → y.state = 0 ∧ y.retry = 0) ∧ other t ∧ OnlyChanges (traced [.now, .lhCs, .lhDs, .pwmDs, .prot, .conv, .temp, .lamp]) s t)
      ∧ (x.state = 2 →
        Runs (.retryCountReset i) s fun t =>
          t.now = max s.now (x.cleanAt + fld (cvW s .ds i.val 7) 7 0 * 10 * msec) ∧ nth t.conv i.val = { x with retry := 0 } ∧ other t
            ∧ OnlyChanges [.now, .conv] s t)
      ∧ (s.sys.dsReady = true →
        Runs (.telemetryWindowEnd i) s fun t =>
          let y := nth t.conv i.val;
          t.now = max s.now ((if x.winAt = 0 then s.t0.getD 0 else x.winAt) + fld (cvW s .ds i.val 9) 15 0 * msec) ∧ y.winAt = t.now
            ∧ y.wcnt = x.wcnt + 1 ∧ (x.tv.cnt ≠ 0 → y.tv.avg = wi (divHalfAway x.tv.sum x.tv.cnt)) ∧ (x.tv.cnt = 0 → y.tv.avg = x.tv.avg)
            ∧ y.tv.cnt = 0 ∧ y.ti.cnt = 0 ∧ y.tp.cnt = 0 ∧ y.tt.cnt = 0 ∧ y.tv.lo = x.tv.lo ∧ y.tv.hi = x.tv.hi ∧ y.state = x.state ∧ other t
            ∧ OnlyChanges [.now, .conv] s t))
    ∧ (∀ (i : Fin 4) (e : Extreme) (s : State), Inv s → ReadOpen s .ds →
      Runs (.telemetryExtremeRead i e) s fun t =>
        Answered t 0 [extremeOf (nth s.conv i.val) e]
          ∧ extremeOf (nth t.conv i.val) e = (if e = .vmin ∨ e = .imin then 0x7FFFFFFF else 0x80000000)
          ∧ (∀ e', e' ≠ e → extremeOf (nth t.conv i.val) e' = extremeOf (nth s.conv i.val) e')
          ∧ (∀ k, k ≠ i.val → nth t.conv k = nth s.conv k) ∧ OnlyChanges [.acc, .conv] s t)

/-- A charge session starts, changes phase, times out, ends and is stopped or cleared as its phase allows.
CHARGE_EVALUATION of a configured port of a ready block, 1 ms after the last: an unusable input buoy puts a running phase on
HOLD with INLOST noted, and HOLD ends in the phase it held when all are usable; CC goes to CV where V has reached the regulation
level; IDLE and FAULT stay; a session's real timer is 1 ms further. PRETMO in TRICKLE, PRE or HOLD from either ends in FAULT
with event bit 1. TOTAL_TIMER_EXPIRY of an expired session: FAULT with bit 2 at full throttle, COOL with bit 3 the first time
below it and FAULT with bit 3 the second. TERMINATION_TIMEOUT of a finished one: DONE. CHARGE_START, CHARGE_STOP and
CHARGE_CLEAR, writes being served, act where the port's state allows it and are refused with their status otherwise. The other
port keeps its phase. Each with its frame.
Rests on R409, R410, R412, R413, R414, R422, 14_charging.md. -/
def Obligations.ChargePortsRunTheirSessions : Prop :=
  ∀ (p : Fin 2) (s : State), Inv s →
    let x := portAt s p.val;
    let session := (1 ≤ x.phase ∧ x.phase ≤ 5) ∨ x.phase = 7;
    let other := fun (t : State) => ∀ k, k ≠ p.val → (portAt t k).phase = (portAt s k).phase;
    let stat := fun (t : State) (c : Nat) => t.ac.cmdStat = wd (c * 2 ^ 24 + p.val);
    (s.sys.ready = true → (chRec s p.val).isSome = true →
      let s1 := s.advanceTo ((if x.evalAt = 0 then s.t0.getD 0 else x.evalAt) + msec);
      Runs (.chargeEvaluation p) s fun t =>
        let y := portAt t p.val;
        t.now = s1.now ∧ y.evalAt = t.now ∧ y.fact = s.lamp.fCs
          ∧ (x.phase = 0 ∨ x.phase = 9 → y.phase = x.phase) ∧ (session → ¬ (p.val = 1 ∧ s.ac.handover = true) → y.treal = x.treal + 1)
          ∧ (∀ b, 1 ≤ x.phase → x.phase ≤ 5 → chBad s1 p.val = some b → y.phase = 7 ∧ y.heldPh = x.phase ∧ bitOf y.evt 4 = true)
          ∧ (x.phase = 3 → chBad s1 p.val = none → chVreg s1 p.val ≤ chV s1 p.val → y.phase = 4)
          ∧ (x.phase = 3 → chBad s1 p.val = none → chV s1 p.val < chVreg s1 p.val → y.phase = 3)
          ∧ (x.phase = 7 → chBad s1 p.val = none → y.phase = x.heldPh) ∧ (x.phase = 7 → chBad s1 p.val ≠ none → y.phase = 7)
          ∧ other t ∧ OnlyChanges (traced [.now, .buoys, .beamsCs, .beamsDs, .lhCs, .lhDs, .pwmCs, .pwmDs, .mach, .candle, .prot, .conv, .ports, .ac, .gact, .temp, .lamp]) s t)
    ∧ ((chRec s p.val).isSome = true → ¬ (p.val = 1 ∧ s.ac.handover = true) →
      (x.phase = 1 ∨ x.phase = 2 ∨ (x.phase = 7 ∧ (x.heldPh = 1 ∨ x.heldPh = 2)) →
        Runs (.pretmo p) s fun t =>
          let y := portAt t p.val;
          t.now = max s.now (x.evalAt + (fld (chW s p.val 12) 31 16 * 60000 - x.tpre) * msec) ∧ y.phase = 9 ∧ y.lastEnd = 3
            ∧ bitOf y.evt 1 = true ∧ other t ∧ OnlyChanges (traced [.now, .buoys, .beamsCs, .beamsDs, .lhCs, .lhDs, .pwmCs, .pwmDs, .mach, .candle, .prot, .conv, .ports, .ac, .gact, .temp, .lamp]) s t)
      ∧ (session → chExpired s p.val = true → chTermDone s p.val = false →
        Runs (.totalTimerExpiry p) s fun t =>
          let y := portAt t p.val;
          (65536 ≤ x.fact → y.phase = 9 ∧ y.lastEnd = 3 ∧ bitOf y.evt 2 = true)
            ∧ (x.fact < 65536 → x.retried = true → y.phase = 9 ∧ y.lastEnd = 3 ∧ bitOf y.evt 3 = true)
            ∧ (x.fact < 65536 → x.retried = false → y.phase = 8 ∧ y.coolCh = x.limch ∧ bitOf y.evt 3 = true)
            ∧ other t ∧ OnlyChanges (traced [.buoys, .beamsCs, .beamsDs, .lhCs, .lhDs, .pwmCs, .pwmDs, .mach, .candle, .prot, .conv, .ports, .ac, .gact, .temp, .lamp]) s t))
    ∧ ((chRec s p.val).isSome = true → chTermDone s p.val = true →
      Runs (.terminationTimeout p) s fun t => (portAt t p.val).phase = 6 ∧ other t ∧ OnlyChanges (traced [.buoys, .beamsCs, .beamsDs, .lhCs, .lhDs, .pwmCs, .pwmDs, .mach, .candle, .prot, .conv, .ports, .ac, .gact, .temp, .lamp]) s t)
    ∧ (WriteOpen s .cs →
      (Runs (.chargeStart p) s fun t =>
        let y := portAt t p.val;
        let c := chStartStatus s p.val;
        stat t c ∧ (c = 0 → Answered t 0 [] ∧ y.phase = chStartPhase s p.val ∧ y.tcred = 0 ∧ y.treal = 0 ∧ y.tpre = 0 ∧ y.retried = false)
          ∧ (c ≠ 0 → Refused t c ∧ t.ports = s.ports) ∧ other t ∧ OnlyChanges [.acc, .ports, .ac] s t)
      ∧ (Runs (.chargeStop p) s fun t =>
        let y := portAt t p.val;
        let ramp := p.val = 1 ∧ s.ac.handover = true ∧ s.ac.ramping = true ∧ x.evalAt ≤ s.ac.lossAt;
        (x.phase = 9 → Refused t 1 ∧ t.ports = s.ports) ∧ (x.phase ≠ 9 → Answered t 0 [])
          ∧ (x.phase ≠ 9 → x.phase ≠ 0 → ¬ ramp → y.phase = 0 ∧ y.lastEnd = 1) ∧ (x.phase = 0 → ¬ ramp → y.phase = 0 ∧ y.lastEnd = x.lastEnd)
          ∧ other t ∧ OnlyChanges (traced [.acc, .buoys, .beamsCs, .beamsDs, .lhCs, .lhDs, .pwmCs, .pwmDs, .mach, .candle, .prot, .conv, .ports, .ac, .gact, .temp, .lamp]) s t)
      ∧ (Runs (.chargeClear p) s fun t =>
        (x.phase = 9 → Answered t 0 [] ∧ (portAt t p.val).phase = 0 ∧ stat t 0) ∧ (x.phase ≠ 9 → Refused t 1 ∧ stat t 1 ∧ t.ports = s.ports)
          ∧ other t ∧ OnlyChanges [.acc, .ports, .ac] s t))

/-- The AC port qualifies, hands over on a loss, and supplies in reverse until it is stopped or the grid deviates.
AC_QUALIFIED with the conditions held since a known time: 2,000 ms later ACQUAL is set. SRCLOST where the unit acts on a loss,
by low amplitude LOSSDET after its start or by a loss of lock at once: a hand-over runs with its ramp, ACQUAL is 0 and event bit
5 is set. HANDOVER_RAMP_END: HRAMP after the loss the HV port is in IDLE with LASTEND SRCLOST. HANDOVER_END: HOTIME after the
loss the hand-over is over. REVSTART, writes being served, is refused with its status, or reverse supply starts: the loop is to
go to FORM, ACQUAL and the grid watch are off. REVSTOP always ends it. GRID_WATCH_ARM: GSETTLE after the start the watch is on.
GRID with a deviation held: GDTIME later reverse supply is over and event bit 6 is set. Each with its frame.
Rests on R417, R418, R419, R420, R421, R422, 14_charging.md. -/
def Obligations.AcPortHandsOverAndFeedsBack : Prop :=
  ∀ s : State, Inv s →
    (∀ tz : Nat, s.ac.qualAt = some tz →
      Runs .acQualified s fun t => t.now = max s.now (tz + 2000 * msec) ∧ t.ac = { s.ac with acqual := true } ∧ OnlyChanges [.now, .ac] s t)
    ∧ (acActs s = true →
      let started := fun (t : State) => t.ac.handover = true ∧ t.ac.ramping = true ∧ t.ac.acqual = false ∧ t.ac.lossAt = t.now ∧ bitOf t.ac.evt 5 = true ∧ t.ac.rampFrom = (portAt s 1).iset;
      (∀ tl : Nat, s.ac.lowAt = some tl →
        Runs (.srclost false) s fun t => t.now = max s.now (tl + acLossdet s) ∧ started t ∧ OnlyChanges (traced [.now, .ac]) s t)
      ∧ (s.ac.lockDrop = true → Runs (.srclost true) s fun t => t.now = s.now ∧ started t ∧ OnlyChanges (traced [.now, .ac]) s t))
    ∧ (s.ac.handover = true →
      (s.ac.ramping = true →
        Runs .handoverRampEnd s fun t =>
          t.now = max s.now (s.ac.lossAt + acHramp s) ∧ (portAt t 1).phase = 0 ∧ (portAt t 1).lastEnd = 2 ∧ t.ac.ramping = false
            ∧ t.ac.handover = true ∧ (portAt t 0).phase = (portAt s 0).phase ∧ OnlyChanges (traced [.now, .buoys, .beamsCs, .beamsDs, .lhCs, .lhDs, .pwmCs, .pwmDs, .mach, .candle, .prot, .conv, .ports, .ac, .gact, .temp, .lamp]) s t)
      ∧ Runs .handoverEnd s fun t =>
        t.now = max s.now (s.ac.lossAt + acHotime s) ∧ t.ac.handover = false ∧ (t.ac.qualAt = some t.now ∨ t.ac.qualAt = none)
          ∧ (s.mains.locked = false → t.ac.qualAt = none) ∧ OnlyChanges [.now, .ac] s t)
    ∧ (WriteOpen s .cs →
      (Runs .revstart s fun t =>
        let c := revStatus s;
        t.ac.cmdStat = wd (c * 2 ^ 24 + 2)
          ∧ (c = 0 → Answered t 0 [] ∧ t.ac.reverse = true ∧ t.ac.revAt = s.now ∧ t.ac.acqual = false ∧ t.ac.grid = false
            ∧ t.mains.pendForm = true)
          ∧ (c ≠ 0 → Refused t c ∧ t.ac.reverse = s.ac.reverse ∧ t.mains = s.mains ∧ t.ports = s.ports) ∧ OnlyChanges (traced [.acc, .buoys, .beamsCs, .beamsDs, .mains, .lhCs, .lhDs, .pwmCs, .pwmDs, .mach, .candle, .prot, .conv, .ports, .ac, .gact, .temp, .lamp]) s t)
      ∧ Runs .revstop s fun t =>
        Answered t 0 [] ∧ t.ac.reverse = false ∧ t.ac.grid = false ∧ t.mains.pendForm = false ∧ (portAt t 1).phase = (portAt s 1).phase
          ∧ OnlyChanges (traced [.acc, .buoys, .beamsCs, .beamsDs, .mains, .lhCs, .lhDs, .pwmCs, .pwmDs, .mach, .candle, .prot, .conv, .ports, .ac, .gact, .temp, .lamp]) s t)
    ∧ (s.ac.reverse = true →
      (s.ac.grid = false →
        Runs .gridWatchArm s fun t => t.now = max s.now (s.ac.revAt + acGsettle s) ∧ t.ac = { s.ac with grid := true } ∧ OnlyChanges [.now, .ac] s t)
      ∧ ∀ tg : Nat, s.ac.grid = true → s.ac.gdevAt = some tg →
        Runs .grid s fun t =>
          t.now = max s.now (tg + acGdtime s) ∧ t.ac.reverse = false ∧ t.ac.grid = false ∧ t.mains.pendForm = false ∧ bitOf t.ac.evt 6 = true
            ∧ OnlyChanges (traced [.now, .buoys, .beamsCs, .beamsDs, .mains, .lhCs, .lhDs, .pwmCs, .pwmDs, .mach, .candle, .prot, .conv, .ports, .ac, .gact, .temp, .lamp]) s t)

/-- A pre-driver fault turns its gates off, a clear spares what persists, duties follow DRIVE, and stall stops the drive.
VDSOC of a gate that is on latches, and every gate of that actuator is off. BSUV of a resolved bootstrap in order turns its high
gate off until BOOTSTRAP_RECOVERED. SUPUV_BRIDGE of a resolved supply in order turns every gate off; BRIDGE_SUPPLY_IN_RANGE ends
that and changes nothing else. GX_CLR, writes being served, clears the latches of its mask whose condition has gone, keeps the
others, and is refused exactly where one of the mask persists. GEAR_DUTY_UPDATE of an actuator with an update point ahead writes
each of its channels' duty shadow three cycles before it. OVERCUR: OCT after the limit began event bit 4 is set, once. STALL of
a driven actuator: STALLT after its last count or drive the drive is treated as 0. Each with its frame.
Rests on R433, R434, R437, R439, R442, R446, 15_gearbox_actuators.md. -/
def Obligations.PreDriversAndActuatorsAreSupervised : Prop :=
  ∀ s : State, Inv s →
    (∀ (gd : Fin 8) (high : Bool), (if high then gateHigh s gd.val else gateLow s gd.val) = true →
      Runs (.vdsoc gd high) s fun t =>
        (nth t.gd gd.val).vdsoc = true ∧ (∀ k, k ≠ gd.val → nth t.gd k = nth s.gd k)
          ∧ (∀ g, gxAct s g = gxAct s gd.val → gateHigh t g = false ∧ gateLow t g = false)
          ∧ (gxAct s gd.val < 3 → bitOf (nth t.gact (gxAct s gd.val)).evt 1 = true) ∧ OnlyChanges (traced [.gd, .gact]) s t)
    ∧ (∀ gd : Fin 8, (nth s.gd gd.val).uvUnres = false →
      ((nth s.gd gd.val).uv = false →
        Runs (.bsuv gd) s fun t =>
          (nth t.gd gd.val).uv = true ∧ gateHigh t gd.val = false ∧ (∀ k, k ≠ gd.val → nth t.gd k = nth s.gd k) ∧ OnlyChanges (traced [.gd, .gact]) s t)
      ∧ Runs (.bootstrapRecovered gd) s fun t =>
        nth t.gd gd.val = { nth s.gd gd.val with uv := false } ∧ (∀ k, k ≠ gd.val → nth t.gd k = nth s.gd k) ∧ OnlyChanges [.gd] s t)
    ∧ (s.bridgeUnres = false →
      (s.bridgeBad = false →
        Runs .supuvBridge s fun t =>
          t.bridgeBad = true ∧ (∀ g, gateHigh t g = false ∧ gateLow t g = false)
            ∧ (∀ g ∈ gdUsed s, gxAct s g < 3 → bitOf (nth t.gact (gxAct s g)).evt 3 = true) ∧ OnlyChanges (traced [.bridgeBad, .gact]) s t)
      ∧ Runs .bridgeSupplyInRange s fun t => t.bridgeBad = false ∧ OnlyChanges [.bridgeBad] s t)
    ∧ (∀ mask present : Byte, WriteOpen s .cs →
      let stay := fun (g : Nat) => hasBit mask.toNat g = true ∧ (nth s.gd g).vdsoc = true ∧ hasBit present.toNat g = true;
      Runs (.gxClr mask present) s fun t =>
        ((∀ g, g < 8 → ¬ stay g) → Answered t 0 []) ∧ ((∃ g, g < 8 ∧ stay g) → t.acc.status = 4)
          ∧ (∀ g, g < 8 → (hasBit mask.toNat g = false ∨ stay g → nth t.gd g = nth s.gd g)
            ∧ (hasBit mask.toNat g = true → ¬ stay g → nth t.gd g = { nth s.gd g with vdsoc := false })) ∧ OnlyChanges [.freeCtr, .acc, .gd] s t)
    ∧ (∀ (a : Fin 3) (u : Nat), (actDef s a.val).isSome = true → s.sys.ready = true → gearUpdate s a.val = some u → (actChans s a.val).Nodup →
      Runs (.gearDutyUpdate a) s fun t =>
        t.now = max s.now (u - 3) ∧ (nth t.gact a.val).pattern = actPattern s a.val
          ∧ (∀ k, k < (actChans s a.val).length →
            let c := (actChans s a.val).getD k 0;
            (nth t.pwmCs.chans c).dash = (nth s.pwmCs.chans c).dash.write t.now (wi (gearDuty s a.val k)))
          ∧ (∀ c, c ∉ actChans s a.val → nth t.pwmCs.chans c = nth s.pwmCs.chans c) ∧ OnlyChanges [.now, .pwmCs, .pwmDs, .gact] s t)
    ∧ (∀ (a : Fin 3) (tl : Nat), (nth s.gact a.val).limAt = some tl → (nth s.gact a.val).ocDone = false →
      Runs (.overcur a) s fun t =>
        t.now = max s.now (tl + fld (actW s a.val 3) 15 0 * msec) ∧ (nth t.gact a.val).ocDone = true ∧ bitOf (nth t.gact a.val).evt 4 = true
          ∧ (∀ k, k ≠ a.val → nth t.gact k = nth s.gact k) ∧ OnlyChanges (traced [.now, .gact]) s t)
    ∧ (∀ a : Fin 3,
      let x := nth s.gact a.val;
      (actDef s a.val).isSome = true → x.stalled = false → fld (actW s a.val 2) 15 0 ≤ x.drive.toInt.natAbs →
      Runs (.stall a) s fun t =>
        t.now = max s.now (max (max x.posAt x.driveAt) (s.t0.getD 0) + fld (actW s a.val 2) 31 16 * msec) ∧ actDrive t a.val = 0
          ∧ (nth t.gact a.val).stalled = true ∧ bitOf (nth t.gact a.val).evt 5 = true ∧ (∀ k, k ≠ a.val → nth t.gact k = nth s.gact k)
          ∧ OnlyChanges (traced [.now, .gact]) s t)

/-- Temperatures are read and judged, F moves by its steps, delays and curves are measured, FREEZE is written.
TEMPERATURE_SAMPLE of a configured channel from start-up step 8 on, at its due time: an external code outside the electrical
range reads LIMIT plus 16, another the converted value, an on-die code itself; the channel is known, at its limit exactly where
the reading is LIMIT or more, and no other channel's reading changes. THROTTLE_UPDATE, 1 ms after the last: the DS die notes its
target; of a ready block F rises by at most its up step and falls by at most its down step, and keeps its value while the CS die
is in reset. LAMP_MEASUREMENT notes its time, and the amplitude sums start anew. SWITCHING_DELAY_EDGE of a leg puts the delay
first of at most 1,024. COOLING_CURVE_START of an inhibited channel 10 K above ambient starts its curve after 2 s;
COOLING_CURVE_END ends it after 60 s and keeps a time constant that it yields. REPLAN_TARGET runs each second, unless class 3 is
deferred (assumption log 184). LA_FREEZE_WRITE, writes being served, takes bit 0. Each with its frame.
Rests on R450, R451, R456, R459, R460, R462, R467, 16_thermal_ageing.md. -/
def Obligations.ChannelsSampleThrottleAndAge : Prop :=
  ∀ s : State, Inv s →
    (∀ (c : Fin 28) (code : BitVec 16), (thRec s c.val).isSome = true → 8 ≤ s.sys.step ∨ s.sys.ready = true →
      let x := code.toNat % 4096;
      let r := if thOutside s c.val x then thLimit s c.val + 16 else if c.val < 16 then thConvert s c.val x else code.toInt;
      Runs (.temperatureSample c code) s fun t =>
        let y := tempAt t c.val;
        t.now = max s.now (tempAt s c.val).nextAt ∧ y.val = BitVec.ofInt 16 r ∧ y.unknown = false ∧ y.broken = thOutside s c.val x
          ∧ (y.limit = true ↔ thLimit s c.val ≤ r)
          ∧ (y.limit = true → (tempAt s c.val).limit = false → bitOf y.evt 2 = true)
          ∧ (y.broken = true → (tempAt s c.val).broken = false → bitOf y.evt 1 = true)
          ∧ (∀ k, k ≠ c.val → (tempAt t k).val = (tempAt s k).val ∧ (tempAt t k).limit = (tempAt s k).limit) ∧ OnlyChanges (traced [.now, .buoys, .beamsCs, .beamsDs, .lhCs, .lhDs, .pwmCs, .pwmDs, .mach, .candle, .prot, .conv, .ac, .gact, .temp, .lamp]) s t)
    ∧ (s.sys.ready = true ∨ s.sys.dsReady = true →
      Runs .throttleUpdate s fun t =>
        t.now = max s.now ((if s.lamp.thrAt = 0 then s.t0.getD 0 else s.lamp.thrAt) + msec) ∧ t.lamp.thrAt = t.now
          ∧ (t.lamp.fDs, t.lamp.dsLimch) = dieTarget s .ds
          ∧ (s.sys.ready = false → t.lamp.fCs = s.lamp.fCs) ∧ (s.sys.ready = true → t.lamp.fInit = true)
          ∧ (s.sys.ready = true → s.lamp.fInit = true → t.lamp.fCs ≤ s.lamp.fCs + fld (thCfg s 0) 31 16 ∧ s.lamp.fCs ≤ t.lamp.fCs + fld (thCfg s 0) 15 0)
          ∧ OnlyChanges (traced [.now, .buoys, .beamsCs, .beamsDs, .lhCs, .lhDs, .pwmCs, .pwmDs, .mach, .candle, .prot, .conv, .ac, .gact, .temp, .lamp]) s t)
    ∧ (s.csLoaded = true →
      (∀ cs ds : BitVec 16,
        Runs (.lampMeasurement (.slack cs ds)) s fun t =>
          t.now = max s.now (s.lamp.slackAt + 10000 * msec) ∧ t.lamp.slackAt = t.now ∧ t.lamp.slackCs = cs ∧ t.lamp.slackDs = ds
            ∧ OnlyChanges (traced [.now, .mem, .nv, .fb, .lamp]) s t)
      ∧ (Runs (.lampMeasurement .amplitude) s fun t =>
        t.now = max s.now (s.lamp.ampAt + 1000 * msec) ∧ t.lamp.ampAt = t.now ∧ (nth t.fb 0).res.aN = 0 ∧ (nth t.fb 1).res.aN = 0
          ∧ ((nth s.fb 0).res.aN ≠ 0 → t.lamp.res0 = BitVec.ofNat 16 (divHalfAway (nth s.fb 0).res.aSum (nth s.fb 0).res.aN).toNat)
          ∧ OnlyChanges (traced [.now, .mem, .nv, .fb, .lamp]) s t)
      ∧ (s.kp.defer3 = false → Runs .replanTarget s fun t =>
        t.now = max s.now ((if s.lamp.replanAt = 0 then s.t0.getD 0 else s.lamp.replanAt) + 1000 * msec) ∧ t.lamp.replanAt = t.now
          ∧ t.lamp.fences.length = s.lamp.fences.length ∧ OnlyChanges [.now, .lamp] s t))
    ∧ (∀ (ch : Fin 48) (high turnOn : Bool) (delay : BitVec 16), isLeg s ch.val = true → ch.val < s.lamp.legs.length →
      Runs (.switchingDelayEdge ch high turnOn delay) s fun t =>
        let x := legDelay s ch.val;
        let y := legDelay t ch.val;
        let put := fun (l : List Nat) => (delay.toNat :: l).take 1024;
        y.hOn = (if high ∧ turnOn then put x.hOn else x.hOn) ∧ y.hOff = (if high ∧ ¬ turnOn then put x.hOff else x.hOff)
          ∧ y.lOn = (if ¬ high ∧ turnOn then put x.lOn else x.lOn) ∧ y.lOff = (if ¬ high ∧ ¬ turnOn then put x.lOff else x.lOff)
          ∧ (∀ k, k ≠ ch.val → legDelay t k = legDelay s k) ∧ OnlyChanges (traced [.mem, .nv, .lamp]) s t)
    ∧ (∀ (c : Fin 28) (ti : Nat), s.lamp.inhAt = some ti → (thRec s c.val).isSome = true → thZmeas s c.val = true → (tempAt s c.val).curveAt = none →
      thVal s (fld (thCfg s 3) 4 0) + 160 ≤ thVal s c.val →
      Runs (.coolingCurveStart c) s fun t =>
        t.now = max s.now (ti + 2000 * msec) ∧ (tempAt t c.val).curveAt = some t.now ∧ (tempAt t c.val).t0v = thVal s c.val
          ∧ (∀ k, k ≠ c.val → tempAt t k = tempAt s k) ∧ OnlyChanges [.now, .temp] s t)
    ∧ (∀ (c : Fin 28) (tc : Nat), (tempAt s c.val).curveAt = some tc →
      Runs (.coolingCurveEnd c) s fun t =>
        let tau := curveTau (s.advanceTo (tc + 60000 * msec)) c.val;
        t.now = max s.now (tc + 60000 * msec) ∧ (tempAt t c.val).curveAt = none
          ∧ (tau = none → (tempAt t c.val).tau = (tempAt s c.val).tau)
          ∧ (∀ v, tau = some v → (tempAt t c.val).tau = some v ∧ (tempAt t c.val).tau0 = some ((tempAt s c.val).tau0.getD v))
          ∧ (∀ k, k ≠ c.val → tempAt t k = tempAt s k) ∧ OnlyChanges (traced [.now, .mem, .nv, .temp, .lamp]) s t)
    ∧ (∀ value : Word, WriteOpen s .cs →
      Runs (.laFreezeWrite value) s fun t => Answered t 0 [] ∧ t.lamp = { s.lamp with freeze := bitOf value 0 } ∧ OnlyChanges [.acc, .lamp] s t)

/-- A CAN controller integrates, arbitrates, sends, counts errors, goes bus-off, recovers, and serves its buffers.
CAN_INTEGRATION_END of an integrating controller with a resolved input: it is active or passive by its counters. CAN_ARBITRATION
of a participating one that does not only listen: with nothing SENDING the buffer that goes first is SENDING. CAN_FRAME_SENT of
a host buffer: SENT, or CANCELLED-SENT where a cancel waits, TEC one less, stamped with the frame's start. CAN_BUS_ERROR: the
counters given, with the state they make; above 255 bus-off, and one more occurrence is counted; arbitration lost changes no
counter. BUS_OFF_RECOVERY_END: error-active with counters 0. TX_REQ, TX_CANCEL and a buffer write, writes being served, act on a
host buffer and are refused with 0x20 on the device buffer, request and write with 0x21 on a busy one. POP, FLUSH and RECOVER
act on FIFO and state. No other controller changes. Each with its frame.
Rests on R478, R479, R480, R482, R483, R485, 17_can_fd.md. -/
def Obligations.CanBuffersAndErrorStates : Prop :=
  ∀ (n : Fin 3) (s : State), Inv s → (canAt s n.val).tx.length = 3 →
    let x := canAt s n.val;
    let other := fun (t : State) => ∀ k, k ≠ n.val → canAt t k = canAt s k;
    let rest := fun (t : State) (b : Nat) => ∀ k, k ≠ b → txAt t n.val k = txAt s n.val k;
    (x.state = 1 → x.rxUnres = false →
      Runs (.canIntegrationEnd n) s fun t =>
        canAt t n.val = { x with state := if 127 < x.tec ∨ 127 < x.rec_ then 3 else 2 } ∧ other t ∧ OnlyChanges [.can] s t)
    ∧ (x.state = 2 ∨ x.state = 3 → cnListen s n.val = false → sendingBuf s n.val = none →
      Runs (.canArbitration n) s fun t =>
        (∀ b, arbChoice s n.val = some b → b < 3 ∧ (txAt t n.val b).status = 2 ∧ (canAt t n.val).sofN = (netNs s s.now).toNat ∧ rest t b)
          ∧ (arbChoice s n.val = none → t = s) ∧ other t ∧ OnlyChanges [.can] s t)
    ∧ (∀ b, sendingBuf s n.val = some b → isDevBuf s n.val b = false →
      Runs (.canFrameSent n) s fun t =>
        (txAt t n.val b).status = (if (txAt s n.val b).cancel then 4 else 3) ∧ (txAt t n.val b).ts = x.sofN ∧ (canAt t n.val).tec = x.tec - 1
          ∧ (canAt t n.val).rec_ = x.rec_ ∧ rest t b ∧ other t ∧ OnlyChanges (traced [.can, .net]) s t)
    ∧ (∀ (tx arbLost : Bool) (tec rec : BitVec 16), x.state = 2 ∨ x.state = 3 →
      Runs (.canBusError n tx arbLost tec rec) s fun t =>
        let y := canAt t n.val;
        (arbLost = true → y.tec = x.tec ∧ y.rec_ = x.rec_ ∧ y.state = x.state)
          ∧ (arbLost = false → y.tec = tec.toNat ∧ y.rec_ = rec.toNat)
          ∧ (arbLost = false → tec.toNat ≤ 255 → (y.state = 3 ↔ 127 < tec.toNat ∨ 127 < rec.toNat) ∧ y.boCnt = x.boCnt)
          ∧ (arbLost = false → 255 < tec.toNat → y.state = (if cnBit s n.val 15 then 4 else 5) ∧ y.boCnt = min 65535 (x.boCnt + 1)
            ∧ bitOf y.evt 1 = true)
          ∧ (y.fifo = x.fifo) ∧ other t ∧ OnlyChanges (traced [.can, .net]) s t)
    ∧ (x.state = 5 →
      Runs (.busOffRecoveryEnd n) s fun t =>
        canAt t n.val = { x with state := 2, tec := 0, rec_ := 0, boWait := false } ∧ other t ∧ OnlyChanges [.can] s t)
    ∧ (WriteOpen s .cs →
      (∀ buf : Fin 3,
        let tx := txAt s n.val buf.val;
        (Runs (.txReq n buf) s fun t =>
          (isDevBuf s n.val buf.val = true → Refused t 0x20 ∧ t.can = s.can)
            ∧ (isDevBuf s n.val buf.val = false → txBusy s n.val buf.val = true → Refused t 0x21 ∧ t.can = s.can)
            ∧ (isDevBuf s n.val buf.val = false → txBusy s n.val buf.val = false →
              Answered t 0 [] ∧ txAt t n.val buf.val = { tx with status := 1, cancel := false, retx := 0 })
            ∧ rest t buf.val ∧ other t ∧ OnlyChanges [.acc, .can] s t)
        ∧ (Runs (.txCancel n buf) s fun t =>
          (isDevBuf s n.val buf.val = true → Refused t 0x20 ∧ t.can = s.can)
            ∧ (isDevBuf s n.val buf.val = false → Answered t 0 [] ∧ txAt t n.val buf.val
                = if tx.status = 1 then { tx with status := 5 } else if tx.status = 2 then { tx with cancel := true } else tx)
            ∧ (isDevBuf s n.val buf.val = false → rest t buf.val) ∧ other t ∧ OnlyChanges [.freeCtr, .acc, .can, .net] s t)
        ∧ (∀ (offset : Fin 96) (value : Word), txWritable offset.val = true →
          Runs (.txBufferWrite n buf offset value) s fun t =>
            (isDevBuf s n.val buf.val = true → Refused t 0x20 ∧ t.can = s.can)
              ∧ (isDevBuf s n.val buf.val = false → txBusy s n.val buf.val = true → Refused t 0x21 ∧ t.can = s.can)
              ∧ (isDevBuf s n.val buf.val = false → txBusy s n.val buf.val = false → Answered t 0 [] ∧ txAt t n.val buf.val
                = if offset.val = 0 then { tx with hdr := value } else if offset.val = 4 then { tx with dlc := value &&& 0xF }
                  else { tx with data := tx.data.set ((offset.val - 0x20) / 4) value })
              ∧ rest t buf.val ∧ other t ∧ OnlyChanges [.acc, .can] s t))
      ∧ (Runs (.pop n) s fun t => Answered t 0 [] ∧ canAt t n.val = { x with fifo := x.fifo.tail } ∧ other t ∧ OnlyChanges [.acc, .can] s t)
      ∧ (Runs (.flush n) s fun t => Answered t 0 [] ∧ canAt t n.val = { x with fifo := [] } ∧ other t ∧ OnlyChanges [.acc, .can] s t)
      ∧ (Runs (.recover n) s fun t =>
        Answered t 0 [] ∧ canAt t n.val = (if x.state = 4 ∧ x.boWait = true then { x with state := 5, boWait := false } else x) ∧ other t
          ∧ OnlyChanges [.acc, .can] s t))

/-- A received frame goes to the FIFO of its filter; network time is set, followed, lost and read as its role says.
CAN_FRAME_RECEIVED on a participating controller that can take it: REC falls by one, from above 127 to one of 119 to 127. The
safety message goes to the Watch Room with the Keeper running; of a frame that is neither that nor the reference message, one
that no filter matches is dropped, and one whose first matching filter stores unprotected frames is, with filter and time stamp,
last in a FIFO with room, and lost and counted in a full one. REFERENCE_MESSAGE_DUE of a ready master, TREFPER after the last:
the sequence is one further and a free device buffer is PENDING. NTLOSS of a ready synchronised follower: hold-over without sync
and event bit 7. SLEW_END: from that time on no slew, the time unbroken. CN_NTSETHI_WRITE, writes being served, sets a master's
time to the two words and leaves a follower's. CN_NTLO_READ answers the low word and latches the high one. Each with its frame.
Rests on R484, R485, R488, R490, R491, R492, R497, 17_can_fd.md. -/
def Obligations.CanReceivesAndKeepsNetworkTime : Prop :=
  ∀ s : State, Inv s →
    (∀ (n : Fin 3) (frame : CanFrame) (sofAgo : Nat),
      let x := canAt s n.val;
      let safe := bitOf (cnW s n.val 9) 31 && idMatch frame (bitOf (cnW s n.val 9) 29) (fld (cnW s n.val 9) 28 0);
      let counted := fun (t : State) =>
        let y := canAt t n.val;
        (x.rec_ ≤ 127 → y.rec_ = x.rec_ - 1) ∧ (127 < x.rec_ → 119 ≤ y.rec_ ∧ y.rec_ ≤ 127) ∧ y.tec = x.tec ∧ y.tx = x.tx
          ∧ (∀ k, k ≠ n.val → canAt t k = canAt s k) ∧ OnlyChanges (traced [.buoys, .beamsCs, .beamsDs, .lhCs, .lhDs, .pwmCs, .pwmDs, .mach, .candle, .prot, .wr, .conv, .ac, .gact, .temp, .lamp, .can, .net]) s t
      x.state = 2 ∨ x.state = 3 → (frame.fdf && !cnFden s n.val) = false →
      (safe = true → s.sys.keeperUp = true → s.kp.restarting = false →
        Runs (.canFrameReceived n frame sofAgo) s fun t =>
          (canAt t n.val).fifo = x.fifo ∧ counted t
            ∧ t.wr.frames = s.wr.frames ++ [⟨if frame.fdf && decide (frame.dlc.val = 15) then frame.data.take 52 else frame.data, .can n.val⟩])
      ∧ (safe = false → timeRole s ≠ (n.val, 2) ∨ idMatch frame (bitOf (cnW s n.val 5) 29) (fld (cnW s n.val 5) 28 0) = false →
        (firstFilter s n.val frame = none →
          Runs (.canFrameReceived n frame sofAgo) s fun t => (canAt t n.val).fifo = x.fifo ∧ counted t)
        ∧ (∀ (f : Nat) (w : List Word), firstFilter s n.val frame = some (f, w) → cnOf s 3 n.val f = none → bitOf (wat w 0) 8 = true →
          Runs (.canFrameReceived n frame sofAgo) s fun t =>
            let y := canAt t n.val;
            let r : RxFrame := { frame := frame, filter := f, protFail := false, ts := (netNs s (s.now - sofAgo)).toNat }
            (x.fifo.length < 64 → y.fifo = x.fifo ++ [r] ∧ y.lost = x.lost)
              ∧ (64 ≤ x.fifo.length → y.fifo = x.fifo ∧ y.lost = satInc16 x.lost ∧ bitOf y.evt 3 = true) ∧ counted t)))
    ∧ (∀ n, timeRole s = (n, 1) → s.sys.ready = true →
      Runs .referenceMessageDue s fun t =>
        t.now = max s.now ((if s.net.refAt = 0 then s.t0.getD 0 else s.net.refAt) + refPeriod s n) ∧ t.net.refAt = t.now
          ∧ t.net.seq = s.net.seq + 1
          ∧ (n < 3 → (canAt s n).tx.length = 3 → cnDevtx s n = true → txBusy s n 2 = false →
            (txAt t n 2).status = 1 ∧ (txAt t n 2).dlc = 9 ∧ fld (txAt t n 2).hdr 29 0 = fld (cnW s n 5) 29 0)
          ∧ OnlyChanges [.now, .freeCtr, .can, .net] s t)
    ∧ (∀ n, timeRole s = (n, 2) → s.sys.ready = true → s.net.holdover = false →
      Runs .ntloss s fun t =>
        t.now = max s.now ((if s.net.evalAt = 0 then s.t0.getD 0 else s.net.evalAt) + fld (cnW s n 6) 15 8 * refPeriod s n)
          ∧ t.net = { s.net.withSync false t.now with holdover := true } ∧ (n < 3 → bitOf (canAt t n).evt 7 = true) ∧ OnlyChanges (traced [.now, .beamsCs, .beamsDs, .lhCs, .lhDs, .pwmCs, .pwmDs, .mach, .prot, .temp, .lamp, .can, .net]) s t)
    ∧ (∀ tz : Nat, s.net.slewAt = some tz →
      Runs .slewEnd s fun t =>
        t.now = max s.now tz ∧ t.net.slew = 0 ∧ t.net.slewAt = none ∧ t.net.anchorT = t.now ∧ t.net.r = s.net.r
          ∧ (s.net.anchorT ≠ 0 → t.net.anchorN = (netRun s).followN t.now) ∧ OnlyChanges [.now, .beamsCs, .beamsDs, .lhCs, .lhDs, .pwmCs, .pwmDs, .net] s t)
    ∧ (∀ value : Word, WriteOpen s .cs →
      Runs (.cnNtsethiWrite value) s fun t =>
        Answered t 0 [] ∧ ((timeRole s).2 = 1 → localNs s s.now + t.net.ofs = ((value.toNat * 2 ^ 32 + s.net.setLo.toNat : Nat) : Int))
          ∧ ((timeRole s).2 ≠ 1 → t.net = s.net) ∧ OnlyChanges (traced [.acc, .beamsCs, .beamsDs, .lhCs, .lhDs, .pwmCs, .pwmDs, .can, .net]) s t)
    ∧ (ReadOpen s .cs →
      Runs .cnNtloRead s fun t => Answered t 0 [lo32 (netNs s s.now)] ∧ t.net = { s.net with latHi := hi32 (netNs s s.now) } ∧ OnlyChanges [.acc, .net] s t)
end

