-- ==== Sys2Proof/Laws/Gates.lean ====
section
/-! SUPPORT. What an access through the Keeper can do, said once: `regGate` and `writeGate` answer nothing, answer a refusal, or run
the access; and they run it where the access is open. -/

namespace Sys2Proof.Machine

/-- A register access is not answered, is answered BUSY or XING, or runs (R35, R515, R516). -/
theorem regGate_cases (s : State) (d : Die) (f : State → State) :
    ((s.sys.keeperUp = false ∨ s.kp.restarting = true) ∧ regGate s d f = s)
      ∨ (s.sys.keeperUp = true ∧ s.kp.restarting = false
          ∧ ((s.kp.shed2 = true ∧ regGate s d f = s.answer 3 0 [])
            ∨ (s.kp.shed2 = false ∧ d = .ds ∧ xingDown s = true ∧ regGate s d f = s.answer 2 0 [])
            ∨ (s.kp.shed2 = false ∧ (d = .ds → xingDown s = false) ∧ regGate s d f = f s))) := by
  unfold regGate
  cases s.sys.keeperUp <;> cases s.kp.restarting <;> cases s.kp.shed2 <;> cases d <;> cases xingDown s <;> simp

/-- An open access runs. -/
theorem regGate_open {s : State} {d : Die} (h : ReadOpen s d) (f : State → State) : regGate s d f = f s := by
  obtain ⟨a, b, c, e⟩ := h
  unfold regGate
  cases d
  · simp [a, b, c]
  · simp [a, b, c, e rfl]

/-- A register write is not answered, is refused by the bar on writes, or is a register access (R60, R516, R522, R543). -/
theorem writeGate_cases (s : State) (d : Die) (f : State → State) :
    ((s.sys.keeperUp = false ∨ s.kp.restarting = true) ∧ writeGate s d f = s)
      ∨ (s.sys.keeperUp = true ∧ s.kp.restarting = false
          ∧ ((∃ u, writeBar s = some (4, u) ∧ writeGate s d f = s.refuse u)
            ∨ (∃ st u, st ≠ 4 ∧ writeBar s = some (st, u) ∧ writeGate s d f = s.answer st u [])
            ∨ (writeBar s = none ∧ writeGate s d f = regGate s d f))) := by
  unfold writeGate
  cases s.sys.keeperUp <;> cases s.kp.restarting <;> simp
  split
  · rename_i st u e
    by_cases h : st = 4
    · subst h; exact .inl ⟨u, e, by simp⟩
    · exact .inr (.inl ⟨st, h, u, e, by simp [h]⟩)
  · rename_i e
    exact .inr (.inr ⟨e, rfl⟩)

/-- An open write runs. -/
theorem writeGate_open {s : State} {d : Die} (h : WriteOpen s d) (f : State → State) : writeGate s d f = f s := by
  obtain ⟨r, b⟩ := h
  unfold writeGate
  simp [r.1, r.2.1, b, regGate_open r f]

end Sys2Proof.Machine
end

