-- ==== Sys2Proof/Laws/Memory.lean ====
section
/-! SUPPORT. Memory: a read after a write, and that every operation keeps the canonical form. -/

namespace Sys2Proof.Machine

/-- The canonical form of a list with a first cell. -/
theorem Memory.wf_cons (c : Host.Cell) (m : List Host.Cell) :
    Memory.wf (c :: m) = true ↔ c.2 ≠ 0 ∧ Memory.wf m = true ∧ ∀ e ∈ m.head?, c.1 < e.1 := by
  cases m with
  | nil => simp [Memory.wf]
  | cons e m =>
    simp [Memory.wf]
    constructor
    · rintro ⟨⟨h1, h2, h3⟩, h4, h5⟩; exact ⟨h1, ⟨⟨h2, h3⟩, h5⟩, h4⟩
    · rintro ⟨h1, ⟨⟨h2, h3⟩, h5⟩, h4⟩; exact ⟨⟨h1, h2, h3⟩, h4, h5⟩

/-- The canonical form as a sorted list. -/
theorem Memory.wf_iff (m : List Host.Cell) :
    Memory.wf m = true ↔ (∀ c ∈ m, c.2 ≠ 0) ∧ m.Pairwise fun a b => a.1 < b.1 := by
  induction m with
  | nil => simp [Memory.wf]
  | cons c m ih =>
    rw [Memory.wf_cons, ih, List.pairwise_cons]
    constructor
    · rintro ⟨h1, ⟨h2, h3⟩, h4⟩
      refine ⟨by simpa using ⟨h1, fun a b hb => h2 (a, b) hb⟩, ?_, h3⟩
      intro e he
      cases m with
      | nil => simp at he
      | cons d m =>
        have hd : c.1 < d.1 := h4 d (by simp)
        rcases List.mem_cons.mp he with rfl | he
        · exact hd
        · exact Nat.lt_trans hd ((List.pairwise_cons.mp h3).1 e he)
    · rintro ⟨h1, h2, h3⟩
      refine ⟨h1 c (by simp), ⟨fun e he => h1 e (by simp [he]), h3⟩, ?_⟩
      intro e he
      exact h2 e (List.mem_of_mem_head? he)

/-- What a written byte may put into the list. -/
theorem memPut_mem {m : List Host.Cell} {a : Nat} {b : Byte} {c : Host.Cell} (h : c ∈ memPut m a b) :
    c ∈ m ∨ (c = (a, b) ∧ b ≠ 0) := by
  induction m with
  | nil =>
    simp only [memPut] at h
    split at h
    · simp at h
    · simp at h; exact .inr ⟨h, ‹_›⟩
  | cons d m ih =>
    simp only [memPut] at h
    split at h
    · rcases List.mem_cons.mp h with rfl | h
      · simp
      · rcases ih h with h | h
        · exact .inl (by simp [h])
        · exact .inr h
    · split at h
      · split at h
        · exact .inl (by simp [h])
        · rcases List.mem_cons.mp h with rfl | h
          · exact .inr ⟨rfl, ‹_›⟩
          · exact .inl (by simp [h])
      · split at h
        · exact .inl h
        · rcases List.mem_cons.mp h with rfl | h
          · exact .inr ⟨rfl, ‹_›⟩
          · exact .inl h

/-- A byte write keeps the canonical form. -/
theorem Memory.wf_memPut {m : List Host.Cell} (a : Nat) (b : Byte) (h : Memory.wf m = true) :
    Memory.wf (memPut m a b) = true := by
  rw [Memory.wf_iff] at h ⊢
  refine ⟨fun c hc => ?_, ?_⟩
  · rcases memPut_mem hc with hc | ⟨rfl, hb⟩
    · exact h.1 c hc
    · exact hb
  · obtain ⟨-, h⟩ := h
    induction m with
    | nil => simp only [memPut]; split <;> simp
    | cons d m ih =>
      rw [List.pairwise_cons] at h
      simp only [memPut]
      split
      · rw [List.pairwise_cons]
        refine ⟨fun c hc => ?_, ih h.2⟩
        rcases memPut_mem hc with hc | ⟨rfl, -⟩
        · exact h.1 c hc
        · assumption
      · split
        · split
          · exact h.2
          · rw [List.pairwise_cons]
            refine ⟨fun c hc => ?_, h.2⟩
            have := h.1 c hc
            simp only at *
            omega
        · split
          · rw [List.pairwise_cons]; exact h
          · rw [List.pairwise_cons, List.pairwise_cons]
            refine ⟨fun c hc => ?_, h⟩
            rcases List.mem_cons.mp hc with rfl | hc
            · simp only at *; omega
            · have := h.1 c hc
              simp only at *; omega

theorem Memory.wf_memPutBytes {m : List Host.Cell} (a : Nat) (bs : List Byte) (h : Memory.wf m = true) :
    Memory.wf (memPutBytes m a bs) = true := by
  induction bs generalizing m a with
  | nil => exact h
  | cons b bs ih => exact ih _ (Memory.wf_memPut a b h)

theorem Memory.wf_memPutWords {m : List Host.Cell} (a : Nat) (ws : List Word) (h : Memory.wf m = true) :
    Memory.wf (memPutWords m a ws) = true := Memory.wf_memPutBytes a _ h

/-- Cells dropped keep the canonical form. -/
theorem Memory.wf_filter {m : List Host.Cell} (f : Host.Cell → Bool) (h : Memory.wf m = true) :
    Memory.wf (m.filter f) = true := by
  rw [Memory.wf_iff] at h ⊢
  exact ⟨fun c hc => h.1 c (List.mem_filter.mp hc).1, h.2.filter f⟩

theorem Memory.wf_memErase {m : List Host.Cell} (a n : Nat) (h : Memory.wf m = true) :
    Memory.wf (memErase m a n) = true := Memory.wf_filter _ h

theorem Memory.wf_foldl {α : Type} {f : List Host.Cell → α → List Host.Cell}
    (hf : ∀ m x, Memory.wf m = true → Memory.wf (f m x) = true) (l : List α) {m : List Host.Cell}
    (h : Memory.wf m = true) : Memory.wf (l.foldl f m) = true := by
  induction l generalizing m with
  | nil => exact h
  | cons x l ih => exact ih (hf m x h)

/-- An address below every listed one reads as an unlisted address. -/
theorem memGet_below {m : List Host.Cell} {a : Nat} (h : ∀ c ∈ m, a < c.1) : memGet m a = 0 := by
  induction m with
  | nil => rfl
  | cons d m ih =>
    have h0 := h d (by simp)
    simp only [memGet]
    rw [if_neg (by omega)]
    exact ih fun c hc => h c (by simp [hc])

/-- A read after a byte write: the byte at its address, every other address as before. -/
theorem memGet_memPut {m : List Host.Cell} (h : Memory.wf m = true) (a : Nat) (b : Byte) (x : Nat) :
    memGet (memPut m a b) x = if x = a then b else memGet m x := by
  rw [Memory.wf_iff] at h
  obtain ⟨-, h⟩ := h
  induction m with
  | nil =>
    simp only [memPut]
    split
    · subst_vars; split <;> simp [memGet]
    · simp only [memGet]; split <;> split <;> simp_all
  | cons d m ih =>
    rw [List.pairwise_cons] at h
    simp only [memPut]
    split
    · simp only [memGet]
      split
      · rename_i h1 h2; rw [if_neg (by omega)]
      · rw [ih h.2]
    · split
      · rename_i h1 h2
        split
        · rename_i hb
          subst hb
          have hz : memGet m a = 0 := memGet_below fun c hc => by have := h.1 c hc; omega
          simp only [memGet]
          split
          · subst_vars; simpa using hz
          · rw [if_neg (by omega)]
        · simp only [memGet, h2]
          split
          · subst_vars; simp
          · rw [if_neg (fun e => ‹¬ a = x› e.symm)]
      · rename_i h1 h2
        split
        · rename_i hb
          subst hb
          split
          · rename_i hx
            subst hx
            exact memGet_below fun c hc => by
              rcases List.mem_cons.mp hc with rfl | hc
              · omega
              · have := h.1 c hc; omega
          · rfl
        · by_cases hx : x = a
          · rw [if_pos hx, hx]; simp [memGet]
          · rw [if_neg hx]
            exact if_neg fun e => hx e.symm

/-- A read at another address than the byte written. -/
theorem memGet_memPut_ne (m : List Host.Cell) {a x : Nat} (b : Byte) (h : x ≠ a) : memGet (memPut m a b) x = memGet m x := by
  have h' : ¬a = x := fun e => h e.symm
  induction m with
  | nil => simp only [memPut]; split <;> simp [memGet, h']
  | cons d m ih =>
    simp only [memPut]
    split
    · simp only [memGet, ih]
    · split
      · rename_i hd
        have hx : ¬d.1 = x := fun e => h' (hd.symm.trans e)
        split
        · simp only [memGet, if_neg hx]
        · simp only [memGet, if_neg hx, if_neg h']
      · split
        · rfl
        · exact if_neg h'

/-- A read outside the bytes written. -/
theorem memGet_memPutBytes_out (bs : List Byte) (m : List Host.Cell) {a x : Nat} (h : x < a ∨ a + bs.length ≤ x) :
    memGet (memPutBytes m a bs) x = memGet m x := by
  induction bs generalizing m a with
  | nil => rfl
  | cons b bs ih =>
    simp only [List.length_cons] at h
    exact (ih _ (by omega)).trans (memGet_memPut_ne m b (by omega))

theorem leBytes_length (n v : Nat) : (leBytes n v).length = n := by
  induction n generalizing v with
  | zero => rfl
  | succ n ih => simp [leBytes, ih]

theorem bytesOf_length (ws : List Word) : (bytesOf ws).length = 4 * ws.length := by
  induction ws with
  | nil => rfl
  | cons w ws ih =>
    simp only [bytesOf, List.flatMap_cons, List.length_append, List.length_cons] at ih ⊢
    rw [ih, wordBytes, leBytes_length]
    omega

/-- A read outside the words written. -/
theorem memGet_memPutWords_out (ws : List Word) (m : List Host.Cell) {a x : Nat} (h : x < a ∨ a + 4 * ws.length ≤ x) :
    memGet (memPutWords m a ws) x = memGet m x := memGet_memPutBytes_out _ m (by rwa [bytesOf_length])

end Sys2Proof.Machine
end

