-- ==== Sys2Proof/Laws/Moves.lean ====
section
/-! SUPPORT. What an operation can do to the state: `Moves P s t` says that t differs from s in the parts of the mask P
alone, that time has not run back, and that memory is still in its canonical form and the units still as many. -/

namespace Sys2Proof.Machine

/-- Outside the parts of the mask nothing differs; time does not run back; memory keeps its canonical form, the units their
number. -/
structure Moves (P : Nat) (s t : State) : Prop where
  same : ∀ p : Part, P.testBit p.ctorIdx = false → p.agree s t
  time : s.now ≤ t.now
  mem  : Memory.wf s.mem = true → Memory.wf t.mem = true
  size : shape s = shape State.reset → shape t = shape State.reset

theorem Part.agree_refl (p : Part) (s : State) : p.agree s s := by
  cases p <;> first | exact rfl | exact fun _ _ => rfl | exact ⟨rfl, rfl⟩ | exact ⟨rfl, rfl, rfl⟩

theorem Part.agree_trans {p : Part} {s t u : State} (h : p.agree s t) (k : p.agree t u) : p.agree s u := by
  cases p <;> first
    | exact Eq.trans k h
    | exact fun a ha => (k a ha).trans (h a ha)
    | exact ⟨k.1.trans h.1, k.2.trans h.2⟩
    | exact ⟨k.1.trans h.1, k.2.1.trans h.2.1, k.2.2.trans h.2.2⟩

theorem Moves.refl (P : Nat) (s : State) : Moves P s s := ⟨fun p _ => p.agree_refl s, Nat.le_refl _, id, id⟩

/-- A bit not in a mask is not in a part of it. -/
theorem mask_sub {P Q i : Nat} (h : P ||| Q = P) (hi : P.testBit i = false) : Q.testBit i = false := by
  rw [← h, Nat.testBit_or] at hi
  simpa using (Bool.or_eq_false_iff.mp hi).2

theorem Moves.mono {P Q : Nat} {s t : State} (h : Moves Q s t) (k : P ||| Q = P) : Moves P s t :=
  ⟨fun p hp => h.same p (mask_sub k hp), h.time, h.mem, h.size⟩

/-- One operation after another. -/
theorem Moves.via {P Q : Nat} {s t u : State} (h : Moves P s t) (k : Moves Q t u) (m : P ||| Q = P) : Moves P s u :=
  ⟨fun p hp => Part.agree_trans (h.same p hp) (k.same p (mask_sub m hp)), Nat.le_trans h.time k.time, fun w => k.mem
    (h.mem w), fun w => k.size (h.size w)⟩

theorem Moves.ite {P : Nat} {s t u : State} {c : Prop} [Decidable c] (h : c → Moves P s t) (k : ¬c → Moves P s u) :
    Moves P s (if c then t else u) := by
  split
  · exact h ‹_›
  · exact k ‹_›

theorem Moves.ite_fst {α : Type} {P : Nat} {s : State} {x y : State × α} {c : Prop} [Decidable c]
    (h : c → Moves P s x.1) (k : ¬c → Moves P s y.1) : Moves P s (if c then x else y).1 := by
  split
  · exact h ‹_›
  · exact k ‹_›

theorem Moves.foldl {α : Type} {P : Nat} {s : State} {f : State → α → State} (hf : ∀ t x, Moves P t (f t x))
    (l : List α) (t : State) (h : Moves P s t) : Moves P s (l.foldl f t) := by
  induction l generalizing t with
  | nil => exact h
  | cons x l ih => exact ih _ (h.via (hf t x) (by simp))

theorem Moves.fst {α : Type} {P : Nat} {s u : State} {p : State × α} {a : α} (h : Moves P s p.1) (e : p = (u, a)) :
    Moves P s u := by
  subst e
  exact h

/-- A mask in a mask in a mask. -/
theorem mask_trans {P Q R : Nat} (h : P ||| Q = P) (k : Q ||| R = Q) : P ||| R = P := by
  rw [← h, Nat.or_assoc, k]

/-- A named intermediate state. -/
theorem Moves.cut {P : Nat} {s x t : State} (h : Moves P s x) (k : Moves P s x → Moves P s t) : Moves P s t := k h

/-- A named intermediate state with an answer. -/
theorem Moves.cut_fst {α : Type} {P : Nat} {s t : State} {x : State × α} (h : Moves P s x.1)
    (k : Moves P s x.1 → Moves P s t) : Moves P s t := k h

/-- Some parts written over: the rest as it was. -/
theorem Moves.upd {P : Nat} {s u : State}
    {x0 : List Instr} {x1 : Nat} {x2 : Nat} {x3 : Word} {x4 : Word} {x5 : Option Nat} {x6 : Nat} {x7 : Word}
    {x8 : List Host.Cell} {x9 : Access} {x10 : Sys} {x11 : Supply} {x12 : Clocks} {x13 : Crossing} {x14 : Nv}
    {x15 : Image} {x16 : ImgMgr} {x17 : Bool} {x18 : Bool} {x19 : List Ctr} {x20 : List Buoy} {x21 : List Fb}
    {x22 : Nat} {x23 : List Beam} {x24 : List Beam} {x25 : Mains} {x26 : Lh} {x27 : Lh} {x28 : List Eng}
    {x29 : List Eng} {x30 : List Pair} {x31 : List Pair} {x32 : Pwm} {x33 : Pwm} {x34 : List Mach}
    {x35 : List Candle} {x36 : List Leg} {x37 : Prot} {x38 : Wr} {x39 : List Conv} {x40 : Nat} {x41 : List Port_}
    {x42 : Ac} {x43 : List Gd} {x44 : Bool} {x45 : Bool} {x46 : List Act} {x47 : List Temp} {x48 : Lamp}
    {x49 : List Can} {x50 : Net} {x51 : HostIf} {x52 : Keeper} {x53 : List Ck} {x54 : List Ck}
    (h : Moves P s u) (e : x0 = u.pending)
    (hs : ∀ p : Part, P.testBit p.ctorIdx = false → p.agree u (State.mk x0 x1 x2 x3 x4 x5 x6 x7 x8 x9 x10 x11 x12 x13
    x14 x15 x16 x17 x18 x19 x20 x21 x22 x23 x24 x25 x26 x27 x28 x29 x30 x31 x32 x33 x34 x35 x36 x37 x38 x39 x40 x41
    x42 x43 x44 x45 x46 x47 x48 x49 x50 x51 x52 x53 x54))
    (hn : u.now ≤ x1) (hm : Memory.wf u.mem = true → Memory.wf x8 = true)
    (hl : shape u = shape State.reset → shape (State.mk x0 x1 x2 x3 x4 x5 x6 x7 x8 x9 x10 x11 x12 x13
    x14 x15 x16 x17 x18 x19 x20 x21 x22 x23 x24 x25 x26 x27 x28 x29 x30 x31 x32 x33 x34 x35 x36 x37 x38 x39 x40 x41
    x42 x43 x44 x45 x46 x47 x48 x49 x50 x51 x52 x53 x54) = shape State.reset) :
    Moves P s (State.mk x0 x1 x2 x3 x4 x5 x6 x7 x8 x9 x10 x11 x12 x13 x14 x15 x16 x17 x18 x19 x20 x21 x22 x23 x24 x25
    x26 x27 x28 x29 x30 x31 x32 x33 x34 x35 x36 x37 x38 x39 x40 x41 x42 x43 x44 x45 x46 x47 x48 x49 x50 x51 x52 x53
    x54) :=
  ⟨fun p hp => Part.agree_trans (h.same p hp) (hs p hp), Nat.le_trans h.time hn, fun w => hm (h.mem w),
    fun w => hl (h.size w)⟩

end Sys2Proof.Machine
end

