-- ==== Sys2Proof/Laws/State.lean ====
section
/-! SUPPORT. What each update of State leaves in each field, so that no later proof unfolds a record update: for every update one
lemma on the fields it writes (`_new`) and one that names every field it leaves (`_rest`), of which simp makes a rule a field. -/

namespace Sys2Proof.Machine

variable (s : State)

@[simp] theorem State.advanceTo_new (t : Nat) :
    (s.advanceTo t).now = max s.now t := rfl

@[simp] theorem State.advanceTo_rest (t : Nat) :
    (s.advanceTo t).pending = s.pending ∧ (s.advanceTo t).freeCtr = s.freeCtr ∧ (s.advanceTo t).csOfs = s.csOfs
    ∧ (s.advanceTo t).dsOfs = s.dsOfs ∧ (s.advanceTo t).t0 = s.t0 ∧ (s.advanceTo t).netZero = s.netZero
    ∧ (s.advanceTo t).fwRev = s.fwRev ∧ (s.advanceTo t).mem = s.mem ∧ (s.advanceTo t).acc = s.acc
    ∧ (s.advanceTo t).sys = s.sys ∧ (s.advanceTo t).sup = s.sup ∧ (s.advanceTo t).clk = s.clk ∧ (s.advanceTo t).x = s.x
    ∧ (s.advanceTo t).nv = s.nv ∧ (s.advanceTo t).img = s.img ∧ (s.advanceTo t).im = s.im
    ∧ (s.advanceTo t).csLoaded = s.csLoaded ∧ (s.advanceTo t).dsLoaded = s.dsLoaded ∧ (s.advanceTo t).ctrs = s.ctrs
    ∧ (s.advanceTo t).buoys = s.buoys ∧ (s.advanceTo t).fb = s.fb ∧ (s.advanceTo t).fbTick = s.fbTick
    ∧ (s.advanceTo t).beamsCs = s.beamsCs ∧ (s.advanceTo t).beamsDs = s.beamsDs ∧ (s.advanceTo t).mains = s.mains
    ∧ (s.advanceTo t).lhCs = s.lhCs ∧ (s.advanceTo t).lhDs = s.lhDs ∧ (s.advanceTo t).engCs = s.engCs
    ∧ (s.advanceTo t).engDs = s.engDs ∧ (s.advanceTo t).pairCs = s.pairCs ∧ (s.advanceTo t).pairDs = s.pairDs
    ∧ (s.advanceTo t).pwmCs = s.pwmCs ∧ (s.advanceTo t).pwmDs = s.pwmDs ∧ (s.advanceTo t).mach = s.mach
    ∧ (s.advanceTo t).candle = s.candle ∧ (s.advanceTo t).legs = s.legs ∧ (s.advanceTo t).prot = s.prot
    ∧ (s.advanceTo t).wr = s.wr ∧ (s.advanceTo t).conv = s.conv ∧ (s.advanceTo t).cvTick = s.cvTick
    ∧ (s.advanceTo t).ports = s.ports ∧ (s.advanceTo t).ac = s.ac ∧ (s.advanceTo t).gd = s.gd
    ∧ (s.advanceTo t).bridgeUnres = s.bridgeUnres ∧ (s.advanceTo t).bridgeBad = s.bridgeBad ∧ (s.advanceTo t).gact = s.gact
    ∧ (s.advanceTo t).temp = s.temp ∧ (s.advanceTo t).lamp = s.lamp ∧ (s.advanceTo t).can = s.can
    ∧ (s.advanceTo t).net = s.net ∧ (s.advanceTo t).host = s.host ∧ (s.advanceTo t).kp = s.kp ∧ (s.advanceTo t).ckCs = s.ckCs
    ∧ (s.advanceTo t).ckDs = s.ckDs :=
  ⟨rfl, rfl, rfl, rfl, rfl, rfl, rfl, rfl, rfl, rfl, rfl, rfl, rfl, rfl, rfl, rfl, rfl, rfl, rfl, rfl, rfl, rfl, rfl, rfl,
    rfl, rfl, rfl, rfl, rfl, rfl, rfl, rfl, rfl, rfl, rfl, rfl, rfl, rfl, rfl, rfl, rfl, rfl, rfl, rfl, rfl, rfl, rfl, rfl,
    rfl, rfl, rfl, rfl, rfl, rfl⟩

@[simp] theorem State.useFree_new  :
    (s.useFree).freeCtr = s.freeCtr + 1 := rfl

@[simp] theorem State.useFree_rest  :
    (s.useFree).pending = s.pending ∧ (s.useFree).now = s.now ∧ (s.useFree).csOfs = s.csOfs ∧ (s.useFree).dsOfs = s.dsOfs
    ∧ (s.useFree).t0 = s.t0 ∧ (s.useFree).netZero = s.netZero ∧ (s.useFree).fwRev = s.fwRev ∧ (s.useFree).mem = s.mem
    ∧ (s.useFree).acc = s.acc ∧ (s.useFree).sys = s.sys ∧ (s.useFree).sup = s.sup ∧ (s.useFree).clk = s.clk
    ∧ (s.useFree).x = s.x ∧ (s.useFree).nv = s.nv ∧ (s.useFree).img = s.img ∧ (s.useFree).im = s.im
    ∧ (s.useFree).csLoaded = s.csLoaded ∧ (s.useFree).dsLoaded = s.dsLoaded ∧ (s.useFree).ctrs = s.ctrs
    ∧ (s.useFree).buoys = s.buoys ∧ (s.useFree).fb = s.fb ∧ (s.useFree).fbTick = s.fbTick ∧ (s.useFree).beamsCs = s.beamsCs
    ∧ (s.useFree).beamsDs = s.beamsDs ∧ (s.useFree).mains = s.mains ∧ (s.useFree).lhCs = s.lhCs ∧ (s.useFree).lhDs = s.lhDs
    ∧ (s.useFree).engCs = s.engCs ∧ (s.useFree).engDs = s.engDs ∧ (s.useFree).pairCs = s.pairCs
    ∧ (s.useFree).pairDs = s.pairDs ∧ (s.useFree).pwmCs = s.pwmCs ∧ (s.useFree).pwmDs = s.pwmDs ∧ (s.useFree).mach = s.mach
    ∧ (s.useFree).candle = s.candle ∧ (s.useFree).legs = s.legs ∧ (s.useFree).prot = s.prot ∧ (s.useFree).wr = s.wr
    ∧ (s.useFree).conv = s.conv ∧ (s.useFree).cvTick = s.cvTick ∧ (s.useFree).ports = s.ports ∧ (s.useFree).ac = s.ac
    ∧ (s.useFree).gd = s.gd ∧ (s.useFree).bridgeUnres = s.bridgeUnres ∧ (s.useFree).bridgeBad = s.bridgeBad
    ∧ (s.useFree).gact = s.gact ∧ (s.useFree).temp = s.temp ∧ (s.useFree).lamp = s.lamp ∧ (s.useFree).can = s.can
    ∧ (s.useFree).net = s.net ∧ (s.useFree).host = s.host ∧ (s.useFree).kp = s.kp ∧ (s.useFree).ckCs = s.ckCs
    ∧ (s.useFree).ckDs = s.ckDs :=
  ⟨rfl, rfl, rfl, rfl, rfl, rfl, rfl, rfl, rfl, rfl, rfl, rfl, rfl, rfl, rfl, rfl, rfl, rfl, rfl, rfl, rfl, rfl, rfl, rfl,
    rfl, rfl, rfl, rfl, rfl, rfl, rfl, rfl, rfl, rfl, rfl, rfl, rfl, rfl, rfl, rfl, rfl, rfl, rfl, rfl, rfl, rfl, rfl, rfl,
    rfl, rfl, rfl, rfl, rfl, rfl⟩

@[simp] theorem State.modFb_new (n : Nat) (f : Fb → Fb) :
    (s.modFb n f).fb = upd s.fb n f := rfl

@[simp] theorem State.modFb_rest (n : Nat) (f : Fb → Fb) :
    (s.modFb n f).pending = s.pending ∧ (s.modFb n f).now = s.now ∧ (s.modFb n f).freeCtr = s.freeCtr
    ∧ (s.modFb n f).csOfs = s.csOfs ∧ (s.modFb n f).dsOfs = s.dsOfs ∧ (s.modFb n f).t0 = s.t0
    ∧ (s.modFb n f).netZero = s.netZero ∧ (s.modFb n f).fwRev = s.fwRev ∧ (s.modFb n f).mem = s.mem
    ∧ (s.modFb n f).acc = s.acc ∧ (s.modFb n f).sys = s.sys ∧ (s.modFb n f).sup = s.sup ∧ (s.modFb n f).clk = s.clk
    ∧ (s.modFb n f).x = s.x ∧ (s.modFb n f).nv = s.nv ∧ (s.modFb n f).img = s.img ∧ (s.modFb n f).im = s.im
    ∧ (s.modFb n f).csLoaded = s.csLoaded ∧ (s.modFb n f).dsLoaded = s.dsLoaded ∧ (s.modFb n f).ctrs = s.ctrs
    ∧ (s.modFb n f).buoys = s.buoys ∧ (s.modFb n f).fbTick = s.fbTick ∧ (s.modFb n f).beamsCs = s.beamsCs
    ∧ (s.modFb n f).beamsDs = s.beamsDs ∧ (s.modFb n f).mains = s.mains ∧ (s.modFb n f).lhCs = s.lhCs
    ∧ (s.modFb n f).lhDs = s.lhDs ∧ (s.modFb n f).engCs = s.engCs ∧ (s.modFb n f).engDs = s.engDs
    ∧ (s.modFb n f).pairCs = s.pairCs ∧ (s.modFb n f).pairDs = s.pairDs ∧ (s.modFb n f).pwmCs = s.pwmCs
    ∧ (s.modFb n f).pwmDs = s.pwmDs ∧ (s.modFb n f).mach = s.mach ∧ (s.modFb n f).candle = s.candle
    ∧ (s.modFb n f).legs = s.legs ∧ (s.modFb n f).prot = s.prot ∧ (s.modFb n f).wr = s.wr ∧ (s.modFb n f).conv = s.conv
    ∧ (s.modFb n f).cvTick = s.cvTick ∧ (s.modFb n f).ports = s.ports ∧ (s.modFb n f).ac = s.ac ∧ (s.modFb n f).gd = s.gd
    ∧ (s.modFb n f).bridgeUnres = s.bridgeUnres ∧ (s.modFb n f).bridgeBad = s.bridgeBad ∧ (s.modFb n f).gact = s.gact
    ∧ (s.modFb n f).temp = s.temp ∧ (s.modFb n f).lamp = s.lamp ∧ (s.modFb n f).can = s.can ∧ (s.modFb n f).net = s.net
    ∧ (s.modFb n f).host = s.host ∧ (s.modFb n f).kp = s.kp ∧ (s.modFb n f).ckCs = s.ckCs ∧ (s.modFb n f).ckDs = s.ckDs :=
  ⟨rfl, rfl, rfl, rfl, rfl, rfl, rfl, rfl, rfl, rfl, rfl, rfl, rfl, rfl, rfl, rfl, rfl, rfl, rfl, rfl, rfl, rfl, rfl, rfl,
    rfl, rfl, rfl, rfl, rfl, rfl, rfl, rfl, rfl, rfl, rfl, rfl, rfl, rfl, rfl, rfl, rfl, rfl, rfl, rfl, rfl, rfl, rfl, rfl,
    rfl, rfl, rfl, rfl, rfl, rfl⟩

@[simp] theorem State.modBuoy_new (n : Nat) (f : Buoy → Buoy) :
    (s.modBuoy n f).buoys = upd s.buoys n f := rfl

@[simp] theorem State.modBuoy_rest (n : Nat) (f : Buoy → Buoy) :
    (s.modBuoy n f).pending = s.pending ∧ (s.modBuoy n f).now = s.now ∧ (s.modBuoy n f).freeCtr = s.freeCtr
    ∧ (s.modBuoy n f).csOfs = s.csOfs ∧ (s.modBuoy n f).dsOfs = s.dsOfs ∧ (s.modBuoy n f).t0 = s.t0
    ∧ (s.modBuoy n f).netZero = s.netZero ∧ (s.modBuoy n f).fwRev = s.fwRev ∧ (s.modBuoy n f).mem = s.mem
    ∧ (s.modBuoy n f).acc = s.acc ∧ (s.modBuoy n f).sys = s.sys ∧ (s.modBuoy n f).sup = s.sup ∧ (s.modBuoy n f).clk = s.clk
    ∧ (s.modBuoy n f).x = s.x ∧ (s.modBuoy n f).nv = s.nv ∧ (s.modBuoy n f).img = s.img ∧ (s.modBuoy n f).im = s.im
    ∧ (s.modBuoy n f).csLoaded = s.csLoaded ∧ (s.modBuoy n f).dsLoaded = s.dsLoaded ∧ (s.modBuoy n f).ctrs = s.ctrs
    ∧ (s.modBuoy n f).fb = s.fb ∧ (s.modBuoy n f).fbTick = s.fbTick ∧ (s.modBuoy n f).beamsCs = s.beamsCs
    ∧ (s.modBuoy n f).beamsDs = s.beamsDs ∧ (s.modBuoy n f).mains = s.mains ∧ (s.modBuoy n f).lhCs = s.lhCs
    ∧ (s.modBuoy n f).lhDs = s.lhDs ∧ (s.modBuoy n f).engCs = s.engCs ∧ (s.modBuoy n f).engDs = s.engDs
    ∧ (s.modBuoy n f).pairCs = s.pairCs ∧ (s.modBuoy n f).pairDs = s.pairDs ∧ (s.modBuoy n f).pwmCs = s.pwmCs
    ∧ (s.modBuoy n f).pwmDs = s.pwmDs ∧ (s.modBuoy n f).mach = s.mach ∧ (s.modBuoy n f).candle = s.candle
    ∧ (s.modBuoy n f).legs = s.legs ∧ (s.modBuoy n f).prot = s.prot ∧ (s.modBuoy n f).wr = s.wr
    ∧ (s.modBuoy n f).conv = s.conv ∧ (s.modBuoy n f).cvTick = s.cvTick ∧ (s.modBuoy n f).ports = s.ports
    ∧ (s.modBuoy n f).ac = s.ac ∧ (s.modBuoy n f).gd = s.gd ∧ (s.modBuoy n f).bridgeUnres = s.bridgeUnres
    ∧ (s.modBuoy n f).bridgeBad = s.bridgeBad ∧ (s.modBuoy n f).gact = s.gact ∧ (s.modBuoy n f).temp = s.temp
    ∧ (s.modBuoy n f).lamp = s.lamp ∧ (s.modBuoy n f).can = s.can ∧ (s.modBuoy n f).net = s.net
    ∧ (s.modBuoy n f).host = s.host ∧ (s.modBuoy n f).kp = s.kp ∧ (s.modBuoy n f).ckCs = s.ckCs
    ∧ (s.modBuoy n f).ckDs = s.ckDs :=
  ⟨rfl, rfl, rfl, rfl, rfl, rfl, rfl, rfl, rfl, rfl, rfl, rfl, rfl, rfl, rfl, rfl, rfl, rfl, rfl, rfl, rfl, rfl, rfl, rfl,
    rfl, rfl, rfl, rfl, rfl, rfl, rfl, rfl, rfl, rfl, rfl, rfl, rfl, rfl, rfl, rfl, rfl, rfl, rfl, rfl, rfl, rfl, rfl, rfl,
    rfl, rfl, rfl, rfl, rfl, rfl⟩

@[simp] theorem State.modMach_new (n : Nat) (f : Mach → Mach) :
    (s.modMach n f).mach = upd s.mach n f := rfl

@[simp] theorem State.modMach_rest (n : Nat) (f : Mach → Mach) :
    (s.modMach n f).pending = s.pending ∧ (s.modMach n f).now = s.now ∧ (s.modMach n f).freeCtr = s.freeCtr
    ∧ (s.modMach n f).csOfs = s.csOfs ∧ (s.modMach n f).dsOfs = s.dsOfs ∧ (s.modMach n f).t0 = s.t0
    ∧ (s.modMach n f).netZero = s.netZero ∧ (s.modMach n f).fwRev = s.fwRev ∧ (s.modMach n f).mem = s.mem
    ∧ (s.modMach n f).acc = s.acc ∧ (s.modMach n f).sys = s.sys ∧ (s.modMach n f).sup = s.sup ∧ (s.modMach n f).clk = s.clk
    ∧ (s.modMach n f).x = s.x ∧ (s.modMach n f).nv = s.nv ∧ (s.modMach n f).img = s.img ∧ (s.modMach n f).im = s.im
    ∧ (s.modMach n f).csLoaded = s.csLoaded ∧ (s.modMach n f).dsLoaded = s.dsLoaded ∧ (s.modMach n f).ctrs = s.ctrs
    ∧ (s.modMach n f).buoys = s.buoys ∧ (s.modMach n f).fb = s.fb ∧ (s.modMach n f).fbTick = s.fbTick
    ∧ (s.modMach n f).beamsCs = s.beamsCs ∧ (s.modMach n f).beamsDs = s.beamsDs ∧ (s.modMach n f).mains = s.mains
    ∧ (s.modMach n f).lhCs = s.lhCs ∧ (s.modMach n f).lhDs = s.lhDs ∧ (s.modMach n f).engCs = s.engCs
    ∧ (s.modMach n f).engDs = s.engDs ∧ (s.modMach n f).pairCs = s.pairCs ∧ (s.modMach n f).pairDs = s.pairDs
    ∧ (s.modMach n f).pwmCs = s.pwmCs ∧ (s.modMach n f).pwmDs = s.pwmDs ∧ (s.modMach n f).candle = s.candle
    ∧ (s.modMach n f).legs = s.legs ∧ (s.modMach n f).prot = s.prot ∧ (s.modMach n f).wr = s.wr
    ∧ (s.modMach n f).conv = s.conv ∧ (s.modMach n f).cvTick = s.cvTick ∧ (s.modMach n f).ports = s.ports
    ∧ (s.modMach n f).ac = s.ac ∧ (s.modMach n f).gd = s.gd ∧ (s.modMach n f).bridgeUnres = s.bridgeUnres
    ∧ (s.modMach n f).bridgeBad = s.bridgeBad ∧ (s.modMach n f).gact = s.gact ∧ (s.modMach n f).temp = s.temp
    ∧ (s.modMach n f).lamp = s.lamp ∧ (s.modMach n f).can = s.can ∧ (s.modMach n f).net = s.net
    ∧ (s.modMach n f).host = s.host ∧ (s.modMach n f).kp = s.kp ∧ (s.modMach n f).ckCs = s.ckCs
    ∧ (s.modMach n f).ckDs = s.ckDs :=
  ⟨rfl, rfl, rfl, rfl, rfl, rfl, rfl, rfl, rfl, rfl, rfl, rfl, rfl, rfl, rfl, rfl, rfl, rfl, rfl, rfl, rfl, rfl, rfl, rfl,
    rfl, rfl, rfl, rfl, rfl, rfl, rfl, rfl, rfl, rfl, rfl, rfl, rfl, rfl, rfl, rfl, rfl, rfl, rfl, rfl, rfl, rfl, rfl, rfl,
    rfl, rfl, rfl, rfl, rfl, rfl⟩

@[simp] theorem State.modCandle_new (n : Nat) (f : Candle → Candle) :
    (s.modCandle n f).candle = upd s.candle n f := rfl

@[simp] theorem State.modCandle_rest (n : Nat) (f : Candle → Candle) :
    (s.modCandle n f).pending = s.pending ∧ (s.modCandle n f).now = s.now ∧ (s.modCandle n f).freeCtr = s.freeCtr
    ∧ (s.modCandle n f).csOfs = s.csOfs ∧ (s.modCandle n f).dsOfs = s.dsOfs ∧ (s.modCandle n f).t0 = s.t0
    ∧ (s.modCandle n f).netZero = s.netZero ∧ (s.modCandle n f).fwRev = s.fwRev ∧ (s.modCandle n f).mem = s.mem
    ∧ (s.modCandle n f).acc = s.acc ∧ (s.modCandle n f).sys = s.sys ∧ (s.modCandle n f).sup = s.sup
    ∧ (s.modCandle n f).clk = s.clk ∧ (s.modCandle n f).x = s.x ∧ (s.modCandle n f).nv = s.nv ∧ (s.modCandle n f).img = s.img
    ∧ (s.modCandle n f).im = s.im ∧ (s.modCandle n f).csLoaded = s.csLoaded ∧ (s.modCandle n f).dsLoaded = s.dsLoaded
    ∧ (s.modCandle n f).ctrs = s.ctrs ∧ (s.modCandle n f).buoys = s.buoys ∧ (s.modCandle n f).fb = s.fb
    ∧ (s.modCandle n f).fbTick = s.fbTick ∧ (s.modCandle n f).beamsCs = s.beamsCs ∧ (s.modCandle n f).beamsDs = s.beamsDs
    ∧ (s.modCandle n f).mains = s.mains ∧ (s.modCandle n f).lhCs = s.lhCs ∧ (s.modCandle n f).lhDs = s.lhDs
    ∧ (s.modCandle n f).engCs = s.engCs ∧ (s.modCandle n f).engDs = s.engDs ∧ (s.modCandle n f).pairCs = s.pairCs
    ∧ (s.modCandle n f).pairDs = s.pairDs ∧ (s.modCandle n f).pwmCs = s.pwmCs ∧ (s.modCandle n f).pwmDs = s.pwmDs
    ∧ (s.modCandle n f).mach = s.mach ∧ (s.modCandle n f).legs = s.legs ∧ (s.modCandle n f).prot = s.prot
    ∧ (s.modCandle n f).wr = s.wr ∧ (s.modCandle n f).conv = s.conv ∧ (s.modCandle n f).cvTick = s.cvTick
    ∧ (s.modCandle n f).ports = s.ports ∧ (s.modCandle n f).ac = s.ac ∧ (s.modCandle n f).gd = s.gd
    ∧ (s.modCandle n f).bridgeUnres = s.bridgeUnres ∧ (s.modCandle n f).bridgeBad = s.bridgeBad
    ∧ (s.modCandle n f).gact = s.gact ∧ (s.modCandle n f).temp = s.temp ∧ (s.modCandle n f).lamp = s.lamp
    ∧ (s.modCandle n f).can = s.can ∧ (s.modCandle n f).net = s.net ∧ (s.modCandle n f).host = s.host
    ∧ (s.modCandle n f).kp = s.kp ∧ (s.modCandle n f).ckCs = s.ckCs ∧ (s.modCandle n f).ckDs = s.ckDs :=
  ⟨rfl, rfl, rfl, rfl, rfl, rfl, rfl, rfl, rfl, rfl, rfl, rfl, rfl, rfl, rfl, rfl, rfl, rfl, rfl, rfl, rfl, rfl, rfl, rfl,
    rfl, rfl, rfl, rfl, rfl, rfl, rfl, rfl, rfl, rfl, rfl, rfl, rfl, rfl, rfl, rfl, rfl, rfl, rfl, rfl, rfl, rfl, rfl, rfl,
    rfl, rfl, rfl, rfl, rfl, rfl⟩

@[simp] theorem State.modConv_new (n : Nat) (f : Conv → Conv) :
    (s.modConv n f).conv = upd s.conv n f := rfl

@[simp] theorem State.modConv_rest (n : Nat) (f : Conv → Conv) :
    (s.modConv n f).pending = s.pending ∧ (s.modConv n f).now = s.now ∧ (s.modConv n f).freeCtr = s.freeCtr
    ∧ (s.modConv n f).csOfs = s.csOfs ∧ (s.modConv n f).dsOfs = s.dsOfs ∧ (s.modConv n f).t0 = s.t0
    ∧ (s.modConv n f).netZero = s.netZero ∧ (s.modConv n f).fwRev = s.fwRev ∧ (s.modConv n f).mem = s.mem
    ∧ (s.modConv n f).acc = s.acc ∧ (s.modConv n f).sys = s.sys ∧ (s.modConv n f).sup = s.sup ∧ (s.modConv n f).clk = s.clk
    ∧ (s.modConv n f).x = s.x ∧ (s.modConv n f).nv = s.nv ∧ (s.modConv n f).img = s.img ∧ (s.modConv n f).im = s.im
    ∧ (s.modConv n f).csLoaded = s.csLoaded ∧ (s.modConv n f).dsLoaded = s.dsLoaded ∧ (s.modConv n f).ctrs = s.ctrs
    ∧ (s.modConv n f).buoys = s.buoys ∧ (s.modConv n f).fb = s.fb ∧ (s.modConv n f).fbTick = s.fbTick
    ∧ (s.modConv n f).beamsCs = s.beamsCs ∧ (s.modConv n f).beamsDs = s.beamsDs ∧ (s.modConv n f).mains = s.mains
    ∧ (s.modConv n f).lhCs = s.lhCs ∧ (s.modConv n f).lhDs = s.lhDs ∧ (s.modConv n f).engCs = s.engCs
    ∧ (s.modConv n f).engDs = s.engDs ∧ (s.modConv n f).pairCs = s.pairCs ∧ (s.modConv n f).pairDs = s.pairDs
    ∧ (s.modConv n f).pwmCs = s.pwmCs ∧ (s.modConv n f).pwmDs = s.pwmDs ∧ (s.modConv n f).mach = s.mach
    ∧ (s.modConv n f).candle = s.candle ∧ (s.modConv n f).legs = s.legs ∧ (s.modConv n f).prot = s.prot
    ∧ (s.modConv n f).wr = s.wr ∧ (s.modConv n f).cvTick = s.cvTick ∧ (s.modConv n f).ports = s.ports
    ∧ (s.modConv n f).ac = s.ac ∧ (s.modConv n f).gd = s.gd ∧ (s.modConv n f).bridgeUnres = s.bridgeUnres
    ∧ (s.modConv n f).bridgeBad = s.bridgeBad ∧ (s.modConv n f).gact = s.gact ∧ (s.modConv n f).temp = s.temp
    ∧ (s.modConv n f).lamp = s.lamp ∧ (s.modConv n f).can = s.can ∧ (s.modConv n f).net = s.net
    ∧ (s.modConv n f).host = s.host ∧ (s.modConv n f).kp = s.kp ∧ (s.modConv n f).ckCs = s.ckCs
    ∧ (s.modConv n f).ckDs = s.ckDs :=
  ⟨rfl, rfl, rfl, rfl, rfl, rfl, rfl, rfl, rfl, rfl, rfl, rfl, rfl, rfl, rfl, rfl, rfl, rfl, rfl, rfl, rfl, rfl, rfl, rfl,
    rfl, rfl, rfl, rfl, rfl, rfl, rfl, rfl, rfl, rfl, rfl, rfl, rfl, rfl, rfl, rfl, rfl, rfl, rfl, rfl, rfl, rfl, rfl, rfl,
    rfl, rfl, rfl, rfl, rfl, rfl⟩

@[simp] theorem State.modPort_new (n : Nat) (f : Port_ → Port_) :
    (s.modPort n f).ports = upd s.ports n f := rfl

@[simp] theorem State.modPort_rest (n : Nat) (f : Port_ → Port_) :
    (s.modPort n f).pending = s.pending ∧ (s.modPort n f).now = s.now ∧ (s.modPort n f).freeCtr = s.freeCtr
    ∧ (s.modPort n f).csOfs = s.csOfs ∧ (s.modPort n f).dsOfs = s.dsOfs ∧ (s.modPort n f).t0 = s.t0
    ∧ (s.modPort n f).netZero = s.netZero ∧ (s.modPort n f).fwRev = s.fwRev ∧ (s.modPort n f).mem = s.mem
    ∧ (s.modPort n f).acc = s.acc ∧ (s.modPort n f).sys = s.sys ∧ (s.modPort n f).sup = s.sup ∧ (s.modPort n f).clk = s.clk
    ∧ (s.modPort n f).x = s.x ∧ (s.modPort n f).nv = s.nv ∧ (s.modPort n f).img = s.img ∧ (s.modPort n f).im = s.im
    ∧ (s.modPort n f).csLoaded = s.csLoaded ∧ (s.modPort n f).dsLoaded = s.dsLoaded ∧ (s.modPort n f).ctrs = s.ctrs
    ∧ (s.modPort n f).buoys = s.buoys ∧ (s.modPort n f).fb = s.fb ∧ (s.modPort n f).fbTick = s.fbTick
    ∧ (s.modPort n f).beamsCs = s.beamsCs ∧ (s.modPort n f).beamsDs = s.beamsDs ∧ (s.modPort n f).mains = s.mains
    ∧ (s.modPort n f).lhCs = s.lhCs ∧ (s.modPort n f).lhDs = s.lhDs ∧ (s.modPort n f).engCs = s.engCs
    ∧ (s.modPort n f).engDs = s.engDs ∧ (s.modPort n f).pairCs = s.pairCs ∧ (s.modPort n f).pairDs = s.pairDs
    ∧ (s.modPort n f).pwmCs = s.pwmCs ∧ (s.modPort n f).pwmDs = s.pwmDs ∧ (s.modPort n f).mach = s.mach
    ∧ (s.modPort n f).candle = s.candle ∧ (s.modPort n f).legs = s.legs ∧ (s.modPort n f).prot = s.prot
    ∧ (s.modPort n f).wr = s.wr ∧ (s.modPort n f).conv = s.conv ∧ (s.modPort n f).cvTick = s.cvTick
    ∧ (s.modPort n f).ac = s.ac ∧ (s.modPort n f).gd = s.gd ∧ (s.modPort n f).bridgeUnres = s.bridgeUnres
    ∧ (s.modPort n f).bridgeBad = s.bridgeBad ∧ (s.modPort n f).gact = s.gact ∧ (s.modPort n f).temp = s.temp
    ∧ (s.modPort n f).lamp = s.lamp ∧ (s.modPort n f).can = s.can ∧ (s.modPort n f).net = s.net
    ∧ (s.modPort n f).host = s.host ∧ (s.modPort n f).kp = s.kp ∧ (s.modPort n f).ckCs = s.ckCs
    ∧ (s.modPort n f).ckDs = s.ckDs :=
  ⟨rfl, rfl, rfl, rfl, rfl, rfl, rfl, rfl, rfl, rfl, rfl, rfl, rfl, rfl, rfl, rfl, rfl, rfl, rfl, rfl, rfl, rfl, rfl, rfl,
    rfl, rfl, rfl, rfl, rfl, rfl, rfl, rfl, rfl, rfl, rfl, rfl, rfl, rfl, rfl, rfl, rfl, rfl, rfl, rfl, rfl, rfl, rfl, rfl,
    rfl, rfl, rfl, rfl, rfl, rfl⟩

@[simp] theorem State.modAct_new (n : Nat) (f : Act → Act) :
    (s.modAct n f).gact = upd s.gact n f := rfl

@[simp] theorem State.modAct_rest (n : Nat) (f : Act → Act) :
    (s.modAct n f).pending = s.pending ∧ (s.modAct n f).now = s.now ∧ (s.modAct n f).freeCtr = s.freeCtr
    ∧ (s.modAct n f).csOfs = s.csOfs ∧ (s.modAct n f).dsOfs = s.dsOfs ∧ (s.modAct n f).t0 = s.t0
    ∧ (s.modAct n f).netZero = s.netZero ∧ (s.modAct n f).fwRev = s.fwRev ∧ (s.modAct n f).mem = s.mem
    ∧ (s.modAct n f).acc = s.acc ∧ (s.modAct n f).sys = s.sys ∧ (s.modAct n f).sup = s.sup ∧ (s.modAct n f).clk = s.clk
    ∧ (s.modAct n f).x = s.x ∧ (s.modAct n f).nv = s.nv ∧ (s.modAct n f).img = s.img ∧ (s.modAct n f).im = s.im
    ∧ (s.modAct n f).csLoaded = s.csLoaded ∧ (s.modAct n f).dsLoaded = s.dsLoaded ∧ (s.modAct n f).ctrs = s.ctrs
    ∧ (s.modAct n f).buoys = s.buoys ∧ (s.modAct n f).fb = s.fb ∧ (s.modAct n f).fbTick = s.fbTick
    ∧ (s.modAct n f).beamsCs = s.beamsCs ∧ (s.modAct n f).beamsDs = s.beamsDs ∧ (s.modAct n f).mains = s.mains
    ∧ (s.modAct n f).lhCs = s.lhCs ∧ (s.modAct n f).lhDs = s.lhDs ∧ (s.modAct n f).engCs = s.engCs
    ∧ (s.modAct n f).engDs = s.engDs ∧ (s.modAct n f).pairCs = s.pairCs ∧ (s.modAct n f).pairDs = s.pairDs
    ∧ (s.modAct n f).pwmCs = s.pwmCs ∧ (s.modAct n f).pwmDs = s.pwmDs ∧ (s.modAct n f).mach = s.mach
    ∧ (s.modAct n f).candle = s.candle ∧ (s.modAct n f).legs = s.legs ∧ (s.modAct n f).prot = s.prot
    ∧ (s.modAct n f).wr = s.wr ∧ (s.modAct n f).conv = s.conv ∧ (s.modAct n f).cvTick = s.cvTick
    ∧ (s.modAct n f).ports = s.ports ∧ (s.modAct n f).ac = s.ac ∧ (s.modAct n f).gd = s.gd
    ∧ (s.modAct n f).bridgeUnres = s.bridgeUnres ∧ (s.modAct n f).bridgeBad = s.bridgeBad ∧ (s.modAct n f).temp = s.temp
    ∧ (s.modAct n f).lamp = s.lamp ∧ (s.modAct n f).can = s.can ∧ (s.modAct n f).net = s.net ∧ (s.modAct n f).host = s.host
    ∧ (s.modAct n f).kp = s.kp ∧ (s.modAct n f).ckCs = s.ckCs ∧ (s.modAct n f).ckDs = s.ckDs :=
  ⟨rfl, rfl, rfl, rfl, rfl, rfl, rfl, rfl, rfl, rfl, rfl, rfl, rfl, rfl, rfl, rfl, rfl, rfl, rfl, rfl, rfl, rfl, rfl, rfl,
    rfl, rfl, rfl, rfl, rfl, rfl, rfl, rfl, rfl, rfl, rfl, rfl, rfl, rfl, rfl, rfl, rfl, rfl, rfl, rfl, rfl, rfl, rfl, rfl,
    rfl, rfl, rfl, rfl, rfl, rfl⟩

@[simp] theorem State.modTemp_new (n : Nat) (f : Temp → Temp) :
    (s.modTemp n f).temp = upd s.temp n f := rfl

@[simp] theorem State.modTemp_rest (n : Nat) (f : Temp → Temp) :
    (s.modTemp n f).pending = s.pending ∧ (s.modTemp n f).now = s.now ∧ (s.modTemp n f).freeCtr = s.freeCtr
    ∧ (s.modTemp n f).csOfs = s.csOfs ∧ (s.modTemp n f).dsOfs = s.dsOfs ∧ (s.modTemp n f).t0 = s.t0
    ∧ (s.modTemp n f).netZero = s.netZero ∧ (s.modTemp n f).fwRev = s.fwRev ∧ (s.modTemp n f).mem = s.mem
    ∧ (s.modTemp n f).acc = s.acc ∧ (s.modTemp n f).sys = s.sys ∧ (s.modTemp n f).sup = s.sup ∧ (s.modTemp n f).clk = s.clk
    ∧ (s.modTemp n f).x = s.x ∧ (s.modTemp n f).nv = s.nv ∧ (s.modTemp n f).img = s.img ∧ (s.modTemp n f).im = s.im
    ∧ (s.modTemp n f).csLoaded = s.csLoaded ∧ (s.modTemp n f).dsLoaded = s.dsLoaded ∧ (s.modTemp n f).ctrs = s.ctrs
    ∧ (s.modTemp n f).buoys = s.buoys ∧ (s.modTemp n f).fb = s.fb ∧ (s.modTemp n f).fbTick = s.fbTick
    ∧ (s.modTemp n f).beamsCs = s.beamsCs ∧ (s.modTemp n f).beamsDs = s.beamsDs ∧ (s.modTemp n f).mains = s.mains
    ∧ (s.modTemp n f).lhCs = s.lhCs ∧ (s.modTemp n f).lhDs = s.lhDs ∧ (s.modTemp n f).engCs = s.engCs
    ∧ (s.modTemp n f).engDs = s.engDs ∧ (s.modTemp n f).pairCs = s.pairCs ∧ (s.modTemp n f).pairDs = s.pairDs
    ∧ (s.modTemp n f).pwmCs = s.pwmCs ∧ (s.modTemp n f).pwmDs = s.pwmDs ∧ (s.modTemp n f).mach = s.mach
    ∧ (s.modTemp n f).candle = s.candle ∧ (s.modTemp n f).legs = s.legs ∧ (s.modTemp n f).prot = s.prot
    ∧ (s.modTemp n f).wr = s.wr ∧ (s.modTemp n f).conv = s.conv ∧ (s.modTemp n f).cvTick = s.cvTick
    ∧ (s.modTemp n f).ports = s.ports ∧ (s.modTemp n f).ac = s.ac ∧ (s.modTemp n f).gd = s.gd
    ∧ (s.modTemp n f).bridgeUnres = s.bridgeUnres ∧ (s.modTemp n f).bridgeBad = s.bridgeBad ∧ (s.modTemp n f).gact = s.gact
    ∧ (s.modTemp n f).lamp = s.lamp ∧ (s.modTemp n f).can = s.can ∧ (s.modTemp n f).net = s.net
    ∧ (s.modTemp n f).host = s.host ∧ (s.modTemp n f).kp = s.kp ∧ (s.modTemp n f).ckCs = s.ckCs
    ∧ (s.modTemp n f).ckDs = s.ckDs :=
  ⟨rfl, rfl, rfl, rfl, rfl, rfl, rfl, rfl, rfl, rfl, rfl, rfl, rfl, rfl, rfl, rfl, rfl, rfl, rfl, rfl, rfl, rfl, rfl, rfl,
    rfl, rfl, rfl, rfl, rfl, rfl, rfl, rfl, rfl, rfl, rfl, rfl, rfl, rfl, rfl, rfl, rfl, rfl, rfl, rfl, rfl, rfl, rfl, rfl,
    rfl, rfl, rfl, rfl, rfl, rfl⟩

@[simp] theorem State.modCan_new (n : Nat) (f : Can → Can) :
    (s.modCan n f).can = upd s.can n f := rfl

@[simp] theorem State.modCan_rest (n : Nat) (f : Can → Can) :
    (s.modCan n f).pending = s.pending ∧ (s.modCan n f).now = s.now ∧ (s.modCan n f).freeCtr = s.freeCtr
    ∧ (s.modCan n f).csOfs = s.csOfs ∧ (s.modCan n f).dsOfs = s.dsOfs ∧ (s.modCan n f).t0 = s.t0
    ∧ (s.modCan n f).netZero = s.netZero ∧ (s.modCan n f).fwRev = s.fwRev ∧ (s.modCan n f).mem = s.mem
    ∧ (s.modCan n f).acc = s.acc ∧ (s.modCan n f).sys = s.sys ∧ (s.modCan n f).sup = s.sup ∧ (s.modCan n f).clk = s.clk
    ∧ (s.modCan n f).x = s.x ∧ (s.modCan n f).nv = s.nv ∧ (s.modCan n f).img = s.img ∧ (s.modCan n f).im = s.im
    ∧ (s.modCan n f).csLoaded = s.csLoaded ∧ (s.modCan n f).dsLoaded = s.dsLoaded ∧ (s.modCan n f).ctrs = s.ctrs
    ∧ (s.modCan n f).buoys = s.buoys ∧ (s.modCan n f).fb = s.fb ∧ (s.modCan n f).fbTick = s.fbTick
    ∧ (s.modCan n f).beamsCs = s.beamsCs ∧ (s.modCan n f).beamsDs = s.beamsDs ∧ (s.modCan n f).mains = s.mains
    ∧ (s.modCan n f).lhCs = s.lhCs ∧ (s.modCan n f).lhDs = s.lhDs ∧ (s.modCan n f).engCs = s.engCs
    ∧ (s.modCan n f).engDs = s.engDs ∧ (s.modCan n f).pairCs = s.pairCs ∧ (s.modCan n f).pairDs = s.pairDs
    ∧ (s.modCan n f).pwmCs = s.pwmCs ∧ (s.modCan n f).pwmDs = s.pwmDs ∧ (s.modCan n f).mach = s.mach
    ∧ (s.modCan n f).candle = s.candle ∧ (s.modCan n f).legs = s.legs ∧ (s.modCan n f).prot = s.prot
    ∧ (s.modCan n f).wr = s.wr ∧ (s.modCan n f).conv = s.conv ∧ (s.modCan n f).cvTick = s.cvTick
    ∧ (s.modCan n f).ports = s.ports ∧ (s.modCan n f).ac = s.ac ∧ (s.modCan n f).gd = s.gd
    ∧ (s.modCan n f).bridgeUnres = s.bridgeUnres ∧ (s.modCan n f).bridgeBad = s.bridgeBad ∧ (s.modCan n f).gact = s.gact
    ∧ (s.modCan n f).temp = s.temp ∧ (s.modCan n f).lamp = s.lamp ∧ (s.modCan n f).net = s.net ∧ (s.modCan n f).host = s.host
    ∧ (s.modCan n f).kp = s.kp ∧ (s.modCan n f).ckCs = s.ckCs ∧ (s.modCan n f).ckDs = s.ckDs :=
  ⟨rfl, rfl, rfl, rfl, rfl, rfl, rfl, rfl, rfl, rfl, rfl, rfl, rfl, rfl, rfl, rfl, rfl, rfl, rfl, rfl, rfl, rfl, rfl, rfl,
    rfl, rfl, rfl, rfl, rfl, rfl, rfl, rfl, rfl, rfl, rfl, rfl, rfl, rfl, rfl, rfl, rfl, rfl, rfl, rfl, rfl, rfl, rfl, rfl,
    rfl, rfl, rfl, rfl, rfl, rfl⟩

@[simp] theorem State.modLeg_new (n : Nat) (f : Leg → Leg) :
    (s.modLeg n f).legs = upd s.legs n f := rfl

@[simp] theorem State.modLeg_rest (n : Nat) (f : Leg → Leg) :
    (s.modLeg n f).pending = s.pending ∧ (s.modLeg n f).now = s.now ∧ (s.modLeg n f).freeCtr = s.freeCtr
    ∧ (s.modLeg n f).csOfs = s.csOfs ∧ (s.modLeg n f).dsOfs = s.dsOfs ∧ (s.modLeg n f).t0 = s.t0
    ∧ (s.modLeg n f).netZero = s.netZero ∧ (s.modLeg n f).fwRev = s.fwRev ∧ (s.modLeg n f).mem = s.mem
    ∧ (s.modLeg n f).acc = s.acc ∧ (s.modLeg n f).sys = s.sys ∧ (s.modLeg n f).sup = s.sup ∧ (s.modLeg n f).clk = s.clk
    ∧ (s.modLeg n f).x = s.x ∧ (s.modLeg n f).nv = s.nv ∧ (s.modLeg n f).img = s.img ∧ (s.modLeg n f).im = s.im
    ∧ (s.modLeg n f).csLoaded = s.csLoaded ∧ (s.modLeg n f).dsLoaded = s.dsLoaded ∧ (s.modLeg n f).ctrs = s.ctrs
    ∧ (s.modLeg n f).buoys = s.buoys ∧ (s.modLeg n f).fb = s.fb ∧ (s.modLeg n f).fbTick = s.fbTick
    ∧ (s.modLeg n f).beamsCs = s.beamsCs ∧ (s.modLeg n f).beamsDs = s.beamsDs ∧ (s.modLeg n f).mains = s.mains
    ∧ (s.modLeg n f).lhCs = s.lhCs ∧ (s.modLeg n f).lhDs = s.lhDs ∧ (s.modLeg n f).engCs = s.engCs
    ∧ (s.modLeg n f).engDs = s.engDs ∧ (s.modLeg n f).pairCs = s.pairCs ∧ (s.modLeg n f).pairDs = s.pairDs
    ∧ (s.modLeg n f).pwmCs = s.pwmCs ∧ (s.modLeg n f).pwmDs = s.pwmDs ∧ (s.modLeg n f).mach = s.mach
    ∧ (s.modLeg n f).candle = s.candle ∧ (s.modLeg n f).prot = s.prot ∧ (s.modLeg n f).wr = s.wr
    ∧ (s.modLeg n f).conv = s.conv ∧ (s.modLeg n f).cvTick = s.cvTick ∧ (s.modLeg n f).ports = s.ports
    ∧ (s.modLeg n f).ac = s.ac ∧ (s.modLeg n f).gd = s.gd ∧ (s.modLeg n f).bridgeUnres = s.bridgeUnres
    ∧ (s.modLeg n f).bridgeBad = s.bridgeBad ∧ (s.modLeg n f).gact = s.gact ∧ (s.modLeg n f).temp = s.temp
    ∧ (s.modLeg n f).lamp = s.lamp ∧ (s.modLeg n f).can = s.can ∧ (s.modLeg n f).net = s.net ∧ (s.modLeg n f).host = s.host
    ∧ (s.modLeg n f).kp = s.kp ∧ (s.modLeg n f).ckCs = s.ckCs ∧ (s.modLeg n f).ckDs = s.ckDs :=
  ⟨rfl, rfl, rfl, rfl, rfl, rfl, rfl, rfl, rfl, rfl, rfl, rfl, rfl, rfl, rfl, rfl, rfl, rfl, rfl, rfl, rfl, rfl, rfl, rfl,
    rfl, rfl, rfl, rfl, rfl, rfl, rfl, rfl, rfl, rfl, rfl, rfl, rfl, rfl, rfl, rfl, rfl, rfl, rfl, rfl, rfl, rfl, rfl, rfl,
    rfl, rfl, rfl, rfl, rfl, rfl⟩

@[simp] theorem State.modGd_new (n : Nat) (f : Gd → Gd) :
    (s.modGd n f).gd = upd s.gd n f := rfl

@[simp] theorem State.modGd_rest (n : Nat) (f : Gd → Gd) :
    (s.modGd n f).pending = s.pending ∧ (s.modGd n f).now = s.now ∧ (s.modGd n f).freeCtr = s.freeCtr
    ∧ (s.modGd n f).csOfs = s.csOfs ∧ (s.modGd n f).dsOfs = s.dsOfs ∧ (s.modGd n f).t0 = s.t0
    ∧ (s.modGd n f).netZero = s.netZero ∧ (s.modGd n f).fwRev = s.fwRev ∧ (s.modGd n f).mem = s.mem
    ∧ (s.modGd n f).acc = s.acc ∧ (s.modGd n f).sys = s.sys ∧ (s.modGd n f).sup = s.sup ∧ (s.modGd n f).clk = s.clk
    ∧ (s.modGd n f).x = s.x ∧ (s.modGd n f).nv = s.nv ∧ (s.modGd n f).img = s.img ∧ (s.modGd n f).im = s.im
    ∧ (s.modGd n f).csLoaded = s.csLoaded ∧ (s.modGd n f).dsLoaded = s.dsLoaded ∧ (s.modGd n f).ctrs = s.ctrs
    ∧ (s.modGd n f).buoys = s.buoys ∧ (s.modGd n f).fb = s.fb ∧ (s.modGd n f).fbTick = s.fbTick
    ∧ (s.modGd n f).beamsCs = s.beamsCs ∧ (s.modGd n f).beamsDs = s.beamsDs ∧ (s.modGd n f).mains = s.mains
    ∧ (s.modGd n f).lhCs = s.lhCs ∧ (s.modGd n f).lhDs = s.lhDs ∧ (s.modGd n f).engCs = s.engCs
    ∧ (s.modGd n f).engDs = s.engDs ∧ (s.modGd n f).pairCs = s.pairCs ∧ (s.modGd n f).pairDs = s.pairDs
    ∧ (s.modGd n f).pwmCs = s.pwmCs ∧ (s.modGd n f).pwmDs = s.pwmDs ∧ (s.modGd n f).mach = s.mach
    ∧ (s.modGd n f).candle = s.candle ∧ (s.modGd n f).legs = s.legs ∧ (s.modGd n f).prot = s.prot ∧ (s.modGd n f).wr = s.wr
    ∧ (s.modGd n f).conv = s.conv ∧ (s.modGd n f).cvTick = s.cvTick ∧ (s.modGd n f).ports = s.ports ∧ (s.modGd n f).ac = s.ac
    ∧ (s.modGd n f).bridgeUnres = s.bridgeUnres ∧ (s.modGd n f).bridgeBad = s.bridgeBad ∧ (s.modGd n f).gact = s.gact
    ∧ (s.modGd n f).temp = s.temp ∧ (s.modGd n f).lamp = s.lamp ∧ (s.modGd n f).can = s.can ∧ (s.modGd n f).net = s.net
    ∧ (s.modGd n f).host = s.host ∧ (s.modGd n f).kp = s.kp ∧ (s.modGd n f).ckCs = s.ckCs ∧ (s.modGd n f).ckDs = s.ckDs :=
  ⟨rfl, rfl, rfl, rfl, rfl, rfl, rfl, rfl, rfl, rfl, rfl, rfl, rfl, rfl, rfl, rfl, rfl, rfl, rfl, rfl, rfl, rfl, rfl, rfl,
    rfl, rfl, rfl, rfl, rfl, rfl, rfl, rfl, rfl, rfl, rfl, rfl, rfl, rfl, rfl, rfl, rfl, rfl, rfl, rfl, rfl, rfl, rfl, rfl,
    rfl, rfl, rfl, rfl, rfl, rfl⟩

@[simp] theorem State.modTx_new (n b : Nat) (f : TxBuf → TxBuf) :
    (s.modTx n b f).can = upd s.can n fun x => { x with tx := upd x.tx b f } := rfl

@[simp] theorem State.modTx_rest (n b : Nat) (f : TxBuf → TxBuf) :
    (s.modTx n b f).pending = s.pending ∧ (s.modTx n b f).now = s.now ∧ (s.modTx n b f).freeCtr = s.freeCtr
    ∧ (s.modTx n b f).csOfs = s.csOfs ∧ (s.modTx n b f).dsOfs = s.dsOfs ∧ (s.modTx n b f).t0 = s.t0
    ∧ (s.modTx n b f).netZero = s.netZero ∧ (s.modTx n b f).fwRev = s.fwRev ∧ (s.modTx n b f).mem = s.mem
    ∧ (s.modTx n b f).acc = s.acc ∧ (s.modTx n b f).sys = s.sys ∧ (s.modTx n b f).sup = s.sup ∧ (s.modTx n b f).clk = s.clk
    ∧ (s.modTx n b f).x = s.x ∧ (s.modTx n b f).nv = s.nv ∧ (s.modTx n b f).img = s.img ∧ (s.modTx n b f).im = s.im
    ∧ (s.modTx n b f).csLoaded = s.csLoaded ∧ (s.modTx n b f).dsLoaded = s.dsLoaded ∧ (s.modTx n b f).ctrs = s.ctrs
    ∧ (s.modTx n b f).buoys = s.buoys ∧ (s.modTx n b f).fb = s.fb ∧ (s.modTx n b f).fbTick = s.fbTick
    ∧ (s.modTx n b f).beamsCs = s.beamsCs ∧ (s.modTx n b f).beamsDs = s.beamsDs ∧ (s.modTx n b f).mains = s.mains
    ∧ (s.modTx n b f).lhCs = s.lhCs ∧ (s.modTx n b f).lhDs = s.lhDs ∧ (s.modTx n b f).engCs = s.engCs
    ∧ (s.modTx n b f).engDs = s.engDs ∧ (s.modTx n b f).pairCs = s.pairCs ∧ (s.modTx n b f).pairDs = s.pairDs
    ∧ (s.modTx n b f).pwmCs = s.pwmCs ∧ (s.modTx n b f).pwmDs = s.pwmDs ∧ (s.modTx n b f).mach = s.mach
    ∧ (s.modTx n b f).candle = s.candle ∧ (s.modTx n b f).legs = s.legs ∧ (s.modTx n b f).prot = s.prot
    ∧ (s.modTx n b f).wr = s.wr ∧ (s.modTx n b f).conv = s.conv ∧ (s.modTx n b f).cvTick = s.cvTick
    ∧ (s.modTx n b f).ports = s.ports ∧ (s.modTx n b f).ac = s.ac ∧ (s.modTx n b f).gd = s.gd
    ∧ (s.modTx n b f).bridgeUnres = s.bridgeUnres ∧ (s.modTx n b f).bridgeBad = s.bridgeBad ∧ (s.modTx n b f).gact = s.gact
    ∧ (s.modTx n b f).temp = s.temp ∧ (s.modTx n b f).lamp = s.lamp ∧ (s.modTx n b f).net = s.net
    ∧ (s.modTx n b f).host = s.host ∧ (s.modTx n b f).kp = s.kp ∧ (s.modTx n b f).ckCs = s.ckCs
    ∧ (s.modTx n b f).ckDs = s.ckDs :=
  ⟨rfl, rfl, rfl, rfl, rfl, rfl, rfl, rfl, rfl, rfl, rfl, rfl, rfl, rfl, rfl, rfl, rfl, rfl, rfl, rfl, rfl, rfl, rfl, rfl,
    rfl, rfl, rfl, rfl, rfl, rfl, rfl, rfl, rfl, rfl, rfl, rfl, rfl, rfl, rfl, rfl, rfl, rfl, rfl, rfl, rfl, rfl, rfl, rfl,
    rfl, rfl, rfl, rfl, rfl, rfl⟩

@[simp] theorem State.modAc_new (f : Ac → Ac) :
    (s.modAc f).ac = f s.ac := rfl

@[simp] theorem State.modAc_rest (f : Ac → Ac) :
    (s.modAc f).pending = s.pending ∧ (s.modAc f).now = s.now ∧ (s.modAc f).freeCtr = s.freeCtr ∧ (s.modAc f).csOfs = s.csOfs
    ∧ (s.modAc f).dsOfs = s.dsOfs ∧ (s.modAc f).t0 = s.t0 ∧ (s.modAc f).netZero = s.netZero ∧ (s.modAc f).fwRev = s.fwRev
    ∧ (s.modAc f).mem = s.mem ∧ (s.modAc f).acc = s.acc ∧ (s.modAc f).sys = s.sys ∧ (s.modAc f).sup = s.sup
    ∧ (s.modAc f).clk = s.clk ∧ (s.modAc f).x = s.x ∧ (s.modAc f).nv = s.nv ∧ (s.modAc f).img = s.img ∧ (s.modAc f).im = s.im
    ∧ (s.modAc f).csLoaded = s.csLoaded ∧ (s.modAc f).dsLoaded = s.dsLoaded ∧ (s.modAc f).ctrs = s.ctrs
    ∧ (s.modAc f).buoys = s.buoys ∧ (s.modAc f).fb = s.fb ∧ (s.modAc f).fbTick = s.fbTick ∧ (s.modAc f).beamsCs = s.beamsCs
    ∧ (s.modAc f).beamsDs = s.beamsDs ∧ (s.modAc f).mains = s.mains ∧ (s.modAc f).lhCs = s.lhCs ∧ (s.modAc f).lhDs = s.lhDs
    ∧ (s.modAc f).engCs = s.engCs ∧ (s.modAc f).engDs = s.engDs ∧ (s.modAc f).pairCs = s.pairCs
    ∧ (s.modAc f).pairDs = s.pairDs ∧ (s.modAc f).pwmCs = s.pwmCs ∧ (s.modAc f).pwmDs = s.pwmDs ∧ (s.modAc f).mach = s.mach
    ∧ (s.modAc f).candle = s.candle ∧ (s.modAc f).legs = s.legs ∧ (s.modAc f).prot = s.prot ∧ (s.modAc f).wr = s.wr
    ∧ (s.modAc f).conv = s.conv ∧ (s.modAc f).cvTick = s.cvTick ∧ (s.modAc f).ports = s.ports ∧ (s.modAc f).gd = s.gd
    ∧ (s.modAc f).bridgeUnres = s.bridgeUnres ∧ (s.modAc f).bridgeBad = s.bridgeBad ∧ (s.modAc f).gact = s.gact
    ∧ (s.modAc f).temp = s.temp ∧ (s.modAc f).lamp = s.lamp ∧ (s.modAc f).can = s.can ∧ (s.modAc f).net = s.net
    ∧ (s.modAc f).host = s.host ∧ (s.modAc f).kp = s.kp ∧ (s.modAc f).ckCs = s.ckCs ∧ (s.modAc f).ckDs = s.ckDs :=
  ⟨rfl, rfl, rfl, rfl, rfl, rfl, rfl, rfl, rfl, rfl, rfl, rfl, rfl, rfl, rfl, rfl, rfl, rfl, rfl, rfl, rfl, rfl, rfl, rfl,
    rfl, rfl, rfl, rfl, rfl, rfl, rfl, rfl, rfl, rfl, rfl, rfl, rfl, rfl, rfl, rfl, rfl, rfl, rfl, rfl, rfl, rfl, rfl, rfl,
    rfl, rfl, rfl, rfl, rfl, rfl⟩

@[simp] theorem State.modWr_new (f : Wr → Wr) :
    (s.modWr f).wr = f s.wr := rfl

@[simp] theorem State.modWr_rest (f : Wr → Wr) :
    (s.modWr f).pending = s.pending ∧ (s.modWr f).now = s.now ∧ (s.modWr f).freeCtr = s.freeCtr ∧ (s.modWr f).csOfs = s.csOfs
    ∧ (s.modWr f).dsOfs = s.dsOfs ∧ (s.modWr f).t0 = s.t0 ∧ (s.modWr f).netZero = s.netZero ∧ (s.modWr f).fwRev = s.fwRev
    ∧ (s.modWr f).mem = s.mem ∧ (s.modWr f).acc = s.acc ∧ (s.modWr f).sys = s.sys ∧ (s.modWr f).sup = s.sup
    ∧ (s.modWr f).clk = s.clk ∧ (s.modWr f).x = s.x ∧ (s.modWr f).nv = s.nv ∧ (s.modWr f).img = s.img ∧ (s.modWr f).im = s.im
    ∧ (s.modWr f).csLoaded = s.csLoaded ∧ (s.modWr f).dsLoaded = s.dsLoaded ∧ (s.modWr f).ctrs = s.ctrs
    ∧ (s.modWr f).buoys = s.buoys ∧ (s.modWr f).fb = s.fb ∧ (s.modWr f).fbTick = s.fbTick ∧ (s.modWr f).beamsCs = s.beamsCs
    ∧ (s.modWr f).beamsDs = s.beamsDs ∧ (s.modWr f).mains = s.mains ∧ (s.modWr f).lhCs = s.lhCs ∧ (s.modWr f).lhDs = s.lhDs
    ∧ (s.modWr f).engCs = s.engCs ∧ (s.modWr f).engDs = s.engDs ∧ (s.modWr f).pairCs = s.pairCs
    ∧ (s.modWr f).pairDs = s.pairDs ∧ (s.modWr f).pwmCs = s.pwmCs ∧ (s.modWr f).pwmDs = s.pwmDs ∧ (s.modWr f).mach = s.mach
    ∧ (s.modWr f).candle = s.candle ∧ (s.modWr f).legs = s.legs ∧ (s.modWr f).prot = s.prot ∧ (s.modWr f).conv = s.conv
    ∧ (s.modWr f).cvTick = s.cvTick ∧ (s.modWr f).ports = s.ports ∧ (s.modWr f).ac = s.ac ∧ (s.modWr f).gd = s.gd
    ∧ (s.modWr f).bridgeUnres = s.bridgeUnres ∧ (s.modWr f).bridgeBad = s.bridgeBad ∧ (s.modWr f).gact = s.gact
    ∧ (s.modWr f).temp = s.temp ∧ (s.modWr f).lamp = s.lamp ∧ (s.modWr f).can = s.can ∧ (s.modWr f).net = s.net
    ∧ (s.modWr f).host = s.host ∧ (s.modWr f).kp = s.kp ∧ (s.modWr f).ckCs = s.ckCs ∧ (s.modWr f).ckDs = s.ckDs :=
  ⟨rfl, rfl, rfl, rfl, rfl, rfl, rfl, rfl, rfl, rfl, rfl, rfl, rfl, rfl, rfl, rfl, rfl, rfl, rfl, rfl, rfl, rfl, rfl, rfl,
    rfl, rfl, rfl, rfl, rfl, rfl, rfl, rfl, rfl, rfl, rfl, rfl, rfl, rfl, rfl, rfl, rfl, rfl, rfl, rfl, rfl, rfl, rfl, rfl,
    rfl, rfl, rfl, rfl, rfl, rfl⟩

@[simp] theorem State.modSls_new (k : Nat) (f : Monitor → Monitor) :
    (s.modSls k f).wr = { s.wr with sls := s.wr.sls.modify k f } := rfl

@[simp] theorem State.modSls_rest (k : Nat) (f : Monitor → Monitor) :
    (s.modSls k f).pending = s.pending ∧ (s.modSls k f).now = s.now ∧ (s.modSls k f).freeCtr = s.freeCtr
    ∧ (s.modSls k f).csOfs = s.csOfs ∧ (s.modSls k f).dsOfs = s.dsOfs ∧ (s.modSls k f).t0 = s.t0
    ∧ (s.modSls k f).netZero = s.netZero ∧ (s.modSls k f).fwRev = s.fwRev ∧ (s.modSls k f).mem = s.mem
    ∧ (s.modSls k f).acc = s.acc ∧ (s.modSls k f).sys = s.sys ∧ (s.modSls k f).sup = s.sup ∧ (s.modSls k f).clk = s.clk
    ∧ (s.modSls k f).x = s.x ∧ (s.modSls k f).nv = s.nv ∧ (s.modSls k f).img = s.img ∧ (s.modSls k f).im = s.im
    ∧ (s.modSls k f).csLoaded = s.csLoaded ∧ (s.modSls k f).dsLoaded = s.dsLoaded ∧ (s.modSls k f).ctrs = s.ctrs
    ∧ (s.modSls k f).buoys = s.buoys ∧ (s.modSls k f).fb = s.fb ∧ (s.modSls k f).fbTick = s.fbTick
    ∧ (s.modSls k f).beamsCs = s.beamsCs ∧ (s.modSls k f).beamsDs = s.beamsDs ∧ (s.modSls k f).mains = s.mains
    ∧ (s.modSls k f).lhCs = s.lhCs ∧ (s.modSls k f).lhDs = s.lhDs ∧ (s.modSls k f).engCs = s.engCs
    ∧ (s.modSls k f).engDs = s.engDs ∧ (s.modSls k f).pairCs = s.pairCs ∧ (s.modSls k f).pairDs = s.pairDs
    ∧ (s.modSls k f).pwmCs = s.pwmCs ∧ (s.modSls k f).pwmDs = s.pwmDs ∧ (s.modSls k f).mach = s.mach
    ∧ (s.modSls k f).candle = s.candle ∧ (s.modSls k f).legs = s.legs ∧ (s.modSls k f).prot = s.prot
    ∧ (s.modSls k f).conv = s.conv ∧ (s.modSls k f).cvTick = s.cvTick ∧ (s.modSls k f).ports = s.ports
    ∧ (s.modSls k f).ac = s.ac ∧ (s.modSls k f).gd = s.gd ∧ (s.modSls k f).bridgeUnres = s.bridgeUnres
    ∧ (s.modSls k f).bridgeBad = s.bridgeBad ∧ (s.modSls k f).gact = s.gact ∧ (s.modSls k f).temp = s.temp
    ∧ (s.modSls k f).lamp = s.lamp ∧ (s.modSls k f).can = s.can ∧ (s.modSls k f).net = s.net ∧ (s.modSls k f).host = s.host
    ∧ (s.modSls k f).kp = s.kp ∧ (s.modSls k f).ckCs = s.ckCs ∧ (s.modSls k f).ckDs = s.ckDs :=
  ⟨rfl, rfl, rfl, rfl, rfl, rfl, rfl, rfl, rfl, rfl, rfl, rfl, rfl, rfl, rfl, rfl, rfl, rfl, rfl, rfl, rfl, rfl, rfl, rfl,
    rfl, rfl, rfl, rfl, rfl, rfl, rfl, rfl, rfl, rfl, rfl, rfl, rfl, rfl, rfl, rfl, rfl, rfl, rfl, rfl, rfl, rfl, rfl, rfl,
    rfl, rfl, rfl, rfl, rfl, rfl⟩

@[simp] theorem State.modSlp_new (k : Nat) (f : Monitor → Monitor) :
    (s.modSlp k f).wr = { s.wr with slp := s.wr.slp.modify k f } := rfl

@[simp] theorem State.modSlp_rest (k : Nat) (f : Monitor → Monitor) :
    (s.modSlp k f).pending = s.pending ∧ (s.modSlp k f).now = s.now ∧ (s.modSlp k f).freeCtr = s.freeCtr
    ∧ (s.modSlp k f).csOfs = s.csOfs ∧ (s.modSlp k f).dsOfs = s.dsOfs ∧ (s.modSlp k f).t0 = s.t0
    ∧ (s.modSlp k f).netZero = s.netZero ∧ (s.modSlp k f).fwRev = s.fwRev ∧ (s.modSlp k f).mem = s.mem
    ∧ (s.modSlp k f).acc = s.acc ∧ (s.modSlp k f).sys = s.sys ∧ (s.modSlp k f).sup = s.sup ∧ (s.modSlp k f).clk = s.clk
    ∧ (s.modSlp k f).x = s.x ∧ (s.modSlp k f).nv = s.nv ∧ (s.modSlp k f).img = s.img ∧ (s.modSlp k f).im = s.im
    ∧ (s.modSlp k f).csLoaded = s.csLoaded ∧ (s.modSlp k f).dsLoaded = s.dsLoaded ∧ (s.modSlp k f).ctrs = s.ctrs
    ∧ (s.modSlp k f).buoys = s.buoys ∧ (s.modSlp k f).fb = s.fb ∧ (s.modSlp k f).fbTick = s.fbTick
    ∧ (s.modSlp k f).beamsCs = s.beamsCs ∧ (s.modSlp k f).beamsDs = s.beamsDs ∧ (s.modSlp k f).mains = s.mains
    ∧ (s.modSlp k f).lhCs = s.lhCs ∧ (s.modSlp k f).lhDs = s.lhDs ∧ (s.modSlp k f).engCs = s.engCs
    ∧ (s.modSlp k f).engDs = s.engDs ∧ (s.modSlp k f).pairCs = s.pairCs ∧ (s.modSlp k f).pairDs = s.pairDs
    ∧ (s.modSlp k f).pwmCs = s.pwmCs ∧ (s.modSlp k f).pwmDs = s.pwmDs ∧ (s.modSlp k f).mach = s.mach
    ∧ (s.modSlp k f).candle = s.candle ∧ (s.modSlp k f).legs = s.legs ∧ (s.modSlp k f).prot = s.prot
    ∧ (s.modSlp k f).conv = s.conv ∧ (s.modSlp k f).cvTick = s.cvTick ∧ (s.modSlp k f).ports = s.ports
    ∧ (s.modSlp k f).ac = s.ac ∧ (s.modSlp k f).gd = s.gd ∧ (s.modSlp k f).bridgeUnres = s.bridgeUnres
    ∧ (s.modSlp k f).bridgeBad = s.bridgeBad ∧ (s.modSlp k f).gact = s.gact ∧ (s.modSlp k f).temp = s.temp
    ∧ (s.modSlp k f).lamp = s.lamp ∧ (s.modSlp k f).can = s.can ∧ (s.modSlp k f).net = s.net ∧ (s.modSlp k f).host = s.host
    ∧ (s.modSlp k f).kp = s.kp ∧ (s.modSlp k f).ckCs = s.ckCs ∧ (s.modSlp k f).ckDs = s.ckDs :=
  ⟨rfl, rfl, rfl, rfl, rfl, rfl, rfl, rfl, rfl, rfl, rfl, rfl, rfl, rfl, rfl, rfl, rfl, rfl, rfl, rfl, rfl, rfl, rfl, rfl,
    rfl, rfl, rfl, rfl, rfl, rfl, rfl, rfl, rfl, rfl, rfl, rfl, rfl, rfl, rfl, rfl, rfl, rfl, rfl, rfl, rfl, rfl, rfl, rfl,
    rfl, rfl, rfl, rfl, rfl, rfl⟩

@[simp] theorem State.modSdi_new (k : Nat) (f : Monitor → Monitor) :
    (s.modSdi k f).wr = { s.wr with sdi := s.wr.sdi.modify k f } := rfl

@[simp] theorem State.modSdi_rest (k : Nat) (f : Monitor → Monitor) :
    (s.modSdi k f).pending = s.pending ∧ (s.modSdi k f).now = s.now ∧ (s.modSdi k f).freeCtr = s.freeCtr
    ∧ (s.modSdi k f).csOfs = s.csOfs ∧ (s.modSdi k f).dsOfs = s.dsOfs ∧ (s.modSdi k f).t0 = s.t0
    ∧ (s.modSdi k f).netZero = s.netZero ∧ (s.modSdi k f).fwRev = s.fwRev ∧ (s.modSdi k f).mem = s.mem
    ∧ (s.modSdi k f).acc = s.acc ∧ (s.modSdi k f).sys = s.sys ∧ (s.modSdi k f).sup = s.sup ∧ (s.modSdi k f).clk = s.clk
    ∧ (s.modSdi k f).x = s.x ∧ (s.modSdi k f).nv = s.nv ∧ (s.modSdi k f).img = s.img ∧ (s.modSdi k f).im = s.im
    ∧ (s.modSdi k f).csLoaded = s.csLoaded ∧ (s.modSdi k f).dsLoaded = s.dsLoaded ∧ (s.modSdi k f).ctrs = s.ctrs
    ∧ (s.modSdi k f).buoys = s.buoys ∧ (s.modSdi k f).fb = s.fb ∧ (s.modSdi k f).fbTick = s.fbTick
    ∧ (s.modSdi k f).beamsCs = s.beamsCs ∧ (s.modSdi k f).beamsDs = s.beamsDs ∧ (s.modSdi k f).mains = s.mains
    ∧ (s.modSdi k f).lhCs = s.lhCs ∧ (s.modSdi k f).lhDs = s.lhDs ∧ (s.modSdi k f).engCs = s.engCs
    ∧ (s.modSdi k f).engDs = s.engDs ∧ (s.modSdi k f).pairCs = s.pairCs ∧ (s.modSdi k f).pairDs = s.pairDs
    ∧ (s.modSdi k f).pwmCs = s.pwmCs ∧ (s.modSdi k f).pwmDs = s.pwmDs ∧ (s.modSdi k f).mach = s.mach
    ∧ (s.modSdi k f).candle = s.candle ∧ (s.modSdi k f).legs = s.legs ∧ (s.modSdi k f).prot = s.prot
    ∧ (s.modSdi k f).conv = s.conv ∧ (s.modSdi k f).cvTick = s.cvTick ∧ (s.modSdi k f).ports = s.ports
    ∧ (s.modSdi k f).ac = s.ac ∧ (s.modSdi k f).gd = s.gd ∧ (s.modSdi k f).bridgeUnres = s.bridgeUnres
    ∧ (s.modSdi k f).bridgeBad = s.bridgeBad ∧ (s.modSdi k f).gact = s.gact ∧ (s.modSdi k f).temp = s.temp
    ∧ (s.modSdi k f).lamp = s.lamp ∧ (s.modSdi k f).can = s.can ∧ (s.modSdi k f).net = s.net ∧ (s.modSdi k f).host = s.host
    ∧ (s.modSdi k f).kp = s.kp ∧ (s.modSdi k f).ckCs = s.ckCs ∧ (s.modSdi k f).ckDs = s.ckDs :=
  ⟨rfl, rfl, rfl, rfl, rfl, rfl, rfl, rfl, rfl, rfl, rfl, rfl, rfl, rfl, rfl, rfl, rfl, rfl, rfl, rfl, rfl, rfl, rfl, rfl,
    rfl, rfl, rfl, rfl, rfl, rfl, rfl, rfl, rfl, rfl, rfl, rfl, rfl, rfl, rfl, rfl, rfl, rfl, rfl, rfl, rfl, rfl, rfl, rfl,
    rfl, rfl, rfl, rfl, rfl, rfl⟩

@[simp] theorem State.modCt_new (n : Nat) (f : Contactor → Contactor) :
    (s.modCt n f).wr = { s.wr with ct := upd s.wr.ct n f } := rfl

@[simp] theorem State.modCt_rest (n : Nat) (f : Contactor → Contactor) :
    (s.modCt n f).pending = s.pending ∧ (s.modCt n f).now = s.now ∧ (s.modCt n f).freeCtr = s.freeCtr
    ∧ (s.modCt n f).csOfs = s.csOfs ∧ (s.modCt n f).dsOfs = s.dsOfs ∧ (s.modCt n f).t0 = s.t0
    ∧ (s.modCt n f).netZero = s.netZero ∧ (s.modCt n f).fwRev = s.fwRev ∧ (s.modCt n f).mem = s.mem
    ∧ (s.modCt n f).acc = s.acc ∧ (s.modCt n f).sys = s.sys ∧ (s.modCt n f).sup = s.sup ∧ (s.modCt n f).clk = s.clk
    ∧ (s.modCt n f).x = s.x ∧ (s.modCt n f).nv = s.nv ∧ (s.modCt n f).img = s.img ∧ (s.modCt n f).im = s.im
    ∧ (s.modCt n f).csLoaded = s.csLoaded ∧ (s.modCt n f).dsLoaded = s.dsLoaded ∧ (s.modCt n f).ctrs = s.ctrs
    ∧ (s.modCt n f).buoys = s.buoys ∧ (s.modCt n f).fb = s.fb ∧ (s.modCt n f).fbTick = s.fbTick
    ∧ (s.modCt n f).beamsCs = s.beamsCs ∧ (s.modCt n f).beamsDs = s.beamsDs ∧ (s.modCt n f).mains = s.mains
    ∧ (s.modCt n f).lhCs = s.lhCs ∧ (s.modCt n f).lhDs = s.lhDs ∧ (s.modCt n f).engCs = s.engCs
    ∧ (s.modCt n f).engDs = s.engDs ∧ (s.modCt n f).pairCs = s.pairCs ∧ (s.modCt n f).pairDs = s.pairDs
    ∧ (s.modCt n f).pwmCs = s.pwmCs ∧ (s.modCt n f).pwmDs = s.pwmDs ∧ (s.modCt n f).mach = s.mach
    ∧ (s.modCt n f).candle = s.candle ∧ (s.modCt n f).legs = s.legs ∧ (s.modCt n f).prot = s.prot
    ∧ (s.modCt n f).conv = s.conv ∧ (s.modCt n f).cvTick = s.cvTick ∧ (s.modCt n f).ports = s.ports ∧ (s.modCt n f).ac = s.ac
    ∧ (s.modCt n f).gd = s.gd ∧ (s.modCt n f).bridgeUnres = s.bridgeUnres ∧ (s.modCt n f).bridgeBad = s.bridgeBad
    ∧ (s.modCt n f).gact = s.gact ∧ (s.modCt n f).temp = s.temp ∧ (s.modCt n f).lamp = s.lamp ∧ (s.modCt n f).can = s.can
    ∧ (s.modCt n f).net = s.net ∧ (s.modCt n f).host = s.host ∧ (s.modCt n f).kp = s.kp ∧ (s.modCt n f).ckCs = s.ckCs
    ∧ (s.modCt n f).ckDs = s.ckDs :=
  ⟨rfl, rfl, rfl, rfl, rfl, rfl, rfl, rfl, rfl, rfl, rfl, rfl, rfl, rfl, rfl, rfl, rfl, rfl, rfl, rfl, rfl, rfl, rfl, rfl,
    rfl, rfl, rfl, rfl, rfl, rfl, rfl, rfl, rfl, rfl, rfl, rfl, rfl, rfl, rfl, rfl, rfl, rfl, rfl, rfl, rfl, rfl, rfl, rfl,
    rfl, rfl, rfl, rfl, rfl, rfl⟩

@[simp] theorem State.answer_new (status ucode : Nat) (data : List Word) :
    (s.answer status ucode data).acc = { status := status, ucode := ucode, idx := if status = 1 || status = 2 then 0 else 0xFFFF, data := data } := rfl

@[simp] theorem State.answer_rest (status ucode : Nat) (data : List Word) :
    (s.answer status ucode data).pending = s.pending ∧ (s.answer status ucode data).now = s.now
    ∧ (s.answer status ucode data).freeCtr = s.freeCtr ∧ (s.answer status ucode data).csOfs = s.csOfs
    ∧ (s.answer status ucode data).dsOfs = s.dsOfs ∧ (s.answer status ucode data).t0 = s.t0
    ∧ (s.answer status ucode data).netZero = s.netZero ∧ (s.answer status ucode data).fwRev = s.fwRev
    ∧ (s.answer status ucode data).mem = s.mem ∧ (s.answer status ucode data).sys = s.sys
    ∧ (s.answer status ucode data).sup = s.sup ∧ (s.answer status ucode data).clk = s.clk
    ∧ (s.answer status ucode data).x = s.x ∧ (s.answer status ucode data).nv = s.nv
    ∧ (s.answer status ucode data).img = s.img ∧ (s.answer status ucode data).im = s.im
    ∧ (s.answer status ucode data).csLoaded = s.csLoaded ∧ (s.answer status ucode data).dsLoaded = s.dsLoaded
    ∧ (s.answer status ucode data).ctrs = s.ctrs ∧ (s.answer status ucode data).buoys = s.buoys
    ∧ (s.answer status ucode data).fb = s.fb ∧ (s.answer status ucode data).fbTick = s.fbTick
    ∧ (s.answer status ucode data).beamsCs = s.beamsCs ∧ (s.answer status ucode data).beamsDs = s.beamsDs
    ∧ (s.answer status ucode data).mains = s.mains ∧ (s.answer status ucode data).lhCs = s.lhCs
    ∧ (s.answer status ucode data).lhDs = s.lhDs ∧ (s.answer status ucode data).engCs = s.engCs
    ∧ (s.answer status ucode data).engDs = s.engDs ∧ (s.answer status ucode data).pairCs = s.pairCs
    ∧ (s.answer status ucode data).pairDs = s.pairDs ∧ (s.answer status ucode data).pwmCs = s.pwmCs
    ∧ (s.answer status ucode data).pwmDs = s.pwmDs ∧ (s.answer status ucode data).mach = s.mach
    ∧ (s.answer status ucode data).candle = s.candle ∧ (s.answer status ucode data).legs = s.legs
    ∧ (s.answer status ucode data).prot = s.prot ∧ (s.answer status ucode data).wr = s.wr
    ∧ (s.answer status ucode data).conv = s.conv ∧ (s.answer status ucode data).cvTick = s.cvTick
    ∧ (s.answer status ucode data).ports = s.ports ∧ (s.answer status ucode data).ac = s.ac
    ∧ (s.answer status ucode data).gd = s.gd ∧ (s.answer status ucode data).bridgeUnres = s.bridgeUnres
    ∧ (s.answer status ucode data).bridgeBad = s.bridgeBad ∧ (s.answer status ucode data).gact = s.gact
    ∧ (s.answer status ucode data).temp = s.temp ∧ (s.answer status ucode data).lamp = s.lamp
    ∧ (s.answer status ucode data).can = s.can ∧ (s.answer status ucode data).net = s.net
    ∧ (s.answer status ucode data).host = s.host ∧ (s.answer status ucode data).kp = s.kp
    ∧ (s.answer status ucode data).ckCs = s.ckCs ∧ (s.answer status ucode data).ckDs = s.ckDs :=
  ⟨rfl, rfl, rfl, rfl, rfl, rfl, rfl, rfl, rfl, rfl, rfl, rfl, rfl, rfl, rfl, rfl, rfl, rfl, rfl, rfl, rfl, rfl, rfl, rfl,
    rfl, rfl, rfl, rfl, rfl, rfl, rfl, rfl, rfl, rfl, rfl, rfl, rfl, rfl, rfl, rfl, rfl, rfl, rfl, rfl, rfl, rfl, rfl, rfl,
    rfl, rfl, rfl, rfl, rfl, rfl⟩

@[simp] theorem State.refuse_new (ucode : Nat) :
    (s.refuse ucode).acc = { status := 4, ucode := ucode, idx := 0, data := [] } := rfl

@[simp] theorem State.refuse_rest (ucode : Nat) :
    (s.refuse ucode).pending = s.pending ∧ (s.refuse ucode).now = s.now ∧ (s.refuse ucode).freeCtr = s.freeCtr
    ∧ (s.refuse ucode).csOfs = s.csOfs ∧ (s.refuse ucode).dsOfs = s.dsOfs ∧ (s.refuse ucode).t0 = s.t0
    ∧ (s.refuse ucode).netZero = s.netZero ∧ (s.refuse ucode).fwRev = s.fwRev ∧ (s.refuse ucode).mem = s.mem
    ∧ (s.refuse ucode).sys = s.sys ∧ (s.refuse ucode).sup = s.sup ∧ (s.refuse ucode).clk = s.clk ∧ (s.refuse ucode).x = s.x
    ∧ (s.refuse ucode).nv = s.nv ∧ (s.refuse ucode).img = s.img ∧ (s.refuse ucode).im = s.im
    ∧ (s.refuse ucode).csLoaded = s.csLoaded ∧ (s.refuse ucode).dsLoaded = s.dsLoaded ∧ (s.refuse ucode).ctrs = s.ctrs
    ∧ (s.refuse ucode).buoys = s.buoys ∧ (s.refuse ucode).fb = s.fb ∧ (s.refuse ucode).fbTick = s.fbTick
    ∧ (s.refuse ucode).beamsCs = s.beamsCs ∧ (s.refuse ucode).beamsDs = s.beamsDs ∧ (s.refuse ucode).mains = s.mains
    ∧ (s.refuse ucode).lhCs = s.lhCs ∧ (s.refuse ucode).lhDs = s.lhDs ∧ (s.refuse ucode).engCs = s.engCs
    ∧ (s.refuse ucode).engDs = s.engDs ∧ (s.refuse ucode).pairCs = s.pairCs ∧ (s.refuse ucode).pairDs = s.pairDs
    ∧ (s.refuse ucode).pwmCs = s.pwmCs ∧ (s.refuse ucode).pwmDs = s.pwmDs ∧ (s.refuse ucode).mach = s.mach
    ∧ (s.refuse ucode).candle = s.candle ∧ (s.refuse ucode).legs = s.legs ∧ (s.refuse ucode).prot = s.prot
    ∧ (s.refuse ucode).wr = s.wr ∧ (s.refuse ucode).conv = s.conv ∧ (s.refuse ucode).cvTick = s.cvTick
    ∧ (s.refuse ucode).ports = s.ports ∧ (s.refuse ucode).ac = s.ac ∧ (s.refuse ucode).gd = s.gd
    ∧ (s.refuse ucode).bridgeUnres = s.bridgeUnres ∧ (s.refuse ucode).bridgeBad = s.bridgeBad
    ∧ (s.refuse ucode).gact = s.gact ∧ (s.refuse ucode).temp = s.temp ∧ (s.refuse ucode).lamp = s.lamp
    ∧ (s.refuse ucode).can = s.can ∧ (s.refuse ucode).net = s.net ∧ (s.refuse ucode).host = s.host
    ∧ (s.refuse ucode).kp = s.kp ∧ (s.refuse ucode).ckCs = s.ckCs ∧ (s.refuse ucode).ckDs = s.ckDs :=
  ⟨rfl, rfl, rfl, rfl, rfl, rfl, rfl, rfl, rfl, rfl, rfl, rfl, rfl, rfl, rfl, rfl, rfl, rfl, rfl, rfl, rfl, rfl, rfl, rfl,
    rfl, rfl, rfl, rfl, rfl, rfl, rfl, rfl, rfl, rfl, rfl, rfl, rfl, rfl, rfl, rfl, rfl, rfl, rfl, rfl, rfl, rfl, rfl, rfl,
    rfl, rfl, rfl, rfl, rfl, rfl⟩

@[simp] theorem State.ok_new (data : List Word) :
    (s.ok data).acc = { status := 0, ucode := 0, idx := 0xFFFF, data := data } := rfl

@[simp] theorem State.ok_rest (data : List Word) :
    (s.ok data).pending = s.pending ∧ (s.ok data).now = s.now ∧ (s.ok data).freeCtr = s.freeCtr ∧ (s.ok data).csOfs = s.csOfs
    ∧ (s.ok data).dsOfs = s.dsOfs ∧ (s.ok data).t0 = s.t0 ∧ (s.ok data).netZero = s.netZero ∧ (s.ok data).fwRev = s.fwRev
    ∧ (s.ok data).mem = s.mem ∧ (s.ok data).sys = s.sys ∧ (s.ok data).sup = s.sup ∧ (s.ok data).clk = s.clk
    ∧ (s.ok data).x = s.x ∧ (s.ok data).nv = s.nv ∧ (s.ok data).img = s.img ∧ (s.ok data).im = s.im
    ∧ (s.ok data).csLoaded = s.csLoaded ∧ (s.ok data).dsLoaded = s.dsLoaded ∧ (s.ok data).ctrs = s.ctrs
    ∧ (s.ok data).buoys = s.buoys ∧ (s.ok data).fb = s.fb ∧ (s.ok data).fbTick = s.fbTick ∧ (s.ok data).beamsCs = s.beamsCs
    ∧ (s.ok data).beamsDs = s.beamsDs ∧ (s.ok data).mains = s.mains ∧ (s.ok data).lhCs = s.lhCs ∧ (s.ok data).lhDs = s.lhDs
    ∧ (s.ok data).engCs = s.engCs ∧ (s.ok data).engDs = s.engDs ∧ (s.ok data).pairCs = s.pairCs
    ∧ (s.ok data).pairDs = s.pairDs ∧ (s.ok data).pwmCs = s.pwmCs ∧ (s.ok data).pwmDs = s.pwmDs ∧ (s.ok data).mach = s.mach
    ∧ (s.ok data).candle = s.candle ∧ (s.ok data).legs = s.legs ∧ (s.ok data).prot = s.prot ∧ (s.ok data).wr = s.wr
    ∧ (s.ok data).conv = s.conv ∧ (s.ok data).cvTick = s.cvTick ∧ (s.ok data).ports = s.ports ∧ (s.ok data).ac = s.ac
    ∧ (s.ok data).gd = s.gd ∧ (s.ok data).bridgeUnres = s.bridgeUnres ∧ (s.ok data).bridgeBad = s.bridgeBad
    ∧ (s.ok data).gact = s.gact ∧ (s.ok data).temp = s.temp ∧ (s.ok data).lamp = s.lamp ∧ (s.ok data).can = s.can
    ∧ (s.ok data).net = s.net ∧ (s.ok data).host = s.host ∧ (s.ok data).kp = s.kp ∧ (s.ok data).ckCs = s.ckCs
    ∧ (s.ok data).ckDs = s.ckDs :=
  ⟨rfl, rfl, rfl, rfl, rfl, rfl, rfl, rfl, rfl, rfl, rfl, rfl, rfl, rfl, rfl, rfl, rfl, rfl, rfl, rfl, rfl, rfl, rfl, rfl,
    rfl, rfl, rfl, rfl, rfl, rfl, rfl, rfl, rfl, rfl, rfl, rfl, rfl, rfl, rfl, rfl, rfl, rfl, rfl, rfl, rfl, rfl, rfl, rfl,
    rfl, rfl, rfl, rfl, rfl, rfl⟩

@[simp] theorem State.setBeams_new (d : Die) (v : List Beam) :
    (s.setBeams d v).beams d = v ∧ (s.setBeams d v).beams d.other = s.beams d.other := by cases d <;> exact ⟨rfl, rfl⟩

@[simp] theorem State.setBeams_rest (d : Die) (v : List Beam) :
    (s.setBeams d v).pending = s.pending ∧ (s.setBeams d v).now = s.now ∧ (s.setBeams d v).freeCtr = s.freeCtr
    ∧ (s.setBeams d v).csOfs = s.csOfs ∧ (s.setBeams d v).dsOfs = s.dsOfs ∧ (s.setBeams d v).t0 = s.t0
    ∧ (s.setBeams d v).netZero = s.netZero ∧ (s.setBeams d v).fwRev = s.fwRev ∧ (s.setBeams d v).mem = s.mem
    ∧ (s.setBeams d v).acc = s.acc ∧ (s.setBeams d v).sys = s.sys ∧ (s.setBeams d v).sup = s.sup
    ∧ (s.setBeams d v).clk = s.clk ∧ (s.setBeams d v).x = s.x ∧ (s.setBeams d v).nv = s.nv ∧ (s.setBeams d v).img = s.img
    ∧ (s.setBeams d v).im = s.im ∧ (s.setBeams d v).csLoaded = s.csLoaded ∧ (s.setBeams d v).dsLoaded = s.dsLoaded
    ∧ (s.setBeams d v).ctrs = s.ctrs ∧ (s.setBeams d v).buoys = s.buoys ∧ (s.setBeams d v).fb = s.fb
    ∧ (s.setBeams d v).fbTick = s.fbTick ∧ (s.setBeams d v).mains = s.mains ∧ (s.setBeams d v).lhCs = s.lhCs
    ∧ (s.setBeams d v).lhDs = s.lhDs ∧ (s.setBeams d v).engCs = s.engCs ∧ (s.setBeams d v).engDs = s.engDs
    ∧ (s.setBeams d v).pairCs = s.pairCs ∧ (s.setBeams d v).pairDs = s.pairDs ∧ (s.setBeams d v).pwmCs = s.pwmCs
    ∧ (s.setBeams d v).pwmDs = s.pwmDs ∧ (s.setBeams d v).mach = s.mach ∧ (s.setBeams d v).candle = s.candle
    ∧ (s.setBeams d v).legs = s.legs ∧ (s.setBeams d v).prot = s.prot ∧ (s.setBeams d v).wr = s.wr
    ∧ (s.setBeams d v).conv = s.conv ∧ (s.setBeams d v).cvTick = s.cvTick ∧ (s.setBeams d v).ports = s.ports
    ∧ (s.setBeams d v).ac = s.ac ∧ (s.setBeams d v).gd = s.gd ∧ (s.setBeams d v).bridgeUnres = s.bridgeUnres
    ∧ (s.setBeams d v).bridgeBad = s.bridgeBad ∧ (s.setBeams d v).gact = s.gact ∧ (s.setBeams d v).temp = s.temp
    ∧ (s.setBeams d v).lamp = s.lamp ∧ (s.setBeams d v).can = s.can ∧ (s.setBeams d v).net = s.net
    ∧ (s.setBeams d v).host = s.host ∧ (s.setBeams d v).kp = s.kp ∧ (s.setBeams d v).ckCs = s.ckCs
    ∧ (s.setBeams d v).ckDs = s.ckDs :=
  by cases d <;> exact ⟨rfl, rfl, rfl, rfl, rfl, rfl, rfl, rfl, rfl, rfl, rfl, rfl, rfl, rfl, rfl, rfl, rfl, rfl, rfl, rfl,
    rfl, rfl, rfl, rfl, rfl, rfl, rfl, rfl, rfl, rfl, rfl, rfl, rfl, rfl, rfl, rfl, rfl, rfl, rfl, rfl, rfl, rfl, rfl, rfl,
    rfl, rfl, rfl, rfl, rfl, rfl, rfl, rfl, rfl⟩

@[simp] theorem State.setLh_new (d : Die) (v : Lh) :
    (s.setLh d v).lh d = v ∧ (s.setLh d v).lh d.other = s.lh d.other := by cases d <;> exact ⟨rfl, rfl⟩

@[simp] theorem State.setLh_rest (d : Die) (v : Lh) :
    (s.setLh d v).pending = s.pending ∧ (s.setLh d v).now = s.now ∧ (s.setLh d v).freeCtr = s.freeCtr
    ∧ (s.setLh d v).csOfs = s.csOfs ∧ (s.setLh d v).dsOfs = s.dsOfs ∧ (s.setLh d v).t0 = s.t0
    ∧ (s.setLh d v).netZero = s.netZero ∧ (s.setLh d v).fwRev = s.fwRev ∧ (s.setLh d v).mem = s.mem
    ∧ (s.setLh d v).acc = s.acc ∧ (s.setLh d v).sys = s.sys ∧ (s.setLh d v).sup = s.sup ∧ (s.setLh d v).clk = s.clk
    ∧ (s.setLh d v).x = s.x ∧ (s.setLh d v).nv = s.nv ∧ (s.setLh d v).img = s.img ∧ (s.setLh d v).im = s.im
    ∧ (s.setLh d v).csLoaded = s.csLoaded ∧ (s.setLh d v).dsLoaded = s.dsLoaded ∧ (s.setLh d v).ctrs = s.ctrs
    ∧ (s.setLh d v).buoys = s.buoys ∧ (s.setLh d v).fb = s.fb ∧ (s.setLh d v).fbTick = s.fbTick
    ∧ (s.setLh d v).beamsCs = s.beamsCs ∧ (s.setLh d v).beamsDs = s.beamsDs ∧ (s.setLh d v).mains = s.mains
    ∧ (s.setLh d v).engCs = s.engCs ∧ (s.setLh d v).engDs = s.engDs ∧ (s.setLh d v).pairCs = s.pairCs
    ∧ (s.setLh d v).pairDs = s.pairDs ∧ (s.setLh d v).pwmCs = s.pwmCs ∧ (s.setLh d v).pwmDs = s.pwmDs
    ∧ (s.setLh d v).mach = s.mach ∧ (s.setLh d v).candle = s.candle ∧ (s.setLh d v).legs = s.legs
    ∧ (s.setLh d v).prot = s.prot ∧ (s.setLh d v).wr = s.wr ∧ (s.setLh d v).conv = s.conv ∧ (s.setLh d v).cvTick = s.cvTick
    ∧ (s.setLh d v).ports = s.ports ∧ (s.setLh d v).ac = s.ac ∧ (s.setLh d v).gd = s.gd
    ∧ (s.setLh d v).bridgeUnres = s.bridgeUnres ∧ (s.setLh d v).bridgeBad = s.bridgeBad ∧ (s.setLh d v).gact = s.gact
    ∧ (s.setLh d v).temp = s.temp ∧ (s.setLh d v).lamp = s.lamp ∧ (s.setLh d v).can = s.can ∧ (s.setLh d v).net = s.net
    ∧ (s.setLh d v).host = s.host ∧ (s.setLh d v).kp = s.kp ∧ (s.setLh d v).ckCs = s.ckCs ∧ (s.setLh d v).ckDs = s.ckDs :=
  by cases d <;> exact ⟨rfl, rfl, rfl, rfl, rfl, rfl, rfl, rfl, rfl, rfl, rfl, rfl, rfl, rfl, rfl, rfl, rfl, rfl, rfl, rfl,
    rfl, rfl, rfl, rfl, rfl, rfl, rfl, rfl, rfl, rfl, rfl, rfl, rfl, rfl, rfl, rfl, rfl, rfl, rfl, rfl, rfl, rfl, rfl, rfl,
    rfl, rfl, rfl, rfl, rfl, rfl, rfl, rfl, rfl⟩

@[simp] theorem State.setEngs_new (d : Die) (v : List Eng) :
    (s.setEngs d v).engs d = v ∧ (s.setEngs d v).engs d.other = s.engs d.other := by cases d <;> exact ⟨rfl, rfl⟩

@[simp] theorem State.setEngs_rest (d : Die) (v : List Eng) :
    (s.setEngs d v).pending = s.pending ∧ (s.setEngs d v).now = s.now ∧ (s.setEngs d v).freeCtr = s.freeCtr
    ∧ (s.setEngs d v).csOfs = s.csOfs ∧ (s.setEngs d v).dsOfs = s.dsOfs ∧ (s.setEngs d v).t0 = s.t0
    ∧ (s.setEngs d v).netZero = s.netZero ∧ (s.setEngs d v).fwRev = s.fwRev ∧ (s.setEngs d v).mem = s.mem
    ∧ (s.setEngs d v).acc = s.acc ∧ (s.setEngs d v).sys = s.sys ∧ (s.setEngs d v).sup = s.sup ∧ (s.setEngs d v).clk = s.clk
    ∧ (s.setEngs d v).x = s.x ∧ (s.setEngs d v).nv = s.nv ∧ (s.setEngs d v).img = s.img ∧ (s.setEngs d v).im = s.im
    ∧ (s.setEngs d v).csLoaded = s.csLoaded ∧ (s.setEngs d v).dsLoaded = s.dsLoaded ∧ (s.setEngs d v).ctrs = s.ctrs
    ∧ (s.setEngs d v).buoys = s.buoys ∧ (s.setEngs d v).fb = s.fb ∧ (s.setEngs d v).fbTick = s.fbTick
    ∧ (s.setEngs d v).beamsCs = s.beamsCs ∧ (s.setEngs d v).beamsDs = s.beamsDs ∧ (s.setEngs d v).mains = s.mains
    ∧ (s.setEngs d v).lhCs = s.lhCs ∧ (s.setEngs d v).lhDs = s.lhDs ∧ (s.setEngs d v).pairCs = s.pairCs
    ∧ (s.setEngs d v).pairDs = s.pairDs ∧ (s.setEngs d v).pwmCs = s.pwmCs ∧ (s.setEngs d v).pwmDs = s.pwmDs
    ∧ (s.setEngs d v).mach = s.mach ∧ (s.setEngs d v).candle = s.candle ∧ (s.setEngs d v).legs = s.legs
    ∧ (s.setEngs d v).prot = s.prot ∧ (s.setEngs d v).wr = s.wr ∧ (s.setEngs d v).conv = s.conv
    ∧ (s.setEngs d v).cvTick = s.cvTick ∧ (s.setEngs d v).ports = s.ports ∧ (s.setEngs d v).ac = s.ac
    ∧ (s.setEngs d v).gd = s.gd ∧ (s.setEngs d v).bridgeUnres = s.bridgeUnres ∧ (s.setEngs d v).bridgeBad = s.bridgeBad
    ∧ (s.setEngs d v).gact = s.gact ∧ (s.setEngs d v).temp = s.temp ∧ (s.setEngs d v).lamp = s.lamp
    ∧ (s.setEngs d v).can = s.can ∧ (s.setEngs d v).net = s.net ∧ (s.setEngs d v).host = s.host ∧ (s.setEngs d v).kp = s.kp
    ∧ (s.setEngs d v).ckCs = s.ckCs ∧ (s.setEngs d v).ckDs = s.ckDs :=
  by cases d <;> exact ⟨rfl, rfl, rfl, rfl, rfl, rfl, rfl, rfl, rfl, rfl, rfl, rfl, rfl, rfl, rfl, rfl, rfl, rfl, rfl, rfl,
    rfl, rfl, rfl, rfl, rfl, rfl, rfl, rfl, rfl, rfl, rfl, rfl, rfl, rfl, rfl, rfl, rfl, rfl, rfl, rfl, rfl, rfl, rfl, rfl,
    rfl, rfl, rfl, rfl, rfl, rfl, rfl, rfl, rfl⟩

@[simp] theorem State.setPairs_new (d : Die) (v : List Pair) :
    (s.setPairs d v).pairs d = v ∧ (s.setPairs d v).pairs d.other = s.pairs d.other := by cases d <;> exact ⟨rfl, rfl⟩

@[simp] theorem State.setPairs_rest (d : Die) (v : List Pair) :
    (s.setPairs d v).pending = s.pending ∧ (s.setPairs d v).now = s.now ∧ (s.setPairs d v).freeCtr = s.freeCtr
    ∧ (s.setPairs d v).csOfs = s.csOfs ∧ (s.setPairs d v).dsOfs = s.dsOfs ∧ (s.setPairs d v).t0 = s.t0
    ∧ (s.setPairs d v).netZero = s.netZero ∧ (s.setPairs d v).fwRev = s.fwRev ∧ (s.setPairs d v).mem = s.mem
    ∧ (s.setPairs d v).acc = s.acc ∧ (s.setPairs d v).sys = s.sys ∧ (s.setPairs d v).sup = s.sup
    ∧ (s.setPairs d v).clk = s.clk ∧ (s.setPairs d v).x = s.x ∧ (s.setPairs d v).nv = s.nv ∧ (s.setPairs d v).img = s.img
    ∧ (s.setPairs d v).im = s.im ∧ (s.setPairs d v).csLoaded = s.csLoaded ∧ (s.setPairs d v).dsLoaded = s.dsLoaded
    ∧ (s.setPairs d v).ctrs = s.ctrs ∧ (s.setPairs d v).buoys = s.buoys ∧ (s.setPairs d v).fb = s.fb
    ∧ (s.setPairs d v).fbTick = s.fbTick ∧ (s.setPairs d v).beamsCs = s.beamsCs ∧ (s.setPairs d v).beamsDs = s.beamsDs
    ∧ (s.setPairs d v).mains = s.mains ∧ (s.setPairs d v).lhCs = s.lhCs ∧ (s.setPairs d v).lhDs = s.lhDs
    ∧ (s.setPairs d v).engCs = s.engCs ∧ (s.setPairs d v).engDs = s.engDs ∧ (s.setPairs d v).pwmCs = s.pwmCs
    ∧ (s.setPairs d v).pwmDs = s.pwmDs ∧ (s.setPairs d v).mach = s.mach ∧ (s.setPairs d v).candle = s.candle
    ∧ (s.setPairs d v).legs = s.legs ∧ (s.setPairs d v).prot = s.prot ∧ (s.setPairs d v).wr = s.wr
    ∧ (s.setPairs d v).conv = s.conv ∧ (s.setPairs d v).cvTick = s.cvTick ∧ (s.setPairs d v).ports = s.ports
    ∧ (s.setPairs d v).ac = s.ac ∧ (s.setPairs d v).gd = s.gd ∧ (s.setPairs d v).bridgeUnres = s.bridgeUnres
    ∧ (s.setPairs d v).bridgeBad = s.bridgeBad ∧ (s.setPairs d v).gact = s.gact ∧ (s.setPairs d v).temp = s.temp
    ∧ (s.setPairs d v).lamp = s.lamp ∧ (s.setPairs d v).can = s.can ∧ (s.setPairs d v).net = s.net
    ∧ (s.setPairs d v).host = s.host ∧ (s.setPairs d v).kp = s.kp ∧ (s.setPairs d v).ckCs = s.ckCs
    ∧ (s.setPairs d v).ckDs = s.ckDs :=
  by cases d <;> exact ⟨rfl, rfl, rfl, rfl, rfl, rfl, rfl, rfl, rfl, rfl, rfl, rfl, rfl, rfl, rfl, rfl, rfl, rfl, rfl, rfl,
    rfl, rfl, rfl, rfl, rfl, rfl, rfl, rfl, rfl, rfl, rfl, rfl, rfl, rfl, rfl, rfl, rfl, rfl, rfl, rfl, rfl, rfl, rfl, rfl,
    rfl, rfl, rfl, rfl, rfl, rfl, rfl, rfl, rfl⟩

@[simp] theorem State.setPwm_new (d : Die) (v : Pwm) :
    (s.setPwm d v).pwm d = v ∧ (s.setPwm d v).pwm d.other = s.pwm d.other := by cases d <;> exact ⟨rfl, rfl⟩

@[simp] theorem State.setPwm_rest (d : Die) (v : Pwm) :
    (s.setPwm d v).pending = s.pending ∧ (s.setPwm d v).now = s.now ∧ (s.setPwm d v).freeCtr = s.freeCtr
    ∧ (s.setPwm d v).csOfs = s.csOfs ∧ (s.setPwm d v).dsOfs = s.dsOfs ∧ (s.setPwm d v).t0 = s.t0
    ∧ (s.setPwm d v).netZero = s.netZero ∧ (s.setPwm d v).fwRev = s.fwRev ∧ (s.setPwm d v).mem = s.mem
    ∧ (s.setPwm d v).acc = s.acc ∧ (s.setPwm d v).sys = s.sys ∧ (s.setPwm d v).sup = s.sup ∧ (s.setPwm d v).clk = s.clk
    ∧ (s.setPwm d v).x = s.x ∧ (s.setPwm d v).nv = s.nv ∧ (s.setPwm d v).img = s.img ∧ (s.setPwm d v).im = s.im
    ∧ (s.setPwm d v).csLoaded = s.csLoaded ∧ (s.setPwm d v).dsLoaded = s.dsLoaded ∧ (s.setPwm d v).ctrs = s.ctrs
    ∧ (s.setPwm d v).buoys = s.buoys ∧ (s.setPwm d v).fb = s.fb ∧ (s.setPwm d v).fbTick = s.fbTick
    ∧ (s.setPwm d v).beamsCs = s.beamsCs ∧ (s.setPwm d v).beamsDs = s.beamsDs ∧ (s.setPwm d v).mains = s.mains
    ∧ (s.setPwm d v).lhCs = s.lhCs ∧ (s.setPwm d v).lhDs = s.lhDs ∧ (s.setPwm d v).engCs = s.engCs
    ∧ (s.setPwm d v).engDs = s.engDs ∧ (s.setPwm d v).pairCs = s.pairCs ∧ (s.setPwm d v).pairDs = s.pairDs
    ∧ (s.setPwm d v).mach = s.mach ∧ (s.setPwm d v).candle = s.candle ∧ (s.setPwm d v).legs = s.legs
    ∧ (s.setPwm d v).prot = s.prot ∧ (s.setPwm d v).wr = s.wr ∧ (s.setPwm d v).conv = s.conv
    ∧ (s.setPwm d v).cvTick = s.cvTick ∧ (s.setPwm d v).ports = s.ports ∧ (s.setPwm d v).ac = s.ac ∧ (s.setPwm d v).gd = s.gd
    ∧ (s.setPwm d v).bridgeUnres = s.bridgeUnres ∧ (s.setPwm d v).bridgeBad = s.bridgeBad ∧ (s.setPwm d v).gact = s.gact
    ∧ (s.setPwm d v).temp = s.temp ∧ (s.setPwm d v).lamp = s.lamp ∧ (s.setPwm d v).can = s.can ∧ (s.setPwm d v).net = s.net
    ∧ (s.setPwm d v).host = s.host ∧ (s.setPwm d v).kp = s.kp ∧ (s.setPwm d v).ckCs = s.ckCs ∧ (s.setPwm d v).ckDs = s.ckDs :=
  by cases d <;> exact ⟨rfl, rfl, rfl, rfl, rfl, rfl, rfl, rfl, rfl, rfl, rfl, rfl, rfl, rfl, rfl, rfl, rfl, rfl, rfl, rfl,
    rfl, rfl, rfl, rfl, rfl, rfl, rfl, rfl, rfl, rfl, rfl, rfl, rfl, rfl, rfl, rfl, rfl, rfl, rfl, rfl, rfl, rfl, rfl, rfl,
    rfl, rfl, rfl, rfl, rfl, rfl, rfl, rfl, rfl⟩

@[simp] theorem State.setLink_new (d : Die) (v : Link) :
    (s.setLink d v).link d = v ∧ (s.setLink d v).link d.other = s.link d.other := by cases d <;> exact ⟨rfl, rfl⟩

@[simp] theorem State.setLink_rest (d : Die) (v : Link) :
    (s.setLink d v).pending = s.pending ∧ (s.setLink d v).now = s.now ∧ (s.setLink d v).freeCtr = s.freeCtr
    ∧ (s.setLink d v).csOfs = s.csOfs ∧ (s.setLink d v).dsOfs = s.dsOfs ∧ (s.setLink d v).t0 = s.t0
    ∧ (s.setLink d v).netZero = s.netZero ∧ (s.setLink d v).fwRev = s.fwRev ∧ (s.setLink d v).mem = s.mem
    ∧ (s.setLink d v).acc = s.acc ∧ (s.setLink d v).sys = s.sys ∧ (s.setLink d v).sup = s.sup ∧ (s.setLink d v).clk = s.clk
    ∧ (s.setLink d v).nv = s.nv ∧ (s.setLink d v).img = s.img ∧ (s.setLink d v).im = s.im
    ∧ (s.setLink d v).csLoaded = s.csLoaded ∧ (s.setLink d v).dsLoaded = s.dsLoaded ∧ (s.setLink d v).ctrs = s.ctrs
    ∧ (s.setLink d v).buoys = s.buoys ∧ (s.setLink d v).fb = s.fb ∧ (s.setLink d v).fbTick = s.fbTick
    ∧ (s.setLink d v).beamsCs = s.beamsCs ∧ (s.setLink d v).beamsDs = s.beamsDs ∧ (s.setLink d v).mains = s.mains
    ∧ (s.setLink d v).lhCs = s.lhCs ∧ (s.setLink d v).lhDs = s.lhDs ∧ (s.setLink d v).engCs = s.engCs
    ∧ (s.setLink d v).engDs = s.engDs ∧ (s.setLink d v).pairCs = s.pairCs ∧ (s.setLink d v).pairDs = s.pairDs
    ∧ (s.setLink d v).pwmCs = s.pwmCs ∧ (s.setLink d v).pwmDs = s.pwmDs ∧ (s.setLink d v).mach = s.mach
    ∧ (s.setLink d v).candle = s.candle ∧ (s.setLink d v).legs = s.legs ∧ (s.setLink d v).prot = s.prot
    ∧ (s.setLink d v).wr = s.wr ∧ (s.setLink d v).conv = s.conv ∧ (s.setLink d v).cvTick = s.cvTick
    ∧ (s.setLink d v).ports = s.ports ∧ (s.setLink d v).ac = s.ac ∧ (s.setLink d v).gd = s.gd
    ∧ (s.setLink d v).bridgeUnres = s.bridgeUnres ∧ (s.setLink d v).bridgeBad = s.bridgeBad ∧ (s.setLink d v).gact = s.gact
    ∧ (s.setLink d v).temp = s.temp ∧ (s.setLink d v).lamp = s.lamp ∧ (s.setLink d v).can = s.can
    ∧ (s.setLink d v).net = s.net ∧ (s.setLink d v).host = s.host ∧ (s.setLink d v).kp = s.kp ∧ (s.setLink d v).ckCs = s.ckCs
    ∧ (s.setLink d v).ckDs = s.ckDs :=
  by cases d <;> exact ⟨rfl, rfl, rfl, rfl, rfl, rfl, rfl, rfl, rfl, rfl, rfl, rfl, rfl, rfl, rfl, rfl, rfl, rfl, rfl, rfl,
    rfl, rfl, rfl, rfl, rfl, rfl, rfl, rfl, rfl, rfl, rfl, rfl, rfl, rfl, rfl, rfl, rfl, rfl, rfl, rfl, rfl, rfl, rfl, rfl,
    rfl, rfl, rfl, rfl, rfl, rfl, rfl, rfl, rfl, rfl⟩

@[simp] theorem State.setCks_new (d : Die) (v : List Ck) :
    (s.setCks d v).cks d = v ∧ (s.setCks d v).cks d.other = s.cks d.other := by cases d <;> exact ⟨rfl, rfl⟩

@[simp] theorem State.setCks_rest (d : Die) (v : List Ck) :
    (s.setCks d v).pending = s.pending ∧ (s.setCks d v).now = s.now ∧ (s.setCks d v).freeCtr = s.freeCtr
    ∧ (s.setCks d v).csOfs = s.csOfs ∧ (s.setCks d v).dsOfs = s.dsOfs ∧ (s.setCks d v).t0 = s.t0
    ∧ (s.setCks d v).netZero = s.netZero ∧ (s.setCks d v).fwRev = s.fwRev ∧ (s.setCks d v).mem = s.mem
    ∧ (s.setCks d v).acc = s.acc ∧ (s.setCks d v).sys = s.sys ∧ (s.setCks d v).sup = s.sup ∧ (s.setCks d v).clk = s.clk
    ∧ (s.setCks d v).x = s.x ∧ (s.setCks d v).nv = s.nv ∧ (s.setCks d v).img = s.img ∧ (s.setCks d v).im = s.im
    ∧ (s.setCks d v).csLoaded = s.csLoaded ∧ (s.setCks d v).dsLoaded = s.dsLoaded ∧ (s.setCks d v).ctrs = s.ctrs
    ∧ (s.setCks d v).buoys = s.buoys ∧ (s.setCks d v).fb = s.fb ∧ (s.setCks d v).fbTick = s.fbTick
    ∧ (s.setCks d v).beamsCs = s.beamsCs ∧ (s.setCks d v).beamsDs = s.beamsDs ∧ (s.setCks d v).mains = s.mains
    ∧ (s.setCks d v).lhCs = s.lhCs ∧ (s.setCks d v).lhDs = s.lhDs ∧ (s.setCks d v).engCs = s.engCs
    ∧ (s.setCks d v).engDs = s.engDs ∧ (s.setCks d v).pairCs = s.pairCs ∧ (s.setCks d v).pairDs = s.pairDs
    ∧ (s.setCks d v).pwmCs = s.pwmCs ∧ (s.setCks d v).pwmDs = s.pwmDs ∧ (s.setCks d v).mach = s.mach
    ∧ (s.setCks d v).candle = s.candle ∧ (s.setCks d v).legs = s.legs ∧ (s.setCks d v).prot = s.prot
    ∧ (s.setCks d v).wr = s.wr ∧ (s.setCks d v).conv = s.conv ∧ (s.setCks d v).cvTick = s.cvTick
    ∧ (s.setCks d v).ports = s.ports ∧ (s.setCks d v).ac = s.ac ∧ (s.setCks d v).gd = s.gd
    ∧ (s.setCks d v).bridgeUnres = s.bridgeUnres ∧ (s.setCks d v).bridgeBad = s.bridgeBad ∧ (s.setCks d v).gact = s.gact
    ∧ (s.setCks d v).temp = s.temp ∧ (s.setCks d v).lamp = s.lamp ∧ (s.setCks d v).can = s.can ∧ (s.setCks d v).net = s.net
    ∧ (s.setCks d v).host = s.host ∧ (s.setCks d v).kp = s.kp :=
  by cases d <;> exact ⟨rfl, rfl, rfl, rfl, rfl, rfl, rfl, rfl, rfl, rfl, rfl, rfl, rfl, rfl, rfl, rfl, rfl, rfl, rfl, rfl,
    rfl, rfl, rfl, rfl, rfl, rfl, rfl, rfl, rfl, rfl, rfl, rfl, rfl, rfl, rfl, rfl, rfl, rfl, rfl, rfl, rfl, rfl, rfl, rfl,
    rfl, rfl, rfl, rfl, rfl, rfl, rfl, rfl, rfl⟩

@[simp] theorem State.modBeam_new (d : Die) (n : Nat) (f : Beam → Beam) :
    (s.modBeam d n f).beams d = (upd (s.beams d) n fun m => m.turn s.now (f m)) ∧ (s.modBeam d n f).beams d.other = s.beams d.other := by cases d <;> exact ⟨rfl, rfl⟩

@[simp] theorem State.modBeam_rest (d : Die) (n : Nat) (f : Beam → Beam) :
    (s.modBeam d n f).pending = s.pending ∧ (s.modBeam d n f).now = s.now ∧ (s.modBeam d n f).freeCtr = s.freeCtr
    ∧ (s.modBeam d n f).csOfs = s.csOfs ∧ (s.modBeam d n f).dsOfs = s.dsOfs ∧ (s.modBeam d n f).t0 = s.t0
    ∧ (s.modBeam d n f).netZero = s.netZero ∧ (s.modBeam d n f).fwRev = s.fwRev ∧ (s.modBeam d n f).mem = s.mem
    ∧ (s.modBeam d n f).acc = s.acc ∧ (s.modBeam d n f).sys = s.sys ∧ (s.modBeam d n f).sup = s.sup
    ∧ (s.modBeam d n f).clk = s.clk ∧ (s.modBeam d n f).x = s.x ∧ (s.modBeam d n f).nv = s.nv ∧ (s.modBeam d n f).img = s.img
    ∧ (s.modBeam d n f).im = s.im ∧ (s.modBeam d n f).csLoaded = s.csLoaded ∧ (s.modBeam d n f).dsLoaded = s.dsLoaded
    ∧ (s.modBeam d n f).ctrs = s.ctrs ∧ (s.modBeam d n f).buoys = s.buoys ∧ (s.modBeam d n f).fb = s.fb
    ∧ (s.modBeam d n f).fbTick = s.fbTick ∧ (s.modBeam d n f).mains = s.mains ∧ (s.modBeam d n f).lhCs = s.lhCs
    ∧ (s.modBeam d n f).lhDs = s.lhDs ∧ (s.modBeam d n f).engCs = s.engCs ∧ (s.modBeam d n f).engDs = s.engDs
    ∧ (s.modBeam d n f).pairCs = s.pairCs ∧ (s.modBeam d n f).pairDs = s.pairDs ∧ (s.modBeam d n f).pwmCs = s.pwmCs
    ∧ (s.modBeam d n f).pwmDs = s.pwmDs ∧ (s.modBeam d n f).mach = s.mach ∧ (s.modBeam d n f).candle = s.candle
    ∧ (s.modBeam d n f).legs = s.legs ∧ (s.modBeam d n f).prot = s.prot ∧ (s.modBeam d n f).wr = s.wr
    ∧ (s.modBeam d n f).conv = s.conv ∧ (s.modBeam d n f).cvTick = s.cvTick ∧ (s.modBeam d n f).ports = s.ports
    ∧ (s.modBeam d n f).ac = s.ac ∧ (s.modBeam d n f).gd = s.gd ∧ (s.modBeam d n f).bridgeUnres = s.bridgeUnres
    ∧ (s.modBeam d n f).bridgeBad = s.bridgeBad ∧ (s.modBeam d n f).gact = s.gact ∧ (s.modBeam d n f).temp = s.temp
    ∧ (s.modBeam d n f).lamp = s.lamp ∧ (s.modBeam d n f).can = s.can ∧ (s.modBeam d n f).net = s.net
    ∧ (s.modBeam d n f).host = s.host ∧ (s.modBeam d n f).kp = s.kp ∧ (s.modBeam d n f).ckCs = s.ckCs
    ∧ (s.modBeam d n f).ckDs = s.ckDs :=
  by cases d <;> exact ⟨rfl, rfl, rfl, rfl, rfl, rfl, rfl, rfl, rfl, rfl, rfl, rfl, rfl, rfl, rfl, rfl, rfl, rfl, rfl, rfl,
    rfl, rfl, rfl, rfl, rfl, rfl, rfl, rfl, rfl, rfl, rfl, rfl, rfl, rfl, rfl, rfl, rfl, rfl, rfl, rfl, rfl, rfl, rfl, rfl,
    rfl, rfl, rfl, rfl, rfl, rfl, rfl, rfl, rfl⟩

@[simp] theorem State.modLane_new (d : Die) (n : Nat) (f : Lane → Lane) :
    (s.modLane d n f).lh d = { s.lh d with lanes := upd (s.lh d).lanes n f } ∧ (s.modLane d n f).lh d.other = s.lh d.other := by cases d <;> exact ⟨rfl, rfl⟩

@[simp] theorem State.modLane_rest (d : Die) (n : Nat) (f : Lane → Lane) :
    (s.modLane d n f).pending = s.pending ∧ (s.modLane d n f).now = s.now ∧ (s.modLane d n f).freeCtr = s.freeCtr
    ∧ (s.modLane d n f).csOfs = s.csOfs ∧ (s.modLane d n f).dsOfs = s.dsOfs ∧ (s.modLane d n f).t0 = s.t0
    ∧ (s.modLane d n f).netZero = s.netZero ∧ (s.modLane d n f).fwRev = s.fwRev ∧ (s.modLane d n f).mem = s.mem
    ∧ (s.modLane d n f).acc = s.acc ∧ (s.modLane d n f).sys = s.sys ∧ (s.modLane d n f).sup = s.sup
    ∧ (s.modLane d n f).clk = s.clk ∧ (s.modLane d n f).x = s.x ∧ (s.modLane d n f).nv = s.nv ∧ (s.modLane d n f).img = s.img
    ∧ (s.modLane d n f).im = s.im ∧ (s.modLane d n f).csLoaded = s.csLoaded ∧ (s.modLane d n f).dsLoaded = s.dsLoaded
    ∧ (s.modLane d n f).ctrs = s.ctrs ∧ (s.modLane d n f).buoys = s.buoys ∧ (s.modLane d n f).fb = s.fb
    ∧ (s.modLane d n f).fbTick = s.fbTick ∧ (s.modLane d n f).beamsCs = s.beamsCs ∧ (s.modLane d n f).beamsDs = s.beamsDs
    ∧ (s.modLane d n f).mains = s.mains ∧ (s.modLane d n f).engCs = s.engCs ∧ (s.modLane d n f).engDs = s.engDs
    ∧ (s.modLane d n f).pairCs = s.pairCs ∧ (s.modLane d n f).pairDs = s.pairDs ∧ (s.modLane d n f).pwmCs = s.pwmCs
    ∧ (s.modLane d n f).pwmDs = s.pwmDs ∧ (s.modLane d n f).mach = s.mach ∧ (s.modLane d n f).candle = s.candle
    ∧ (s.modLane d n f).legs = s.legs ∧ (s.modLane d n f).prot = s.prot ∧ (s.modLane d n f).wr = s.wr
    ∧ (s.modLane d n f).conv = s.conv ∧ (s.modLane d n f).cvTick = s.cvTick ∧ (s.modLane d n f).ports = s.ports
    ∧ (s.modLane d n f).ac = s.ac ∧ (s.modLane d n f).gd = s.gd ∧ (s.modLane d n f).bridgeUnres = s.bridgeUnres
    ∧ (s.modLane d n f).bridgeBad = s.bridgeBad ∧ (s.modLane d n f).gact = s.gact ∧ (s.modLane d n f).temp = s.temp
    ∧ (s.modLane d n f).lamp = s.lamp ∧ (s.modLane d n f).can = s.can ∧ (s.modLane d n f).net = s.net
    ∧ (s.modLane d n f).host = s.host ∧ (s.modLane d n f).kp = s.kp ∧ (s.modLane d n f).ckCs = s.ckCs
    ∧ (s.modLane d n f).ckDs = s.ckDs :=
  by cases d <;> exact ⟨rfl, rfl, rfl, rfl, rfl, rfl, rfl, rfl, rfl, rfl, rfl, rfl, rfl, rfl, rfl, rfl, rfl, rfl, rfl, rfl,
    rfl, rfl, rfl, rfl, rfl, rfl, rfl, rfl, rfl, rfl, rfl, rfl, rfl, rfl, rfl, rfl, rfl, rfl, rfl, rfl, rfl, rfl, rfl, rfl,
    rfl, rfl, rfl, rfl, rfl, rfl, rfl, rfl, rfl⟩

@[simp] theorem State.modEng_new (d : Die) (n : Nat) (f : Eng → Eng) :
    (s.modEng d n f).engs d = upd (s.engs d) n f ∧ (s.modEng d n f).engs d.other = s.engs d.other := by cases d <;> exact ⟨rfl, rfl⟩

@[simp] theorem State.modEng_rest (d : Die) (n : Nat) (f : Eng → Eng) :
    (s.modEng d n f).pending = s.pending ∧ (s.modEng d n f).now = s.now ∧ (s.modEng d n f).freeCtr = s.freeCtr
    ∧ (s.modEng d n f).csOfs = s.csOfs ∧ (s.modEng d n f).dsOfs = s.dsOfs ∧ (s.modEng d n f).t0 = s.t0
    ∧ (s.modEng d n f).netZero = s.netZero ∧ (s.modEng d n f).fwRev = s.fwRev ∧ (s.modEng d n f).mem = s.mem
    ∧ (s.modEng d n f).acc = s.acc ∧ (s.modEng d n f).sys = s.sys ∧ (s.modEng d n f).sup = s.sup
    ∧ (s.modEng d n f).clk = s.clk ∧ (s.modEng d n f).x = s.x ∧ (s.modEng d n f).nv = s.nv ∧ (s.modEng d n f).img = s.img
    ∧ (s.modEng d n f).im = s.im ∧ (s.modEng d n f).csLoaded = s.csLoaded ∧ (s.modEng d n f).dsLoaded = s.dsLoaded
    ∧ (s.modEng d n f).ctrs = s.ctrs ∧ (s.modEng d n f).buoys = s.buoys ∧ (s.modEng d n f).fb = s.fb
    ∧ (s.modEng d n f).fbTick = s.fbTick ∧ (s.modEng d n f).beamsCs = s.beamsCs ∧ (s.modEng d n f).beamsDs = s.beamsDs
    ∧ (s.modEng d n f).mains = s.mains ∧ (s.modEng d n f).lhCs = s.lhCs ∧ (s.modEng d n f).lhDs = s.lhDs
    ∧ (s.modEng d n f).pairCs = s.pairCs ∧ (s.modEng d n f).pairDs = s.pairDs ∧ (s.modEng d n f).pwmCs = s.pwmCs
    ∧ (s.modEng d n f).pwmDs = s.pwmDs ∧ (s.modEng d n f).mach = s.mach ∧ (s.modEng d n f).candle = s.candle
    ∧ (s.modEng d n f).legs = s.legs ∧ (s.modEng d n f).prot = s.prot ∧ (s.modEng d n f).wr = s.wr
    ∧ (s.modEng d n f).conv = s.conv ∧ (s.modEng d n f).cvTick = s.cvTick ∧ (s.modEng d n f).ports = s.ports
    ∧ (s.modEng d n f).ac = s.ac ∧ (s.modEng d n f).gd = s.gd ∧ (s.modEng d n f).bridgeUnres = s.bridgeUnres
    ∧ (s.modEng d n f).bridgeBad = s.bridgeBad ∧ (s.modEng d n f).gact = s.gact ∧ (s.modEng d n f).temp = s.temp
    ∧ (s.modEng d n f).lamp = s.lamp ∧ (s.modEng d n f).can = s.can ∧ (s.modEng d n f).net = s.net
    ∧ (s.modEng d n f).host = s.host ∧ (s.modEng d n f).kp = s.kp ∧ (s.modEng d n f).ckCs = s.ckCs
    ∧ (s.modEng d n f).ckDs = s.ckDs :=
  by cases d <;> exact ⟨rfl, rfl, rfl, rfl, rfl, rfl, rfl, rfl, rfl, rfl, rfl, rfl, rfl, rfl, rfl, rfl, rfl, rfl, rfl, rfl,
    rfl, rfl, rfl, rfl, rfl, rfl, rfl, rfl, rfl, rfl, rfl, rfl, rfl, rfl, rfl, rfl, rfl, rfl, rfl, rfl, rfl, rfl, rfl, rfl,
    rfl, rfl, rfl, rfl, rfl, rfl, rfl, rfl, rfl⟩

@[simp] theorem State.modPair_new (d : Die) (n : Nat) (f : Pair → Pair) :
    (s.modPair d n f).pairs d = upd (s.pairs d) n f ∧ (s.modPair d n f).pairs d.other = s.pairs d.other := by cases d <;> exact ⟨rfl, rfl⟩

@[simp] theorem State.modPair_rest (d : Die) (n : Nat) (f : Pair → Pair) :
    (s.modPair d n f).pending = s.pending ∧ (s.modPair d n f).now = s.now ∧ (s.modPair d n f).freeCtr = s.freeCtr
    ∧ (s.modPair d n f).csOfs = s.csOfs ∧ (s.modPair d n f).dsOfs = s.dsOfs ∧ (s.modPair d n f).t0 = s.t0
    ∧ (s.modPair d n f).netZero = s.netZero ∧ (s.modPair d n f).fwRev = s.fwRev ∧ (s.modPair d n f).mem = s.mem
    ∧ (s.modPair d n f).acc = s.acc ∧ (s.modPair d n f).sys = s.sys ∧ (s.modPair d n f).sup = s.sup
    ∧ (s.modPair d n f).clk = s.clk ∧ (s.modPair d n f).x = s.x ∧ (s.modPair d n f).nv = s.nv ∧ (s.modPair d n f).img = s.img
    ∧ (s.modPair d n f).im = s.im ∧ (s.modPair d n f).csLoaded = s.csLoaded ∧ (s.modPair d n f).dsLoaded = s.dsLoaded
    ∧ (s.modPair d n f).ctrs = s.ctrs ∧ (s.modPair d n f).buoys = s.buoys ∧ (s.modPair d n f).fb = s.fb
    ∧ (s.modPair d n f).fbTick = s.fbTick ∧ (s.modPair d n f).beamsCs = s.beamsCs ∧ (s.modPair d n f).beamsDs = s.beamsDs
    ∧ (s.modPair d n f).mains = s.mains ∧ (s.modPair d n f).lhCs = s.lhCs ∧ (s.modPair d n f).lhDs = s.lhDs
    ∧ (s.modPair d n f).engCs = s.engCs ∧ (s.modPair d n f).engDs = s.engDs ∧ (s.modPair d n f).pwmCs = s.pwmCs
    ∧ (s.modPair d n f).pwmDs = s.pwmDs ∧ (s.modPair d n f).mach = s.mach ∧ (s.modPair d n f).candle = s.candle
    ∧ (s.modPair d n f).legs = s.legs ∧ (s.modPair d n f).prot = s.prot ∧ (s.modPair d n f).wr = s.wr
    ∧ (s.modPair d n f).conv = s.conv ∧ (s.modPair d n f).cvTick = s.cvTick ∧ (s.modPair d n f).ports = s.ports
    ∧ (s.modPair d n f).ac = s.ac ∧ (s.modPair d n f).gd = s.gd ∧ (s.modPair d n f).bridgeUnres = s.bridgeUnres
    ∧ (s.modPair d n f).bridgeBad = s.bridgeBad ∧ (s.modPair d n f).gact = s.gact ∧ (s.modPair d n f).temp = s.temp
    ∧ (s.modPair d n f).lamp = s.lamp ∧ (s.modPair d n f).can = s.can ∧ (s.modPair d n f).net = s.net
    ∧ (s.modPair d n f).host = s.host ∧ (s.modPair d n f).kp = s.kp ∧ (s.modPair d n f).ckCs = s.ckCs
    ∧ (s.modPair d n f).ckDs = s.ckDs :=
  by cases d <;> exact ⟨rfl, rfl, rfl, rfl, rfl, rfl, rfl, rfl, rfl, rfl, rfl, rfl, rfl, rfl, rfl, rfl, rfl, rfl, rfl, rfl,
    rfl, rfl, rfl, rfl, rfl, rfl, rfl, rfl, rfl, rfl, rfl, rfl, rfl, rfl, rfl, rfl, rfl, rfl, rfl, rfl, rfl, rfl, rfl, rfl,
    rfl, rfl, rfl, rfl, rfl, rfl, rfl, rfl, rfl⟩

@[simp] theorem State.modGrp_new (d : Die) (n : Nat) (f : Grp → Grp) :
    (s.modGrp d n f).pwm d = { s.pwm d with grps := upd (s.pwm d).grps n f } ∧ (s.modGrp d n f).pwm d.other = s.pwm d.other := by cases d <;> exact ⟨rfl, rfl⟩

@[simp] theorem State.modGrp_rest (d : Die) (n : Nat) (f : Grp → Grp) :
    (s.modGrp d n f).pending = s.pending ∧ (s.modGrp d n f).now = s.now ∧ (s.modGrp d n f).freeCtr = s.freeCtr
    ∧ (s.modGrp d n f).csOfs = s.csOfs ∧ (s.modGrp d n f).dsOfs = s.dsOfs ∧ (s.modGrp d n f).t0 = s.t0
    ∧ (s.modGrp d n f).netZero = s.netZero ∧ (s.modGrp d n f).fwRev = s.fwRev ∧ (s.modGrp d n f).mem = s.mem
    ∧ (s.modGrp d n f).acc = s.acc ∧ (s.modGrp d n f).sys = s.sys ∧ (s.modGrp d n f).sup = s.sup
    ∧ (s.modGrp d n f).clk = s.clk ∧ (s.modGrp d n f).x = s.x ∧ (s.modGrp d n f).nv = s.nv ∧ (s.modGrp d n f).img = s.img
    ∧ (s.modGrp d n f).im = s.im ∧ (s.modGrp d n f).csLoaded = s.csLoaded ∧ (s.modGrp d n f).dsLoaded = s.dsLoaded
    ∧ (s.modGrp d n f).ctrs = s.ctrs ∧ (s.modGrp d n f).buoys = s.buoys ∧ (s.modGrp d n f).fb = s.fb
    ∧ (s.modGrp d n f).fbTick = s.fbTick ∧ (s.modGrp d n f).beamsCs = s.beamsCs ∧ (s.modGrp d n f).beamsDs = s.beamsDs
    ∧ (s.modGrp d n f).mains = s.mains ∧ (s.modGrp d n f).lhCs = s.lhCs ∧ (s.modGrp d n f).lhDs = s.lhDs
    ∧ (s.modGrp d n f).engCs = s.engCs ∧ (s.modGrp d n f).engDs = s.engDs ∧ (s.modGrp d n f).pairCs = s.pairCs
    ∧ (s.modGrp d n f).pairDs = s.pairDs ∧ (s.modGrp d n f).mach = s.mach ∧ (s.modGrp d n f).candle = s.candle
    ∧ (s.modGrp d n f).legs = s.legs ∧ (s.modGrp d n f).prot = s.prot ∧ (s.modGrp d n f).wr = s.wr
    ∧ (s.modGrp d n f).conv = s.conv ∧ (s.modGrp d n f).cvTick = s.cvTick ∧ (s.modGrp d n f).ports = s.ports
    ∧ (s.modGrp d n f).ac = s.ac ∧ (s.modGrp d n f).gd = s.gd ∧ (s.modGrp d n f).bridgeUnres = s.bridgeUnres
    ∧ (s.modGrp d n f).bridgeBad = s.bridgeBad ∧ (s.modGrp d n f).gact = s.gact ∧ (s.modGrp d n f).temp = s.temp
    ∧ (s.modGrp d n f).lamp = s.lamp ∧ (s.modGrp d n f).can = s.can ∧ (s.modGrp d n f).net = s.net
    ∧ (s.modGrp d n f).host = s.host ∧ (s.modGrp d n f).kp = s.kp ∧ (s.modGrp d n f).ckCs = s.ckCs
    ∧ (s.modGrp d n f).ckDs = s.ckDs :=
  by cases d <;> exact ⟨rfl, rfl, rfl, rfl, rfl, rfl, rfl, rfl, rfl, rfl, rfl, rfl, rfl, rfl, rfl, rfl, rfl, rfl, rfl, rfl,
    rfl, rfl, rfl, rfl, rfl, rfl, rfl, rfl, rfl, rfl, rfl, rfl, rfl, rfl, rfl, rfl, rfl, rfl, rfl, rfl, rfl, rfl, rfl, rfl,
    rfl, rfl, rfl, rfl, rfl, rfl, rfl, rfl, rfl⟩

@[simp] theorem State.modChan_new (d : Die) (n : Nat) (f : Chan → Chan) :
    (s.modChan d n f).pwm d = { s.pwm d with chans := upd (s.pwm d).chans n f } ∧ (s.modChan d n f).pwm d.other = s.pwm d.other := by cases d <;> exact ⟨rfl, rfl⟩

@[simp] theorem State.modChan_rest (d : Die) (n : Nat) (f : Chan → Chan) :
    (s.modChan d n f).pending = s.pending ∧ (s.modChan d n f).now = s.now ∧ (s.modChan d n f).freeCtr = s.freeCtr
    ∧ (s.modChan d n f).csOfs = s.csOfs ∧ (s.modChan d n f).dsOfs = s.dsOfs ∧ (s.modChan d n f).t0 = s.t0
    ∧ (s.modChan d n f).netZero = s.netZero ∧ (s.modChan d n f).fwRev = s.fwRev ∧ (s.modChan d n f).mem = s.mem
    ∧ (s.modChan d n f).acc = s.acc ∧ (s.modChan d n f).sys = s.sys ∧ (s.modChan d n f).sup = s.sup
    ∧ (s.modChan d n f).clk = s.clk ∧ (s.modChan d n f).x = s.x ∧ (s.modChan d n f).nv = s.nv ∧ (s.modChan d n f).img = s.img
    ∧ (s.modChan d n f).im = s.im ∧ (s.modChan d n f).csLoaded = s.csLoaded ∧ (s.modChan d n f).dsLoaded = s.dsLoaded
    ∧ (s.modChan d n f).ctrs = s.ctrs ∧ (s.modChan d n f).buoys = s.buoys ∧ (s.modChan d n f).fb = s.fb
    ∧ (s.modChan d n f).fbTick = s.fbTick ∧ (s.modChan d n f).beamsCs = s.beamsCs ∧ (s.modChan d n f).beamsDs = s.beamsDs
    ∧ (s.modChan d n f).mains = s.mains ∧ (s.modChan d n f).lhCs = s.lhCs ∧ (s.modChan d n f).lhDs = s.lhDs
    ∧ (s.modChan d n f).engCs = s.engCs ∧ (s.modChan d n f).engDs = s.engDs ∧ (s.modChan d n f).pairCs = s.pairCs
    ∧ (s.modChan d n f).pairDs = s.pairDs ∧ (s.modChan d n f).mach = s.mach ∧ (s.modChan d n f).candle = s.candle
    ∧ (s.modChan d n f).legs = s.legs ∧ (s.modChan d n f).prot = s.prot ∧ (s.modChan d n f).wr = s.wr
    ∧ (s.modChan d n f).conv = s.conv ∧ (s.modChan d n f).cvTick = s.cvTick ∧ (s.modChan d n f).ports = s.ports
    ∧ (s.modChan d n f).ac = s.ac ∧ (s.modChan d n f).gd = s.gd ∧ (s.modChan d n f).bridgeUnres = s.bridgeUnres
    ∧ (s.modChan d n f).bridgeBad = s.bridgeBad ∧ (s.modChan d n f).gact = s.gact ∧ (s.modChan d n f).temp = s.temp
    ∧ (s.modChan d n f).lamp = s.lamp ∧ (s.modChan d n f).can = s.can ∧ (s.modChan d n f).net = s.net
    ∧ (s.modChan d n f).host = s.host ∧ (s.modChan d n f).kp = s.kp ∧ (s.modChan d n f).ckCs = s.ckCs
    ∧ (s.modChan d n f).ckDs = s.ckDs :=
  by cases d <;> exact ⟨rfl, rfl, rfl, rfl, rfl, rfl, rfl, rfl, rfl, rfl, rfl, rfl, rfl, rfl, rfl, rfl, rfl, rfl, rfl, rfl,
    rfl, rfl, rfl, rfl, rfl, rfl, rfl, rfl, rfl, rfl, rfl, rfl, rfl, rfl, rfl, rfl, rfl, rfl, rfl, rfl, rfl, rfl, rfl, rfl,
    rfl, rfl, rfl, rfl, rfl, rfl, rfl, rfl, rfl⟩

@[simp] theorem State.modCk_new (d : Die) (n : Nat) (f : Ck → Ck) :
    (s.modCk d n f).cks d = upd (s.cks d) n f ∧ (s.modCk d n f).cks d.other = s.cks d.other := by cases d <;> exact ⟨rfl, rfl⟩

@[simp] theorem State.modCk_rest (d : Die) (n : Nat) (f : Ck → Ck) :
    (s.modCk d n f).pending = s.pending ∧ (s.modCk d n f).now = s.now ∧ (s.modCk d n f).freeCtr = s.freeCtr
    ∧ (s.modCk d n f).csOfs = s.csOfs ∧ (s.modCk d n f).dsOfs = s.dsOfs ∧ (s.modCk d n f).t0 = s.t0
    ∧ (s.modCk d n f).netZero = s.netZero ∧ (s.modCk d n f).fwRev = s.fwRev ∧ (s.modCk d n f).mem = s.mem
    ∧ (s.modCk d n f).acc = s.acc ∧ (s.modCk d n f).sys = s.sys ∧ (s.modCk d n f).sup = s.sup ∧ (s.modCk d n f).clk = s.clk
    ∧ (s.modCk d n f).x = s.x ∧ (s.modCk d n f).nv = s.nv ∧ (s.modCk d n f).img = s.img ∧ (s.modCk d n f).im = s.im
    ∧ (s.modCk d n f).csLoaded = s.csLoaded ∧ (s.modCk d n f).dsLoaded = s.dsLoaded ∧ (s.modCk d n f).ctrs = s.ctrs
    ∧ (s.modCk d n f).buoys = s.buoys ∧ (s.modCk d n f).fb = s.fb ∧ (s.modCk d n f).fbTick = s.fbTick
    ∧ (s.modCk d n f).beamsCs = s.beamsCs ∧ (s.modCk d n f).beamsDs = s.beamsDs ∧ (s.modCk d n f).mains = s.mains
    ∧ (s.modCk d n f).lhCs = s.lhCs ∧ (s.modCk d n f).lhDs = s.lhDs ∧ (s.modCk d n f).engCs = s.engCs
    ∧ (s.modCk d n f).engDs = s.engDs ∧ (s.modCk d n f).pairCs = s.pairCs ∧ (s.modCk d n f).pairDs = s.pairDs
    ∧ (s.modCk d n f).pwmCs = s.pwmCs ∧ (s.modCk d n f).pwmDs = s.pwmDs ∧ (s.modCk d n f).mach = s.mach
    ∧ (s.modCk d n f).candle = s.candle ∧ (s.modCk d n f).legs = s.legs ∧ (s.modCk d n f).prot = s.prot
    ∧ (s.modCk d n f).wr = s.wr ∧ (s.modCk d n f).conv = s.conv ∧ (s.modCk d n f).cvTick = s.cvTick
    ∧ (s.modCk d n f).ports = s.ports ∧ (s.modCk d n f).ac = s.ac ∧ (s.modCk d n f).gd = s.gd
    ∧ (s.modCk d n f).bridgeUnres = s.bridgeUnres ∧ (s.modCk d n f).bridgeBad = s.bridgeBad ∧ (s.modCk d n f).gact = s.gact
    ∧ (s.modCk d n f).temp = s.temp ∧ (s.modCk d n f).lamp = s.lamp ∧ (s.modCk d n f).can = s.can
    ∧ (s.modCk d n f).net = s.net ∧ (s.modCk d n f).host = s.host ∧ (s.modCk d n f).kp = s.kp :=
  by cases d <;> exact ⟨rfl, rfl, rfl, rfl, rfl, rfl, rfl, rfl, rfl, rfl, rfl, rfl, rfl, rfl, rfl, rfl, rfl, rfl, rfl, rfl,
    rfl, rfl, rfl, rfl, rfl, rfl, rfl, rfl, rfl, rfl, rfl, rfl, rfl, rfl, rfl, rfl, rfl, rfl, rfl, rfl, rfl, rfl, rfl, rfl,
    rfl, rfl, rfl, rfl, rfl, rfl, rfl, rfl, rfl⟩

@[simp] theorem State.modLink_new (d : Die) (f : Link → Link) :
    (s.modLink d f).link d = f (s.link d) ∧ (s.modLink d f).link d.other = s.link d.other := by cases d <;> exact ⟨rfl, rfl⟩

@[simp] theorem State.modLink_rest (d : Die) (f : Link → Link) :
    (s.modLink d f).pending = s.pending ∧ (s.modLink d f).now = s.now ∧ (s.modLink d f).freeCtr = s.freeCtr
    ∧ (s.modLink d f).csOfs = s.csOfs ∧ (s.modLink d f).dsOfs = s.dsOfs ∧ (s.modLink d f).t0 = s.t0
    ∧ (s.modLink d f).netZero = s.netZero ∧ (s.modLink d f).fwRev = s.fwRev ∧ (s.modLink d f).mem = s.mem
    ∧ (s.modLink d f).acc = s.acc ∧ (s.modLink d f).sys = s.sys ∧ (s.modLink d f).sup = s.sup ∧ (s.modLink d f).clk = s.clk
    ∧ (s.modLink d f).nv = s.nv ∧ (s.modLink d f).img = s.img ∧ (s.modLink d f).im = s.im
    ∧ (s.modLink d f).csLoaded = s.csLoaded ∧ (s.modLink d f).dsLoaded = s.dsLoaded ∧ (s.modLink d f).ctrs = s.ctrs
    ∧ (s.modLink d f).buoys = s.buoys ∧ (s.modLink d f).fb = s.fb ∧ (s.modLink d f).fbTick = s.fbTick
    ∧ (s.modLink d f).beamsCs = s.beamsCs ∧ (s.modLink d f).beamsDs = s.beamsDs ∧ (s.modLink d f).mains = s.mains
    ∧ (s.modLink d f).lhCs = s.lhCs ∧ (s.modLink d f).lhDs = s.lhDs ∧ (s.modLink d f).engCs = s.engCs
    ∧ (s.modLink d f).engDs = s.engDs ∧ (s.modLink d f).pairCs = s.pairCs ∧ (s.modLink d f).pairDs = s.pairDs
    ∧ (s.modLink d f).pwmCs = s.pwmCs ∧ (s.modLink d f).pwmDs = s.pwmDs ∧ (s.modLink d f).mach = s.mach
    ∧ (s.modLink d f).candle = s.candle ∧ (s.modLink d f).legs = s.legs ∧ (s.modLink d f).prot = s.prot
    ∧ (s.modLink d f).wr = s.wr ∧ (s.modLink d f).conv = s.conv ∧ (s.modLink d f).cvTick = s.cvTick
    ∧ (s.modLink d f).ports = s.ports ∧ (s.modLink d f).ac = s.ac ∧ (s.modLink d f).gd = s.gd
    ∧ (s.modLink d f).bridgeUnres = s.bridgeUnres ∧ (s.modLink d f).bridgeBad = s.bridgeBad ∧ (s.modLink d f).gact = s.gact
    ∧ (s.modLink d f).temp = s.temp ∧ (s.modLink d f).lamp = s.lamp ∧ (s.modLink d f).can = s.can
    ∧ (s.modLink d f).net = s.net ∧ (s.modLink d f).host = s.host ∧ (s.modLink d f).kp = s.kp ∧ (s.modLink d f).ckCs = s.ckCs
    ∧ (s.modLink d f).ckDs = s.ckDs :=
  by cases d <;> exact ⟨rfl, rfl, rfl, rfl, rfl, rfl, rfl, rfl, rfl, rfl, rfl, rfl, rfl, rfl, rfl, rfl, rfl, rfl, rfl, rfl,
    rfl, rfl, rfl, rfl, rfl, rfl, rfl, rfl, rfl, rfl, rfl, rfl, rfl, rfl, rfl, rfl, rfl, rfl, rfl, rfl, rfl, rfl, rfl, rfl,
    rfl, rfl, rfl, rfl, rfl, rfl, rfl, rfl, rfl, rfl⟩

end Sys2Proof.Machine
end

