-- ==== Sys2Proof/Machine/Pins.lean ====
section
/-! DEFINITION. What the lands carry as the state has it: gate commands (R238, R257 step 7), comparator outputs (R319, R320),
resolver excitation (R109); CAN standby (R478); and what the level of a comparator row stands for (R311, R315). -/

namespace Sys2Proof.Machine

/-! ## Gate commands (R238, R257) -/

/-- The level of a gate-command land now: the output turned by POLH or POLL (R257 step 7, R267). A channel without a CHAN record
drives its inactive level, here low, since no record gives it a polarity (R238, assumption log 182). -/
def gatePin (s : State) (d : Die) (c : Nat) (high : Bool) : Bool :=
  if (chanRec s d c).isNone then false
  else
    let x := chanNow s d c
    let w := chanW s d c 3
    if high then x.hiAt (now16 s) != bitOf w 0 else x.loAt (chanMode s d c) (now16 s) != bitOf w 1

/-- Whether the gate-command outputs of a die are driven: they are of high impedance from power-up to start-up step 7, and on the
DS die in its boot state (R534, R539). -/
def gateDriven (s : State) : Die → Bool
  | .cs => decide (8 ≤ s.sys.step)
  | .ds => s.dsLoaded

/-- A gate-command land: none while it is of high impedance (R539). -/
def gateLand (s : State) (d : Die) (c : Nat) (high : Bool) : Option Bool :=
  if gateDriven s d then some (gatePin s d c high) else none

/-- CANTX recessive and the standby output high: the controller is OFF (R478, R539). -/
def canStandby (s : State) (n : Nat) : Bool := (canAt s n).state == 0

/-! ## Comparator outputs (R319, R320) -/

/-- The selector byte of a comparator output pin. -/
def cmpoSel (s : State) (k : Nat) : Nat := (wat s.prot.omux (k / 4)).toNat / 256 ^ (k % 4) % 256

/-- The level a selector chooses; reserved values are in no image (R343). -/
def cmpoLevel (s : State) (sel : Nat) : Bool :=
  if h : sel < 0x20 then liveNow s (.trip ⟨sel, h⟩)
  else if h : sel - 0x20 < 0x20 then liveNow s (.hard ⟨sel - 0x20, h⟩)
  else if sel < 0x48 then gcLive s (sel - 0x40)
  else if sel = 0x48 then s.prot.ov1
  else if sel = 0x49 then s.prot.chopOn
  else sel == 0x4A && decide (4 ≤ s.prot.severity)

/-- The level of CMPO pin k: its selector's level, inverted by bit 7 (R319). -/
def cmpoPin (s : State) (k : Nat) : Bool := cmpoLevel s (cmpoSel s k % 128) != decide (128 ≤ cmpoSel s k)

/-! ## Comparator inputs (R311, R315) -/

/-- The effective threshold of a general comparator in codes: its DAC code, with RAMPEN less the slope times the µs since RSRC's
last high-side turn-on, floored at 0 (R315). -/
def gcThreshold (s : State) (g : Nat) : Rat :=
  let code : Rat := ((gcCode s g).toNat : Rat)
  let on := (chanNow s .ds (fld (cpW s 1 g 5) 13 8)).lastOnH (now16 s)
  if bitOf (cpW s 1 g 5) 0 && on ≠ 0 then
    max 0 (code - ((nth s.prot.gc g).slope.toNat : Rat) / 256 * ((now16 s - on : Nat) : Rat) / 6400)
  else code

/-- The hysteresis of a comparator in codes: 4 LSB within 1 LSB either way, free between (R561). -/
def compHyst (s : State) : Rat := 3 + 2 * ((s.free.toNat : Rat) / 4294967296)

/-- A quantity against a threshold it must exceed: once asserted it stays so until the quantity falls below the threshold less the
hysteresis (R561). -/
def beyond (was : Bool) (h th v : Rat) : Bool := decide (th < v) || (was && decide (th - h ≤ v))

/-- What the level of a COMPARATOR_LEVEL_CHANGE row is, by the input in codes: beyond the threshold in magnitude for a shunt's
comparators, above it or with POL below it for a general one, with hysteresis (R311, R315, R561). -/
def rawOf (s : State) (c : Comp) (v : Rat) : Bool :=
  let was := (compSt s c).raw
  match c with
  | .gc g =>
    if bitOf (cpW s 1 g.val 0) 16 then beyond was (compHyst s) (-(gcThreshold s g.val)) (-v)
    else beyond was (compHyst s) (gcThreshold s g.val) v
  | _ => beyond was (compHyst s) ((compSt s c).code.toNat : Rat) (max v (-v))

/-! ## Resolver excitation (R109) -/

/-- The frequency in Hz on a resolver channel's excitation output: none before the image's records are in force, none on RES1 where
it shares that of RES0. -/
def excOut (s : State) (c : Nat) : Nat := if fbLive s c && !(c = 1 && bitOf (fbCfg s c 0) 1) then excFreq s c else 0

end Sys2Proof.Machine
end

