-- ==== Sys2Proof/WellFormed.lean ====
section
/-! DEFINITION. When a command's operands have the shape the manual gives what arrives: byte strings of the stated
length, payloads within the stated bounds. A command that is not well-formed is no event of the device. -/

namespace Sys2Proof

/-- A CAN FD or CAN 2.0 frame as R476 and R477 allow it: a standard identifier has 11 bits, a classic frame at most 8
bytes, no remote frame in FD format. -/
def CanFrame.wf (f : CanFrame) : Bool :=
  (f.ide || f.id.toNat < 2048) && f.data.length ≤ (if f.fdf then 64 else 8) && !(f.fdf && f.rtr)
    && (f.fdf || !f.brs)

/-- The check of one command. Payloads are at most 256 bytes (R500): a command's number takes 4 of them. -/
def WellFormed (i : Instr) : Bool :=
  match i with
  | .superframeReceived _ frame _ => frame.length == 200
  | .imgWrite _ _ data => data.length ≤ 248
  | .stgWrite _ _ data => data.length ≤ 248
  | .safeFrame _ frame => frame.length ≤ 252
  | .keyEnrol _ _ _ _ _ xy sig _ => xy.length == 64 && sig.length == 64
  | .keyRevoke _ _ _ resv sig _ => resv.length == 6 && sig.length == 64
  | .sealForReturn _ _ resv sig _ => resv.length == 3 && sig.length == 64
  | .hostWrite _ _ words => words.length ≤ 63
  | .sample _ _ codes => codes.length ≤ 8
  | .entryAccept _ codes => codes.length ≤ 8
  | .ssiFrameComplete _ bits => bits.length ≤ 64
  | .canFrameReceived _ f _ => f.wf
  | .canBusError _ _ _ tec rec => tec.toNat ≤ 511 && rec.toNat ≤ 255
  | _ => true

end Sys2Proof
end

