-- ==== Sys2Proof/Tests/Slice0.lean ====
section
/-! SUPPORT. Tests: one step on a small state each, ill-formed commands, and states that meet the hypotheses of the statements. -/

namespace Sys2Proof.Tests

open Sys2Proof Sys2Proof.Machine

set_option maxRecDepth 100000
set_option Elab.async false

/-! ## The hypotheses of statements, as propositions to decide -/

theorem invBy {s : State} (h : Memory.wf s.mem = true ∧ shape s = shape State.reset) : Machine.Inv s := h

theorem readBy {s : State} {d : Die} (h : s.sys.keeperUp = true ∧ s.kp.restarting = false ∧ s.kp.shed2 = false ∧ (d = .ds → xingDown s = false)) :
    ReadOpen s d := h

theorem writeBy {s : State} {d : Die}
    (h : (s.sys.keeperUp = true ∧ s.kp.restarting = false ∧ s.kp.shed2 = false ∧ (d = .ds → xingDown s = false)) ∧ writeBar s = none) :
    WriteOpen s d := h

theorem heardBy {s : State} {q : Req} {ty : Nat} {pay : List Byte}
    (h : s.sys.keeperUp = true ∧ s.kp.restarting = false ∧ portOn s q = true
      ∧ (q.stream == .spi && decide (4 ≤ s.host.resps.length)) = false
      ∧ q.coding = true ∧ crc32 (reqBytes q ty pay) = q.crc ∧ q.len.toNat = pay.length
      ∧ (q.dst == 0xFD && s.host.addr.isSome && pbOpen s) = false ∧ forMe s q = true ∧ aliveCheck s (reqStream q) q.alive = 0) :
    Heard s q ty pay := h

theorem commandedBy {s : State} {q : Req} {code : Nat} {args : List Byte} {bcOk anyImage : Bool} {cls : Nat}
    (h : Heard s q tCMD (cmdPay code args)) (b : cmdBar q bcOk anyImage cls s = none) : Commanded s q code args bcOk anyImage cls := ⟨h, b⟩

/-! ## Small devices -/
/-- A word with values at bit positions. -/
def W (l : List (Nat × Nat)) : Word := wd (l.foldl (fun a x => a + x.2 * 2 ^ x.1) 0)
/-- Both dies with their crossing trained. -/
def sUp : State := { State.reset with x := { State.reset.x with cs := { State.reset.x.cs with up := true, safeUp := true }, ds := { State.reset.x.ds with up := true, safeUp := true } } }
/-- A running device with the records given, without a page. -/
def run (rs : List Rec) : State :=
  { State.reset with
    now := 100000
    t0 := some 50000
    sys := { State.reset.sys with step := 11, ready := true, dsReady := true, csReset := false, dsPor := false, dsBoot := false
                                  dsUp := true, keeperUp := true, resetLow := false, wakeUnres := false, resetUnres := false
                                  protPath := true, wakePin := false }
    sup := { State.reset.sup with csOk := 0xFF, dsOk := 0xF00, dsSeen := 0xF00 }
    clk := { State.reset.clk with xtalOk := true, csLock := true, dsLock := true }
    x := { sUp.x with trained := true, upAt := 1 }
    img := { State.reset.img with valid := true, runslot := 0, recs := rs }
    im := { State.reset.im with noImage := false }
    csLoaded := true
    dsLoaded := true
    wr := { State.reset.wr with state := 1, loaded := true } }
/-- A request on the SPI. -/
def rq (ty : Nat) (pay : List Byte) : Req :=
  let q : Req := { stream := .spi, dst := 0xFC, src := 0, seq := 1, alive := 1, len := BitVec.ofNat 16 pay.length, crc := 0, coding := true }
  { q with crc := crc32 (reqBytes q ty pay) }
def cq (code : Nat) (args : List Byte) : Req := rq tCMD (cmdPay code args)
def B : State := run []
/-- A BUOYDEF: number, source, instance, further bits of word 1, MIN, MAX. -/
def byR (n src inst : Nat) (w1 : List (Nat × Nat)) (mn mx : Int) : Rec :=
  ⟨sBUOY, 1, [W [(24, src), (16, inst), (0, n)], W w1, wi mn, wi mx, 0, W [(28, 3), (16, 10), (8, 3), (0, 2)], 100, 77]⟩
/-- A FEEDBACK record: channel and configuration words. -/
def fbR (c : Nat) (ws : List Word) : Rec := ⟨sFEEDBACK, 1, W [(0, c)] :: (ws ++ List.replicate (7 - ws.length) 0) ++ [W [(16, 100), (0, 3)]]⟩
/-- A Light List entry with its check: mode, delay or angle word, opcode, function, operands A, B, C. -/
def mkE (mode : Nat) (w0 : Word) (op fn a b c : Nat) : Entry :=
  let e : Entry := ⟨w0, W [(30, mode), (16, op), (8, fn)], W [(16, b), (0, a)], W [(0, c)]⟩
  { e with w3 := W [(24, (crc8 ((bytesOf [e.w0, e.w1, e.w2, e.w3]).take 15)).toNat), (0, c)] }
/-- Memory with words written from an address on. -/
def putWs (m : List Host.Cell) (a : Nat) (ws : List Word) : List Host.Cell :=
  (bytesOf ws).zipIdx.foldl (fun m x => memPut m (a + x.2) x.1) m
/-- A running lane 0 of a die with page 0 of the given entries, at entry p. -/
def lane (s : State) (d : Die) (p : Nat) (es : List Entry) : State :=
  let s : State := { s with
    img := { s.img with
      recs := s.img.recs ++ [(⟨sPAGETAB, 1, [W [(24, d.bit)], 0]⟩ : Rec)], pages := [⟨d, 0, 0, W [(16, es.length)], 0, 0⟩] }
    mem := putWs s.mem (llBase d) (es.flatMap fun (e : Entry) => [e.w0, e.w1, e.w2, e.w3]) }
  s.modLane d 0 fun x => { x with run := true, ptr := p, fresh := p == 0, passAt := 99000, predIssue := 99990, predRetire := 99995 }
/-- A PWM unit shortly after page 0: every group runs at 64,000 sixteenths, every channel with its first period ahead. -/
def pwmUp (p : Pwm) : Pwm :=
  { p with
    grps := p.grps.map fun g => { g with run := true, per := 64000, bAt := 1760000, pbAt := 1760000, xWatch := 110000, lfsr := 7 }
    chans := p.chans.map fun c => { c with dtr := 320, dtf := 320, minp := 160, pdtr := 320, pdtf := 320, pminp := 160,
                                           halves := [⟨1760000, false, 1760000, 64000⟩, ⟨1792000, true, 1760000, 64000⟩] } }
/-- A device shortly after page 0 with the records given. -/
def paged (rs : List Rec) : State :=
  let s := run rs
  { s with
    now := 110000, t0 := some 110000, pwmCs := pwmUp s.pwmCs, pwmDs := pwmUp s.pwmDs
    beamsCs := s.beamsCs.map fun m => { m with stale := false, a := { m.a with speed := 256000, t0 := 110000 } }
    beamsDs := s.beamsDs.map fun m => { m with stale := false, a := { m.a with speed := 256000, t0 := 110000 } }
    can := s.can.map fun x => { x with state := 1 } }
/-- CGROUP: die, group, period source, periods, words 4 and 5. -/
def grpR (d : Die) (g psrc : Nat) (w0 : List (Nat × Nat)) (p0 pmin pmax : Nat) (w4 w5 : Word) : Rec :=
  ⟨sPOWER, 1, [W ([(24, d.bit), (16, g), (4, psrc)] ++ w0), wd p0, wd pmin, wd pmax, w4, w5, W [(16, 10), (0, 3)]]⟩
/-- CHAN: die, channel, group, UPD, OMODE, MPRULE, PHS0. -/
def chR (d : Die) (c g upd om rule phs : Nat) : Rec :=
  ⟨sPOWER, 2, [W [(24, d.bit), (16, c), (8, g), (4, upd), (2, om), (0, rule)], W [(16, 320), (0, 320)], W [(16, 160), (0, phs)], 0]⟩
/-- A shadow written some time ago. -/
def shw (v at_ : Nat) : Shadow := { val := wd v, wr := true, wrAt := at_, at_ := at_, p1 := wd v, at1 := at_, p2 := wd v }
/-- A three-phase machine 0 of two legs a phase on channels 0 to 5 of group 0, its beam 0 a FREE one. -/
def machRecs : List Rec :=
  [grpR .ds 0 0 [] 64000 64000 64000 0 0, ⟨sBEAM, 1, [W [(28, 3), (16, 1), (8, 1), (0, 0)], 0, 0, 0, W [(16, 10), (0, 3)], 400000, 0]⟩,
    byR 10 3 0 [(24, 0)] 0 1000, byR 11 3 0 [] (-1000) 1000, byR 12 3 0 [] (-1000) 1000, byR 13 3 0 [] (-1000) 1000, byR 14 3 0 [] (-1000) 1000] ++
  ((List.range 6).map fun c => chR .ds c 0 3 0 0 0) ++
  ((List.range 6).map fun c => ⟨sPOWER, 0x10, [W [(0, c)], W [(0, c / 2), (8, c % 2)]]⟩) ++
  ((List.range 3).map fun p => ⟨sPOWER, 0x11, [W [(0, p)], W [(0, 2)]]⟩) ++
  [⟨sPOWER, 0x12, [0, W [(0, 3), (8, 0)]]⟩,
    ⟨sPOWER, 0x13, [0, W [(0, 6000)], W [(16, 49152), (0, 16383)], 100000, W [(16, 14), (0, 10)], W [(18, 13), (9, 12), (0, 11)],
      W [(21, 900), (0, 4000)], W [(16, 100), (4, 5), (0, 0)], W [(24, 4), (16, 2)], W [(0, 20)], W [(16, 100), (0, 5)], W [(24, 50), (0, 10)],
      W [(16, 50), (0, 20)], W [(16, 10), (0, 3)], W [(31, 1), (16, 11), (0, 12)], 0]⟩]
/-- Protection of the machine: shunt 0 guards channel 0, general comparators 0 GUARD, 1 OV1, 2 OV2, 3 CHOPI. -/
def protRecs : List Rec :=
  [⟨sGUARD, 1, [0, W [(0, 0)]]⟩, ⟨sGUARD, 1, [W [(0, 1)], W [(0, 2)]]⟩, ⟨sGUARD, 1, [W [(8, 1), (0, 0)], W [(0, 4)]]⟩] ++
  ([0, 1].map fun n => ⟨sGUARD, 2, [W [(0, n)], 0, 0, 0, 0, 0]⟩) ++
  ([0, 1, 2, 3].map fun n => ⟨sGUARD, 2, [W [(28, n), (8, 1), (0, n)], 0, 0, 0, 0, 0]⟩) ++
  ([0, 0x20, 0x40].map fun n => ⟨sREACT, 1, [W [(24, n), (16, 4)], W [(16, 10), (0, 3)]]⟩) ++
  [⟨sREACT, 1, [W [(24, 1), (16, 5)], W [(16, 10), (0, 3)]]⟩,
    ⟨sREACT, 3, [W [(31, 1), (24, 20), (18, 1), (16, 1), (0, 10)], W [(0, 100)], 900, W [(24, 10), (0, 5)], W [(16, 10), (0, 3)]]⟩, chR .ds 20 0 1 2 0 0]
/-- The machine with its protection, running, no command in force and no comparator asserted. -/
def sProt : State :=
  let s := paged (machRecs ++ protRecs)
  let cl (f : List CompSt) := f.map fun x => { x with raw := false, live := false, unres := false, enabled := true, blank := 100 }
  { s with now := 140000
           prot := { s.prot with trip := cl s.prot.trip, hard := cl s.prot.hard, gc := cl s.prot.gc, severity := 0, wrLevel := 0, latches := [], msafe := [{}, {}] }
           pwmDs := { s.pwmDs with chans := s.pwmDs.chans.map fun x => { x with ovr := 0 } } }
/-- A latch. -/
def la (src lvl n : Nat) : Latch := ⟨src, lvl, 0, n, false, 100000⟩
/-- Watch Room parameters: the words at the given offsets. -/
def parOf (l : List (Nat × Word)) : List Byte :=
  l.foldl (fun p x => (p.take x.1) ++ bytesOf [x.2] ++ p.drop (x.1 + 4)) (List.replicate 0x400 0)
/-- A safety frame without its CMAC. -/
def sfBody (ty ctr : Nat) (pay : List Byte) : List Byte :=
  bytesOf [wd ty, 7, 8, 9, wd ctr] ++ pay ++ List.replicate (16 - pay.length) 0
/-- A safety frame with its CMAC. -/
def sf (key : List Byte) (ty ctr : Nat) (pay : List Byte) : List Byte := sfBody ty ctr pay ++ aesCmac key (sfBody ty ctr pay)
theorem cut36 (f c : List Byte) (n : f.length = 36) : (f ++ c).take 36 = f ∧ (f ++ c).drop 36 = c :=
  ⟨List.take_left' n, List.drop_left' n⟩

theorem bytesOf_length (ws : List Word) : (bytesOf ws).length = 4 * ws.length := by
  induction ws with
  | nil => rfl
  | cons w ws ih => simp only [bytesOf, List.flatMap_cons, List.length_append] at ih ⊢; simp [wordBytes, leBytes, ih]; omega

theorem macCut (g : List Byte → List Byte) (f : List Byte) (n : f.length = 36) : g ((f ++ g f).take 36) = (f ++ g f).drop 36 := by
  rw [(cut36 f (g f) n).1, (cut36 f (g f) n).2]

theorem sf_mac (key : List Byte) (ty ctr : Nat) (pay : List Byte) (h : pay.length ≤ 16) :
    aesCmac key ((sf key ty ctr pay).take 36) = (sf key ty ctr pay).drop 36 :=
  macCut (aesCmac key) (sfBody ty ctr pay) (by
    unfold sfBody
    rw [List.length_append, List.length_append, bytesOf_length, List.length_replicate]
    simp only [List.length_cons, List.length_nil]; omega)

theorem macBy {key k : List Byte} {ty ctr : Nat} {pay : List Byte} (e : k = key) (h : pay.length ≤ 16) :
    aesCmac k ((sf key ty ctr pay).take 36) = (sf key ty ctr pay).drop 36 := by
  subst e; exact sf_mac k ty ctr pay h

/-- Buoys VALID with the given value. -/
def vb (v : Int) (s : State) : State :=
  { s with buoys := s.buoys.map fun b => { b with state := 0, wmant := wi v, out := wi v, last := wi v, admitted := true, mstale := false } }

def sLoss : State := { sUp with x := { sUp.x with cs := { sUp.x.cs with loss := true, safeLoss := true }, ds := { sUp.x.ds with loss := true, safeLoss := true } } }
def frm (cyc cnt : Nat) : List Byte :=
  let b := leBytes 2 cyc ++ leBytes 2 cnt ++ List.replicate 192 0
  b ++ wordBytes (crc32 b)
theorem test_meets_CrossingTransmittersAdvance (h : Obligations.CrossingTransmittersAdvance) :
    (∃ P, Runs (.superframeSend Die.cs) (sUp) P)
      ∧ (∃ P, Runs (.safetyMessageSend Die.ds) (sUp) P) :=
  ⟨⟨_, (h .cs sUp (by decide +kernel)).1⟩,
    ⟨_, (h .ds sUp (by decide +kernel)).2⟩⟩

theorem test_meets_CrossingReceiversTakeFrames (h : Obligations.CrossingReceiversTakeFrames) :
    (∃ P, Runs (.superframeReceived Die.cs (frm (BitVec.toNat (countAt sUp Die.cs 80)) 7) Option.none) (sUp) P)
      ∧ (∃ P, Runs (.superframeReceived Die.ds (frm (BitVec.toNat (countAt sUp Die.cs 80)) 7) Option.none) (sLoss) P)
      ∧ (∃ P, Runs (.superframeReceived Die.ds (frm 0 7) (Option.some 2)) (sUp) P)
      ∧ (∃ P, Runs (.safetyMessageReceived Die.ds 150 0 0 (crc8 [150, 0, 0])) (sUp) P)
      ∧ (∃ P, Runs (.safetyMessageReceived Die.cs 32 0 0 (crc8 [32, 0, 0])) (sUp) P)
      ∧ (∃ P, Runs (.safetyMessageReceived Die.ds 150 0 0 0) (sUp) P) :=
  ⟨⟨_, ((h .cs sUp (by decide +kernel)).1 (frm (countAt sUp .cs 80).toNat 7) none).1 (by decide +kernel) (by decide +kernel) (by decide +kernel)⟩,
    ⟨_, ((h .ds sLoss (by decide +kernel)).1 (frm (countAt sUp .cs 80).toNat 7) none).1 (by decide +kernel) (by decide +kernel) (by decide +kernel)⟩,
    ⟨_, ((h .ds sUp (by decide +kernel)).1 (frm 0 7) (some 2)).2 (by decide +kernel)⟩,
    ⟨_, (h .ds sUp (by decide +kernel)).2.1 0x96 0 0 (by decide +kernel) (by decide +kernel)⟩,
    ⟨_, (h .cs sUp (by decide +kernel)).2.1 0x20 0 0 (by decide +kernel) (by decide +kernel)⟩,
    ⟨_, (h .ds sUp (by decide +kernel)).2.2 0x96 0 0 0 (by decide +kernel)⟩⟩

def s1_1 : State := { sUp with clk := { sUp.clk with csLock := true } }
def s1_2 : State := { sUp with clk := { sUp.clk with dsLock := true } }
def s1_3 : State := { sUp with clk := { sUp.clk with xtalOk := true } }
def s1_4 : State := { sUp with sys := { sUp.sys with csReset := false } }
def s1_5 : State := { sUp with sys := { sUp.sys with csReset := false } }
def s1_6 : State := { sUp with sys := { sUp.sys with dsPor := false } }
def s1_7 : State := { sUp with sys := { sUp.sys with csReset := false } }
theorem test_meets_CrossingAndClockLossesAreRaised (h : Obligations.CrossingAndClockLossesAreRaised) :
    (∃ P, Runs (.xloss Die.cs) (sUp) P)
      ∧ (∃ P, Runs (.sloss Die.ds) (sUp) P)
      ∧ (∃ P, Runs (.pllul Die.cs) (s1_1) P)
      ∧ (∃ P, Runs (.pllul Die.ds) (s1_2) P)
      ∧ (∃ P, Runs (.xtal) (s1_3) P)
      ∧ (∃ P, Runs (.wrclkWindow 10500) (s1_4) P)
      ∧ (∃ P, Runs (.pllRelock Die.cs) (s1_5) P)
      ∧ (∃ P, Runs (.pllRelock Die.ds) (s1_6) P)
      ∧ (∃ P, Runs (.crystalRestored) (s1_7) P) :=
  ⟨⟨_, h.1 .cs sUp (by decide +kernel) (by decide +kernel)⟩,
    ⟨_, h.2.1 .ds sUp (by decide +kernel) (by decide +kernel)⟩,
    ⟨_, h.2.2.1 s1_1 (by decide +kernel)⟩,
    ⟨_, h.2.2.2.1 s1_2 (by decide +kernel)⟩,
    ⟨_, h.2.2.2.2.1 s1_3 (by decide +kernel)⟩,
    ⟨_, h.2.2.2.2.2.1 10500 s1_4 (by decide +kernel)⟩,
    ⟨_, h.2.2.2.2.2.2.1 s1_5 (by decide +kernel)⟩,
    ⟨_, h.2.2.2.2.2.2.2.1 s1_6 (by decide +kernel)⟩,
    ⟨_, h.2.2.2.2.2.2.2.2 s1_7 (by decide +kernel)⟩⟩

def s2_1 : State := { B with sup := { B.sup with csOk := 0x81, dsOk := 0x100 } }
theorem test_meets_SuppliesStartAndStopTheDies (h : Obligations.SuppliesStartAndStopTheDies) :
    (∃ P, Runs (.supplyOutOfRange 0 false 5) (B) P)
      ∧ (∃ P, Runs (.supplyOutOfRange 7 false 5) (B) P)
      ∧ (∃ P, Runs (.supplyOutOfRange 7 true 5) (B) P)
      ∧ (∃ P, Runs (.supplyOutOfRange 3 true 5) (B) P)
      ∧ (∃ P, Runs (.supplyOutOfRange 8 true 5) (B) P)
      ∧ (∃ P, Runs (.supplyOutOfRange 9 false 5) (B) P)
      ∧ (∃ P, Runs (.supplyBackInRange 4) (s2_1) P)
      ∧ (∃ P, Runs (.supplyBackInRange 9) (s2_1) P)
      ∧ (∃ P, Runs (.supplyBackInRange 10) (s2_1) P) :=
  ⟨⟨_, h.1 false 5 B (by decide +kernel) (by decide +kernel)⟩,
    ⟨_, (h.2.1 5 B).1⟩,
    ⟨_, (h.2.1 5 B).2⟩,
    ⟨_, h.2.2.1 3 true 5 B (by decide +kernel) (by decide +kernel) (by decide +kernel) (by decide +kernel)⟩,
    ⟨_, h.2.2.2.1 true 5 B (by decide +kernel) (by decide +kernel)⟩,
    ⟨_, h.2.2.2.2.1 9 false 5 B (by decide +kernel) (by decide +kernel) (by decide +kernel)⟩,
    ⟨_, h.2.2.2.2.2.1 4 s2_1 (by decide +kernel) (by decide +kernel) (by decide +kernel) (by decide +kernel) (by decide +kernel)⟩,
    ⟨_, h.2.2.2.2.2.2 9 s2_1 (by decide +kernel) (by decide +kernel) (by decide +kernel)⟩,
    ⟨_, h.2.2.2.2.2.2 10 s2_1 (by decide +kernel) (by decide +kernel) (by decide +kernel)⟩⟩

def s2_2 : State := { B with sys := { B.sys with csReset := true, dsPor := true, resetLow := false }, sup := { B.sup with csOk := 0x80 } }
theorem test_meets_PowerOnStartsBothDiesFromReset (h : Obligations.PowerOnStartsBothDiesFromReset) :
    (∃ P, Runs (.vwkPowerOn) (B) P)
      ∧ (∃ P, Runs (.powerOnResetRelease Die.cs []) (s2_2) P)
      ∧ (∃ P, Runs (.powerOnResetRelease Die.cs []) (State.reset) P)
      ∧ (∃ P, Runs (.powerOnResetRelease Die.ds []) (s2_2) P) :=
  ⟨⟨_, h.1 B⟩,
    ⟨_, h.2.1 [] s2_2 (by decide +kernel) (by decide +kernel) (by decide +kernel) (by decide +kernel)⟩,
    ⟨_, h.2.1 [] State.reset (by decide +kernel) (by decide +kernel) (by decide +kernel) (by decide +kernel)⟩,
    ⟨_, h.2.2 [] s2_2 (by decide +kernel)⟩⟩

def s2_3 : State := { s2_2 with sys := { s2_2.sys with resetLow := true }, sup := { s2_2.sup with csOk := 0xFF } }
def s2_4 : State := { B with sys := { B.sys with step := 1 } }
theorem test_meets_ResetPinAndBootStateRestartADie (h : Obligations.ResetPinAndBootStateRestartADie) :
    (∃ P, Runs (.resetNLow) (B) P)
      ∧ (∃ P, Runs (.resetNRise) (s2_3) P)
      ∧ (∃ P, Runs (.dsBootEntry) (s2_4) P) :=
  ⟨⟨_, h.1 B (by decide +kernel) (by decide +kernel)⟩,
    ⟨_, h.2.1 s2_3 (by decide +kernel) (by decide +kernel) (by decide +kernel) (by decide +kernel) (by decide +kernel)⟩,
    ⟨_, h.2.2 s2_4 (by decide +kernel) (by decide +kernel) (by decide +kernel) (by decide +kernel)⟩⟩

def s2_5 : State := { B with prot := { B.prot with severity := 6 } }
def s2_9 : State := { B with wr := { B.wr with loaded := false } }
theorem test_meets_RestartResumesStartUpAtStepThree (h : Obligations.RestartResumesStartUpAtStepThree) :
    (∃ P, Runs (.sysRestart (cq 19 [])) (s2_5) P)
      ∧ (∃ P, Runs (.sysRestart (cq 19 [])) (s2_9) P) :=
  ⟨⟨_, (h (cq 0x13 []) s2_5 (commandedBy (heardBy (by decide +kernel)) (by decide +kernel))).1 (by decide +kernel)⟩,
    ⟨_, (h (cq 0x13 []) s2_9 (commandedBy (heardBy (by decide +kernel)) (by decide +kernel))).2 (by decide +kernel)⟩⟩

def s2_6 (k : Nat) : State := { B with sys := { B.sys with sleepAcc := true, sleepStep := k } }
def s2_7 : State := { B with sys := { B.sys with asleep := true } }
theorem test_meets_SleepIsEnteredInStepsAndEndsWithWake (h : Obligations.SleepIsEnteredInStepsAndEndsWithWake) :
    (∃ P, Runs (.sysSleep 42330) (s2_5) P)
      ∧ (∃ P, Runs (.sysSleep 5) (s2_5) P)
      ∧ (∃ P, Runs (.sleepEntryStep) (s2_6 1) P)
      ∧ (∃ P, Runs (.sleepEntryStep) (s2_6 2) P)
      ∧ (∃ P, Runs (.sleepEntryStep) (s2_6 3) P)
      ∧ (∃ P, Runs (.wake) (s2_7) P)
      ∧ (∃ P, Runs (.wakeLevelChange true) (B) P) :=
  ⟨⟨_, h.1 s2_5 (writeBy (by decide +kernel)) (by decide +kernel)⟩,
    ⟨_, h.2.1 5 s2_5 (writeBy (by decide +kernel)) (by decide +kernel)⟩,
    ⟨_, h.2.2.1 (s2_6 1) (by decide +kernel) (by decide +kernel)⟩,
    ⟨_, h.2.2.2.1 (s2_6 2) (by decide +kernel) (by decide +kernel)⟩,
    ⟨_, h.2.2.2.2.1 (s2_6 3) (by decide +kernel) (by decide +kernel) (by decide +kernel)⟩,
    ⟨_, h.2.2.2.2.2.1 s2_7 (by decide +kernel) (by decide +kernel)⟩,
    ⟨_, h.2.2.2.2.2.2 true B (by decide +kernel)⟩⟩

def inp : StepIn := default
def s2_8 (k : Nat) : State := { B with sys := { B.sys with ready := false, step := k } }
theorem test_meets_StartUpStepsFollowOneAnother (h : Obligations.StartUpStepsFollowOneAnother) :
    (∃ P, Runs (.startUpStepComplete inp) (s2_8 1) P)
      ∧ (∃ P, Runs (.startUpStepComplete { fwOk := true, nonce := inp.nonce, cmdNonce := inp.cmdNonce, challenge := inp.challenge, selfTest := inp.selfTest, inj := inp.inj, calErr := inp.calErr, adcCal := inp.adcCal, slackCs := inp.slackCs, slackDs := inp.slackDs, temps := inp.temps, excCal := inp.excCal, protMiss := inp.protMiss, t0Lead := inp.t0Lead }) (s2_8 2) P)
      ∧ (∃ P, Runs (.startUpStepComplete { fwOk := false, nonce := inp.nonce, cmdNonce := inp.cmdNonce, challenge := inp.challenge, selfTest := inp.selfTest, inj := inp.inj, calErr := inp.calErr, adcCal := inp.adcCal, slackCs := inp.slackCs, slackDs := inp.slackDs, temps := inp.temps, excCal := inp.excCal, protMiss := inp.protMiss, t0Lead := inp.t0Lead }) (s2_8 2) P)
      ∧ (∃ P, Runs (.startUpStepComplete inp) (s2_8 6) P)
      ∧ (∃ P, Runs (.startUpStepComplete inp) (s2_8 9) P)
      ∧ (∃ P, Runs (.startUpStepComplete { fwOk := inp.fwOk, nonce := inp.nonce, cmdNonce := inp.cmdNonce, challenge := inp.challenge, selfTest := inp.selfTest, inj := inp.inj, calErr := inp.calErr, adcCal := inp.adcCal, slackCs := inp.slackCs, slackDs := inp.slackDs, temps := inp.temps, excCal := inp.excCal, protMiss := Option.some 1, t0Lead := inp.t0Lead }) (s2_8 9) P)
      ∧ (∃ P, Runs (.startUpStepComplete inp) (s2_8 10) P)
      ∧ (∃ P, Runs (.stepTmo 5000) (s2_8 7) P) :=
  ⟨⟨_, (h inp (s2_8 1) (by decide +kernel) (by decide +kernel) (by decide +kernel) (by decide +kernel)).1 (by decide +kernel)⟩,
    ⟨_, (h { inp with fwOk := true } (s2_8 2) (by decide +kernel) (by decide +kernel) (by decide +kernel) (by decide +kernel)).2.1 (by decide +kernel) (by decide +kernel)⟩,
    ⟨_, (h { inp with fwOk := false } (s2_8 2) (by decide +kernel) (by decide +kernel) (by decide +kernel) (by decide +kernel)).2.2.1 (by decide +kernel) (by decide +kernel)⟩,
    ⟨_, (h inp (s2_8 6) (by decide +kernel) (by decide +kernel) (by decide +kernel) (by decide +kernel)).2.2.2.1 (by decide +kernel)⟩,
    ⟨_, (h inp (s2_8 9) (by decide +kernel) (by decide +kernel) (by decide +kernel) (by decide +kernel)).2.2.2.2.1 (by decide +kernel) (by decide +kernel)⟩,
    ⟨_, (h { inp with protMiss := some 1 } (s2_8 9) (by decide +kernel) (by decide +kernel) (by decide +kernel) (by decide +kernel)).2.2.2.2.2.1 (by decide +kernel) (by decide +kernel)⟩,
    ⟨_, (h inp (s2_8 10) (by decide +kernel) (by decide +kernel) (by decide +kernel) (by decide +kernel)).2.2.2.2.2.2.1 (by decide +kernel)⟩,
    ⟨_, (h inp (s2_8 7) (by decide +kernel) (by decide +kernel) (by decide +kernel) (by decide +kernel)).2.2.2.2.2.2.2 5000 (by decide +kernel)⟩⟩

theorem test_meets_PageZeroStartsBothDiesAtTZero (h : Obligations.PageZeroStartsBothDiesAtTZero) :
    (∃ P, Runs (.page0Start) (s2_8 11) P) :=
  ⟨_, h 50000 (s2_8 11) (by decide +kernel) (by decide +kernel) (by decide +kernel) (by decide +kernel) (by decide +kernel)⟩

def rdPay (a n : Nat) : List Byte := leBytes 4 a ++ leBytes 2 n
def s3_0 : State := { B with img := { B.img with recs := [⟨sNET, 1, [W [(8, 1)]]⟩] } }
def s3_1 : State := { B with mem := [(0x30000001, 5), (0x30000004, 7)] }
theorem test_meets_HostReadsMemoryInOrder (h : Obligations.HostReadsMemoryInOrder) :
    (∃ P, Runs (.hostRead (rq tREAD (rdPay 805306368 2)) 805306368 2) (B) P)
      ∧ (∃ P, Runs (.hostRead (rq tREAD (rdPay 805306368 0)) 805306368 0) (B) P)
      ∧ (∃ P, Runs (.hostRead (rq tREAD (rdPay 805306370 1)) 805306370 1) (B) P)
      ∧ (∃ P, Runs (.hostRead (rq tREAD (rdPay 318767552 1)) 318767552 1) (s3_0) P) :=
  ⟨⟨_, (h (rq tREAD (rdPay 0x30000000 2)) 0x30000000 2 B (heardBy (by decide +kernel)) (by decide +kernel) (by decide +kernel)).1 (by decide +kernel) (by decide +kernel) (by decide +kernel) (by decide +kernel)⟩,
    ⟨_, (h (rq tREAD (rdPay 0x30000000 0)) 0x30000000 0 B (heardBy (by decide +kernel)) (by decide +kernel) (by decide +kernel)).2.1 (by decide +kernel)⟩,
    ⟨_, (h (rq tREAD (rdPay 0x30000002 1)) 0x30000002 1 B (heardBy (by decide +kernel)) (by decide +kernel) (by decide +kernel)).2.2.1 (by decide +kernel) (by decide +kernel) (by decide +kernel)⟩,
    ⟨_, (h (rq tREAD (rdPay 0x130001C0 1)) 0x130001C0 1 s3_0 (heardBy (by decide +kernel)) (by decide +kernel) (by decide +kernel)).2.2.2 (by decide +kernel) (by decide +kernel) (by decide +kernel) (by decide +kernel)⟩⟩

def wrPay (a : Nat) (ws : List Word) : List Byte := leBytes 4 a ++ bytesOf ws
theorem test_meets_HostWritesARegisterButNoMemory (h : Obligations.HostWritesARegisterButNoMemory) :
    (∃ P, Runs (.hostWrite (rq tWRITE (wrPay 268435484 [255])) 268435484 [255]) (B) P)
      ∧ (∃ P, Runs (.hostWrite (rq tWRITE (wrPay 939524096 [255])) 939524096 [255]) (B) P) :=
  ⟨⟨_, (h (rq tWRITE (wrPay 0x1000001C [0xFF])) 0x1000001C [0xFF] B (heardBy (by decide +kernel)) (by decide +kernel) (by decide +kernel)).1 0xFF (by decide +kernel) (by decide +kernel)⟩,
    ⟨_, (h (rq tWRITE (wrPay 0x38000000 [0xFF])) 0x38000000 [0xFF] B (heardBy (by decide +kernel)) (by decide +kernel) (by decide +kernel)).2 (by decide +kernel) (by decide +kernel) (by decide +kernel)⟩⟩

def enumQ : Req := let q : Req := { stream := .pa, dst := 0xFD, src := 0, seq := 1, alive := 1, len := 1, crc := 0, coding := true }; { q with crc := crc32 (reqBytes q tENUM [5]) }
def frm3 (dst : Byte) : List Byte := let b := [dst, 0, 1, 1, 1, 0, 0, 0]; b ++ wordBytes (crc32 b)
def s3_2 : State := { B with host := { B.host with addr := some 3, pbUp := true, paUp := true } }
theorem test_meets_ChainTakesAnAddressAndForwards (h : Obligations.ChainTakesAnAddressAndForwards) :
    (∃ P, Runs (.enum enumQ 5) (B) P)
      ∧ (∃ P, Runs (.frameForward Port.pb (frm3 9)) (s3_2) P)
      ∧ (∃ P, Runs (.frameForward Port.pa (frm3 9)) (s3_2) P)
      ∧ (∃ P, Runs (.linkUp Port.pb) (B) P)
      ∧ (∃ P, Runs (.linkDn Port.pa) (s3_2) P) :=
  ⟨⟨_, h.1 enumQ 5 B (heardBy (by decide +kernel)) (by decide +kernel) (by decide +kernel) (by decide +kernel)⟩,
    ⟨_, h.2.1 (frm3 9) s3_2 (by decide +kernel) (by decide +kernel) (by decide +kernel) (by decide +kernel)⟩,
    ⟨_, h.2.2.1 (frm3 9) s3_2 (by decide +kernel) (by decide +kernel) (by decide +kernel) (by decide +kernel) (by decide +kernel) (by decide +kernel)⟩,
    ⟨_, h.2.2.2.1 .pb B (by decide +kernel) (by decide +kernel)⟩,
    ⟨_, h.2.2.2.2 .pa s3_2 (by decide +kernel)⟩⟩

def s3_3 : State := { B with host := { B.host with resps := [frm3 9] } }
theorem test_meets_SpiQueuesFourRequestsAndFourResponses (h : Obligations.SpiQueuesFourRequestsAndFourResponses) :
    (∃ P, Runs (.spiSend (frm3 9) true) (B) P)
      ∧ (∃ P, Runs (.spiSend [] true) (B) P)
      ∧ (∃ P, Runs (.spiRecv) (s3_3) P)
      ∧ (∃ P, Runs (.spiRecv) (B) P)
      ∧ (∃ P, Runs (.spiStatus) (s3_3) P) :=
  ⟨⟨_, (h B (by decide +kernel)).1 (frm3 9) true⟩,
    ⟨_, (h B (by decide +kernel)).1 [] true⟩,
    ⟨_, (h s3_3 (by decide +kernel)).2.1 (frm3 9) [] (by decide +kernel)⟩,
    ⟨_, (h B (by decide +kernel)).2.2.1 (by decide +kernel)⟩,
    ⟨_, (h s3_3 (by decide +kernel)).2.2.2⟩⟩

def s3_4 : State := { B with kp := { B.kp with restarting := true } }
theorem test_meets_KeeperRestartsAndShedsByItsLoad (h : Obligations.KeeperRestartsAndShedsByItsLoad) :
    (∃ P, Runs (.klock) (B) P)
      ∧ (∃ P, Runs (.keeperRestartComplete) (s3_4) P)
      ∧ (∃ P, Runs (.keeperLoadUpdate 99) (B) P)
      ∧ (∃ P, Runs (.keeperLoadUpdate 85) (B) P)
      ∧ (∃ P, Runs (.keeperLoadUpdate 70) (B) P)
      ∧ (∃ P, Runs (.kpLoadRead) (B) P) :=
  ⟨⟨_, h.1 B (by decide +kernel) (by decide +kernel)⟩,
    ⟨_, h.2.1 s3_4 (by decide +kernel)⟩,
    ⟨_, h.2.2.1 99 B (by decide +kernel) (by decide +kernel)⟩,
    ⟨_, h.2.2.1 85 B (by decide +kernel) (by decide +kernel)⟩,
    ⟨_, h.2.2.1 70 B (by decide +kernel) (by decide +kernel)⟩,
    ⟨_, h.2.2.2 B (readBy (by decide +kernel))⟩⟩

def lrq : Req := cq 0x40 (leBytes 4 0 ++ leBytes 4 2)
def s3_5 : State := { B with nv := { B.nv with logNext := 3 } }
def s3_6 : State := { s3_5 with kp := { s3_5.kp with defer3 := true } }
def s3_7 : State := { s3_5 with kp := { s3_5.kp with queue := [⟨lrq, 0, 2⟩] } }
def s3_8 : State := { s3_7 with host := { s3_7.host with resps := [[], [], [], []] } }
def sfq : Req := cq 0x30 (List.replicate 52 0)
theorem test_meets_FaultLogAndSafetyFramesAreServed (h : Obligations.FaultLogAndSafetyFramesAreServed) :
    (∃ P, Runs (.logRead lrq 0 2) (s3_5) P)
      ∧ (∃ P, Runs (.logRead lrq 0 2) (s3_6) P)
      ∧ (∃ P, Runs (.deferredRequestServe) (s3_7) P)
      ∧ (∃ P, Runs (.deferredRequestServe) (s3_8) P)
      ∧ (∃ P, Runs (.safeFrame sfq (List.replicate 52 0)) (B) P) :=
  ⟨⟨_, ((h s3_5).1 lrq 0 2 (heardBy (by decide +kernel)) (by decide +kernel)).1 (by decide +kernel) (by decide +kernel) (by decide +kernel)⟩,
    ⟨_, ((h s3_6).1 lrq 0 2 (heardBy (by decide +kernel)) (by decide +kernel)).2 (by decide +kernel)⟩,
    ⟨_, ((h s3_7).2.1 ⟨lrq, 0, 2⟩ [] (by decide +kernel) (by decide +kernel) (by decide +kernel) (by decide +kernel)).1 (by decide +kernel) (by decide +kernel) (by decide +kernel)⟩,
    ⟨_, ((h s3_8).2.1 ⟨lrq, 0, 2⟩ [] (by decide +kernel) (by decide +kernel) (by decide +kernel) (by decide +kernel)).2 (by decide +kernel)⟩,
    ⟨_, (h B).2.2 sfq (List.replicate 52 0) (commandedBy (heardBy (by decide +kernel)) (by decide +kernel))⟩⟩

def s4_0 : State := { B with mem := [(0x38300005, 9)] }
def s4_1 : State := { B with im := { B.im with checked := [true, true] } }
def s4_2 : State := { B with kp := { B.kp with slotDue := true } }
theorem test_meets_SpareSlotIsWrittenCheckedAndActivated (h : Obligations.SpareSlotIsWrittenCheckedAndActivated) :
    (∃ P, Runs (.imgWrite (cq 16 (leBytes 4 8 ++ [1, 2, 3, 4])) 8 [1, 2, 3, 4]) (B) P)
      ∧ (∃ P, Runs (.imgCheck (cq 17 [])) (B) P)
      ∧ (∃ P, Runs (.imgActivate (cq 18 (leBytes 4 1)) 1) (s4_1) P)
      ∧ (∃ P, Runs (.imgActivate (cq 18 (leBytes 4 1)) 1) (B) P)
      ∧ (∃ P, Runs (.slotCheck) (s4_2) P) :=
  ⟨⟨_, h.1 (cq 0x10 (leBytes 4 8 ++ [1,2,3,4])) 8 [1,2,3,4] B (invBy (by decide +kernel)) (commandedBy (heardBy (by decide +kernel)) (by decide +kernel)) (by decide +kernel) (by decide +kernel) (by decide +kernel) (by decide +kernel) (by decide +kernel) (by decide +kernel)⟩,
    ⟨_, h.2.1 (cq 0x11 []) B (commandedBy (heardBy (by decide +kernel)) (by decide +kernel))⟩,
    ⟨_, (h.2.2.1 (cq 0x12 (leBytes 4 1)) 1 s4_1 (commandedBy (heardBy (by decide +kernel)) (by decide +kernel)) (by decide +kernel) (by decide +kernel)).1 (by decide +kernel) (by decide +kernel)⟩,
    ⟨_, (h.2.2.1 (cq 0x12 (leBytes 4 1)) 1 B (commandedBy (heardBy (by decide +kernel)) (by decide +kernel)) (by decide +kernel) (by decide +kernel)).2 (by decide +kernel)⟩,
    ⟨_, h.2.2.2 s4_2 (by decide +kernel) (by decide +kernel) (by decide +kernel) (by decide +kernel) (by decide +kernel)⟩⟩

def hd0 : PageHdr := { die := .cs, lane := 0, page := 1, w0 := 0, w1 := 0, w2 := 0 }
def s4_3 : State := { B with im := { B.im with staging := true, items := [.page hd0 [1,2,3,4], .param .cs 0 []] } }
theorem test_meets_StagePackageIsBufferedVerifiedAndLoaded (h : Obligations.StagePackageIsBufferedVerifiedAndLoaded) :
    (∃ P, Runs (.stgWrite (cq 24 (leBytes 4 8 ++ [1, 2, 3, 4])) 8 [1, 2, 3, 4]) (B) P)
      ∧ (∃ P, Runs (.stgApply (cq 25 [])) (B) P)
      ∧ (∃ P, Runs (.stageLoadComplete 0) (s4_3) P) :=
  ⟨⟨_, h.1 (cq 0x18 (leBytes 4 8 ++ [1,2,3,4])) 8 [1,2,3,4] B (commandedBy (heardBy (by decide +kernel)) (by decide +kernel)) (by decide +kernel) (by decide +kernel) (by decide +kernel)⟩,
    ⟨_, h.2.1 (cq 0x19 []) B (commandedBy (heardBy (by decide +kernel)) (by decide +kernel))⟩,
    ⟨_, h.2.2 0 hd0 [1,2,3,4] s4_3 (by decide +kernel) (by decide +kernel) (by decide +kernel) (by decide +kernel)⟩⟩

def sig : List Byte := List.replicate 64 0
def xy : List Byte := List.replicate 64 1
def gxy : List Byte := (leBytes 32 p256Gx).reverse ++ (leBytes 32 p256Gy).reverse
def kA : KeyEntry := ⟨1, 7, gxy⟩
def s4_4 : State := { B with nv := { B.nv with keysA := { B.nv.keysA with keys := [kA, kA, kA, {}] } } }
def sgn (code : Nat) (args : List Byte) : List Byte :=
  (leBytes 32 (p256Gx % p256N)).reverse ++ (leBytes 32 ((ofBe (sha256 (signedMsg s4_4 code args)) + p256Gx) % p256N)).reverse
def a20 : List Byte := [3, 3, 0, 0] ++ gxy
def a21 (e : Byte) : List Byte := [e] ++ [0,0,0] ++ [0] ++ [0,0,0]
def a41 : List Byte := [0] ++ [0,0,0]
def s4_5 : State := { s4_4 with mem := [(0x38300005, 9)] }
theorem test_meets_KeysChangeOnlyBySignedCommands (h : Obligations.KeysChangeOnlyBySignedCommands) :
    (∃ P, Runs (.keyEnrol (cq 32 ([1, 3, 0, 0] ++ xy ++ sig)) 1 3 0 0 xy sig 5) (B) P)
      ∧ (∃ P, Runs (.keyEnrol (cq 32 (a20 ++ sgn 32 a20)) 3 3 0 0 gxy (sgn 32 a20) 5) (s4_4) P)
      ∧ (∃ P, Runs (.keyEnrol (cq 32 ([2, 3, 0, 0] ++ xy ++ sig)) 2 3 0 0 xy sig 5) (s4_4) P)
      ∧ (∃ P, Runs (.keyEnrol (cq 32 ([7, 3, 0, 0] ++ xy ++ sig)) 7 3 0 0 xy sig 5) (B) P)
      ∧ (∃ P, Runs (.keyRevoke (cq 33 (a21 1 ++ sgn 33 (a21 1))) 1 0 [0, 0, 0, 0, 0, 0] (sgn 33 (a21 1)) 5) (s4_4) P)
      ∧ (∃ P, Runs (.keyRevoke (cq 33 (a21 1 ++ sig)) 1 0 [0, 0, 0, 0, 0, 0] sig 5) (s4_4) P)
      ∧ (∃ P, Runs (.keyRevoke (cq 33 (a21 4 ++ sgn 33 (a21 4))) 4 0 [0, 0, 0, 0, 0, 0] (sgn 33 (a21 4)) 5) (s4_4) P)
      ∧ (∃ P, Runs (.sealForReturn (cq 65 (a41 ++ sgn 65 a41)) 0 [0, 0, 0] (sgn 65 a41) 5) (s4_5) P)
      ∧ (∃ P, Runs (.sealForReturn (cq 65 (a41 ++ sig)) 0 [0, 0, 0] sig 5) (s4_4) P) :=
  ⟨⟨_, ((h (cq 0x20 ([1, 3, 0, 0] ++ xy ++ sig)) sig 5 B (by decide +kernel)).1 1 3 0 0 xy (commandedBy (heardBy (by decide +kernel)) (by decide +kernel)) (by decide +kernel)).1 (by decide +kernel) (by decide +kernel) (by decide +kernel) (by decide +kernel) (by decide +kernel)⟩,
    ⟨_, ((h (cq 0x20 (a20 ++ sgn 0x20 a20)) (sgn 0x20 a20) 5 s4_4 (by decide +kernel)).1 3 3 0 0 gxy (commandedBy (heardBy (by decide +kernel)) (by decide +kernel)) (by decide +kernel)).1 (by decide +kernel) (by decide +kernel) (by decide +kernel) (by decide +kernel) (by decide +kernel)⟩,
    ⟨_, ((h (cq 0x20 ([2, 3, 0, 0] ++ xy ++ sig)) sig 5 s4_4 (by decide +kernel)).1 2 3 0 0 xy (commandedBy (heardBy (by decide +kernel)) (by decide +kernel)) (by decide +kernel)).2.1 (by decide +kernel) (by decide +kernel) (by decide +kernel)⟩,
    ⟨_, ((h (cq 0x20 ([7, 3, 0, 0] ++ xy ++ sig)) sig 5 B (by decide +kernel)).1 7 3 0 0 xy (commandedBy (heardBy (by decide +kernel)) (by decide +kernel)) (by decide +kernel)).2.2 (by decide +kernel)⟩,
    ⟨_, ((h (cq 0x21 (a21 1 ++ sgn 0x21 (a21 1))) (sgn 0x21 (a21 1)) 5 s4_4 (by decide +kernel)).2.1 1 0 [0,0,0,0,0,0] (commandedBy (heardBy (by decide +kernel)) (by decide +kernel)) (by decide +kernel)).1 (by decide +kernel) (by decide +kernel) (by decide +kernel) (by decide +kernel) (by decide +kernel)⟩,
    ⟨_, ((h (cq 0x21 (a21 1 ++ sig)) sig 5 s4_4 (by decide +kernel)).2.1 1 0 [0,0,0,0,0,0] (commandedBy (heardBy (by decide +kernel)) (by decide +kernel)) (by decide +kernel)).2.1 (by decide +kernel) (by decide +kernel)⟩,
    ⟨_, ((h (cq 0x21 (a21 4 ++ sgn 0x21 (a21 4))) (sgn 0x21 (a21 4)) 5 s4_4 (by decide +kernel)).2.1 4 0 [0,0,0,0,0,0] (commandedBy (heardBy (by decide +kernel)) (by decide +kernel)) (by decide +kernel)).2.2 (by decide +kernel)⟩,
    ⟨_, ((h (cq 0x41 (a41 ++ sgn 0x41 a41)) (sgn 0x41 a41) 5 s4_5 (by decide +kernel)).2.2 0 [0,0,0] (commandedBy (heardBy (by decide +kernel)) (by decide +kernel)) (by decide +kernel) (by decide +kernel)).1 (by decide +kernel) (invBy (by decide +kernel)) (by decide +kernel)⟩,
    ⟨_, ((h (cq 0x41 (a41 ++ sig)) sig 5 s4_4 (by decide +kernel)).2.2 0 [0,0,0] (commandedBy (heardBy (by decide +kernel)) (by decide +kernel)) (by decide +kernel) (by decide +kernel)).2 (by decide +kernel)⟩⟩

def ckR (n mode : Nat) (aut : Nat) : Rec := ⟨sNET, 0x11, [W [(16, n), (8, mode), (4, aut)], 0x30000000, 8, 0, W [(16, 5)]]⟩
def s5_1 : State := run [ckR 0 1 0, ckR 1 3 0, ckR 2 3 1]
def s5_2 : State := { s5_1 with ckCs := s5_1.ckCs.map fun x => { x with running := true } }
theorem test_meets_CheckScansStartCompareAndLearn (h : Obligations.CheckScansStartCompareAndLearn) :
    (∃ P, Runs (.checkScanBackgroundStart Die.cs 0) (s5_1) P)
      ∧ (∃ P, Runs (.ckCtrlStart Die.cs 1) (s5_1) P)
      ∧ (∃ P, Runs (.ckExpWrite Die.cs 1 5) (s5_1) P)
      ∧ (∃ P, Runs (.scanComplete Die.cs 1 Option.none) (s5_2) P)
      ∧ (∃ P, Runs (.scanComplete Die.cs 2 Option.none) (s5_2) P)
      ∧ (∃ P, Runs (.scanComplete Die.cs 2 (Option.some 3)) (s5_2) P) :=
  ⟨⟨_, (h .cs 0 s5_1 (invBy (by decide +kernel)) (by decide +kernel)).1 (by decide +kernel) (by decide +kernel) (by decide +kernel) (by decide +kernel)⟩,
    ⟨_, (h .cs 1 s5_1 (invBy (by decide +kernel)) (by decide +kernel)).2.1 (writeBy (by decide +kernel)) (by decide +kernel) (by decide +kernel)⟩,
    ⟨_, (h .cs 1 s5_1 (invBy (by decide +kernel)) (by decide +kernel)).2.2.1 5 (writeBy (by decide +kernel))⟩,
    ⟨_, ((h .cs 1 s5_2 (invBy (by decide +kernel)) (by decide +kernel)).2.2.2 (by decide +kernel) (by decide +kernel)).1 (by decide +kernel)⟩,
    ⟨_, ((h .cs 2 s5_2 (invBy (by decide +kernel)) (by decide +kernel)).2.2.2 (by decide +kernel) (by decide +kernel)).1 (by decide +kernel)⟩,
    ⟨_, ((h .cs 2 s5_2 (invBy (by decide +kernel)) (by decide +kernel)).2.2.2 (by decide +kernel) (by decide +kernel)).2 3 (by decide +kernel)⟩⟩

def s5_3 : State := run [fbR 2 [W [(0, 400)], 0, W [(24, 10), (0, 2)]], fbR 10 [0, 6]]
def s5_r : State := { s5_3 with sys := { s5_3.sys with csReset := true, resetUnres := true, wakeUnres := true, resetLow := true } }
theorem test_meets_InputsLeaveTheirUnresolvedState (h : Obligations.InputsLeaveTheirUnresolvedState) :
    (∃ P, Runs (.inputResolved (InputId.contactor 2) true) (B) P)
      ∧ (∃ P, Runs (.inputResolved (InputId.bootstrap 2) true) (B) P)
      ∧ (∃ P, Runs (.inputResolved (InputId.bootstrap 2) false) (B) P)
      ∧ (∃ P, Runs (.inputResolved InputId.bridge true) (B) P)
      ∧ (∃ P, Runs (.inputResolved InputId.bridge false) (B) P)
      ∧ (∃ P, Runs (.inputResolved (InputId.canRx 1) true) (B) P)
      ∧ (∃ P, Runs (.inputResolved (InputId.canRx 1) false) (B) P)
      ∧ (∃ P, Runs (.inputResolved (InputId.encLine 0 1) true) (s5_3) P)
      ∧ (∃ P, Runs (.inputResolved (InputId.hall 0 1) true) (s5_3) P)
      ∧ (∃ P, Runs (.inputResolved (InputId.ssi 1) true) (s5_3) P)
      ∧ (∃ P, Runs (.inputResolved (InputId.tooth 1) true) (s5_3) P)
      ∧ (∃ P, Runs (.inputResolved (InputId.comparator (Comp.trip 1)) false) (s5_3) P)
      ∧ (∃ P, Runs (.inputResolved (InputId.comparator (Comp.hard 1)) true) (s5_3) P)
      ∧ (∃ P, Runs (.inputResolved InputId.resetN true) (s5_r) P)
      ∧ (∃ P, Runs (.inputResolved InputId.resetN false) (s5_r) P)
      ∧ (∃ P, Runs (.inputResolved InputId.wake false) (s5_r) P)
      ∧ (∃ P, Runs (.inputResolved InputId.wake true) (s5_r) P) :=
  ⟨⟨_, h.1 2 true B⟩,
    ⟨_, (h.2.1 2 B).1⟩,
    ⟨_, (h.2.1 2 B).2⟩,
    ⟨_, (h.2.2.1 B).1⟩,
    ⟨_, (h.2.2.1 B).2⟩,
    ⟨_, (h.2.2.2.1 1 B).1⟩,
    ⟨_, (h.2.2.2.1 1 B).2⟩,
    ⟨_, (h.2.2.2.2.1 1 true s5_3 (invBy (by decide +kernel))).1 0⟩,
    ⟨_, (h.2.2.2.2.1 1 true s5_3 (invBy (by decide +kernel))).2 0⟩,
    ⟨_, (h.2.2.2.2.2.1 1 true s5_3).1⟩,
    ⟨_, (h.2.2.2.2.2.1 1 true s5_3).2⟩,
    ⟨_, h.2.2.2.2.2.2.1 (.trip 1) false s5_3 (invBy (by decide +kernel))⟩,
    ⟨_, h.2.2.2.2.2.2.1 (.hard 1) true s5_3 (invBy (by decide +kernel))⟩,
    ⟨_, (h.2.2.2.2.2.2.2.1 s5_r).1 (by decide +kernel) (by decide +kernel) (by decide +kernel) (by decide +kernel)⟩,
    ⟨_, (h.2.2.2.2.2.2.2.1 s5_r).2⟩,
    ⟨_, (h.2.2.2.2.2.2.2.2 s5_r).1 (by decide +kernel) (by decide +kernel)⟩,
    ⟨_, (h.2.2.2.2.2.2.2.2 s5_r).2⟩⟩

def s5_4 : State := run [byR 1 3 0 [(24, 0)] (-100) 100, byR 2 0 0 [] (-100) 100, byR 3 3 0 [(13, 1)] 0 50]
theorem test_meets_EachBuoyHasOneSource (h : Obligations.EachBuoyHasOneSource) :
    (∃ P, Runs (.buoyUpdate 1 SrcPath.adc 5 0) (s5_4) P)
      ∧ (∃ P, Runs (.byWexpWrite 2 0) (s5_4) P) :=
  ⟨⟨_, h.2.1 1 .adc 5 0 s5_4 (by decide +kernel)⟩,
    ⟨_, h.2.2 2 0 s5_4 (writeBy (by decide +kernel)) (by decide +kernel)⟩⟩

def s5_5 : State := { s5_4 with buoys := s5_4.buoys.map fun b => { b with state := 0, wmant := 7, out := 4, last := 4, admitted := true, mstale := false } }
theorem test_meets_BuoysAdmitRejectAndTimeOut (h : Obligations.BuoysAdmitRejectAndTimeOut) :
    (∃ P, Runs (.buoyUpdate 1 SrcPath.host 50 0) (s5_5) P)
      ∧ (∃ P, Runs (.buoyUpdate 1 SrcPath.host 50 0) (s5_4) P)
      ∧ (∃ P, Runs (.buoyUpdate 1 SrcPath.host 500 0) (s5_5) P)
      ∧ (∃ P, Runs (.byWexpWrite 1 0) (s5_5) P)
      ∧ (∃ P, Runs (.buoyTimeout 1) (s5_5) P) :=
  ⟨⟨_, ((h 1 s5_5 (invBy (by decide +kernel)) (by decide +kernel)).1 .host 50 0 (by decide +kernel)).1 (by decide +kernel) (by decide +kernel) (by decide +kernel) (by decide +kernel) (by decide +kernel) (by decide +kernel) (by decide +kernel)⟩,
    ⟨_, ((h 1 s5_4 (invBy (by decide +kernel)) (by decide +kernel)).1 .host 50 0 (by decide +kernel)).1 (by decide +kernel) (by decide +kernel) (by decide +kernel) (by decide +kernel) (by decide +kernel) (by decide +kernel) (by decide +kernel)⟩,
    ⟨_, ((h 1 s5_5 (invBy (by decide +kernel)) (by decide +kernel)).1 .host 500 0 (by decide +kernel)).2 (by decide +kernel)⟩,
    ⟨_, (h 1 s5_5 (invBy (by decide +kernel)) (by decide +kernel)).2.1 0 (writeBy (by decide +kernel)) (by decide +kernel) (by decide +kernel) (by decide +kernel) (by decide +kernel) (by decide +kernel) (by decide +kernel) (by decide +kernel) (by decide +kernel)⟩,
    ⟨_, (h 1 s5_5 (invBy (by decide +kernel)) (by decide +kernel)).2.2 (by decide +kernel)⟩⟩

def k5 : CtrKey := ⟨.cs, 14, 0, 0, 1, 0⟩
def c5 : Ctr := { key := k5, w := 16, n := 2 }
def s5_6 : State := { s5_5 with ctrs := [c5] }
def c6 : Ctr := { c5 with declared := true, bins := 0 :: List.replicate 14 0 ++ [3] }
def s5_7 : State := { s5_5 with ctrs := [c6], buoys := s5_5.buoys.map fun b => { b with state := 2 } }
theorem test_meets_MirrorsGoStaleAndCountersRollOver (h : Obligations.MirrorsGoStaleAndCountersRollOver) :
    (∃ P, Runs (.mirrorStale 3) (s5_5) P)
      ∧ (∃ P, Runs (.windowBinRollover k5) (s5_6) P)
      ∧ (∃ P, Runs (.windowBinRollover k5) (s5_7) P) :=
  ⟨⟨_, h.1 3 s5_5 (by decide +kernel) (by decide +kernel) (by decide +kernel)⟩,
    ⟨_, (h.2 k5 c5 s5_6 (by decide +kernel)).1 (by decide +kernel)⟩,
    ⟨_, (h.2 k5 c6 s5_7 (by decide +kernel)).2 (by decide +kernel) (invBy (by decide +kernel)) (by decide +kernel) (by decide +kernel) (by decide +kernel)⟩⟩

def enc (mode : Nat) : Rec := fbR 2 [W [(0, 400)], W [(0, 7)], W [(24, 10), (0, mode)], 0, 0, W [(16, 10), (8, 4), (0, 50)]]
def rsl (s : State) : State := { s with fb := s.fb.map fun f => { f with unresLines := 0 } }
def s6_1 : State := rsl (run [enc 2])
def s6_2 : State := rsl (run [enc 3])
def s6_3 : State := { s6_2 with fb := upd s6_2.fb 2 fun f => { f with wdAct := 3#3, wdSince := [99000, 98000, 0] } }
theorem test_meets_EncodersCountQuadratureSteps (h : Obligations.EncodersCountQuadratureSteps) :
    (∃ P, Runs (.encoderEdge 0 false true true) (s6_1) P)
      ∧ (∃ P, Runs (.encoderEdge 0 true false true) (s6_2) P)
      ∧ (∃ P, Runs (.encoderEdge 0 true true true) (s6_2) P)
      ∧ (∃ P, Runs (.wireLevelChange 0 1 true true) (s6_2) P)
      ∧ (∃ P, Runs (.wireLevelChange 0 0 false true) (s6_3) P)
      ∧ (∃ P, Runs (.wiredis 0 0) (s6_3) P) :=
  ⟨⟨_, ((h 0 s6_1 (invBy (by decide +kernel))).1 false true true (by decide +kernel) (by decide +kernel)).1 (by decide +kernel) (by decide +kernel)⟩,
    ⟨_, ((h 0 s6_2 (invBy (by decide +kernel))).1 true false true (by decide +kernel) (by decide +kernel)).2.1 (by decide +kernel) (by decide +kernel) (by decide +kernel)⟩,
    ⟨_, ((h 0 s6_2 (invBy (by decide +kernel))).1 true true true (by decide +kernel) (by decide +kernel)).2.2 (by decide +kernel) (by decide +kernel)⟩,
    ⟨_, (h 0 s6_2 (invBy (by decide +kernel))).2.1 1 true⟩,
    ⟨_, (h 0 s6_3 (invBy (by decide +kernel))).2.2.1 0 true⟩,
    ⟨_, (h 0 s6_3 (invBy (by decide +kernel))).2.2.2 0 (by decide +kernel) (by decide +kernel) (by decide +kernel)⟩⟩

def s6_4 : State := rsl (run [enc 0])
def s6_5 : State := rsl (run [enc 1])
def tth (k : Nat) : Rec := fbR 6 [W [(16, k), (20, 2), (0, 60)], W [(24, 40), (16, 8)], 7, 0, 0, W [(16, 10), (8, 4), (0, 50)]]
def s6_6 : State := rsl (run [tth 0])
def s6_2l : State := { s6_3 with fb := upd s6_3.fb 2 fun f => { f with load := 1234567, wdis := 2 } }
theorem test_meets_FeedbackChannelsArmResyncAndRest (h : Obligations.FeedbackChannelsArmResyncAndRest) :
    (∃ P, Runs (.arm 2) (s6_4) P)
      ∧ (∃ P, Runs (.arm 2) (s6_5) P)
      ∧ (∃ P, Runs (.arm 2) (s6_1) P)
      ∧ (∃ P, Runs (.arm 2) (s6_2l) P)
      ∧ (∃ P, Runs (.resync 6) (s6_6) P)
      ∧ (∃ P, Runs (.standstill 6) (s6_6) P)
      ∧ (∃ P, Runs (.unres 2) (run [enc 2]) P) :=
  ⟨⟨_, (h 2 s6_4 (invBy (by decide +kernel))).1 (writeBy (by decide +kernel)) (by decide +kernel) (by decide +kernel) (by decide +kernel)⟩,
    ⟨_, (h 2 s6_5 (invBy (by decide +kernel))).1 (writeBy (by decide +kernel)) (by decide +kernel) (by decide +kernel) (by decide +kernel)⟩,
    ⟨_, (h 2 s6_1 (invBy (by decide +kernel))).1 (writeBy (by decide +kernel)) (by decide +kernel) (by decide +kernel) (by decide +kernel)⟩,
    ⟨_, (h 2 s6_2l (invBy (by decide +kernel))).1 (writeBy (by decide +kernel)) (by decide +kernel) (by decide +kernel) (by decide +kernel)⟩,
    ⟨_, (h 6 s6_6 (invBy (by decide +kernel))).2.1 (writeBy (by decide +kernel)) (by decide +kernel) (by decide +kernel)⟩,
    ⟨_, (h 6 s6_6 (invBy (by decide +kernel))).2.2.1 (by decide +kernel) (by decide +kernel) (by decide +kernel) (by decide +kernel) (by decide +kernel) (by decide +kernel)⟩,
    ⟨_, (h 2 (run [enc 2]) (invBy (by decide +kernel))).2.2.2 (by decide +kernel) (by decide +kernel) (by decide +kernel) (by decide +kernel)⟩⟩

def s6_7 : State := { s6_6 with now := 125000, fb := upd s6_6.fb 6 fun f => { f with tooth := { f.tooth with edges := 5, prevT := 5000, lastT := 110000, index := 4 } } }
def s6_8 : State := { s6_7 with fb := upd s6_7.fb 6 fun f => { f with ref := true, tooth := { f.tooth with index := 57 } } }
def hl : Rec := fbR 10 [W [(0, 0o73541207)], 6, 0, 0, 0, W [(16, 10), (8, 4), (0, 50)]]
def s6_9 : State := rsl (run [hl])
def s6_10 : State := { s6_9 with fb := s6_9.fb.map fun f => { f with restart := false, hallCode := 1, sector := 0 } }
theorem test_meets_ToothWheelsAndHallGroupsCount (h : Obligations.ToothWheelsAndHallGroupsCount) :
    (∃ P, Runs (.toothEdge 0 true) (s6_6) P)
      ∧ (∃ P, Runs (.toothEdge 0 true) (s6_7) P)
      ∧ (∃ P, Runs (.toothEdge 0 true) (s6_8) P)
      ∧ (∃ P, Runs (.hallCodeChange 0 5) (s6_10) P)
      ∧ (∃ P, Runs (.hallCodeChange 0 3) (s6_10) P)
      ∧ (∃ P, Runs (.hallCodeChange 0 7) (s6_10) P) :=
  ⟨⟨_, (h.1 0 true s6_6 (invBy (by decide +kernel)) (by decide +kernel) (by decide +kernel) (by decide +kernel)).1 (by decide +kernel) (by decide +kernel) (by decide +kernel)⟩,
    ⟨_, (h.1 0 true s6_7 (invBy (by decide +kernel)) (by decide +kernel) (by decide +kernel) (by decide +kernel)).2 (by decide +kernel) (by decide +kernel) (by decide +kernel)⟩,
    ⟨_, (h.1 0 true s6_8 (invBy (by decide +kernel)) (by decide +kernel) (by decide +kernel) (by decide +kernel)).2 (by decide +kernel) (by decide +kernel) (by decide +kernel)⟩,
    ⟨_, (h.2 0 5 s6_10 (invBy (by decide +kernel)) (by decide +kernel) (by decide +kernel)).1 (by decide +kernel) (by decide +kernel) (by decide +kernel) (by decide +kernel)⟩,
    ⟨_, (h.2 0 3 s6_10 (invBy (by decide +kernel)) (by decide +kernel) (by decide +kernel)).1 (by decide +kernel) (by decide +kernel) (by decide +kernel) (by decide +kernel)⟩,
    ⟨_, (h.2 0 7 s6_10 (invBy (by decide +kernel)) (by decide +kernel) (by decide +kernel)).2 (by decide +kernel) (by decide +kernel)⟩⟩

def s6_11 : State := { s6_6 with fb := (rsl (run [enc 2])).fb.map fun f => { f with spstat := 0 }, img := { s6_6.img with recs := [tth 0, enc 2, hl] } }
def res : Rec := fbR 0 [W [(16, 10000)], W [(16, 100), (0, 1000)], W [(24, 32), (16, 96), (0, 1000)], W [(16, 100), (0, 10)], W [(0, 100)], 10]
def s6_12 : State := rsl (run [res])
def ssi : Rec := fbR 8 [W [(0, 25), (8, 0), (16, 12), (24, 12)], W [(24, 20), (0, 100)], W [(0, 1), (8, 24)], W [(0, 20000)]]
def s6_13 : State := rsl (run [ssi])
def s6_14 : State := { s6_13 with fb := upd s6_13.fb 8 fun f => { f with ssi := { f.ssi with busy := true, clkAt := 99000, reqAt := 90000 } } }
theorem test_meets_SensorsReportEveryPeriod (h : Obligations.SensorsReportEveryPeriod) :
    (∃ P, Runs (.feedbackTick) (s6_11) P)
      ∧ (∃ P, Runs (.resolverUpdate 0 300 400 1000 true) (s6_12) P)
      ∧ (∃ P, Runs (.resolverUpdate 0 300 400 1000 false) (s6_12) P)
      ∧ (∃ P, Runs (.ssiRequest 0 true) (s6_13) P)
      ∧ (∃ P, Runs (.ssiRequest 0 false) (s6_13) P)
      ∧ (∃ P, Runs (.ssiFrameComplete 0 (List.replicate 2 true ++ List.replicate 23 false)) (s6_14) P)
      ∧ (∃ P, Runs (.ssiFrameComplete 0 (List.replicate 3 true ++ List.replicate 22 false)) (s6_14) P) :=
  ⟨⟨_, h.1 s6_11 (by decide +kernel)⟩,
    ⟨_, h.2.1 0 300 400 1000 true s6_12 (invBy (by decide +kernel)) (by decide +kernel)⟩,
    ⟨_, h.2.1 0 300 400 1000 false s6_12 (invBy (by decide +kernel)) (by decide +kernel)⟩,
    ⟨_, (h.2.2.1 0 s6_13 (invBy (by decide +kernel)) (by decide +kernel) (by decide +kernel)).1 (by decide +kernel)⟩,
    ⟨_, (h.2.2.1 0 s6_13 (invBy (by decide +kernel)) (by decide +kernel) (by decide +kernel)).2⟩,
    ⟨_, (h.2.2.2 0 (List.replicate 2 true ++ List.replicate 23 false) s6_14 (invBy (by decide +kernel)) (by decide +kernel) (by decide +kernel)).1 (by decide +kernel)⟩,
    ⟨_, (h.2.2.2 0 (List.replicate 3 true ++ List.replicate 22 false) s6_14 (invBy (by decide +kernel)) (by decide +kernel) (by decide +kernel)).2 (by decide +kernel)⟩⟩

def bmR (b src inst : Nat) (w0 : List (Nat × Nat)) (w5 w6 : Word) : Rec := ⟨sBEAM, 1, [W ([(28, src), (20, inst), (8, 1), (0, b)] ++ w0), 5, W [(16, 40), (0, 100)], 0, W [(16, 10), (0, 3)], w5, w6]⟩
def r7 : List Rec := [res, enc 2, bmR 0 0 0 [(8, 2)] 0 0, bmR 1 0 2 [] 0 0, bmR 2 1 0 [] 20 (W [(24, 20), (20, 5), (12, 60), (0, 3)]), bmR 3 3 0 [(16, 1)] 100000 0, bmR 4 2 0 [] 1000000 0, byR 3 0 0 [] (-1000) 1000]
def s7_1 : State := let s := run r7
  { s with now := 3000000, fb := (rsl s).fb.map fun f => { f with spstat := 0, angle := 12345, speed := 256, tstamp := 90000, uncertain := false }
           beamsCs := s.beamsCs.map fun m => { m with stale := false, a := { m.a with speed := 300 } } }
def s7_2 : State := run r7
theorem test_meets_BeamsFollowTheirSources (h : Obligations.BeamsFollowTheirSources) :
    (∃ P, Runs (.beamSourceUpdate 0) (s7_1) P)
      ∧ (∃ P, Runs (.beamSourceUpdate 0) (s7_2) P)
      ∧ (∃ P, Runs (.beamSourceUpdate 1) (s7_1) P)
      ∧ (∃ P, Runs (.beamSourceUpdate 2) (s7_1) P)
      ∧ (∃ P, Runs (.beamSourceUpdate 3) (s7_1) P)
      ∧ (∃ P, Runs (.beamReanchor 3) (s7_1) P)
      ∧ (∃ P, Runs (.beamReanchor 4) (s7_1) P)
      ∧ (∃ P, Runs (.beamReanchor 0) (s7_1) P)
      ∧ (∃ P, Runs (.beamStaleTimeout 0) (s7_1) P)
      ∧ (∃ P, Runs (.beamStaleTimeout 2) (s7_1) P) :=
  ⟨⟨_, (h 0 s7_1 (invBy (by decide +kernel)) (by decide +kernel) (by decide +kernel)).1 (by decide +kernel) (by decide +kernel)⟩,
    ⟨_, (h 0 s7_2 (invBy (by decide +kernel)) (by decide +kernel) (by decide +kernel)).1 (by decide +kernel) (by decide +kernel)⟩,
    ⟨_, (h 1 s7_1 (invBy (by decide +kernel)) (by decide +kernel) (by decide +kernel)).1 (by decide +kernel) (by decide +kernel)⟩,
    ⟨_, (h 2 s7_1 (invBy (by decide +kernel)) (by decide +kernel) (by decide +kernel)).2.1 (by decide +kernel)⟩,
    ⟨_, (h 3 s7_1 (invBy (by decide +kernel)) (by decide +kernel) (by decide +kernel)).2.1 (by decide +kernel)⟩,
    ⟨_, (h 3 s7_1 (invBy (by decide +kernel)) (by decide +kernel) (by decide +kernel)).2.2.1 (by decide +kernel) (by decide +kernel)⟩,
    ⟨_, (h 4 s7_1 (invBy (by decide +kernel)) (by decide +kernel) (by decide +kernel)).2.2.1 (by decide +kernel) (by decide +kernel)⟩,
    ⟨_, (h 0 s7_1 (invBy (by decide +kernel)) (by decide +kernel) (by decide +kernel)).2.2.2.1 (by decide +kernel) (by decide +kernel) (by decide +kernel)⟩,
    ⟨_, (h 0 s7_1 (invBy (by decide +kernel)) (by decide +kernel) (by decide +kernel)).2.2.2.2 (by decide +kernel) (by decide +kernel)⟩,
    ⟨_, (h 2 s7_1 (invBy (by decide +kernel)) (by decide +kernel) (by decide +kernel)).2.2.2.2 (by decide +kernel) (by decide +kernel)⟩⟩

theorem test_meets_MainsLoopHoldsItsBandAndReadsLatch (h : Obligations.MainsLoopHoldsItsBandAndReadsLatch) :
    (∃ P, Runs (.mainsPllUpdate) (s7_1) P)
      ∧ (∃ P, Runs (.bmphaseRead Die.cs 0) (s7_1) P)
      ∧ (∃ P, Runs (.bmphaseRead Die.ds 3) (s7_1) P)
      ∧ (∃ P, Runs (.bmphaseRead Die.cs 7) (s7_1) P) :=
  ⟨⟨_, h.1 2 s7_1 (by decide +kernel) (by decide +kernel)⟩,
    ⟨_, h.2 .cs 0 s7_1 (invBy (by decide +kernel)) (readBy (by decide +kernel))⟩,
    ⟨_, h.2 .ds 3 s7_1 (invBy (by decide +kernel)) (readBy (by decide +kernel))⟩,
    ⟨_, h.2 .cs 7 s7_1 (invBy (by decide +kernel)) (readBy (by decide +kernel))⟩⟩

/-- A PAIR record and running pairs. -/
def rs8 : List Rec := [byR 1 3 0 [(24, 0)] (-1000) 1000, byR 2 0 0 [] (-1000) 5000, ⟨sENGINE, 1, [W [(24, 0), (16, 0), (0, 0)], 0]⟩,
  ⟨sROUTE, 1, [W [(16, 0), (8, 0)], 2]⟩]
def d8 : Entry := mkE 0 0 0 0 0 0 0
def en8 (op fn a b c : Nat) : State :=
  let s := lane (run rs8) .ds 1 [d8, mkE 2 20 op fn a b c, d8]
  { s with pairDs := upd s.pairDs 0 fun p => { p with mode := 1, apart := true } }
def s8_w : State := let s := lane (run rs8) .ds 1 [d8, mkE 2 20 12 0 0 0 0]
  { s with lhDs := { s.lhDs with infl := [⟨7, 0, 0, 0, [d8.w0, W [(16, 1)], W [(0, 1)], d8.w3], 99980, some 99980, some 100016, []⟩], seqn := 8 } }
def s8_b : State := let s := lane (run rs8) .ds 1 [d8, { d8 with w0 := 20, w1 := W [(30, 2)] }]; s
theorem test_meets_EntriesIssueAtTheirTrigger (h : Obligations.EntriesIssueAtTheirTrigger) :
    (∃ P, Runs ((.nop Die.ds 0, 0, 0).1) (en8 0 0 0 0 0) P)
      ∧ (∃ P, Runs ((.sample Die.ds 0 [5, 6], 1, 0).1) (en8 1 0 3 0 0) P)
      ∧ (∃ P, Runs ((.read Die.ds 0, 2, 0).1) (en8 2 0 0 0 0) P)
      ∧ (∃ P, Runs ((.move Die.ds 0, 3, 0).1) (en8 3 0 12288 1 0) P)
      ∧ (∃ P, Runs ((.run Die.ds 0, 4, 0).1) (en8 4 0 0 0 0) P)
      ∧ (∃ P, Runs ((.run Die.ds 0, 4, 0).1) (en8 4 0 2 0 0) P)
      ∧ (∃ P, Runs ((.load Die.ds 0, 5, 0).1) (en8 5 0 0 1 0) P)
      ∧ (∃ P, Runs ((.write Die.ds 0, 6, 0).1) (en8 6 0 0 12290 0) P)
      ∧ (∃ P, Runs ((.blendRamp Die.ds 0, 7, 0).1) (en8 7 0 12288 1 12290) P)
      ∧ (∃ P, Runs ((.blendMix Die.ds 0, 7, 1).1) (en8 7 1 12288 1 12290) P)
      ∧ (∃ P, Runs ((.limitRange Die.ds 0, 8, 0).1) (en8 8 0 12288 1 12290) P)
      ∧ (∃ P, Runs ((.limitSym Die.ds 0, 8, 1).1) (en8 8 1 12288 1 12290) P)
      ∧ (∃ P, Runs ((.commit Die.ds 0, 9, 0).1) (en8 9 0 0 1 0) P)
      ∧ (∃ P, Runs ((.scan Die.ds 0, 10, 0).1) (en8 10 0 0 0 0) P)
      ∧ (∃ P, Runs ((.snap Die.ds 0, 11, 0).1) (en8 11 0 1 0 0) P)
      ∧ (∃ P, Runs ((.fenceAll Die.ds 0, 12, 0).1) (en8 12 0 0 0 0) P)
      ∧ (∃ P, Runs ((.fenceData Die.ds 0, 12, 1).1) (en8 12 1 0 0 0) P)
      ∧ (∃ P, Runs ((.fenceOut Die.ds 0, 12, 2).1) (en8 12 2 0 0 0) P)
      ∧ (∃ P, Runs ((.mark Die.ds 0, 13, 0).1) (en8 13 0 9 0 0) P)
      ∧ (∃ P, Runs ((.signalKeeper Die.ds 0, 14, 0).1) (en8 14 0 9 0 0) P)
      ∧ (∃ P, Runs ((.signalWatchRoom Die.ds 0, 14, 1).1) (en8 14 1 9 0 0) P)
      ∧ (∃ P, Runs ((.fenceAll Die.ds 0, 12, 0).1) (s8_w) P)
      ∧ (∃ P, Runs ((.nop Die.ds 0, 0, 0).1) (s8_b) P) :=
  ⟨⟨_, h .ds 0 [] 100010 (en8 0 0 0 0 0) (invBy (by decide +kernel)) (.nop .ds 0, 0, 0) (by decide +kernel) (by decide +kernel) (by decide +kernel) (by decide +kernel) (by decide +kernel) (by decide +kernel) (by decide +kernel) (by decide +kernel) (by decide +kernel) (by decide +kernel) (by decide +kernel) (by decide +kernel)⟩,
    ⟨_, h .ds 0 [5,6] 100010 (en8 1 0 3 0 0) (invBy (by decide +kernel)) (.sample .ds 0 [5,6], 1, 0) (by decide +kernel) (by decide +kernel) (by decide +kernel) (by decide +kernel) (by decide +kernel) (by decide +kernel) (by decide +kernel) (by decide +kernel) (by decide +kernel) (by decide +kernel) (by decide +kernel) (by decide +kernel)⟩,
    ⟨_, h .ds 0 [] 100010 (en8 2 0 0 0 0) (invBy (by decide +kernel)) (.read .ds 0, 2, 0) (by decide +kernel) (by decide +kernel) (by decide +kernel) (by decide +kernel) (by decide +kernel) (by decide +kernel) (by decide +kernel) (by decide +kernel) (by decide +kernel) (by decide +kernel) (by decide +kernel) (by decide +kernel)⟩,
    ⟨_, h .ds 0 [] 100010 (en8 3 0 0x3000 0x0001 0) (invBy (by decide +kernel)) (.move .ds 0, 3, 0) (by decide +kernel) (by decide +kernel) (by decide +kernel) (by decide +kernel) (by decide +kernel) (by decide +kernel) (by decide +kernel) (by decide +kernel) (by decide +kernel) (by decide +kernel) (by decide +kernel) (by decide +kernel)⟩,
    ⟨_, h .ds 0 [] 100010 (en8 4 0 0 0 0) (invBy (by decide +kernel)) (.run .ds 0, 4, 0) (by decide +kernel) (by decide +kernel) (by decide +kernel) (by decide +kernel) (by decide +kernel) (by decide +kernel) (by decide +kernel) (by decide +kernel) (by decide +kernel) (by decide +kernel) (by decide +kernel) (by decide +kernel)⟩,
    ⟨_, h .ds 0 [] 100010 (en8 4 0 2 0 0) (invBy (by decide +kernel)) (.run .ds 0, 4, 0) (by decide +kernel) (by decide +kernel) (by decide +kernel) (by decide +kernel) (by decide +kernel) (by decide +kernel) (by decide +kernel) (by decide +kernel) (by decide +kernel) (by decide +kernel) (by decide +kernel) (by decide +kernel)⟩,
    ⟨_, h .ds 0 [] 100010 (en8 5 0 0 1 0) (invBy (by decide +kernel)) (.load .ds 0, 5, 0) (by decide +kernel) (by decide +kernel) (by decide +kernel) (by decide +kernel) (by decide +kernel) (by decide +kernel) (by decide +kernel) (by decide +kernel) (by decide +kernel) (by decide +kernel) (by decide +kernel) (by decide +kernel)⟩,
    ⟨_, h .ds 0 [] 100010 (en8 6 0 0 0x3002 0) (invBy (by decide +kernel)) (.write .ds 0, 6, 0) (by decide +kernel) (by decide +kernel) (by decide +kernel) (by decide +kernel) (by decide +kernel) (by decide +kernel) (by decide +kernel) (by decide +kernel) (by decide +kernel) (by decide +kernel) (by decide +kernel) (by decide +kernel)⟩,
    ⟨_, h .ds 0 [] 100010 (en8 7 0 0x3000 0x0001 0x3002) (invBy (by decide +kernel)) (.blendRamp .ds 0, 7, 0) (by decide +kernel) (by decide +kernel) (by decide +kernel) (by decide +kernel) (by decide +kernel) (by decide +kernel) (by decide +kernel) (by decide +kernel) (by decide +kernel) (by decide +kernel) (by decide +kernel) (by decide +kernel)⟩,
    ⟨_, h .ds 0 [] 100010 (en8 7 1 0x3000 0x0001 0x3002) (invBy (by decide +kernel)) (.blendMix .ds 0, 7, 1) (by decide +kernel) (by decide +kernel) (by decide +kernel) (by decide +kernel) (by decide +kernel) (by decide +kernel) (by decide +kernel) (by decide +kernel) (by decide +kernel) (by decide +kernel) (by decide +kernel) (by decide +kernel)⟩,
    ⟨_, h .ds 0 [] 100010 (en8 8 0 0x3000 0x0001 0x3002) (invBy (by decide +kernel)) (.limitRange .ds 0, 8, 0) (by decide +kernel) (by decide +kernel) (by decide +kernel) (by decide +kernel) (by decide +kernel) (by decide +kernel) (by decide +kernel) (by decide +kernel) (by decide +kernel) (by decide +kernel) (by decide +kernel) (by decide +kernel)⟩,
    ⟨_, h .ds 0 [] 100010 (en8 8 1 0x3000 0x0001 0x3002) (invBy (by decide +kernel)) (.limitSym .ds 0, 8, 1) (by decide +kernel) (by decide +kernel) (by decide +kernel) (by decide +kernel) (by decide +kernel) (by decide +kernel) (by decide +kernel) (by decide +kernel) (by decide +kernel) (by decide +kernel) (by decide +kernel) (by decide +kernel)⟩,
    ⟨_, h .ds 0 [] 100010 (en8 9 0 0 1 0) (invBy (by decide +kernel)) (.commit .ds 0, 9, 0) (by decide +kernel) (by decide +kernel) (by decide +kernel) (by decide +kernel) (by decide +kernel) (by decide +kernel) (by decide +kernel) (by decide +kernel) (by decide +kernel) (by decide +kernel) (by decide +kernel) (by decide +kernel)⟩,
    ⟨_, h .ds 0 [] 100010 (en8 10 0 0 0 0) (invBy (by decide +kernel)) (.scan .ds 0, 10, 0) (by decide +kernel) (by decide +kernel) (by decide +kernel) (by decide +kernel) (by decide +kernel) (by decide +kernel) (by decide +kernel) (by decide +kernel) (by decide +kernel) (by decide +kernel) (by decide +kernel) (by decide +kernel)⟩,
    ⟨_, h .ds 0 [] 100010 (en8 11 0 1 0 0) (invBy (by decide +kernel)) (.snap .ds 0, 11, 0) (by decide +kernel) (by decide +kernel) (by decide +kernel) (by decide +kernel) (by decide +kernel) (by decide +kernel) (by decide +kernel) (by decide +kernel) (by decide +kernel) (by decide +kernel) (by decide +kernel) (by decide +kernel)⟩,
    ⟨_, h .ds 0 [] 100010 (en8 12 0 0 0 0) (invBy (by decide +kernel)) (.fenceAll .ds 0, 12, 0) (by decide +kernel) (by decide +kernel) (by decide +kernel) (by decide +kernel) (by decide +kernel) (by decide +kernel) (by decide +kernel) (by decide +kernel) (by decide +kernel) (by decide +kernel) (by decide +kernel) (by decide +kernel)⟩,
    ⟨_, h .ds 0 [] 100010 (en8 12 1 0 0 0) (invBy (by decide +kernel)) (.fenceData .ds 0, 12, 1) (by decide +kernel) (by decide +kernel) (by decide +kernel) (by decide +kernel) (by decide +kernel) (by decide +kernel) (by decide +kernel) (by decide +kernel) (by decide +kernel) (by decide +kernel) (by decide +kernel) (by decide +kernel)⟩,
    ⟨_, h .ds 0 [] 100010 (en8 12 2 0 0 0) (invBy (by decide +kernel)) (.fenceOut .ds 0, 12, 2) (by decide +kernel) (by decide +kernel) (by decide +kernel) (by decide +kernel) (by decide +kernel) (by decide +kernel) (by decide +kernel) (by decide +kernel) (by decide +kernel) (by decide +kernel) (by decide +kernel) (by decide +kernel)⟩,
    ⟨_, h .ds 0 [] 100010 (en8 13 0 9 0 0) (invBy (by decide +kernel)) (.mark .ds 0, 13, 0) (by decide +kernel) (by decide +kernel) (by decide +kernel) (by decide +kernel) (by decide +kernel) (by decide +kernel) (by decide +kernel) (by decide +kernel) (by decide +kernel) (by decide +kernel) (by decide +kernel) (by decide +kernel)⟩,
    ⟨_, h .ds 0 [] 100010 (en8 14 0 9 0 0) (invBy (by decide +kernel)) (.signalKeeper .ds 0, 14, 0) (by decide +kernel) (by decide +kernel) (by decide +kernel) (by decide +kernel) (by decide +kernel) (by decide +kernel) (by decide +kernel) (by decide +kernel) (by decide +kernel) (by decide +kernel) (by decide +kernel) (by decide +kernel)⟩,
    ⟨_, h .ds 0 [] 100010 (en8 14 1 9 0 0) (invBy (by decide +kernel)) (.signalWatchRoom .ds 0, 14, 1) (by decide +kernel) (by decide +kernel) (by decide +kernel) (by decide +kernel) (by decide +kernel) (by decide +kernel) (by decide +kernel) (by decide +kernel) (by decide +kernel) (by decide +kernel) (by decide +kernel) (by decide +kernel)⟩,
    ⟨_, h .ds 0 [] 100010 s8_w (invBy (by decide +kernel)) (.fenceAll .ds 0, 12, 0) (by decide +kernel) (by decide +kernel) (by decide +kernel) (by decide +kernel) (by decide +kernel) (by decide +kernel) (by decide +kernel) (by decide +kernel) (by decide +kernel) (by decide +kernel) (by decide +kernel) (by decide +kernel)⟩,
    ⟨_, h .ds 0 [] 100010 s8_b (invBy (by decide +kernel)) (.nop .ds 0, 0, 0) (by decide +kernel) (by decide +kernel) (by decide +kernel) (by decide +kernel) (by decide +kernel) (by decide +kernel) (by decide +kernel) (by decide +kernel) (by decide +kernel) (by decide +kernel) (by decide +kernel) (by decide +kernel)⟩⟩

def s8_l (s : State) : State := { s with now := 100200 }
theorem test_meets_LateEntriesCountAsOverruns (h : Obligations.LateEntriesCountAsOverruns) :
    (∃ P, Runs ((.nop Die.ds 0, 0, 0).1) (s8_l (en8 0 0 0 0 0)) P)
      ∧ (∃ P, Runs ((.run Die.ds 0, 4, 0).1) (s8_l (en8 4 0 0 0 0)) P)
      ∧ (∃ P, Runs ((.fenceAll Die.ds 0, 12, 0).1) (s8_l (en8 12 0 0 0 0)) P) :=
  ⟨⟨_, h .ds 0 100010 (s8_l (en8 0 0 0 0 0)) (invBy (by decide +kernel)) (.nop .ds 0, 0, 0) (by decide +kernel) (by decide +kernel) (by decide +kernel) (by decide +kernel) (by decide +kernel) (by decide +kernel) (by decide +kernel) (by decide +kernel) (by decide +kernel) (by decide +kernel) (by decide +kernel) (by decide +kernel)⟩,
    ⟨_, h .ds 0 100010 (s8_l (en8 4 0 0 0 0)) (invBy (by decide +kernel)) (.run .ds 0, 4, 0) (by decide +kernel) (by decide +kernel) (by decide +kernel) (by decide +kernel) (by decide +kernel) (by decide +kernel) (by decide +kernel) (by decide +kernel) (by decide +kernel) (by decide +kernel) (by decide +kernel) (by decide +kernel)⟩,
    ⟨_, h .ds 0 100010 (s8_l (en8 12 0 0 0 0)) (invBy (by decide +kernel)) (.fenceAll .ds 0, 12, 0) (by decide +kernel) (by decide +kernel) (by decide +kernel) (by decide +kernel) (by decide +kernel) (by decide +kernel) (by decide +kernel) (by decide +kernel) (by decide +kernel) (by decide +kernel) (by decide +kernel) (by decide +kernel)⟩⟩

def rs8b : List Rec := [byR 1 3 0 [(24, 0)] (-1000) 1000, byR 2 0 0 [] (-1000) 5000, ⟨sENGINE, 1, [W [(24, 0), (16, 0), (0, 0)], 0]⟩,
  ⟨sROUTE, 1, [W [(16, 0), (8, 0)], 2]⟩, ⟨sPOWER, 1, [W [(16, 0)], W [(28, 0)], 0, 0, 0, 0]⟩, ⟨sPOWER, 2, [W [(24, 0), (16, 0)], 0, 0, 0]⟩,
  ⟨sNET, 0x11, [W [(16, 8), (8, 2)], 0x30000000, 8, 0, W [(16, 5)]]⟩]
def fl (acc ret : Option Nat) (e : Entry) (vals : List Int) : InFl := ⟨7, 0, 0, 1, [e.w0, e.w1, e.w2, e.w3], 99990, acc, ret, vals⟩
def fl0 (d : Die) (x : InFl) : State :=
  let s := lane (run rs8b) d 1 [d8, d8, d8]
  let s := { s with pairDs := upd s.pairDs 0 fun p => { p with mode := 1, apart := true } }
  s.setLh d { s.lh d with infl := [x], seqn := 8 }
def r8 (e : Entry) (vals : List Int) : State := fl0 .ds (fl (some 99995) (some 100020) e vals)
def x8 (op fn a b c : Nat) (v : List Int) : InFl := fl (some 99995) (some 100020) (mkE 1 0 op fn a b c) v
theorem test_meets_EntriesAreAcceptedAndRetire (h : Obligations.EntriesAreAcceptedAndRetire) :
    (∃ P, Runs (.entryAccept Die.ds [5, 6]) (fl0 Die.ds (fl Option.none Option.none (mkE 1 0 1 0 3 0 0) [])) P)
      ∧ (∃ P, Runs (.entryAccept Die.ds [5, 6]) (fl0 Die.ds (fl Option.none Option.none (mkE 1 0 4 0 1 0 0) [])) P)
      ∧ (∃ P, Runs (.entryAccept Die.ds []) (fl0 Die.ds (fl Option.none Option.none (mkE 1 0 0 0 1 0 0) [])) P)
      ∧ (∃ P, Runs (.entryRetire Die.cs Option.none) (fl0 Die.ds (fl Option.none Option.none (mkE 1 0 0 0 1 0 0) [])) P)
      ∧ (∃ P, Runs (.entryRetire Die.ds Option.none) (fl0 Die.ds (x8 1 0 3 0 0 [77, 88, 0, 0, 0, 0, 0, 0])) P)
      ∧ (∃ P, Runs (.entryRetire Die.ds Option.none) (fl0 Die.ds (x8 2 0 0 0 0 [2500, 99000])) P)
      ∧ (∃ P, Runs (.entryRetire Die.ds Option.none) (fl0 Die.ds (x8 3 0 12289 0 0 [25, 4, 0])) P)
      ∧ (∃ P, Runs (.entryRetire Die.ds Option.none) (fl0 Die.ds (x8 6 0 0 12289 0 [25, 1, 0])) P)
      ∧ (∃ P, Runs (.entryRetire Die.ds Option.none) (fl0 Die.ds (x8 4 0 0 0 0 [25, 4, 0])) P)
      ∧ (∃ P, Runs (.entryRetire Die.ds Option.none) (fl0 Die.ds (x8 5 0 1 1 0 (List.map Int.ofNat (List.range 32)))) P)
      ∧ (∃ P, Runs (.entryRetire Die.ds Option.none) (fl0 Die.ds (x8 7 0 12290 0 0 [1, 3, 0])) P)
      ∧ (∃ P, Runs (.entryRetire Die.ds Option.none) (fl0 Die.ds (x8 8 1 12290 0 0 [1, 3, 0])) P)
      ∧ (∃ P, Runs (.entryRetire Die.ds Option.none) (fl0 Die.ds (x8 9 0 0 1 0 [])) P)
      ∧ (∃ P, Runs (.entryRetire Die.ds Option.none) (fl0 Die.ds (x8 10 0 0 0 0 [])) P)
      ∧ (∃ P, Runs (.entryRetire Die.ds Option.none) (fl0 Die.ds (x8 11 0 1 0 0 [])) P)
      ∧ (∃ P, Runs (.entryRetire Die.ds Option.none) (fl0 Die.ds (x8 12 0 0 0 0 [])) P)
      ∧ (∃ P, Runs (.entryRetire Die.ds Option.none) (fl0 Die.ds (x8 13 0 9 0 0 [])) P)
      ∧ (∃ P, Runs (.entryRetire Die.ds Option.none) (fl0 Die.ds (x8 14 0 9 0 0 [])) P)
      ∧ (∃ P, Runs (.entryRetire Die.ds Option.none) (fl0 Die.ds (x8 14 1 9 0 0 [])) P) :=
  ⟨⟨_, ((h .ds (fl0 .ds (fl none none (mkE 1 0 1 0 3 0 0) [])) (invBy (by decide +kernel))).1 [5, 6]).2 100000 (fl none none (mkE 1 0 1 0 3 0 0) []) (by decide +kernel)⟩,
    ⟨_, ((h .ds (fl0 .ds (fl none none (mkE 1 0 4 0 1 0 0) [])) (invBy (by decide +kernel))).1 [5, 6]).2 100000 (fl none none (mkE 1 0 4 0 1 0 0) []) (by decide +kernel)⟩,
    ⟨_, ((h .ds (fl0 .ds (fl none none (mkE 1 0 0 0 1 0 0) [])) (invBy (by decide +kernel))).1 []).1 (by decide +kernel)⟩,
    ⟨_, ((h .cs (fl0 .ds (fl none none (mkE 1 0 0 0 1 0 0) [])) (invBy (by decide +kernel))).2 none).1 (by decide +kernel)⟩,
    ⟨_, ((h .ds (fl0 .ds (x8 1 0 3 0 0 [77, 88, 0, 0, 0, 0, 0, 0])) (invBy (by decide +kernel))).2 none).2 (x8 1 0 3 0 0 [77, 88, 0, 0, 0, 0, 0, 0]) (by decide +kernel)⟩,
    ⟨_, ((h .ds (fl0 .ds (x8 2 0 0 0 0 [2500, 99000])) (invBy (by decide +kernel))).2 none).2 (x8 2 0 0 0 0 [2500, 99000]) (by decide +kernel)⟩,
    ⟨_, ((h .ds (fl0 .ds (x8 3 0 0x3001 0 0 [25, 4, 0])) (invBy (by decide +kernel))).2 none).2 (x8 3 0 0x3001 0 0 [25, 4, 0]) (by decide +kernel)⟩,
    ⟨_, ((h .ds (fl0 .ds (x8 6 0 0 0x3001 0 [25, 1, 0])) (invBy (by decide +kernel))).2 none).2 (x8 6 0 0 0x3001 0 [25, 1, 0]) (by decide +kernel)⟩,
    ⟨_, ((h .ds (fl0 .ds (x8 4 0 0 0 0 [25, 4, 0])) (invBy (by decide +kernel))).2 none).2 (x8 4 0 0 0 0 [25, 4, 0]) (by decide +kernel)⟩,
    ⟨_, ((h .ds (fl0 .ds (x8 5 0 1 1 0 ((List.range 32).map Int.ofNat))) (invBy (by decide +kernel))).2 none).2 (x8 5 0 1 1 0 ((List.range 32).map Int.ofNat)) (by decide +kernel)⟩,
    ⟨_, ((h .ds (fl0 .ds (x8 7 0 0x3002 0 0 [1, 3, 0])) (invBy (by decide +kernel))).2 none).2 (x8 7 0 0x3002 0 0 [1, 3, 0]) (by decide +kernel)⟩,
    ⟨_, ((h .ds (fl0 .ds (x8 8 1 0x3002 0 0 [1, 3, 0])) (invBy (by decide +kernel))).2 none).2 (x8 8 1 0x3002 0 0 [1, 3, 0]) (by decide +kernel)⟩,
    ⟨_, ((h .ds (fl0 .ds (x8 9 0 0 1 0 [])) (invBy (by decide +kernel))).2 none).2 (x8 9 0 0 1 0 []) (by decide +kernel)⟩,
    ⟨_, ((h .ds (fl0 .ds (x8 10 0 0 0 0 [])) (invBy (by decide +kernel))).2 none).2 (x8 10 0 0 0 0 []) (by decide +kernel)⟩,
    ⟨_, ((h .ds (fl0 .ds (x8 11 0 1 0 0 [])) (invBy (by decide +kernel))).2 none).2 (x8 11 0 1 0 0 []) (by decide +kernel)⟩,
    ⟨_, ((h .ds (fl0 .ds (x8 12 0 0 0 0 [])) (invBy (by decide +kernel))).2 none).2 (x8 12 0 0 0 0 []) (by decide +kernel)⟩,
    ⟨_, ((h .ds (fl0 .ds (x8 13 0 9 0 0 [])) (invBy (by decide +kernel))).2 none).2 (x8 13 0 9 0 0 []) (by decide +kernel)⟩,
    ⟨_, ((h .ds (fl0 .ds (x8 14 0 9 0 0 [])) (invBy (by decide +kernel))).2 none).2 (x8 14 0 9 0 0 []) (by decide +kernel)⟩,
    ⟨_, ((h .ds (fl0 .ds (x8 14 1 9 0 0 [])) (invBy (by decide +kernel))).2 none).2 (x8 14 1 9 0 0 []) (by decide +kernel)⟩⟩

def s8_p : State := { run rs8b with t0 := some 120000, sys := { (run rs8b).sys with ready := false, halt := false } }
theorem test_meets_EnginesStartClearedAtPageZero (h : Obligations.EnginesStartClearedAtPageZero) :
    (∃ P, Runs (.page0Start) (s8_p) P) :=
  ⟨_, h 120000 s8_p (by decide +kernel) (by decide +kernel) (by decide +kernel) (by decide +kernel) (by decide +kernel)⟩

def frBeam : Rec := ⟨sBEAM, 1, [W [(28, 3), (16, 1), (8, 1), (0, 0)], 0, 0, 0, W [(16, 10), (0, 3)], 100000, 0]⟩
def pg (n : Nat) : Rec := ⟨sPAGETAB, 1, [W [(24, 0), (0, n)], W [(16, 16 * n)]]⟩
def prR (m : Nat) : Rec := ⟨sENGINE, 1, [W [(24, 0), (16, m), (0, 0)], 0]⟩
def s9_1 : State := let s := lane (run [frBeam, pg 1, pg 2, prR 0, prR 1]) .ds 0 [mkE 0 0 0 0 0 0 0]
  { s with img := { s.img with pages := s.img.pages ++ [⟨.ds, 0, 1, W [(16, 1)], W [(0, 100)], 0⟩, ⟨.ds, 0, 2, W [(16, 1), (1, 1)], W [(0, 100)], 3⟩] }
           pairDs := s.pairDs.map fun p => { p with mode := 1, apart := true }
           beamsDs := s.beamsDs.map fun m => { m with stale := false, a := { m.a with speed := 256000 } } }
def s9_2 : State := s9_1.modLane .ds 0 fun x => { x with held := some ⟨1, 1, 99000, some 100500⟩ }
def s9_3 : State := s9_1.modLane .ds 0 fun x => { x with held := some ⟨3, 1, 99000, some 100500⟩ }
def p9_v1 : State := { s9_2 with now := 100500 }
def s9_4 : State := s9_1.modLane .ds 0 fun x => { x with drain := true, drainPairs := 3, drainAt := 100200 }
def s9_5 : State := s9_1.modLane .ds 0 fun x => { x with drain := true, drainPairs := 3, drainMerge := true, drainAt := 100200 }
theorem test_meets_PagesSwapAtTheirCrossing (h : Obligations.PagesSwapAtTheirCrossing) :
    (∃ P, Runs (.lhSwapRequest Die.ds 0 1) (s9_1) P)
      ∧ (∃ P, Runs (.lhSwapRequest Die.ds 0 0) (s9_1) P)
      ∧ (∃ P, Runs (.lhSwapRequest Die.ds 0 5) (s9_1) P)
      ∧ (∃ P, Runs (.lhSwapRequest Die.ds 0 1) (s9_3) P)
      ∧ (∃ P, Runs (.lhSwapCancel Die.ds 0) (s9_2) P)
      ∧ (∃ P, Runs (.lhSwapCancel Die.ds 0) (p9_v1) P)
      ∧ (∃ P, Runs (.lhSwapCancel Die.ds 0) (s9_1) P)
      ∧ (∃ P, Runs (.pageSwap Die.ds 0) (s9_2) P)
      ∧ (∃ P, Runs (.drainComplete Die.ds 0) (s9_4) P)
      ∧ (∃ P, Runs (.drainComplete Die.ds 0) (s9_5) P) :=
  ⟨⟨_, (h .ds 0 s9_1 (invBy (by decide +kernel)) (by decide +kernel)).1 1 (writeBy (by decide +kernel))⟩,
    ⟨_, (h .ds 0 s9_1 (invBy (by decide +kernel)) (by decide +kernel)).1 0 (writeBy (by decide +kernel))⟩,
    ⟨_, (h .ds 0 s9_1 (invBy (by decide +kernel)) (by decide +kernel)).1 5 (writeBy (by decide +kernel))⟩,
    ⟨_, (h .ds 0 s9_3 (invBy (by decide +kernel)) (by decide +kernel)).1 1 (writeBy (by decide +kernel))⟩,
    ⟨_, (h .ds 0 s9_2 (invBy (by decide +kernel)) (by decide +kernel)).2.1 (writeBy (by decide +kernel))⟩,
    ⟨_, (h .ds 0 p9_v1 (invBy (by decide +kernel)) (by decide +kernel)).2.1 (writeBy (by decide +kernel))⟩,
    ⟨_, (h .ds 0 s9_1 (invBy (by decide +kernel)) (by decide +kernel)).2.1 (writeBy (by decide +kernel))⟩,
    ⟨_, (h .ds 0 s9_2 (invBy (by decide +kernel)) (by decide +kernel)).2.2.1 ⟨1, 1, 99000, some 100500⟩ 100500 (by decide +kernel) (by decide +kernel) (by decide +kernel) (by decide +kernel) (by decide +kernel)⟩,
    ⟨_, (h .ds 0 s9_4 (invBy (by decide +kernel)) (by decide +kernel)).2.2.2 (by decide +kernel) (by decide +kernel)⟩,
    ⟨_, (h .ds 0 s9_5 (invBy (by decide +kernel)) (by decide +kernel)).2.2.2 (by decide +kernel) (by decide +kernel)⟩⟩

def s9_6 : State := let s := s9_1.modLane .ds 0 fun x => { x with merging := true, drainPairs := 3, mergeAt := 100200 }
  { s with pairDs := s.pairDs.map fun p => { p with mode := 2 }
           engDs := upd s.engDs 0 fun x => { x with latch := 7, st := List.replicate 22 5, runCnt := 9 } }
def s9_7 : State := { s9_6 with pairDs := s9_6.pairDs.map fun p => { p with haltO := true, dbg := 2 } }
def s9_8 : State := { s9_1 with pairDs := upd s9_1.pairDs 1 fun p => { p with mode := 0, restoring := true, restoreAt := 100900 } }
def s9_9 : State := { s9_8 with engDs := upd s9_8.engDs 2 fun x => { x with st := List.replicate 22 5 } }
def s9_10 : State := { s9_1 with pairDs := upd (upd s9_1.pairDs 1 fun p => { p with mode := 0, apart := false, dbg := 1 }) 0 fun p => { p with dbg := 2 } }
def s9_11 : State := { s9_1 with lhDs := { s9_1.lhDs with trace := [5#64, 0x700000006#64], trcHi := 4 } }
theorem test_meets_PairsMergeRestoreAndHalt (h : Obligations.PairsMergeRestoreAndHalt) :
    (∃ P, Runs (.mergeCopyComplete Die.ds 0 0 Option.none) (s9_6) P)
      ∧ (∃ P, Runs (.mergeCopyComplete Die.ds 0 0 Option.none) (s9_7) P)
      ∧ (∃ P, Runs (.restoreComplete Die.ds 1 Option.none) (s9_8) P)
      ∧ (∃ P, Runs (.restoreComplete Die.ds 1 Option.none) (s9_9) P)
      ∧ (∃ P, Runs (.lePdbgWrite Die.ds 1 3) (s9_8) P)
      ∧ (∃ P, Runs (.engineHalt Die.ds 2) (s9_10) P)
      ∧ (∃ P, Runs (.engineHalt Die.ds 1) (s9_10) P)
      ∧ (∃ P, Runs (.traceReadLow Die.ds) (s9_11) P)
      ∧ (∃ P, Runs (.traceReadLow Die.ds) (s9_1) P)
      ∧ (∃ P, Runs (.traceReadHigh Die.ds) (s9_11) P) :=
  ⟨⟨_, h.1 .ds 0 0 s9_6 (invBy (by decide +kernel)) (by decide +kernel) (by decide +kernel) (by decide +kernel) (by decide +kernel) (by decide +kernel)⟩,
    ⟨_, h.1 .ds 0 0 s9_7 (invBy (by decide +kernel)) (by decide +kernel) (by decide +kernel) (by decide +kernel) (by decide +kernel) (by decide +kernel)⟩,
    ⟨_, h.2.1 .ds 1 s9_8 (invBy (by decide +kernel)) (by decide +kernel) (by decide +kernel)⟩,
    ⟨_, h.2.1 .ds 1 s9_9 (invBy (by decide +kernel)) (by decide +kernel) (by decide +kernel)⟩,
    ⟨_, h.2.2.1 .ds 1 3 s9_8 (invBy (by decide +kernel)) (writeBy (by decide +kernel)) (by decide +kernel)⟩,
    ⟨_, h.2.2.2.1 .ds 2 s9_10 (invBy (by decide +kernel)) (by decide +kernel) (by decide +kernel) (by decide +kernel) (by decide +kernel) (by decide +kernel)⟩,
    ⟨_, h.2.2.2.1 .ds 1 s9_10 (invBy (by decide +kernel)) (by decide +kernel) (by decide +kernel) (by decide +kernel) (by decide +kernel) (by decide +kernel)⟩,
    ⟨_, (h.2.2.2.2 .ds s9_11 (readBy (by decide +kernel))).1⟩,
    ⟨_, (h.2.2.2.2 .ds s9_1 (readBy (by decide +kernel))).1⟩,
    ⟨_, (h.2.2.2.2 .ds s9_11 (readBy (by decide +kernel))).2⟩⟩

def rs10 : List Rec := [grpR .ds 0 0 [] 64000 64000 64000 0 0, grpR .ds 1 1 [] 64000 32000 80000 0 0,
  grpR .ds 2 2 [] 64000 32000 80000 (W [(24, 4), (16, 0), (0, 100)]) 0, grpR .ds 3 3 [] 64000 32000 80000 0 (W [(16, 0xACE1), (0, 50)]),
  ⟨sBEAM, 1, [W [(28, 3), (16, 1), (8, 1), (0, 0)], 0, 0, 0, W [(16, 10), (0, 3)], 15000, 0]⟩,
  chR .ds 0 0 1 0 0 0, chR .ds 1 0 3 1 0 0, chR .ds 2 0 2 0 1 100, chR .ds 3 1 1 0 2 0, chR .ds 4 1 3 1 0 0, chR .ds 5 2 1 0 0 0, chR .ds 6 3 1 2 0 0]
def s10_0 : State := paged rs10
def s10_1 : State := { s10_0 with pwmDs := { s10_0.pwmDs with
  chans := s10_0.pwmDs.chans.map fun x => { x with commit := true, commitAt := 110500, commitLast := 110500, dash := shw 30000 110200, dbsh := shw 20000 110200 } } }
def s10_2 : State := { s10_1 with pwmDs := { s10_1.pwmDs with grps := s10_1.pwmDs.grps.map fun x => { x with persh := shw 70000 110100 } } }
def ra (l : List Nat) (s : State) : List Nat := l.map fun k => (nth s.pwmDs.grps k).bAt
def s10_3 : State := { s10_0 with pwmDs := { s10_0.pwmDs with grps := upd s10_0.pwmDs.grps 2 fun x => { x with unlock := false, per := 60000 } } }
def s10_4 : State := { s10_3 with beamsDs := upd s10_3.beamsDs 0 fun m => { m with stale := true } }
def s10_5 : State := { s10_3 with beamsDs := upd s10_3.beamsDs 0 fun m => { m with a := { m.a with speed := 0, law := .line } } }
theorem test_meets_CarrierGroupsTurnAndTransfer (h : Obligations.CarrierGroupsTurnAndTransfer) :
    (∃ P, Runs (.carrierBoundary Die.ds 0) (s10_1) P)
      ∧ (∃ P, Runs (.carrierBoundary Die.ds 1) (s10_1) P)
      ∧ (∃ P, Runs (.carrierBoundary Die.ds 1) (s10_2) P)
      ∧ (∃ P, Runs (.carrierBoundary Die.ds 3) (s10_2) P)
      ∧ (∃ P, Runs (.carrierBoundary Die.ds 3) (s10_0) P)
      ∧ (∃ P, Runs (.carrierMidpoint Die.ds 0) (s10_1) P)
      ∧ (∃ P, Runs (.carrierMidpoint Die.ds 1) (s10_2) P)
      ∧ (∃ P, Runs (.carrierMidpoint Die.ds 2) (s10_2) P)
      ∧ (∃ P, Runs (.carrierUnlock Die.ds 2) (s10_3) P)
      ∧ (∃ P, Runs (.carrierUnlock Die.ds 2) (s10_4) P)
      ∧ (∃ P, Runs (.carrierUnlock Die.ds 2) (s10_5) P) :=
  ⟨⟨_, (h .ds 0 s10_1 (invBy (by decide +kernel)) (by decide +kernel) (by decide +kernel)).1 (by decide +kernel)⟩,
    ⟨_, (h .ds 1 s10_1 (invBy (by decide +kernel)) (by decide +kernel) (by decide +kernel)).1 (by decide +kernel)⟩,
    ⟨_, (h .ds 1 s10_2 (invBy (by decide +kernel)) (by decide +kernel) (by decide +kernel)).1 (by decide +kernel)⟩,
    ⟨_, (h .ds 3 s10_2 (invBy (by decide +kernel)) (by decide +kernel) (by decide +kernel)).1 (by decide +kernel)⟩,
    ⟨_, (h .ds 3 s10_0 (invBy (by decide +kernel)) (by decide +kernel) (by decide +kernel)).1 (by decide +kernel)⟩,
    ⟨_, (h .ds 0 s10_1 (invBy (by decide +kernel)) (by decide +kernel) (by decide +kernel)).2.1⟩,
    ⟨_, (h .ds 1 s10_2 (invBy (by decide +kernel)) (by decide +kernel) (by decide +kernel)).2.1⟩,
    ⟨_, (h .ds 2 s10_2 (invBy (by decide +kernel)) (by decide +kernel) (by decide +kernel)).2.1⟩,
    ⟨_, (h .ds 2 s10_3 (invBy (by decide +kernel)) (by decide +kernel) (by decide +kernel)).2.2 (by decide +kernel) (by decide +kernel)⟩,
    ⟨_, (h .ds 2 s10_4 (invBy (by decide +kernel)) (by decide +kernel) (by decide +kernel)).2.2 (by decide +kernel) (by decide +kernel)⟩,
    ⟨_, (h .ds 2 s10_5 (invBy (by decide +kernel)) (by decide +kernel) (by decide +kernel)).2.2 (by decide +kernel) (by decide +kernel)⟩⟩

def s10_1b : State := { s10_1 with pwmDs := { s10_1.pwmDs with chans := upd s10_1.pwmDs.chans 1 fun x => { x with dash := shw 50000 110200, dbsh := shw 50000 110200 } } }
def s10_6 : State := { s10_1 with pwmDs := { s10_1.pwmDs with chans := s10_1.pwmDs.chans.map fun x => { x with active := true, halves := [⟨1792000, true, 1760000, 64000⟩] } } }
def s10_8 : State := { s10_1 with pwmDs := { s10_1.pwmDs with chans := s10_1.pwmDs.chans.map fun x =>
  { x with active := true, shA := { x.shA with raw := true, lvl := true }, shB := { x.shB with raw := true, lvl := true } } } }
theorem test_meets_HalfPeriodsStartAndInterlockTurnsOff (h : Obligations.HalfPeriodsStartAndInterlockTurnsOff) :
    (∃ P, Runs (.channelHalfStart Die.ds 0 false) (s10_1) P)
      ∧ (∃ P, Runs (.channelHalfStart Die.ds 1 true) (s10_6) P)
      ∧ (∃ P, Runs (.channelHalfStart Die.ds 2 true) (s10_6) P)
      ∧ (∃ P, Runs (.intlk Die.ds 1) (s10_8) P) :=
  ⟨⟨_, (h .ds 0 s10_1 (invBy (by decide +kernel)) (by decide +kernel) (by decide +kernel)).1 ⟨1760000, false, 1760000, 64000⟩ (by decide +kernel)⟩,
    ⟨_, (h .ds 1 s10_6 (invBy (by decide +kernel)) (by decide +kernel) (by decide +kernel)).1 ⟨1792000, true, 1760000, 64000⟩ (by decide +kernel)⟩,
    ⟨_, (h .ds 2 s10_6 (invBy (by decide +kernel)) (by decide +kernel) (by decide +kernel)).1 ⟨1792000, true, 1760000, 64000⟩ (by decide +kernel)⟩,
    ⟨_, (h .ds 1 s10_8 (invBy (by decide +kernel)) (by decide +kernel) (by decide +kernel)).2 1760000 (by decide +kernel) (by decide +kernel)⟩⟩

def mk11 (mode : Nat) (s : State) : State :=
  { s with mach := upd s.mach 0 fun x => { x with mode := mode, inp := { x.inp with fillw := 50000, mode := wd mode, vd := 40960, vq := 409600, grade := 600, adv := 300, csect := 4, cdir := 1 } }
           buoys := s.buoys.map fun b => { b with state := 0, wmant := 400, out := 400, last := 400, admitted := true, mstale := false }
           beamsDs := s.beamsDs.map fun m => { m with stale := false } }
def s11_0 : State := mk11 1 (paged machRecs)
def s11_1 : State := { s11_0 with now := 112500 }
def nx (s : State) (c : Nat) : Option (Int × Nat) := 
      let i := waveBefore s 0
      let ahead := ((-(nth s.pwmDs.chans c).trim).toNat + 15) / 16
      nextStep (nth s.legs c).h (legPos s c) (phaseLegs s (legPhase s c)) i.grade.toInt (fun t => psiAt s 0 c i (t + ahead)) s.now
def s11_2 : State := { s11_1 with now := 512500, mach := upd s11_1.mach 0 fun x => { x with peaks := [5, 70000 * 100, 70000 * 100, 0, 0, 0] } }
theorem test_meets_WaveformUnitDrivesItsLegs (h : Obligations.WaveformUnitDrivesItsLegs) :
    (∃ P, Runs (.waveDutyUpdate 0) (s11_0) P)
      ∧ (∃ P, Runs (.waveDutyUpdate 0) (s11_1) P)
      ∧ (∃ P, Runs (.legStepEdge 0) (s11_1) P)
      ∧ (∃ P, Runs (.legStepEdge 3) (s11_1) P)
      ∧ (∃ P, Runs (.legStepEdge 5) (s11_1) P)
      ∧ (∃ P, Runs (.electricalTurnEnd 0) (s11_2) P) :=
  ⟨⟨_, h.1 0 s11_0 ((nextUpdate s11_0 0).getD 0) (invBy (by decide +kernel)) (by decide +kernel) (by decide +kernel) (by decide +kernel)⟩,
    ⟨_, h.1 0 s11_1 ((nextUpdate s11_1 0).getD 0) (invBy (by decide +kernel)) (by decide +kernel) (by decide +kernel) (by decide +kernel)⟩,
    ⟨_, h.2.1 0 s11_1 ((nx s11_1 0).getD (0,0)).1 ((nx s11_1 0).getD (0,0)).2 (invBy (by decide +kernel)) (by decide +kernel) (by decide +kernel) (by decide +kernel) (by decide +kernel) (by decide +kernel)⟩,
    ⟨_, h.2.1 3 s11_1 ((nx s11_1 3).getD (0,0)).1 ((nx s11_1 3).getD (0,0)).2 (invBy (by decide +kernel)) (by decide +kernel) (by decide +kernel) (by decide +kernel) (by decide +kernel) (by decide +kernel)⟩,
    ⟨_, h.2.1 5 s11_1 ((nx s11_1 5).getD (0,0)).1 ((nx s11_1 5).getD (0,0)).2 (invBy (by decide +kernel)) (by decide +kernel) (by decide +kernel) (by decide +kernel) (by decide +kernel) (by decide +kernel)⟩,
    ⟨_, h.2.2 0 s11_2 (invBy (by decide +kernel)) (by decide +kernel) (by decide +kernel) (by decide +kernel) (by decide +kernel)⟩⟩

def c11 (mode : Nat) (f : Candle → Candle) : State := let s := mk11 mode s11_1; { s with candle := upd s.candle 0 f }
def s11_3 : State := c11 2 fun k => { k with pattern := 2, driving := true, lastM := some 3, dir := 1, pend := some 113000, driveAt := 112000, commuteAt := 112000, lastX := 112100 }
def s11_4 : State := c11 2 fun k => { k with pattern := 2, driving := true, lastM := some 3, dir := 1, driveAt := 112000, commuteAt := 112000, lastX := 111100 }
def s11_5 : State := c11 2 fun k => { k with pattern := 7, catching := true, lastX := 111100 }
def s11_6 : State := c11 1 fun k => { k with pattern := 7, lastX := 111100 }
def fl11 (s : State) : State := { s with legs := s.legs.map fun l => { l with float := true } }
def s11_7 : State := { s11_4 with mach := upd s11_4.mach 0 fun x => { x with subAct := true, subAt := 111000 } }
theorem test_meets_CandleDriveCommutatesAndTimesOut (h : Obligations.CandleDriveCommutatesAndTimesOut) :
    (∃ P, Runs (.candleCommutate 0) (s11_3) P)
      ∧ (∃ P, Runs (.catchTimeout 0) (s11_4) P)
      ∧ (∃ P, Runs (.catchTimeout 0) (fl11 s11_5) P)
      ∧ (∃ P, Runs (.catchTimeout 0) (fl11 s11_6) P)
      ∧ (∃ P, Runs (.candto 0) (s11_4) P)
      ∧ (∃ P, Runs (.subexp 0) (s11_7) P) :=
  ⟨⟨_, (h 0 s11_3 (invBy (by decide +kernel))).1 113000 (by decide +kernel) (by decide +kernel) (by decide +kernel)⟩,
    ⟨_, (h 0 s11_4 (invBy (by decide +kernel))).2.1 (by decide +kernel) (by decide +kernel) (by decide +kernel) (by decide +kernel) (by decide +kernel) (by decide +kernel)⟩,
    ⟨_, (h 0 (fl11 s11_5) (invBy (by decide +kernel))).2.2.1 (by decide +kernel) (by decide +kernel) (by decide +kernel) (by decide +kernel) (by decide +kernel)⟩,
    ⟨_, (h 0 (fl11 s11_6) (invBy (by decide +kernel))).2.2.1 (by decide +kernel) (by decide +kernel) (by decide +kernel) (by decide +kernel) (by decide +kernel)⟩,
    ⟨_, (h 0 s11_4 (invBy (by decide +kernel))).2.2.2.1 (by decide +kernel) (by decide +kernel) (by decide +kernel) (by decide +kernel)⟩,
    ⟨_, (h 0 s11_7 (invBy (by decide +kernel))).2.2.2.2 (by decide +kernel) (by decide +kernel) (by decide +kernel) (by decide +kernel)⟩⟩

def s12_0 : State := { sProt with prot := { sProt.prot with trip := upd sProt.prot.trip 0 fun x => { x with enabled := false } } }
def s12_1 : State := { sProt with pwmDs := { sProt.pwmDs with chans := upd sProt.pwmDs.chans 0 fun x => { x with ovr := 2 } } }
def s12_2 : State := { sProt with pwmDs := { sProt.pwmDs with chans := upd sProt.pwmDs.chans 0 fun x => { x with active := true, shA := { x.shA with raw := true, lvl := true }, ovr := 0, flt := false, hMin := 2239000, cper := 64000, c0 := 2239000 } } }
def s12_3 : State := { s12_2 with prot := { s12_2.prot with trip := upd s12_2.prot.trip 0 fun x => { x with raw := true } } }
theorem test_meets_ComparatorsLatchAndInhibitTheirLegs (h : Obligations.ComparatorsLatchAndInhibitTheirLegs) :
    (∃ P, Runs (.comparatorLevelChange (Comp.trip 0) true) (sProt) P)
      ∧ (∃ P, Runs (.comparatorLevelChange (Comp.gc 1) true) (sProt) P)
      ∧ (∃ P, Runs (.comparatorLevelChange (Comp.trip 5) true) (sProt) P)
      ∧ (∃ P, Runs (.comparatorLevelChange (Comp.trip 0) true) (s12_0) P)
      ∧ (∃ P, Runs (.comparatorLevelChange (Comp.trip 0) true) (sProt) P)
      ∧ (∃ P, Runs (.comparatorLevelChange (Comp.trip 1) true) (sProt) P)
      ∧ (∃ P, Runs (.comparatorLevelChange (Comp.hard 0) true) (sProt) P)
      ∧ (∃ P, Runs (.comparatorLevelChange (Comp.trip 0) true) (s12_1) P)
      ∧ (∃ P, Runs (.blankingEnd (Comp.trip 0)) (s12_2) P)
      ∧ (∃ P, Runs (.blankingEnd (Comp.trip 0)) (s12_3) P) :=
  ⟨⟨_, (h (.trip 0) sProt (invBy (by decide +kernel))).1 true⟩,
    ⟨_, (h (.gc 1) sProt (invBy (by decide +kernel))).1 true⟩,
    ⟨_, (h (.trip 5) sProt (invBy (by decide +kernel))).1 true⟩,
    ⟨_, (h (.trip 0) s12_0 (invBy (by decide +kernel))).1 true⟩,
    ⟨_, (h (.trip 0) sProt (invBy (by decide +kernel))).2.1 0 4 (by decide +kernel) (by decide +kernel) (by decide +kernel) (by decide +kernel) (by decide +kernel) (by decide +kernel) (by decide +kernel) (by decide +kernel)⟩,
    ⟨_, (h (.trip 1) sProt (invBy (by decide +kernel))).2.1 1 5 (by decide +kernel) (by decide +kernel) (by decide +kernel) (by decide +kernel) (by decide +kernel) (by decide +kernel) (by decide +kernel) (by decide +kernel)⟩,
    ⟨_, (h (.hard 0) sProt (invBy (by decide +kernel))).2.1 0 4 (by decide +kernel) (by decide +kernel) (by decide +kernel) (by decide +kernel) (by decide +kernel) (by decide +kernel) (by decide +kernel) (by decide +kernel)⟩,
    ⟨_, (h (.trip 0) s12_1 (invBy (by decide +kernel))).2.2.1 0 0 (by decide +kernel) (by decide +kernel) (by decide +kernel) (by decide +kernel) (by decide +kernel) (by decide +kernel)⟩,
    ⟨_, (h (.trip 0) s12_2 (invBy (by decide +kernel))).2.2.2 (by decide +kernel) (by decide +kernel) (by decide +kernel) (by decide +kernel) (by decide +kernel) (by decide +kernel)⟩,
    ⟨_, (h (.trip 0) s12_3 (invBy (by decide +kernel))).2.2.2 (by decide +kernel) (by decide +kernel) (by decide +kernel) (by decide +kernel) (by decide +kernel) (by decide +kernel)⟩⟩

def m12 (st sev spd : Nat) (b : Option Nat) : State :=
  { sProt with prot := { sProt.prot with severity := sev, wrLevel := sev, msafe := [{ st := st, belowAt := b }, {}] }
               beamsDs := sProt.beamsDs.map fun m => { m with stale := false, a := { m.a with speed := wd spd, law := .line } }
               buoys := sProt.buoys.map fun b => { b with state := 0, wmant := 400, out := 400, last := 400, admitted := true, mstale := false } }
def s12_4 : State := { sProt with prot := { sProt.prot with chopOn := true, chopCur := false, chopAt := 139990 } }
theorem test_meets_SpeedRuleChoosesTheSafeState (h : Obligations.SpeedRuleChoosesTheSafeState) :
    (∃ P, Runs (.speedRuleTick) (m12 1 4 256 Option.none) P)
      ∧ (∃ P, Runs (.speedRuleTick) (m12 1 4 256000000 Option.none) P)
      ∧ (∃ P, Runs (.speedRuleTick) (m12 2 4 256 Option.none) P)
      ∧ (∃ P, Runs (.speedRuleTick) (m12 3 4 25600000 (Option.some 100)) P)
      ∧ (∃ P, Runs (.speedRuleTick) (m12 2 0 256 Option.none) P)
      ∧ (∃ P, Runs (.speedRuleTick) (m12 2 0 256 Option.none) P)
      ∧ (∃ P, Runs (.speedRuleHysteresisEnd 0) (m12 2 4 256 (Option.some 130000)) P)
      ∧ (∃ P, Runs (.speedRuleHysteresisEnd 0) (m12 2 4 256000000 (Option.some 130000)) P)
      ∧ (∃ P, Runs (.chopf) (s12_4) P) :=
  ⟨⟨_, h.1 0 (m12 1 4 256 none) (invBy (by decide +kernel)) (by decide +kernel)⟩,
    ⟨_, h.1 0 (m12 1 4 256000000 none) (invBy (by decide +kernel)) (by decide +kernel)⟩,
    ⟨_, h.1 0 (m12 2 4 256 none) (invBy (by decide +kernel)) (by decide +kernel)⟩,
    ⟨_, h.1 0 (m12 3 4 25600000 (some 100)) (invBy (by decide +kernel)) (by decide +kernel)⟩,
    ⟨_, h.1 0 (m12 2 0 256 none) (invBy (by decide +kernel)) (by decide +kernel)⟩,
    ⟨_, h.1 1 (m12 2 0 256 none) (invBy (by decide +kernel)) (by decide +kernel)⟩,
    ⟨_, h.2.1 0 130000 (m12 2 4 256 (some 130000)) (invBy (by decide +kernel)) (by decide +kernel) (by decide +kernel) (by decide +kernel)⟩,
    ⟨_, h.2.1 0 130000 (m12 2 4 256000000 (some 130000)) (invBy (by decide +kernel)) (by decide +kernel) (by decide +kernel) (by decide +kernel)⟩,
    ⟨_, h.2.2 s12_4 (by decide +kernel) (by decide +kernel) (by decide +kernel) (by decide +kernel) (by decide +kernel) (by decide +kernel)⟩⟩

def c12 (ls : List Latch) (lv : Nat) : State := let s := m12 1 4 256 none
  { s with prot := { s.prot with latches := ls, severity := lv, wrLevel := 0, trip := upd s.prot.trip 1 fun x => { x with live := true, raw := true, blank := 0 } } }
def s12_5 : State := { sProt with prot := { sProt.prot with log := [(5, 6), (7, 8)], logHi := 9 } }
theorem test_meets_ClearsObeyTheirConditions (h : Obligations.ClearsObeyTheirConditions) :
    (∃ P, Runs (.ptClr 0) (c12 [la 0 4 1, la 1 5 2] 5) P)
      ∧ (∃ P, Runs (.ptClr 1) (c12 [la 0 4 1, la 1 5 2] 5) P)
      ∧ (∃ P, Runs (.ptClr 0) (c12 [la 0 4 1] 4) P)
      ∧ (∃ P, Runs (.ptClr 9) (c12 [la 0 4 1] 4) P)
      ∧ (∃ P, Runs (.ptClrAll) (c12 [la 0 4 1] 4) P)
      ∧ (∃ P, Runs (.ptClrAll) (c12 [la 0 4 1, la 1 5 2] 5) P)
      ∧ (∃ P, Runs (.ptClrAll) (c12 [la 1 5 2] 5) P)
      ∧ (∃ P, Runs (.ptClrAll) (c12 [] 0) P)
      ∧ (∃ P, Runs (.ptLogReadLow) (s12_5) P)
      ∧ (∃ P, Runs (.ptLogReadHigh) (s12_5) P)
      ∧ (∃ P, Runs (.ptLogReadLow) (sProt) P) :=
  ⟨⟨_, (h (c12 [la 0 4 1, la 1 5 2] 5)).1 0 (writeBy (by decide +kernel))⟩,
    ⟨_, (h (c12 [la 0 4 1, la 1 5 2] 5)).1 1 (writeBy (by decide +kernel))⟩,
    ⟨_, (h (c12 [la 0 4 1] 4)).1 0 (writeBy (by decide +kernel))⟩,
    ⟨_, (h (c12 [la 0 4 1] 4)).1 9 (writeBy (by decide +kernel))⟩,
    ⟨_, (h (c12 [la 0 4 1] 4)).2.1 (writeBy (by decide +kernel))⟩,
    ⟨_, (h (c12 [la 0 4 1, la 1 5 2] 5)).2.1 (writeBy (by decide +kernel))⟩,
    ⟨_, (h (c12 [la 1 5 2] 5)).2.1 (writeBy (by decide +kernel))⟩,
    ⟨_, (h (c12 [] 0)).2.1 (writeBy (by decide +kernel))⟩,
    ⟨_, ((h s12_5).2.2 (readBy (by decide +kernel))).1⟩,
    ⟨_, ((h s12_5).2.2 (readBy (by decide +kernel))).2⟩,
    ⟨_, ((h sProt).2.2 (readBy (by decide +kernel))).1⟩⟩

def par13 : List Byte := parOf ([(0, W [(24, 100), (0, 3)]), (4, W [(16, 2), (0, 5)]), (8, W [(24, 5), (16, 20), (8, 10), (2, 1)]), (0x10, W [(16, 10), (0, 50)])] ++
  (List.range 2).flatMap fun n => [(ctOff n, W [(31, 1), (20, n)]), (ctOff n + 4, W [(16, 30), (0, 20)])])
def k13 : List Byte := (List.range 16).map (BitVec.ofNat 8)
def w13 (st : Nat) (f : Wr → Wr) : State := let s := run []
  { s with wr := f { s.wr with state := st, par := par13, parCrc := crc32 par13, uid0 := 7, uid1 := 8, nonce := 9, fresh := 4, key := some k13, loaded := true, selfOk := true, evalAt := 99000, ct := s.wr.ct.map fun x => { x with unres := false } }
           img := { s.img with sbcrc := crc32 par13 } }
def p13_v1 : State := w13 2 fun w => { w with degAt := some 90000, opened := [⟨⟨.cs, 1, 0, 0, 1, 0⟩, 0x8001, 1, 0, false, 0⟩] }
def p13_v2 : State := w13 3 fun w => { w with lreact := 2 }
def p13_v3 : State := w13 3 fun w => { w with lreact := 3 }
def f13 : List Byte := sf k13 5 6 []
def p13_v4 : State := w13 1 fun w => { w with frames := [⟨f13, .host (rq 1 [])⟩] }
theorem test_meets_WatchRoomEvaluatesAndCommands (h : Obligations.WatchRoomEvaluatesAndCommands) :
    (∃ P, Runs (.watchRoomEvaluation) (w13 0 id) P)
      ∧ (∃ P, Runs (.watchRoomEvaluation) (w13 1 id) P)
      ∧ (∃ P, Runs (.watchRoomEvaluation) (p13_v1) P)
      ∧ (∃ P, Runs (.watchRoomEvaluation) (p13_v2) P)
      ∧ (∃ P, Runs (.watchRoomEvaluation) (p13_v3) P)
      ∧ (∃ P, Runs (.watchRoomEvaluation) (p13_v4) P) :=
  ⟨⟨_, h (w13 0 id) (by decide +kernel)⟩,
    ⟨_, h (w13 1 id) (by decide +kernel)⟩,
    ⟨_, h p13_v1 (by decide +kernel)⟩,
    ⟨_, h p13_v2 (by decide +kernel)⟩,
    ⟨_, h p13_v3 (by decide +kernel)⟩,
    ⟨_, h p13_v4 (by decide +kernel)⟩⟩

def ct13 (n : Nat) (f : Contactor → Contactor) : State := w13 1 fun w => { w with ct := upd w.ct n f }
def p13_v5 : State := ct13 0 fun x => { x with settle := some 100500, changed := true, level := true }
def p13_v6 : State := ct13 0 fun x => { x with settle := some 100500, changed := true, ctc := true, level := false }
def p13_v7 : State := ct13 0 fun x => { x with settle := some 100500, changed := true, ctc := false, weld := true, level := false }
def p13_v8 : State := ct13 0 fun x => { x with settle := some 100500, changed := false, ctc := false, level := true }
def p13_v9 : State := ct13 1 fun x => { x with ctc := true, seen := true, openAt := some 100500, level := false }
def p13_v10 : State := ct13 0 fun x => { x with level := true }
def p13_v11 : State := w13 3 fun w => { w with lockOpen := false, lockAt := 99000, ctcmd := 3, ct := w.ct.map fun x => { x with ctc := true, level := true, seen := true } }
theorem test_meets_ContactorsAreCheckedAndOpened (h : Obligations.ContactorsAreCheckedAndOpened) :
    (∃ P, Runs (.contactorSettleEnd 0) (p13_v5) P)
      ∧ (∃ P, Runs (.contactorSettleEnd 0) (p13_v6) P)
      ∧ (∃ P, Runs (.contactorSettleEnd 0) (p13_v7) P)
      ∧ (∃ P, Runs (.contactorSettleEnd 0) (p13_v8) P)
      ∧ (∃ P, Runs (.contactorDropout 1) (p13_v9) P)
      ∧ (∃ P, Runs (.contactorCheckStart) (w13 1 id) P)
      ∧ (∃ P, Runs (.contactorCheckStart) (p13_v10) P)
      ∧ (∃ P, Runs (.lockoutContactorOpen) (p13_v11) P) :=
  ⟨⟨_, h.1 0 100500 p13_v5 (by decide +kernel) (by decide +kernel)⟩,
    ⟨_, h.1 0 100500 p13_v6 (by decide +kernel) (by decide +kernel)⟩,
    ⟨_, h.1 0 100500 p13_v7 (by decide +kernel) (by decide +kernel)⟩,
    ⟨_, h.1 0 100500 p13_v8 (by decide +kernel) (by decide +kernel)⟩,
    ⟨_, h.2.1 1 100500 p13_v9 (by decide +kernel) (by decide +kernel) (by decide +kernel) (by decide +kernel) (by decide +kernel) (by decide +kernel)⟩,
    ⟨_, h.2.2.1 50000 (w13 1 id) (by decide +kernel) (by decide +kernel)⟩,
    ⟨_, h.2.2.1 50000 p13_v10 (by decide +kernel) (by decide +kernel)⟩,
    ⟨_, h.2.2.2 p13_v11 (by decide +kernel) (by decide +kernel)⟩⟩

def p13_v12 : State := w13 2 fun w => { w with degAt := some 90000, degReact := 2, opened := [⟨⟨.cs, 1, 0, 0, 1, 0⟩, 0x8001, 1, 0, false, 0⟩] }
def p13_v13 : State := w13 2 fun w => { w with degAt := some 90000, degReact := 2 }
def p13_v14 : State := w13 3 fun w => { w with armed := some 90000 }
def p13_v15 : State := w13 1 fun w => { w with par := par13.set 3 9 }
def p13_v16 : State := { w13 1 id with now := 5000000 }
theorem test_meets_WatchRoomTimersAndKeeperWatchdog (h : Obligations.WatchRoomTimersAndKeeperWatchdog) :
    (∃ P, Runs (.degexp) (p13_v12) P)
      ∧ (∃ P, Runs (.degexp) (p13_v13) P)
      ∧ (∃ P, Runs (.resetArmLapse) (p13_v14) P)
      ∧ (∃ P, Runs (.sbcrcCheck) (w13 1 id) P)
      ∧ (∃ P, Runs (.sbcrcCheck) (p13_v15) P)
      ∧ (∃ P, Runs (.wrWdkickWrite 5 9) (w13 1 id) P)
      ∧ (∃ P, Runs (.wrWdkickWrite 0 9) (p13_v16) P)
      ∧ (∃ P, Runs (.wdogTimeout 9) (w13 1 id) P)
      ∧ (∃ P, Runs (.rwsDeny 48) (w13 1 id) P) :=
  ⟨⟨_, h.1 90000 p13_v12 (by decide +kernel) (by decide +kernel)⟩,
    ⟨_, h.1 90000 p13_v13 (by decide +kernel) (by decide +kernel)⟩,
    ⟨_, h.2.1 90000 p13_v14 (by decide +kernel)⟩,
    ⟨_, h.2.2.1 (w13 1 id) (by decide +kernel)⟩,
    ⟨_, h.2.2.1 p13_v15 (by decide +kernel)⟩,
    ⟨_, h.2.2.2.1 5 9 (w13 1 id) (writeBy (by decide +kernel))⟩,
    ⟨_, h.2.2.2.1 0 9 (p13_v16) (writeBy (by decide +kernel))⟩,
    ⟨_, h.2.2.2.2.1 9 (w13 1 id) (by decide +kernel)⟩,
    ⟨_, h.2.2.2.2.2 0x30 (w13 1 id) (writeBy (by decide +kernel))⟩⟩

def s13_1 : State := w13 1 id
def s13_0 : State := w13 0 id
def s13_3 : State := { w13 3 (fun w => { w with armed := some 90000 }) with now := 1000000 }
def s13_3e : State := { w13 3 (fun w => { w with armed := some 90000 }) with now := 90000 }
def a1 : List Byte := sf k13 1 6 (bytesOf [0x30, 5])
def a2 : List Byte := sf k13 2 6 []
def a3 : List Byte := sf k13 3 6 []
def a4 : List Byte := sf k13 4 6 []
def a6 : List Byte := sf k13 6 6 k13
def b6 : List Byte := sf (List.replicate 16 0) 6 6 k13
def b1 : List Byte := a1.set 51 7
def o1 : List Byte := sf k13 1 3 (bytesOf [0x30, 5])
theorem test_meets_SafetyFramesActOnceAndInOrder (h : Obligations.SafetyFramesActOnceAndInOrder) :
    (∃ P, Runs (.safetyFrameWrite a1) (s13_1) P)
      ∧ (∃ P, Runs (.resetArm a2) (s13_3) P)
      ∧ (∃ P, Runs (.resetConfirm a3) (s13_3) P)
      ∧ (∃ P, Runs (.resetConfirm a3) (s13_3e) P)
      ∧ (∃ P, Runs (.labEnter a4) (s13_1) P)
      ∧ (∃ P, Runs (.labExit f13) (s13_1) P)
      ∧ (∃ P, Runs (.sfkey a6) (s13_0) P)
      ∧ (∃ P, Runs (.safetyFrameWrite b1) (s13_1) P)
      ∧ (∃ P, Runs (.safetyFrameWrite o1) (s13_1) P) :=
  ⟨⟨_, ((h a1 s13_1 (by decide +kernel) (by decide +kernel) (by decide +kernel) (by decide +kernel) (by decide +kernel) (by decide +kernel)).1 (macBy (by decide +kernel) (by decide)) (by decide +kernel)).1 0xFF (by decide +kernel) (by decide +kernel) (by decide +kernel)⟩,
    ⟨_, ((h a2 s13_3 (by decide +kernel) (by decide +kernel) (by decide +kernel) (by decide +kernel) (by decide +kernel) (by decide +kernel)).1 (macBy (by decide +kernel) (by decide)) (by decide +kernel)).2.1 (by decide +kernel) (by decide +kernel) (by decide +kernel)⟩,
    ⟨_, (((h a3 s13_3 (by decide +kernel) (by decide +kernel) (by decide +kernel) (by decide +kernel) (by decide +kernel) (by decide +kernel)).1 (macBy (by decide +kernel) (by decide)) (by decide +kernel)).2.2.1 90000 (by decide +kernel) (by decide +kernel)).1 (by decide +kernel) (by decide +kernel) (by decide +kernel) (by decide +kernel) (by decide +kernel)⟩,
    ⟨_, (((h a3 s13_3e (by decide +kernel) (by decide +kernel) (by decide +kernel) (by decide +kernel) (by decide +kernel) (by decide +kernel)).1 (macBy (by decide +kernel) (by decide)) (by decide +kernel)).2.2.1 90000 (by decide +kernel) (by decide +kernel)).2 (by decide +kernel)⟩,
    ⟨_, ((h a4 s13_1 (by decide +kernel) (by decide +kernel) (by decide +kernel) (by decide +kernel) (by decide +kernel) (by decide +kernel)).1 (macBy (by decide +kernel) (by decide)) (by decide +kernel)).2.2.2.1 (by decide +kernel) (by decide +kernel) (by decide +kernel) (by decide +kernel)⟩,
    ⟨_, ((h f13 s13_1 (by decide +kernel) (by decide +kernel) (by decide +kernel) (by decide +kernel) (by decide +kernel) (by decide +kernel)).1 (macBy (by decide +kernel) (by decide)) (by decide +kernel)).2.2.2.2.1 (by decide +kernel)⟩,
    ⟨_, ((h a6 s13_0 (by decide +kernel) (by decide +kernel) (by decide +kernel) (by decide +kernel) (by decide +kernel) (by decide +kernel)).1 (macBy (by decide +kernel) (by decide)) (by decide +kernel)).2.2.2.2.2 (by decide +kernel) (by decide +kernel)⟩,
    ⟨_, (h b1 s13_1 (by decide +kernel) (by decide +kernel) (by decide +kernel) (by decide +kernel) (by decide +kernel) (by decide +kernel)).2 (.safetyFrameWrite b1) (by decide +kernel) 5 (by decide +kernel)⟩,
    ⟨_, (h o1 s13_1 (by decide +kernel) (by decide +kernel) (by decide +kernel) (by decide +kernel) (by decide +kernel) (by decide +kernel)).2 (.safetyFrameWrite o1) (by decide +kernel) 6 (Or.inr ⟨(by decide +kernel), (macBy (by decide +kernel) (by decide)), (by decide +kernel)⟩)⟩⟩

def rs14 : List Rec := [grpR .ds 0 0 [] 64000 64000 64000 0 0, chR .ds 0 0 1 0 0 0, byR 1 0 0 [] (-1000) 1000, byR 2 0 0 [] (-1000) 1000,
  ⟨sCONV, 1, [W [(20, 1)], W [(9, 2), (0, 1)], W [(16, 1), (12, 1), (0, 1)], 900, 500, 3, W [(24, 3), (0, 10)], W [(16, 5), (8, 2), (0, 20)], W [(16, 10), (0, 3)], 7]⟩]
def s14 (st : Nat) (r f : Int) (en : Bool) : State := let s := vb 400 (paged rs14)
  { s with conv := upd s.conv 0 fun x => { x with state := st, ref := wi r, refr := wi f, enable := en, retry := 1, hiccAt := 120000, cleanAt := 110000, sawZero := false, tv := { x.tv with sum := 25, cnt := 10, lo := 3 }, ti := { x.ti with sum := 25, cnt := 0, avg := 5 }, tt := { x.tt with hi := wi (-5) } } }
def s14_b : State := let s := s14 3 100 0 true; { s with buoys := upd s.buoys 1 fun b => { b with state := 1 } }
theorem test_meets_ConvertersRampRetryAndReport (h : Obligations.ConvertersRampRetryAndReport) :
    (∃ P, Runs (.refrUpdate) (s14 1 100 0 true) P)
      ∧ (∃ P, Runs (.refrUpdate) (s14 2 100 98 true) P)
      ∧ (∃ P, Runs (.refrUpdate) (s14 2 (-100) 98 true) P)
      ∧ (∃ P, Runs (.refrUpdate) (s14 3 100 98 true) P)
      ∧ (∃ P, Runs (.hiccupExpiry 0) (s14 3 100 0 true) P)
      ∧ (∃ P, Runs (.hiccupExpiry 0) (s14 3 100 0 false) P)
      ∧ (∃ P, Runs (.hiccupExpiry 0) (s14_b) P)
      ∧ (∃ P, Runs (.retryCountReset 0) (s14 2 100 0 false) P)
      ∧ (∃ P, Runs (.telemetryWindowEnd 0) (s14 2 100 0 false) P)
      ∧ (∃ P, Runs (.telemetryWindowEnd 0) (s14 1 100 0 false) P)
      ∧ (∃ P, Runs (.telemetryExtremeRead 0 Extreme.vmin) (s14 2 100 0 false) P)
      ∧ (∃ P, Runs (.telemetryExtremeRead 0 Extreme.tmax) (s14 2 100 0 false) P)
      ∧ (∃ P, Runs (.telemetryExtremeRead 3 Extreme.pmax) (s14 2 100 0 false) P) :=
  ⟨⟨_, h.1 (s14 1 100 0 true) (invBy (by decide +kernel)) (by decide +kernel)⟩,
    ⟨_, h.1 (s14 2 100 98 true) (invBy (by decide +kernel)) (by decide +kernel)⟩,
    ⟨_, h.1 (s14 2 (-100) 98 true) (invBy (by decide +kernel)) (by decide +kernel)⟩,
    ⟨_, h.1 (s14 3 100 98 true) (invBy (by decide +kernel)) (by decide +kernel)⟩,
    ⟨_, ((h.2.1 0 (s14 3 100 0 true) (invBy (by decide +kernel)) (by decide +kernel)).1 (by decide +kernel) (by decide +kernel))⟩,
    ⟨_, ((h.2.1 0 (s14 3 100 0 false) (invBy (by decide +kernel)) (by decide +kernel)).1 (by decide +kernel) (by decide +kernel))⟩,
    ⟨_, ((h.2.1 0 s14_b (invBy (by decide +kernel)) (by decide +kernel)).1 (by decide +kernel) (by decide +kernel))⟩,
    ⟨_, ((h.2.1 0 (s14 2 100 0 false) (invBy (by decide +kernel)) (by decide +kernel)).2.1 (by decide +kernel))⟩,
    ⟨_, ((h.2.1 0 (s14 2 100 0 false) (invBy (by decide +kernel)) (by decide +kernel)).2.2 (by decide +kernel))⟩,
    ⟨_, ((h.2.1 0 (s14 1 100 0 false) (invBy (by decide +kernel)) (by decide +kernel)).2.2 (by decide +kernel))⟩,
    ⟨_, h.2.2 0 .vmin (s14 2 100 0 false) (invBy (by decide +kernel)) (readBy (by decide +kernel))⟩,
    ⟨_, h.2.2 0 .tmax (s14 2 100 0 false) (invBy (by decide +kernel)) (readBy (by decide +kernel))⟩,
    ⟨_, h.2.2 3 .pmax (s14 2 100 0 false) (invBy (by decide +kernel)) (readBy (by decide +kernel))⟩⟩

def outB (n : Nat) : Rec := byR n 3 0 [(24, 0), (13, 1)] 0 100000
def ports15 : List Rec := ([0, 1].map fun p => ⟨sCHARGE, 1, [W [(24, p), (20, p), (0, 1)], W [(18, 4), (9, 5), (0, 2)], W [(18, 20 + 3 * p), (9, 21 + 3 * p), (0, 22 + 3 * p)],
    100, 200, 900, 800, 850, 10, 20, 500, 30, W [(16, 2), (0, 30)], W [(16, 60), (0, 10)], 3]⟩) ++
  [⟨sCHARGE, 2, [W [(16, 2), (8, 5), (0, 20)], W [(16, 100), (0, 50)], 100, 50, 200, 500, W [(16, 256), (0, 256)], W [(16, 500), (0, 5)], 230, 50]⟩]
def rs15 : List Rec := [byR 1 0 0 [] (-1000) 1000, byR 2 0 0 [] (-1000) 1000, byR 3 0 0 [] (-1000) 1000, byR 4 3 0 [] (-1000) 1000, byR 5 3 0 [] (-1000) 1000,
  outB 20, outB 21, outB 22, outB 23, outB 24, outB 25, ⟨sBEAM, 1, [W [(28, 1), (8, 1), (0, 2)], 5, W [(16, 40), (0, 100)], 0, W [(16, 10), (0, 3)], 20, W [(24, 20), (20, 5), (12, 60), (0, 3)]]⟩] ++ ports15
def st15 (v : Int) (p : Nat) (f : Port_ → Port_) : State := let s := vb v (paged rs15); s.modPort p fun x => f { x with evalAt := 105000 }
def p15_v1 : State := st15 400 0 fun x => { x with phase := 3, limch := 3 }
def p15_v2 : State := st15 950 0 fun x => { x with phase := 3, treal := 5 }
def p15_v3 : State := st15 950 1 fun x => { x with phase := 7, heldPh := 2 }
def s15_b (p ph : Nat) : State := let s := st15 400 p fun x => { x with phase := ph, heldPh := 4 }; { s with buoys := upd s.buoys 1 fun b => { b with state := 1 } }
def p15_v4 : State := st15 400 0 fun x => { x with phase := 2, tpre := 4 }
def p15_v5 : State := st15 400 1 fun x => { x with phase := 7, heldPh := 1 }
def p15_v6 : State := st15 400 0 fun x => { x with phase := 4, treal := 3*30*60000, fact := 65536 }
def p15_v7 : State := st15 400 0 fun x => { x with phase := 4, treal := 3*30*60000, fact := 6553, retried := true }
def p15_v8 : State := st15 400 0 fun x => { x with phase := 4, treal := 3*30*60000, fact := 6553 }
def p15_v9 : State := st15 400 0 fun x => { x with phase := 5, tterm := 60000 }
def p15_v10 : State := st15 400 0 fun x => { x with phase := 3 }
def p15_v11 : State := st15 400 0 fun x => { x with phase := 9 }
def p15_v12 : State := st15 400 0 fun x => { x with phase := 4 }
theorem test_meets_ChargePortsRunTheirSessions (h : Obligations.ChargePortsRunTheirSessions) :
    (∃ P, Runs (.chargeEvaluation 0) (st15 400 0 id) P)
      ∧ (∃ P, Runs (.chargeEvaluation 0) (p15_v1) P)
      ∧ (∃ P, Runs (.chargeEvaluation 0) (p15_v2) P)
      ∧ (∃ P, Runs (.chargeEvaluation 1) (p15_v3) P)
      ∧ (∃ P, Runs (.chargeEvaluation 0) (s15_b 0 2) P)
      ∧ (∃ P, Runs (.chargeEvaluation 0) (s15_b 0 4) P)
      ∧ (∃ P, Runs (.chargeEvaluation 1) (s15_b 1 7) P)
      ∧ (∃ P, Runs (.pretmo 0) (p15_v4) P)
      ∧ (∃ P, Runs (.pretmo 1) (p15_v5) P)
      ∧ (∃ P, Runs (.totalTimerExpiry 0) (p15_v6) P)
      ∧ (∃ P, Runs (.totalTimerExpiry 0) (p15_v7) P)
      ∧ (∃ P, Runs (.totalTimerExpiry 0) (p15_v8) P)
      ∧ (∃ P, Runs (.terminationTimeout 0) (p15_v9) P)
      ∧ (∃ P, Runs (.chargeStart 0) (st15 400 0 id) P)
      ∧ (∃ P, Runs (.chargeStart 1) (st15 400 1 id) P)
      ∧ (∃ P, Runs (.chargeStart 0) (p15_v10) P)
      ∧ (∃ P, Runs (.chargeStop 0) (p15_v10) P)
      ∧ (∃ P, Runs (.chargeStop 0) (p15_v11) P)
      ∧ (∃ P, Runs (.chargeClear 0) (p15_v11) P)
      ∧ (∃ P, Runs (.chargeClear 0) (p15_v12) P) :=
  ⟨⟨_, (h 0 (st15 400 0 id) (invBy (by decide +kernel))).1 (by decide +kernel) (by decide +kernel)⟩,
    ⟨_, (h 0 p15_v1 (invBy (by decide +kernel))).1 (by decide +kernel) (by decide +kernel)⟩,
    ⟨_, (h 0 p15_v2 (invBy (by decide +kernel))).1 (by decide +kernel) (by decide +kernel)⟩,
    ⟨_, (h 1 p15_v3 (invBy (by decide +kernel))).1 (by decide +kernel) (by decide +kernel)⟩,
    ⟨_, (h 0 (s15_b 0 2) (invBy (by decide +kernel))).1 (by decide +kernel) (by decide +kernel)⟩,
    ⟨_, (h 0 (s15_b 0 4) (invBy (by decide +kernel))).1 (by decide +kernel) (by decide +kernel)⟩,
    ⟨_, (h 1 (s15_b 1 7) (invBy (by decide +kernel))).1 (by decide +kernel) (by decide +kernel)⟩,
    ⟨_, ((h 0 p15_v4 (invBy (by decide +kernel))).2.1 (by decide +kernel) (by decide +kernel)).1 (by decide +kernel)⟩,
    ⟨_, ((h 1 p15_v5 (invBy (by decide +kernel))).2.1 (by decide +kernel) (by decide +kernel)).1 (by decide +kernel)⟩,
    ⟨_, ((h 0 p15_v6 (invBy (by decide +kernel))).2.1 (by decide +kernel) (by decide +kernel)).2 (by decide +kernel) (by decide +kernel) (by decide +kernel)⟩,
    ⟨_, ((h 0 p15_v7 (invBy (by decide +kernel))).2.1 (by decide +kernel) (by decide +kernel)).2 (by decide +kernel) (by decide +kernel) (by decide +kernel)⟩,
    ⟨_, ((h 0 p15_v8 (invBy (by decide +kernel))).2.1 (by decide +kernel) (by decide +kernel)).2 (by decide +kernel) (by decide +kernel) (by decide +kernel)⟩,
    ⟨_, (h 0 p15_v9 (invBy (by decide +kernel))).2.2.1 (by decide +kernel) (by decide +kernel)⟩,
    ⟨_, ((h 0 (st15 400 0 id) (invBy (by decide +kernel))).2.2.2 (writeBy (by decide +kernel))).1⟩,
    ⟨_, ((h 1 (st15 400 1 id) (invBy (by decide +kernel))).2.2.2 (writeBy (by decide +kernel))).1⟩,
    ⟨_, ((h 0 p15_v10 (invBy (by decide +kernel))).2.2.2 (writeBy (by decide +kernel))).1⟩,
    ⟨_, ((h 0 p15_v10 (invBy (by decide +kernel))).2.2.2 (writeBy (by decide +kernel))).2.1⟩,
    ⟨_, ((h 0 p15_v11 (invBy (by decide +kernel))).2.2.2 (writeBy (by decide +kernel))).2.1⟩,
    ⟨_, ((h 0 p15_v11 (invBy (by decide +kernel))).2.2.2 (writeBy (by decide +kernel))).2.2⟩,
    ⟨_, ((h 0 p15_v12 (invBy (by decide +kernel))).2.2.2 (writeBy (by decide +kernel))).2.2⟩⟩

def ac15 (f : Ac → Ac) (p : Nat) : State := let s := st15 400 1 fun x => { x with phase := p, iset := 77 }; { s with ac := f s.ac }
def p15_v13 : State := ac15 (fun a => { a with qualAt := some 100000 }) 0
def p15_v14 : State := ac15 (fun a => { a with lowAt := some 100000, acqual := true }) 3
def p15_v15 : State := ac15 (fun a => { a with lockDrop := true, acqual := true }) 3
def p15_v16 : State := ac15 (fun a => { a with handover := true, ramping := true, lossAt := 100000 }) 3
def p15_v17 : State := ac15 (fun a => { a with handover := true, ramping := false, lossAt := 100000 }) 0
def p15_v18 : State := ac15 (fun a => { a with acqual := true }) 0
def p15_v19 : State := ac15 (fun a => { a with acqual := true, reverse := true }) 0
def p15_v20 : State := ac15 (fun a => { a with reverse := true, grid := true }) 0
def p15_v21 : State := ac15 (fun a => { a with reverse := true }) 0
def p15_v22 : State := ac15 (fun a => { a with reverse := true, grid := true, gdevAt := some 100000 }) 0
theorem test_meets_AcPortHandsOverAndFeedsBack (h : Obligations.AcPortHandsOverAndFeedsBack) :
    (∃ P, Runs (.acQualified) (p15_v13) P)
      ∧ (∃ P, Runs (.srclost false) (p15_v14) P)
      ∧ (∃ P, Runs (.srclost true) (p15_v15) P)
      ∧ (∃ P, Runs (.handoverRampEnd) (p15_v16) P)
      ∧ (∃ P, Runs (.handoverEnd) (p15_v16) P)
      ∧ (∃ P, Runs (.handoverEnd) (p15_v17) P)
      ∧ (∃ P, Runs (.revstart) (p15_v18) P)
      ∧ (∃ P, Runs (.revstart) (p15_v19) P)
      ∧ (∃ P, Runs (.revstop) (p15_v20) P)
      ∧ (∃ P, Runs (.gridWatchArm) (p15_v21) P)
      ∧ (∃ P, Runs (.grid) (p15_v22) P) :=
  ⟨⟨_, (h p15_v13 (invBy (by decide +kernel))).1 100000 (by decide +kernel)⟩,
    ⟨_, ((h p15_v14 (invBy (by decide +kernel))).2.1 (by decide +kernel)).1 100000 (by decide +kernel)⟩,
    ⟨_, ((h p15_v15 (invBy (by decide +kernel))).2.1 (by decide +kernel)).2 (by decide +kernel)⟩,
    ⟨_, ((h p15_v16 (invBy (by decide +kernel))).2.2.1 (by decide +kernel)).1 (by decide +kernel)⟩,
    ⟨_, ((h p15_v16 (invBy (by decide +kernel))).2.2.1 (by decide +kernel)).2⟩,
    ⟨_, ((h p15_v17 (invBy (by decide +kernel))).2.2.1 (by decide +kernel)).2⟩,
    ⟨_, ((h p15_v18 (invBy (by decide +kernel))).2.2.2.1 (writeBy (by decide +kernel))).1⟩,
    ⟨_, ((h p15_v19 (invBy (by decide +kernel))).2.2.2.1 (writeBy (by decide +kernel))).1⟩,
    ⟨_, ((h p15_v20 (invBy (by decide +kernel))).2.2.2.1 (writeBy (by decide +kernel))).2⟩,
    ⟨_, ((h p15_v21 (invBy (by decide +kernel))).2.2.2.2 (by decide +kernel)).1 (by decide +kernel)⟩,
    ⟨_, ((h p15_v22 (invBy (by decide +kernel))).2.2.2.2 (by decide +kernel)).2 100000 (by decide +kernel) (by decide +kernel)⟩⟩

def rs16 : List Rec := [grpR .cs 0 0 [] 64000 64000 64000 0 0] ++ ([0, 1, 2].map fun c => chR .cs c 0 3 0 0 0) ++
  ([0, 1, 2].map fun g => ⟨sGEAR, 1, [W [(16, g), (8, g), (0, 0)], W [(16, 5), (0, 3)]]⟩) ++
  [⟨sGEAR, 2, [W [(28, 0), (16, 1), (8, 10), (0, 0)], W [(16, 100), (0, 1)], W [(16, 50), (0, 1000)], W [(0, 30)], W [(16, 10), (0, 3)]]⟩, byR 1 0 0 [] (-1000) 1000,
   fbR 10 [W [(0, 0o73541207)], 6, 0, 0, 0, W [(16, 10), (8, 4), (0, 50)]]]
def s16_0 : State := let s := vb 0 (paged rs16)
  { s with bridgeUnres := false, bridgeBad := false, gd := s.gd.map fun g => { g with uvUnres := false, uv := false }
           fb := s.fb.map fun f => { f with unresLines := 0, hallInv := false, sector := 3, restart := false }
           pwmCs := { s.pwmCs with chans := s.pwmCs.chans.map fun x => { x with active := true, ovr := 0, shA := { x.shA with raw := true, lvl := true } } }
           gact := upd s.gact 0 fun a => { a with drive := 40000, posAt := 105000, driveAt := 106000, limAt := some 105000 } }
def s16_1 : State := { s16_0 with pwmCs := { s16_0.pwmCs with chans := s16_0.pwmCs.chans.map fun x => { x with shA := { x.shA with raw := false, lvl := false } } } }
def p16_v1 : State := { s16_0 with bridgeBad := true }
def s16_2 : State := { s16_0 with gd := s16_0.gd.map fun g => { g with vdsoc := true } }
theorem test_meets_PreDriversAndActuatorsAreSupervised (h : Obligations.PreDriversAndActuatorsAreSupervised) :
    (∃ P, Runs (.vdsoc 0 true) (s16_0) P)
      ∧ (∃ P, Runs (.vdsoc 1 false) (s16_1) P)
      ∧ (∃ P, Runs (.bsuv 0) (s16_0) P)
      ∧ (∃ P, Runs (.bootstrapRecovered 0) (s16_0) P)
      ∧ (∃ P, Runs (.supuvBridge) (s16_0) P)
      ∧ (∃ P, Runs (.bridgeSupplyInRange) (p16_v1) P)
      ∧ (∃ P, Runs (.gxClr 3 0) (s16_2) P)
      ∧ (∃ P, Runs (.gxClr 3 2) (s16_2) P)
      ∧ (∃ P, Runs (.gearDutyUpdate 0) (s16_0) P)
      ∧ (∃ P, Runs (.overcur 0) (s16_0) P)
      ∧ (∃ P, Runs (.stall 0) (s16_0) P) :=
  ⟨⟨_, (h s16_0 (invBy (by decide +kernel))).1 0 true (by decide +kernel)⟩,
    ⟨_, (h s16_1 (invBy (by decide +kernel))).1 1 false (by decide +kernel)⟩,
    ⟨_, ((h s16_0 (invBy (by decide +kernel))).2.1 0 (by decide +kernel)).1 (by decide +kernel)⟩,
    ⟨_, ((h s16_0 (invBy (by decide +kernel))).2.1 0 (by decide +kernel)).2⟩,
    ⟨_, ((h s16_0 (invBy (by decide +kernel))).2.2.1 (by decide +kernel)).1 (by decide +kernel)⟩,
    ⟨_, ((h p16_v1 (invBy (by decide +kernel))).2.2.1 (by decide +kernel)).2⟩,
    ⟨_, (h s16_2 (invBy (by decide +kernel))).2.2.2.1 3 0 (writeBy (by decide +kernel))⟩,
    ⟨_, (h s16_2 (invBy (by decide +kernel))).2.2.2.1 3 2 (writeBy (by decide +kernel))⟩,
    ⟨_, (h s16_0 (invBy (by decide +kernel))).2.2.2.2.1 0 ((gearUpdate s16_0 0).getD 0) (by decide +kernel) (by decide +kernel) (by decide +kernel) (by decide +kernel)⟩,
    ⟨_, (h s16_0 (invBy (by decide +kernel))).2.2.2.2.2.1 0 105000 (by decide +kernel) (by decide +kernel)⟩,
    ⟨_, (h s16_0 (invBy (by decide +kernel))).2.2.2.2.2.2 0 (by decide +kernel) (by decide +kernel) (by decide +kernel)⟩⟩

def thR (c lim : Nat) : Rec := ⟨sTHERMAL, 1, [W [(24, c), (16, 1), (8, 1)], W [(16, lim), (0, lim - 400)], if c < 16 then W [(16, 4000), (0, 50)] else 0] ++
  (List.range 8).map fun k => if c < 16 then W [(16, 100 + 500 * k), (0, 100 + 300 * k)] else 0⟩
def rs17 : List Rec := machRecs ++ [thR 0 1600, thR 9 1600, thR 17 2000, ⟨sTHERMAL, 2, [W [(16, 100), (0, 500)], W [(16, 10), (0, 3)], 0, W [(0, 17)]]⟩,
  ⟨sTHERMAL, 3, [W [(0, 10)], W [(16, 10), (0, 5)], W [(16, 100), (0, 5)], W [(24, 10), (16, 10), (0, 100)]]⟩]
def s17_0 : State := let s := vb 10 (paged rs17)
  { s with temp := s.temp.map fun t => { t with unknown := false, val := 500, nextAt := 115000 } }
def s17_1 : State := { s17_0 with lamp := { s17_0.lamp with fInit := true, fCs := 30000, thrAt := 100000, inhAt := some 50000 }, temp := s17_0.temp.map fun t => { t with val := 1500, ambSum := 1000, ambN := 2, curveAt := none } }
def s17_2 : State := { s17_1 with lamp := { s17_1.lamp with fCs := 65000 }, temp := upd' s17_1.temp 17 }
where upd' (l : List Temp) (n : Nat) : List Temp := l.zipIdx.map fun (x, i) => if i = n then { x with val := 300, curveAt := some 100000 } else { x with curveAt := if i = 0 then some 100000 else none, t0v := 2500 }
def s17_3 : State := { s17_2 with fb := s17_2.fb.map fun f => { f with res := { f.res with aSum := 1001, aN := 3 } } }
def s17_4 : State := { s17_2 with temp := s17_2.temp.zipIdx.map fun (x, i) => if i = 17 then x else { x with curveAt := none } }
theorem test_meets_ChannelsSampleThrottleAndAge (h : Obligations.ChannelsSampleThrottleAndAge) :
    (∃ P, Runs (.temperatureSample 0 700) (s17_0) P)
      ∧ (∃ P, Runs (.temperatureSample 0 7) (s17_0) P)
      ∧ (∃ P, Runs (.temperatureSample 9 3800) (s17_0) P)
      ∧ (∃ P, Runs (.temperatureSample 17 2500) (s17_0) P)
      ∧ (∃ P, Runs (.throttleUpdate) (s17_0) P)
      ∧ (∃ P, Runs (.throttleUpdate) (s17_1) P)
      ∧ (∃ P, Runs (.throttleUpdate) (s17_2) P)
      ∧ (∃ P, Runs (.lampMeasurement (LampMeas.slack 3 4)) (s17_2) P)
      ∧ (∃ P, Runs (.lampMeasurement LampMeas.amplitude) (s17_3) P)
      ∧ (∃ P, Runs (.replanTarget) (s17_3) P)
      ∧ (∃ P, Runs (.switchingDelayEdge 2 true false 77) (s17_3) P)
      ∧ (∃ P, Runs (.switchingDelayEdge 2 false true 77) (s17_3) P)
      ∧ (∃ P, Runs (.coolingCurveStart 0) (s17_4) P)
      ∧ (∃ P, Runs (.coolingCurveEnd 0) (s17_2) P)
      ∧ (∃ P, Runs (.coolingCurveEnd 17) (s17_2) P)
      ∧ (∃ P, Runs (.laFreezeWrite 1) (s17_2) P) :=
  ⟨⟨_, (h s17_0 (invBy (by decide +kernel))).1 0 700 (by decide +kernel) (by decide +kernel)⟩,
    ⟨_, (h s17_0 (invBy (by decide +kernel))).1 0 7 (by decide +kernel) (by decide +kernel)⟩,
    ⟨_, (h s17_0 (invBy (by decide +kernel))).1 9 3800 (by decide +kernel) (by decide +kernel)⟩,
    ⟨_, (h s17_0 (invBy (by decide +kernel))).1 17 2500 (by decide +kernel) (by decide +kernel)⟩,
    ⟨_, (h s17_0 (invBy (by decide +kernel))).2.1 (by decide +kernel)⟩,
    ⟨_, (h s17_1 (invBy (by decide +kernel))).2.1 (by decide +kernel)⟩,
    ⟨_, (h s17_2 (invBy (by decide +kernel))).2.1 (by decide +kernel)⟩,
    ⟨_, ((h s17_2 (invBy (by decide +kernel))).2.2.1 (by decide +kernel)).1 3 4⟩,
    ⟨_, ((h s17_3 (invBy (by decide +kernel))).2.2.1 (by decide +kernel)).2.1⟩,
    ⟨_, ((h s17_3 (invBy (by decide +kernel))).2.2.1 (by decide +kernel)).2.2 (by decide +kernel)⟩,
    ⟨_, (h s17_3 (invBy (by decide +kernel))).2.2.2.1 2 true false 77 (by decide +kernel) (by decide +kernel)⟩,
    ⟨_, (h s17_3 (invBy (by decide +kernel))).2.2.2.1 2 false true 77 (by decide +kernel) (by decide +kernel)⟩,
    ⟨_, (h s17_4 (invBy (by decide +kernel))).2.2.2.2.1 0 50000 (by decide +kernel) (by decide +kernel) (by decide +kernel) (by decide +kernel) (by decide +kernel)⟩,
    ⟨_, (h s17_2 (invBy (by decide +kernel))).2.2.2.2.2.1 0 100000 (by decide +kernel)⟩,
    ⟨_, (h s17_2 (invBy (by decide +kernel))).2.2.2.2.2.1 17 100000 (by decide +kernel)⟩,
    ⟨_, (h s17_2 (invBy (by decide +kernel))).2.2.2.2.2.2 1 (writeBy (by decide +kernel))⟩⟩

def cn (n role : Nat) (l : List (Nat × Nat)) : Rec := ⟨sNET, 1, [W ([(24, n), (20, 1), (12, role)] ++ l), 0, 0, 0, W [(16, 10), (0, 3)], W [(0, 0x123)], W [(16, 10), (8, 3), (0, 4)],
  W [(16, 500), (0, 20)], 1000, W [(31, 1), (0, 0x55)], 0]⟩
def flt (n f id : Nat) : Rec := ⟨sNET, 2, [W [(24, n), (16, f), (8, 1)], wd id, 0x7FF]⟩
def rs18 (role : Nat) (dev : Nat) : List Rec := [cn 0 role [(8, dev)], cn 1 0 [(15, 1)], flt 0 0 0x10, flt 0 1 0x20]
def s18 (role dev st : Nat) (f : Can → Can) : State := let s := paged (rs18 role dev)
  { s with can := s.can.map fun x => f { x with state := st, rxUnres := false } }
def p18_v1 : State := s18 0 0 1 fun x => { x with tec := 140 }
def tx18 (l : List (Nat × Word)) (x : Can) : Can := { x with tx := (List.range 3).map fun i => match l[i]? with | some (st, h) => { status := st, hdr := h } | none => {} }
def s18_c : State := s18 0 0 3 fun x => { tx18 [(1, 0x20), (2, 0x10)] x with tec := 4, tx := (tx18 [(1, 0x20), (2, 0x10)] x).tx.map fun t => { t with cancel := true } }
def d18 : State := s18 0 1 2 (tx18 [(2, 0x20), (1, 3), (1, 4)])
def rx18 : RxFrame := { frame := default, filter := 0, protFail := false, ts := 5 }
def p18 : State := s18 0 1 4 fun x => { x with fifo := [rx18, { rx18 with ts := 9 }], boWait := true }
theorem test_meets_CanBuffersAndErrorStates (h : Obligations.CanBuffersAndErrorStates) :
    (∃ P, Runs (.canIntegrationEnd 0) (s18 0 0 1 id) P)
      ∧ (∃ P, Runs (.canIntegrationEnd 0) (p18_v1) P)
      ∧ (∃ P, Runs (.canArbitration 0) (s18 0 0 2 (tx18 [(1, 32), (1, 16)])) P)
      ∧ (∃ P, Runs (.canArbitration 0) (s18 0 0 2 id) P)
      ∧ (∃ P, Runs (.canFrameSent 0) (s18 0 0 3 (tx18 [(1, 32), (2, 16)])) P)
      ∧ (∃ P, Runs (.canFrameSent 0) (s18_c) P)
      ∧ (∃ P, Runs (.canBusError 0 true true 8 0) (s18 0 0 2 (tx18 [(2, 32)])) P)
      ∧ (∃ P, Runs (.canBusError 0 true false 8 0) (s18 0 0 2 (tx18 [(2, 32)])) P)
      ∧ (∃ P, Runs (.canBusError 0 true false 136 0) (s18 0 0 2 (tx18 [(2, 32)])) P)
      ∧ (∃ P, Runs (.canBusError 0 true false 256 0) (s18 0 0 2 (tx18 [(2, 32)])) P)
      ∧ (∃ P, Runs (.canBusError 1 false false 256 9) (s18 0 0 2 (tx18 [(2, 32)])) P)
      ∧ (∃ P, Runs (.busOffRecoveryEnd 1) (s18 0 0 5 id) P)
      ∧ (∃ P, Runs (.txReq 0 2) (d18) P)
      ∧ (∃ P, Runs (.txReq 0 1) (d18) P)
      ∧ (∃ P, Runs (.txReq 0 1) (s18 0 1 2 id) P)
      ∧ (∃ P, Runs (.txCancel 0 0) (d18) P)
      ∧ (∃ P, Runs (.txCancel 0 1) (d18) P)
      ∧ (∃ P, Runs (.txCancel 0 2) (d18) P)
      ∧ (∃ P, Runs (.txBufferWrite 0 2 36 7) (d18) P)
      ∧ (∃ P, Runs (.txBufferWrite 0 1 36 7) (s18 0 1 2 id) P)
      ∧ (∃ P, Runs (.txBufferWrite 0 1 0 7) (s18 0 1 2 id) P)
      ∧ (∃ P, Runs (.txBufferWrite 0 1 4 255) (d18) P)
      ∧ (∃ P, Runs (.pop 1) (p18) P)
      ∧ (∃ P, Runs (.flush 1) (p18) P)
      ∧ (∃ P, Runs (.recover 1) (p18) P)
      ∧ (∃ P, Runs (.recover 0) (d18) P) :=
  ⟨⟨_, (h 0 (s18 0 0 1 id) (invBy (by decide +kernel)) (by decide +kernel)).1 (by decide +kernel) (by decide +kernel)⟩,
    ⟨_, (h 0 p18_v1 (invBy (by decide +kernel)) (by decide +kernel)).1 (by decide +kernel) (by decide +kernel)⟩,
    ⟨_, (h 0 (s18 0 0 2 (tx18 [(1, 0x20), (1, 0x10)])) (invBy (by decide +kernel)) (by decide +kernel)).2.1 (by decide +kernel) (by decide +kernel) (by decide +kernel)⟩,
    ⟨_, (h 0 (s18 0 0 2 id) (invBy (by decide +kernel)) (by decide +kernel)).2.1 (by decide +kernel) (by decide +kernel) (by decide +kernel)⟩,
    ⟨_, (h 0 (s18 0 0 3 (tx18 [(1, 0x20), (2, 0x10)])) (invBy (by decide +kernel)) (by decide +kernel)).2.2.1 1 (by decide +kernel) (by decide +kernel)⟩,
    ⟨_, (h 0 s18_c (invBy (by decide +kernel)) (by decide +kernel)).2.2.1 1 (by decide +kernel) (by decide +kernel)⟩,
    ⟨_, (h 0 (s18 0 0 2 (tx18 [(2, 0x20)])) (invBy (by decide +kernel)) (by decide +kernel)).2.2.2.1 true true 8 0 (by decide +kernel)⟩,
    ⟨_, (h 0 (s18 0 0 2 (tx18 [(2, 0x20)])) (invBy (by decide +kernel)) (by decide +kernel)).2.2.2.1 true false 8 0 (by decide +kernel)⟩,
    ⟨_, (h 0 (s18 0 0 2 (tx18 [(2, 0x20)])) (invBy (by decide +kernel)) (by decide +kernel)).2.2.2.1 true false 136 0 (by decide +kernel)⟩,
    ⟨_, (h 0 (s18 0 0 2 (tx18 [(2, 0x20)])) (invBy (by decide +kernel)) (by decide +kernel)).2.2.2.1 true false 256 0 (by decide +kernel)⟩,
    ⟨_, (h 1 (s18 0 0 2 (tx18 [(2, 0x20)])) (invBy (by decide +kernel)) (by decide +kernel)).2.2.2.1 false false 256 9 (by decide +kernel)⟩,
    ⟨_, (h 1 (s18 0 0 5 id) (invBy (by decide +kernel)) (by decide +kernel)).2.2.2.2.1 (by decide +kernel)⟩,
    ⟨_, ((h 0 d18 (invBy (by decide +kernel)) (by decide +kernel)).2.2.2.2.2 (writeBy (by decide +kernel))).1 2 |>.1⟩,
    ⟨_, ((h 0 d18 (invBy (by decide +kernel)) (by decide +kernel)).2.2.2.2.2 (writeBy (by decide +kernel))).1 1 |>.1⟩,
    ⟨_, ((h 0 (s18 0 1 2 id) (invBy (by decide +kernel)) (by decide +kernel)).2.2.2.2.2 (writeBy (by decide +kernel))).1 1 |>.1⟩,
    ⟨_, (((h 0 d18 (invBy (by decide +kernel)) (by decide +kernel)).2.2.2.2.2 (writeBy (by decide +kernel))).1 0).2.1⟩,
    ⟨_, (((h 0 d18 (invBy (by decide +kernel)) (by decide +kernel)).2.2.2.2.2 (writeBy (by decide +kernel))).1 1).2.1⟩,
    ⟨_, (((h 0 d18 (invBy (by decide +kernel)) (by decide +kernel)).2.2.2.2.2 (writeBy (by decide +kernel))).1 2).2.1⟩,
    ⟨_, (((h 0 d18 (invBy (by decide +kernel)) (by decide +kernel)).2.2.2.2.2 (writeBy (by decide +kernel))).1 2).2.2 0x24 7 (by decide +kernel)⟩,
    ⟨_, (((h 0 (s18 0 1 2 id) (invBy (by decide +kernel)) (by decide +kernel)).2.2.2.2.2 (writeBy (by decide +kernel))).1 1).2.2 0x24 7 (by decide +kernel)⟩,
    ⟨_, (((h 0 (s18 0 1 2 id) (invBy (by decide +kernel)) (by decide +kernel)).2.2.2.2.2 (writeBy (by decide +kernel))).1 1).2.2 0 7 (by decide +kernel)⟩,
    ⟨_, (((h 0 d18 (invBy (by decide +kernel)) (by decide +kernel)).2.2.2.2.2 (writeBy (by decide +kernel))).1 1).2.2 4 0xFF (by decide +kernel)⟩,
    ⟨_, ((h 1 p18 (invBy (by decide +kernel)) (by decide +kernel)).2.2.2.2.2 (writeBy (by decide +kernel))).2.1⟩,
    ⟨_, ((h 1 p18 (invBy (by decide +kernel)) (by decide +kernel)).2.2.2.2.2 (writeBy (by decide +kernel))).2.2.1⟩,
    ⟨_, ((h 1 p18 (invBy (by decide +kernel)) (by decide +kernel)).2.2.2.2.2 (writeBy (by decide +kernel))).2.2.2⟩,
    ⟨_, ((h 0 d18 (invBy (by decide +kernel)) (by decide +kernel)).2.2.2.2.2 (writeBy (by decide +kernel))).2.2.2⟩⟩

def fr (id : Nat) (l : List Byte) : CanFrame := { id := BitVec.ofNat 29 id, ide := false, fdf := false, brs := false, rtr := false, dlc := Fin.ofNat 16 l.length, data := l }
def wFlt (f : Nat) : List Word := (flt 0 f (16 * (f + 1))).w
def full18 : State := s18 2 1 3 fun x => { x with fifo := List.replicate 64 rx18, rec_ := 200 }
def ms18 : State := s18 1 1 2 id
def fo18 : State := let s := s18 2 1 2 id; { s with net := { s.net with sync := true, evalAt := 100000, slewAt := some 120000, slew := 3, r := 1/1000, anchorT := 100000, anchorN := 5000 } }
theorem test_meets_CanReceivesAndKeepsNetworkTime (h : Obligations.CanReceivesAndKeepsNetworkTime) :
    (∃ P, Runs (.canFrameReceived 0 (fr 85 [1, 2]) 30) (d18) P)
      ∧ (∃ P, Runs (.canFrameReceived 0 (fr 51 [1, 2]) 30) (d18) P)
      ∧ (∃ P, Runs (.canFrameReceived 0 (fr 32 [1, 2]) 30) (d18) P)
      ∧ (∃ P, Runs (.canFrameReceived 0 (fr 32 [1, 2]) 30) (full18) P)
      ∧ (∃ P, Runs (.referenceMessageDue) (ms18) P)
      ∧ (∃ P, Runs (.ntloss) (fo18) P)
      ∧ (∃ P, Runs (.slewEnd) (fo18) P)
      ∧ (∃ P, Runs (.cnNtsethiWrite 7) (ms18) P)
      ∧ (∃ P, Runs (.cnNtsethiWrite 7) (fo18) P)
      ∧ (∃ P, Runs (.cnNtloRead) (fo18) P) :=
  ⟨⟨_, ((h d18 (invBy (by decide +kernel))).1 0 (fr 0x55 [1,2]) 30 (by decide +kernel) (by decide +kernel)).1 (by decide +kernel) (by decide +kernel) (by decide +kernel)⟩,
    ⟨_, ((h d18 (invBy (by decide +kernel))).1 0 (fr 0x33 [1,2]) 30 (by decide +kernel) (by decide +kernel)).2 (by decide +kernel) (by decide +kernel) |>.1 (by decide +kernel)⟩,
    ⟨_, ((h d18 (invBy (by decide +kernel))).1 0 (fr 0x20 [1,2]) 30 (by decide +kernel) (by decide +kernel)).2 (by decide +kernel) (by decide +kernel) |>.2 1 (wFlt 1) (by decide +kernel) (by decide +kernel) (by decide +kernel)⟩,
    ⟨_, ((h full18 (invBy (by decide +kernel))).1 0 (fr 0x20 [1,2]) 30 (by decide +kernel) (by decide +kernel)).2 (by decide +kernel) (by decide +kernel) |>.2 1 (wFlt 1) (by decide +kernel) (by decide +kernel) (by decide +kernel)⟩,
    ⟨_, (h ms18 (invBy (by decide +kernel))).2.1 0 (by decide +kernel) (by decide +kernel)⟩,
    ⟨_, (h fo18 (invBy (by decide +kernel))).2.2.1 0 (by decide +kernel) (by decide +kernel) (by decide +kernel)⟩,
    ⟨_, (h fo18 (invBy (by decide +kernel))).2.2.2.1 120000 (by decide +kernel)⟩,
    ⟨_, (h ms18 (invBy (by decide +kernel))).2.2.2.2.1 7 (writeBy (by decide +kernel))⟩,
    ⟨_, (h fo18 (invBy (by decide +kernel))).2.2.2.2.1 7 (writeBy (by decide +kernel))⟩,
    ⟨_, (h fo18 (invBy (by decide +kernel))).2.2.2.2.2 (readBy (by decide +kernel))⟩⟩


/-! ## Values the manual works out, and the published vectors of the algorithms it names -/

/-- "123456789". -/
def digits : List Byte := [0x31, 0x32, 0x33, 0x34, 0x35, 0x36, 0x37, 0x38, 0x39]

/-- R21: the CRC-8 of "123456789". -/
theorem test_crc8_digits : crc8 digits = 0xDF := by decide +kernel

/-- R517: the CRC-32 of "123456789". -/
theorem test_crc32_digits : crc32 digits = 0x1697D06A := by decide +kernel

/-- FIPS 180-4, the hash of "abc" (R51 names SHA-256). -/
theorem test_sha256_abc :
    (sha256 [0x61, 0x62, 0x63]).take 8 = [0xBA, 0x78, 0x16, 0xBF, 0x8F, 0x01, 0xCF, 0xEA] := by decide +kernel

/-- FIPS 197, appendix B (R368 names AES-128). -/
theorem test_aes_appendix_b :
    (aesEnc [0x2B, 0x7E, 0x15, 0x16, 0x28, 0xAE, 0xD2, 0xA6, 0xAB, 0xF7, 0x15, 0x88, 0x09, 0xCF, 0x4F, 0x3C]
        [0x32, 0x43, 0xF6, 0xA8, 0x88, 0x5A, 0x30, 0x8D, 0x31, 0x31, 0x98, 0xA2, 0xE0, 0x37, 0x07, 0x34]).take 4
      = [0x39, 0x25, 0x84, 0x1D] := by decide +kernel

/-- 00_scope.md, "composing a fault code". -/
theorem test_fault_code_example : faultCode .ds 5 3 3 = 0x94C3 := by decide

/-- The engine of 07_lantern_engines.md, "converting coefficients and running one evaluation", before its evaluation: I is 12 V. -/
def engEx : Eng :=
  { act := [0x26, 0x6CCCCCCD, 0x51EB851F, 0, 0, 0x60606060, 0x40000000, 0, 0, 0, 0x0000FB00, 0x000001FB, 0, 0, 0, 0xFFFD8000, 0x00028000]
    st := List.replicate 18 0 ++ [12, 0, 0, 0] }

/-- One evaluation with the example's inputs: SP 40 A, MEAS 38.5 A, FF 28 V, GS 1. -/
def engOut (x : Eng) : RunOut :=
  runEval x (fun k => ([-16, -16, -12, -12, -12, -12, -12, -30] : List Int).getD k 0) (-12)
    [40 * 65536, 2523136, 28 * 4096, 100 * 4096, -100 * 4096, 0, 0, 2 ^ 30] false false

/-- The same example: the latch, the mantissas of I and x_p, the exponents of PID and OLIM. -/
theorem test_engine_example :
    (engOut engEx).eng.latch = 163840 ∧ wat (engOut engEx).eng.st 18 = 807319634 ∧ wat (engOut engEx).eng.st 20 = 100663296
      ∧ (engOut engEx).eng.bexp.drop 2 = [BitVec.ofInt 8 (-26), BitVec.ofInt 8 (-29)] := by decide +kernel

/-- The same example: the next evaluation withholds the integral step, and I is 11.9993 V. -/
theorem test_engine_example_next :
    (engOut (engOut engEx).eng).eng.istopped = true
      ∧ ((stOf (engOut (engOut engEx).eng).eng).i * 10000).floor = 119992 := by decide +kernel

/-! ## Single steps -/

/-- An idle cycle advances the cycle count. -/
theorem test_idle_cycle :
    (match step State.reset with | .next t => t.now | _ => 0) = State.reset.now + 1 := by rfl

/-! ## Ill-formed commands -/

/-- A request header. -/
def reqIll : Req := ⟨.spi, 1, 0, 0, 0, 0, 0, true⟩

/-- Bytes of a given number. -/
def bytesIll (n : Nat) : List Byte := List.replicate n 0

theorem test_ill_superframe : WellFormed (.superframeReceived .cs (bytesIll 199) none) = false := by decide
theorem test_ill_img_write : WellFormed (.imgWrite reqIll 0 (bytesIll 249)) = false := by decide
theorem test_ill_stg_write : WellFormed (.stgWrite reqIll 0 (bytesIll 249)) = false := by decide
theorem test_ill_safe_frame : WellFormed (.safeFrame reqIll (bytesIll 253)) = false := by decide
theorem test_ill_key_enrol : WellFormed (.keyEnrol reqIll 0 0 0 0 (bytesIll 63) (bytesIll 64) 0) = false
    ∧ WellFormed (.keyEnrol reqIll 0 0 0 0 (bytesIll 64) (bytesIll 65) 0) = false := by decide
theorem test_ill_key_revoke : WellFormed (.keyRevoke reqIll 0 0 (bytesIll 5) (bytesIll 64) 0) = false
    ∧ WellFormed (.keyRevoke reqIll 0 0 (bytesIll 6) (bytesIll 63) 0) = false := by decide
theorem test_ill_seal : WellFormed (.sealForReturn reqIll 0 (bytesIll 2) (bytesIll 64) 0) = false
    ∧ WellFormed (.sealForReturn reqIll 0 (bytesIll 3) (bytesIll 65) 0) = false := by decide
theorem test_ill_host_write : WellFormed (.hostWrite reqIll 0 (List.replicate 64 0)) = false := by decide
theorem test_ill_sample : WellFormed (.sample .ds 0 (List.replicate 9 0)) = false := by decide
theorem test_ill_entry_accept : WellFormed (.entryAccept .ds (List.replicate 9 0)) = false := by decide
theorem test_ill_ssi : WellFormed (.ssiFrameComplete 0 (List.replicate 65 true)) = false := by decide
theorem test_ill_can_id : WellFormed (.canFrameReceived 0 ⟨2048, false, true, false, false, 0, []⟩ 0) = false := by decide
theorem test_ill_can_length : WellFormed (.canFrameReceived 0 ⟨1, false, false, false, false, 9, bytesIll 9⟩ 0) = false := by decide
theorem test_ill_can_remote : WellFormed (.canFrameReceived 0 ⟨1, false, true, false, true, 0, []⟩ 0) = false := by decide
theorem test_ill_can_brs : WellFormed (.canFrameReceived 0 ⟨1, false, false, true, false, 0, []⟩ 0) = false := by decide
theorem test_ill_can_tec : WellFormed (.canBusError 0 false false 512 0) = false := by decide
theorem test_ill_can_rec : WellFormed (.canBusError 0 false false 0 256) = false := by decide


end Sys2Proof.Tests
end

section
namespace Sys2Proof.Machine

/-- The parts of a list as a mask. -/
def mask (P : List Part) : Nat := P.foldr (fun p m => 2 ^ p.ctorIdx ||| m) 0

theorem Part.ctorIdx_injective : Function.Injective Part.ctorIdx :=
  Function.LeftInverse.injective (g := Part.ofNat) Part.ofNat_ctorIdx

/-- The mask of a list has the bits of its parts. -/
theorem testBit_mask (P : List Part) (p : Part) : (mask P).testBit p.ctorIdx = decide (p ∈ P) := by
  induction P with
  | nil => simp [mask]
  | cons q P ih =>
    rw [mask, List.foldr_cons, ← mask, Nat.testBit_or, ih, Nat.testBit_two_pow]
    simp [Part.ctorIdx_injective.eq_iff, eq_comm]

/-- From s to t nothing but the named parts differs, time has not run back, memory is still canonical, the units as
many. -/
def Touches (P : List Part) (s t : State) : Prop := Moves (mask P) s t

namespace Touches

variable {P Q : List Part} {s t u : State}

theorem refl (P : List Part) (s : State) : Touches P s s := Moves.refl _ s

theorem mono (hQ : Q ⊆ P) (h : Touches Q s t) : Touches P s t :=
  ⟨fun p hp => h.same p (by
    rw [testBit_mask, decide_eq_false_iff_not] at hp ⊢
    exact fun k => hp (hQ k)), h.time, h.mem, h.size⟩

theorem trans (h : Touches P s t) (k : Touches P t u) : Touches P s u := Moves.via h k (Nat.or_self _)

/-- One operation, that touches no more, after what came before. -/
theorem after (hQ : Q ⊆ P) (k : Touches Q t u) (h : Touches P s t) : Touches P s u := h.trans (mono hQ k)

theorem onlyChanges (h : Touches P s t) : OnlyChanges P s t :=
  fun p hp => h.same p (by rw [testBit_mask]; simpa using hp)

/-- A part that is not named is the same. -/
theorem agree (h : Touches P s t) (p : Part) (hp : p ∉ P) : p.agree s t := h.onlyChanges p hp

/-- An update of the named parts that keeps the time, memory and the units. -/
theorem of_update (h : ∀ p : Part, p.agree s (if p ∈ P then s else t)) (hn : t.now = s.now) (hm : t.mem = s.mem)
    (hs : shape t = shape s) : Touches P s t where
  same p hp := by
    rw [testBit_mask, decide_eq_false_iff_not] at hp
    simpa [hp] using h p
  time := Nat.le_of_eq hn.symm
  mem w := hm ▸ w
  size w := hs.trans w

theorem ite {c : Prop} [Decidable c] (h : c → Touches P s t) (k : ¬c → Touches P s u) :
    Touches P s (if c then t else u) :=
  Moves.ite h k

/-- An operation that is made only under a condition. -/
theorem ite_self {c : Prop} [Decidable c] (h : Touches P s t) :
    Touches P s (if c then t else s) := ite (fun _ => h) fun _ => refl P s

theorem foldl {α : Type} {f : State → α → State} (hf : ∀ t x, Touches P t (f t x)) (l : List α) (s : State) :
    Touches P s (l.foldl f s) := Moves.foldl hf l s (Moves.refl _ s)

end Touches

/-! ## Updates of one part -/

theorem advanceTo_touches (s : State) (t : Nat) : Touches [.now] s (s.advanceTo t) where
  same p hp := by
    have k := p.agree_refl s
    cases p
    case now => exact absurd hp (by decide)
    all_goals exact k
  time := le_max_left _ _
  mem := id
  size := id

theorem useFree_touches (s : State) : Touches [.freeCtr] s s.useFree :=
  .of_update (fun p => by have k := p.agree_refl s; cases p <;> exact k) rfl rfl rfl

theorem freeCtr_touches (s : State) (n : Nat) : Touches [.freeCtr] s { s with freeCtr := n } :=
  .of_update (fun p => by have k := p.agree_refl s; cases p <;> exact k) rfl rfl rfl

theorem clk_touches (s : State) (v : Clocks) : Touches [.clk] s { s with clk := v } :=
  .of_update (fun p => by have k := p.agree_refl s; cases p <;> exact k) rfl rfl rfl

theorem sysEvt_touches (s : State) (v : Word) : Touches [.sysEvt] s { s with sys := { s.sys with sysEvt := v } } :=
  .of_update (fun p => by have k := p.agree_refl s; cases p <;> exact k) rfl rfl rfl

theorem hostEvt_touches (s : State) (v : Word) : Touches [.hostEvt] s { s with host := { s.host with evt := v } } :=
  .of_update (fun p => by have k := p.agree_refl s; cases p <;> exact k) rfl rfl rfl

theorem inbox_touches (s : State) (v : List WrMsg) : Touches [.inbox] s { s with wr := { s.wr with inbox := v } } :=
  .of_update (fun p => by have k := p.agree_refl s; cases p <;> exact k) rfl rfl rfl

theorem early_touches (s : State) (v : List (List Word)) :
    Touches [.kpLog] s { s with kp := { s.kp with early := v } } :=
  .of_update (fun p => by have k := p.agree_refl s; cases p <;> exact k) rfl rfl rfl

theorem seqNo_touches (s : State) (v : BitVec 16) : Touches [.kpLog] s { s with kp := { s.kp with seqNo := v } } :=
  .of_update (fun p => by have k := p.agree_refl s; cases p <;> exact k) rfl rfl rfl

theorem ctrs_touches (s : State) (v : List Ctr) : Touches [.ctrs] s { s with ctrs := v } :=
  .of_update (fun p => by have k := p.agree_refl s; cases p <;> exact k) rfl rfl rfl

theorem evq_touches (s : State) (v : List DsEvent) : Touches [.evq] s { s with x := { s.x with evq := v } } :=
  .of_update (fun p => by have k := p.agree_refl s; cases p <;> exact k) rfl rfl rfl

theorem qovf_touches (s : State) (n : Nat) (v : Bool) :
    Touches [.evq] s { s with x := { s.x with lost := n, qovfDue := v } } :=
  .of_update (fun p => by have k := p.agree_refl s; cases p <;> exact k) rfl rfl rfl

theorem x_touches (s : State) (v : Crossing) : Touches [.x, .evq] s { s with x := v } :=
  .of_update (fun p => by have k := p.agree_refl s; cases p <;> exact k) rfl rfl rfl

theorem ctrsX_touches (s : State) (v : List Ctr) (w : Crossing) :
    Touches [.ctrs, .x, .evq] s { s with ctrs := v, x := w } :=
  .of_update (fun p => by have k := p.agree_refl s; cases p <;> exact k) rfl rfl rfl

/-- An update of the crossing that leaves its fault-event queue. -/
theorem xing_touches (s : State) (v : Crossing) (h : v.evq = s.x.evq ∧ v.lost = s.x.lost ∧ v.qovfDue = s.x.qovfDue) :
    Touches [.x] s { s with x := v } := by
  refine .of_update (fun p => ?_) rfl rfl rfl
  have k := p.agree_refl s
  cases p
  case evq => exact h
  all_goals exact k

theorem xSup_touches (s : State) (v : Crossing) (w : Supply)
    (h : v.evq = s.x.evq ∧ v.lost = s.x.lost ∧ v.qovfDue = s.x.qovfDue) :
    Touches [.x, .sup] s { s with x := v, sup := w } := by
  refine .of_update (fun p => ?_) rfl rfl rfl
  have k := p.agree_refl s
  cases p
  case evq => exact h
  all_goals exact k

theorem lamp_touches (s : State) (v : Lamp) : Touches [.lamp] s { s with lamp := v } :=
  .of_update (fun p => by have k := p.agree_refl s; cases p <;> exact k) rfl rfl rfl

theorem lampTemp_touches (s : State) (v : Lamp) (w : List Temp) (h : w.length = s.temp.length) :
    Touches [.temp, .lamp] s { s with lamp := v, temp := w } :=
  .of_update (fun p => by have k := p.agree_refl s; cases p <;> exact k) rfl rfl (by simp [shape, h])

theorem ac_touches (s : State) (v : Ac) : Touches [.ac] s { s with ac := v } :=
  .of_update (fun p => by have k := p.agree_refl s; cases p <;> exact k) rfl rfl rfl

theorem setBeams_touches (s : State) (d : Die) (v : List Beam) (h : v.length = (s.beams d).length) :
    Touches [.beamsCs, .beamsDs] s (s.setBeams d v) := by
  cases d <;>
    exact .of_update (fun p => by have k := p.agree_refl s; cases p <;> exact k) rfl rfl
      (by simp_all [shape, State.beams, State.setBeams])

theorem setLh_touches (s : State) (d : Die) (v : Lh) (h : v.lanes.length = (s.lh d).lanes.length) :
    Touches [.lhCs, .lhDs] s (s.setLh d v) := by
  cases d <;>
    exact .of_update (fun p => by have k := p.agree_refl s; cases p <;> exact k) rfl rfl
      (by simp_all [shape, State.lh, State.setLh])

theorem pwmCs_touches (s : State) (v : Pwm) (hg : v.grps.length = s.pwmCs.grps.length)
    (hc : v.chans.length = s.pwmCs.chans.length) : Touches [.pwmCs] s { s with pwmCs := v } :=
  .of_update (fun p => by have k := p.agree_refl s; cases p <;> exact k) rfl rfl (by simp [shape, hg, hc])

theorem pwmDs_touches (s : State) (v : Pwm) (hg : v.grps.length = s.pwmDs.grps.length)
    (hc : v.chans.length = s.pwmDs.chans.length) : Touches [.pwmDs] s { s with pwmDs := v } :=
  .of_update (fun p => by have k := p.agree_refl s; cases p <;> exact k) rfl rfl (by simp [shape, hg, hc])

theorem setPwm_touches (s : State) (d : Die) (v : Pwm) (hg : v.grps.length = (s.pwm d).grps.length)
    (hc : v.chans.length = (s.pwm d).chans.length) : Touches [.pwmCs, .pwmDs] s (s.setPwm d v) := by
  cases d
  · exact .mono (by decide) (pwmCs_touches s v hg hc)
  · exact .mono (by decide) (pwmDs_touches s v hg hc)

theorem modBeam_touches (s : State) (d : Die) (n : Nat) (f : Beam → Beam) :
    Touches [.beamsCs, .beamsDs] s (s.modBeam d n f) :=
  setBeams_touches s d _ (List.length_modify ..)

theorem modLane_touches (s : State) (d : Die) (n : Nat) (f : Lane → Lane) :
    Touches [.lhCs, .lhDs] s (s.modLane d n f) :=
  setLh_touches s d _ (List.length_modify ..)

theorem modChan_touches (s : State) (d : Die) (n : Nat) (f : Chan → Chan) :
    Touches [.pwmCs, .pwmDs] s (s.modChan d n f) :=
  setPwm_touches s d _ rfl (List.length_modify ..)

theorem modLink_touches (s : State) (d : Die) (f : Link → Link) : Touches [.x] s (s.modLink d f) := by
  cases d <;> exact xing_touches s _ ⟨rfl, rfl, rfl⟩

theorem buoys_touches (s : State) (v : List Buoy) (h : v.length = s.buoys.length) :
    Touches [.buoys] s { s with buoys := v } :=
  .of_update (fun p => by have k := p.agree_refl s; cases p <;> exact k) rfl rfl (by simp [shape, h])

theorem modBuoy_touches (s : State) (n : Nat) (f : Buoy → Buoy) : Touches [.buoys] s (s.modBuoy n f) :=
  buoys_touches s _ (List.length_modify ..)

theorem modMach_touches (s : State) (n : Nat) (f : Mach → Mach) : Touches [.mach] s (s.modMach n f) :=
  .of_update (fun p => by have k := p.agree_refl s; cases p <;> exact k) rfl rfl (by simp [shape, upd])

theorem modCandle_touches (s : State) (n : Nat) (f : Candle → Candle) : Touches [.candle] s (s.modCandle n f) :=
  .of_update (fun p => by have k := p.agree_refl s; cases p <;> exact k) rfl rfl (by simp [shape, upd])

theorem modConv_touches (s : State) (n : Nat) (f : Conv → Conv) : Touches [.conv] s (s.modConv n f) :=
  .of_update (fun p => by have k := p.agree_refl s; cases p <;> exact k) rfl rfl (by simp [shape, upd])

theorem modAct_touches (s : State) (n : Nat) (f : Act → Act) : Touches [.gact] s (s.modAct n f) :=
  .of_update (fun p => by have k := p.agree_refl s; cases p <;> exact k) rfl rfl (by simp [shape, upd])

/-- An update of the Watch Room that leaves what reports to it. -/
theorem wr_touches (s : State) (v : Wr) (h : v.inbox = s.wr.inbox) : Touches [.wr] s { s with wr := v } := by
  refine .of_update (fun p => ?_) rfl rfl rfl
  have k := p.agree_refl s
  cases p
  case inbox => exact h
  all_goals exact k

theorem modWr_touches (s : State) (f : Wr → Wr) (h : (f s.wr).inbox = s.wr.inbox) : Touches [.wr] s (s.modWr f) :=
  wr_touches s _ h

/-- An update of the protection unit that keeps the number of comparators and machines. -/
theorem prot_touches (s : State) (v : Prot) (ht : v.trip.length = s.prot.trip.length)
    (hh : v.hard.length = s.prot.hard.length)
    (hg : v.gc.length = s.prot.gc.length) (hm : v.msafe.length = s.prot.msafe.length) :
    Touches [.prot] s { s with prot := v } :=
  .of_update (fun p => by have k := p.agree_refl s; cases p <;> exact k) rfl rfl (by simp [shape, ht, hh, hg, hm])

/-! ## Counted events -/

/-- A record's place lies in the fault log. -/
theorem logAddr_out {a : Nat} (idx : Nat) (h : inLog a = false) : a < logAddr idx ∨ logAddr idx + 32 ≤ a := by
  have hi : 32 * (idx % logSize) + 32 ≤ 32 * logSize := Nat.mul_le_mul_left 32 (Nat.mod_lt idx (by simp [logSize]))
  rcases Bool.and_eq_false_iff.1 h with h | h
  · exact .inl (Nat.lt_of_lt_of_le (Nat.not_le.1 (of_decide_eq_false h)) (Nat.le_add_right _ _))
  · exact .inr (Nat.le_trans (Nat.add_le_add_left hi _) (Nat.not_lt.1 (of_decide_eq_false h)))

/-- A record written into the log. -/
theorem logWrite_touches (s : State) (idx n : Nat) (w : List Word) (hw : w.length ≤ 8) :
    Touches [.log, .logNext] s { s with mem := memPutWords s.mem (logAddr idx) w, nv := { s.nv with logNext := n } } where
  same p hp := by
    have k := p.agree_refl s
    cases p
    case mem =>
      intro a ha
      refine memGet_memPutWords_out w s.mem ?_
      have := logAddr_out idx ha
      omega
    case log => exact absurd hp (by decide)
    case logNext => exact absurd hp (by decide)
    all_goals exact k
  time := Nat.le_refl _
  mem := Memory.wf_memPutWords _ _
  size := id

theorem logAppend_touches (s : State) (w : List Word) : Touches trace s (logAppend s w) := by
  refine .trans (.mono (by decide) (sysEvt_touches s (orBit s.sys.sysEvt 3))) (.ite (fun _ => .ite_self ?_) fun _ => ?_)
  · exact .mono (by decide) (logWrite_touches _ _ _ _ (by simp))
  · exact .mono (by decide) (early_touches _ _)

theorem csDeclare_touches (s : State) (e : Ev) (wc : Nat) : Touches trace s (csDeclare s e wc) :=
  .after (by decide) (inbox_touches _ _) <| .after (by decide) (logAppend_touches _ _) <|
    .mono (by decide) (seqNo_touches s _)

theorem dsEvent_touches (s : State) (code : BitVec 16) (elem wc unit mac kind : Nat) (detail : Word) :
    Touches [.evq] s (dsEvent s code elem wc unit mac kind detail) :=
  .ite (fun _ => evq_touches _ _) fun _ => qovf_touches _ _ _

theorem declare_touches (s : State) (e : Ev) (wc : Nat) : Touches trace s (declare s e wc) := by
  unfold declare
  split
  · exact csDeclare_touches _ _ _
  · exact .mono (by decide) (dsEvent_touches ..)

theorem release_touches (s : State) (c : Ctr) : Touches trace s (release s c) := by
  unfold release
  split
  · exact .mono (by decide) (inbox_touches _ _)
  · exact .mono (by decide) (dsEvent_touches ..)

theorem countOnce_touches (s : State) (e : Ev) : Touches trace s (countOnce s e) :=
  .ite_self <|
    .trans (.after (by decide) (ctrs_touches _ _) (.ite_self (release_touches _ _))) (.ite_self (declare_touches _ _ _))

/-- What the log does after records were appended. -/
theorem logWatch_touches (s s' : State) : Touches trace s' (logWatch s s') :=
  .ite (fun _ => .after (by decide) (countOnce_touches _ _) (.mono (by decide) (hostEvt_touches _ _)))
    fun _ => .ite_self (.after (by decide) (countOnce_touches _ _) (.mono (by decide) (useFree_touches _)))

/-- A counted event touches what the statements call its trace (R16, R33, R78 to R81, R521). -/
theorem countEvent_touches (s : State) (e : Ev) : Touches trace s (countEvent s e) :=
  (countOnce_touches s e).trans (logWatch_touches _ _)

theorem logFault_touches (s : State) (w : List Word) : Touches trace s (logFault s w) :=
  .after (by decide) (logWatch_touches _ _) <| .after (by decide) (logAppend_touches _ _) <|
    .mono (by decide) (seqNo_touches s _)

theorem wrSignal_touches (s : State) (n : Nat) : Touches (traced [.wr]) s (wrSignal s n) :=
  .after (by decide) (countEvent_touches _ _) <| .mono (by decide) (wr_touches s _ rfl)

end Sys2Proof.Machine
end

section
namespace Sys2Proof.Machine

/-! ## Protection: latches, severity, overrides (R323 to R335) -/

/-- What a latch may touch beside the trace: its unit, the DS lanes (reaction pages, PRIO), the overrides of the DS channels and
the inhibition of traction they bring (R323 to R335, R460, R463). -/
def protParts : List Part := traced [.lhCs, .lhDs, .pwmDs, .prot, .temp, .lamp]

theorem swapRequest_touches (s : State) (d : Die) (l rank page : Nat) :
    Touches [.lhCs, .lhDs] s (swapRequest s d l rank page) :=
  .ite_self (modLane_touches _ _ _ _)

theorem requestReaction_touches (s : State) (lvl l : Nat) : Touches [.lhCs, .lhDs] s (requestReaction s lvl l) := by
  unfold requestReaction
  split
  · exact .ite_self (swapRequest_touches _ _ _ _ _)
  · exact .refl _ _

theorem applySafe_touches (s : State) (lvl : Nat) (entered : Bool) : Touches [.prot] s (applySafe s lvl entered) :=
  prot_touches s _ rfl rfl rfl List.length_mapIdx

theorem inhNote_touches (s : State) : Touches [.temp, .lamp] s (inhNote s) :=
  .ite (fun _ => .mono (by decide) (lamp_touches _ _)) fun _ => lampTemp_touches s _ _ (List.length_map _)

theorem applyOverrides_touches (s : State) : Touches [.pwmDs, .temp, .lamp] s (applyOverrides s) :=
  .ite_self <| .after (by decide) (inhNote_touches _) <| .mono (by decide) (pwmDs_touches _ _ rfl List.length_mapIdx)

/-- The severity follows the latches (R326, R335). -/
theorem setSeverity_touches (s : State) : Touches [.lhCs, .lhDs, .pwmDs, .prot, .temp, .lamp] s (setSeverity s) := by
  refine .after (by decide) (applyOverrides_touches _) (.trans (.trans ?safe (.ite_self ?pages)) (.ite_self ?prio))
  case safe =>
    exact .after (by decide) (applySafe_touches _ _ _) <|
      .mono (by decide) (prot_touches s _ rfl rfl rfl rfl)
  case pages => exact .mono (by decide) (Touches.foldl (fun t l => requestReaction_touches t _ l) _ _)
  case prio => exact .mono (by decide) (setLh_touches _ .ds _ (List.length_map _))

theorem logLatch_touches (s : State) (l : Latch) : Touches [.prot] s (logLatch s l) :=
  .ite (fun _ => prot_touches s _ rfl rfl rfl rfl) fun _ => prot_touches s _ rfl rfl rfl rfl

theorem addLatch_touches (s : State) (src suspect : Nat) : Touches [.prot] s (addLatch s src suspect) := by
  unfold addLatch
  split
  · exact .refl _ _
  · exact .ite (fun _ => .refl _ _) fun _ => .after (by decide) (logLatch_touches _ _) <|
      .mono (by decide) (prot_touches s _ rfl rfl rfl rfl)

theorem endConfined_touches (s : State) : Touches [.prot] s (endConfined s) :=
  .ite_self (prot_touches s _ rfl rfl rfl (List.length_map _))

theorem countFixed_touches (s : State) (src d : Nat) : Touches trace s (countFixed s src d) :=
  .ite (fun _ => .refl _ _) fun _ => countEvent_touches _ _

theorem checkOpp_touches (s : State) (by_ : Nat) : Touches protParts s (checkOpp s by_) :=
  .ite_self <| .after (by decide) (countFixed_touches _ _ _) <| .after (by decide) (setSeverity_touches _) <|
    .after (by decide) (endConfined_touches _) <|
    .mono (by decide) (addLatch_touches _ _ _)

/-- A source that latches touches what protection touches and what counting its event does. -/
theorem latchWith_touches {P : List Part} (hP : protParts ⊆ P) (s : State) (src suspect : Nat) {cnt : State → State}
    (hc : ∀ t, Touches P t (cnt t)) : Touches P s (latchWith s src suspect cnt) := by
  refine .trans (.trans ?latch (hc _)) (.ite_self (.mono (List.Subset.trans (by decide) hP) (countFixed_touches _ _ _)))
  refine .mono hP <| .after (by decide) (setSeverity_touches _) <| .after (by decide) (endConfined_touches _) ?_
  exact .trans (.mono (by decide) (addLatch_touches s src suspect)) (.ite_self (.mono (by decide) (addLatch_touches _ _ _)))

theorem latchFixed_touches (s : State) (src detail : Nat) : Touches protParts s (latchFixed s src detail) :=
  .ite_self (latchWith_touches (by decide) _ _ _ fun _ => .mono (by decide) (countFixed_touches _ _ _))

theorem latchPlain_touches {P : List Part} (hP : protParts ⊆ P) (s : State) (src : Nat) {cnt : State → State}
    (hc : ∀ t, Touches P t (cnt t)) : Touches P s (latchPlain s src cnt) :=
  .ite (fun _ => latchWith_touches hP _ _ _ hc) fun _ => hc _

/-! ## Anchors, beams, machines (R124, R134 to R137, R299 to R303) -/

theorem noteBeam_touches (s : State) (d : Die) (b : Nat) :
    Touches [.lhCs, .lhDs, .pwmCs, .pwmDs] s (noteBeam s d b) :=
  .after (by decide) (setPwm_touches _ d _ (by cases d <;> exact List.length_mapIdx) (by cases d <;> rfl)) <|
    .mono (by decide) (setLh_touches s d _ List.length_mapIdx)

/-- What a new anchor of a beam touches. -/
def beamParts : List Part := [.beamsCs, .beamsDs, .lhCs, .lhDs, .pwmCs, .pwmDs]

theorem setAnchor_touches (s : State) (d : Die) (b : Nat) (a : Anchor) : Touches beamParts s (setAnchor s d b a) :=
  .after (by decide) (modBeam_touches _ _ _ _) <| .mono (by decide) (noteBeam_touches s d b)

theorem reignOn_touches (s : State) (d : Die) (b : Nat) : Touches beamParts s (reignOn s d b) := setAnchor_touches ..

/-- What an event of a machine touches. -/
def machParts : List Part := .mach :: protParts

theorem wfEvent_touches (s : State) (m cause elem : Nat) (detail : Word) :
    Touches machParts s (wfEvent s m cause elem detail) :=
  .after (by decide) (Q := protParts)
      (latchPlain_touches (by decide) _ _ fun _ => .mono (by decide) (countEvent_touches _ _)) <|
    .mono (by decide) (modMach_touches s m _)

theorem posCheck_touches (s : State) : Touches machParts s (posCheck s) := by
  refine Touches.foldl (fun _ _ => .ite_self (.ite (fun _ => .mono (by decide) (modMach_touches _ _ _)) fun _ => .ite_self ?_)) _ _
  exact .after (by decide) (Q := machParts) (wfEvent_touches _ _ _ _ _) (.mono (by decide) (modMach_touches _ _ _))

theorem subCheck_touches (s : State) : Touches [.mach] s (subCheck s) :=
  Touches.foldl (fun _ _ => .ite_self <| .ite (fun _ => modMach_touches ..) fun _ => .ite (fun _ => modMach_touches ..) fun _ =>
    .ite_self (modMach_touches ..)) _ _

theorem suppCheck_touches (s : State) :
    Touches [.ac] s (suppCheck s) := .ite (fun _ => .refl _ _) fun _ => ac_touches _ _

theorem bmEvent_touches (s : State) (d : Die) (b cause : Nat) (detail : Word) :
    Touches (traced beamParts) s (bmEvent s d b cause detail) :=
  .after (by decide) (countEvent_touches _ _) <| .mono (by decide) (modBeam_touches s d b _)

theorem setUpd_touches (s : State) (d : Die) (b : Nat) (a : Anchor) : Touches beamParts s (setUpd s d b a) :=
  .after (by decide) (modBeam_touches _ _ _ _) (setAnchor_touches s d b a)

theorem moveFollowers_touches (s : State) (d : Die) (b : Nat) : Touches beamParts s (moveFollowers s d b) :=
  Touches.foldl (fun t b' => setUpd_touches t d b' _) _ _

theorem stalePolicy_touches (s : State) (d : Die) (b : Nat) : Touches beamParts s (stalePolicy s d b) := by
  have run (a : Anchor) (f : Beam → Beam) : Touches beamParts s (moveFollowers ((setAnchor s d b a).modBeam d b f) d b) :=
    .after (by decide) (moveFollowers_touches _ _ _) <|
      .after (by decide) (modBeam_touches _ _ _ _) (setAnchor_touches s d b a)
  unfold stalePolicy
  split
  · exact run _ _
  · refine .ite (fun _ => run _ _) fun _ => .ite (fun _ => ?_) fun _ => run _ _
    split <;> exact run _ _

theorem enterStale_touches (s : State) (b cond : Nat) : Touches (traced beamParts) s (enterStale s b cond) := by
  refine .trans ?_ (.ite_self (bmEvent_touches _ _ _ _ _))
  exact .after (by decide) (modBeam_touches _ _ _ _) <| .mono (by decide) (stalePolicy_touches s _ b)

/-- What the stale evaluation touches. -/
def staleParts : List Part := [.beamsCs, .beamsDs, .pwmCs] ++ machParts

theorem staleCheck_touches (s : State) : Touches staleParts s (staleCheck s) := by
  refine .after (by decide) (posCheck_touches _) (Touches.foldl (fun t b => .ite_self ?_) _ _)
  split
  · exact .mono (by decide) (enterStale_touches _ _ _)
  · exact .refl _ _

theorem byFollow_touches (s : State) : Touches (.ac :: staleParts) s (byFollow s) :=
  .after (by decide) (staleCheck_touches _) <| .after (by decide) (suppCheck_touches _) <|
    .mono (by decide) (subCheck_touches s)

end Sys2Proof.Machine
end

section
namespace Sys2Proof.Machine

/-! ## Converters, gearbox, Candle units at a buoy update (R291, R384 to R397, R439) -/

theorem cvEnter_touches (s : State) (i st : Nat) : Touches [.conv, .pwmDs, .temp, .lamp] s (cvEnter s i st) :=
  .after (by decide) (applyOverrides_touches _) <| .mono (by decide) (modConv_touches s i _)

theorem cvOff_touches (s : State) (i : Nat) (seen : Bool) :
    Touches [.conv, .pwmDs, .temp, .lamp] s (cvOff s i seen) :=
  .after (by decide) (modConv_touches _ _ _) (cvEnter_touches s i 0)

theorem cvLatch_touches (s : State) (i cause : Nat) (detail : Word) :
    Touches (.conv :: protParts) s (cvLatch s i cause detail) :=
  .after (by decide) (Q := protParts)
      (latchPlain_touches (by decide) _ _ fun _ => .mono (by decide) (countEvent_touches _ _)) <|
    .mono (by decide) (modConv_touches s i _)

theorem cvOnUpdate_touches (s : State) (n : Nat) : Touches (.conv :: protParts) s (cvOnUpdate s n) := by
  refine Touches.foldl (fun _ _ => .ite (fun _ => .refl _ _) fun _ => ?_) _ _
  refine .trans (.ite_self (.mono (by decide) (modConv_touches _ _ _))) (.ite_self ?_)
  refine .trans (.mono (by decide) (modConv_touches _ _ _)) (.ite_self ?_)
  exact .after (by decide) (cvLatch_touches _ _ _ _) <| .mono (by decide) (cvEnter_touches _ _ _)

theorem holdLow_touches (s : State) (d : Die) (c : Nat) (hold : Bool) :
    Touches [.pwmCs, .pwmDs] s (holdLow s d c hold) :=
  modChan_touches ..

theorem gxOnUpdate_touches (s : State) (n : Nat) : Touches [.gact, .pwmCs, .pwmDs] s (gxOnUpdate s n) := by
  refine Touches.foldl (fun _ _ => .ite (fun _ => .refl _ _) fun _ => .ite (fun _ => ?_) fun _ =>
    .mono (by decide) (modAct_touches _ _ _)) _ _
  exact .after (by decide) (Touches.foldl (fun t c => holdLow_touches t .cs c true) _ _) <|
    .mono (by decide) (modAct_touches _ _ _)

theorem candleCross_touches (s : State) (m c : Nat) :
    Touches ([.freeCtr, .candle] ++ machParts) s (candleCross s m c) := by
  refine .trans (.trans (.trans (.after (by decide) (modCandle_touches _ _ _) ?free) (.ite_self ?cchk)) (.ite_self ?ugen))
    (.ite_self ?pend)
  case free => exact .ite_self (.mono (by decide) (useFree_touches _))
  case cchk => exact .mono (by decide) (wfEvent_touches _ _ _ _ _)
  case ugen => exact .mono (by decide) (wfEvent_touches _ _ _ _ _)
  case pend => exact .mono (by decide) (modCandle_touches _ _ _)

theorem bemfUpdate_touches (s : State) (m k : Nat) : Touches (.candle :: machParts) s (bemfUpdate s m k) := by
  have cross (f : Candle → Candle) (c : Nat) : Touches (.candle :: machParts) s (candleCross (s.modCandle m f) m c) :=
    .after (by decide) (candleCross_touches _ _ _) <| .mono (by decide) (modCandle_touches s m f)
  exact .ite (fun _ => .mono (by decide) (modCandle_touches _ _ _)) fun _ => .ite (fun _ => cross _ _) fun _ =>
    .ite (fun _ => cross _ _) fun _ => .mono (by decide) (modCandle_touches _ _ _)

/-- What the units that receive a buoy's update touch. -/
def receivedParts : List Part := [.candle, .conv, .gact, .pwmCs] ++ machParts

theorem dsSingle_touches (s : State) (e : Ev) : Touches [.evq] s (dsSingle s e) := dsEvent_touches ..

theorem byReceived_touches (s : State) (d : Die) (n : Nat) : Touches receivedParts s (byReceived s d n) := by
  cases d
  · exact .mono (by decide) (gxOnUpdate_touches _ _)
  · refine .after (by decide) (cvOnUpdate_touches _ _) (.trans ?ov3 (Touches.foldl (fun _ _ => .ite_self ?bemf) _ _))
    case bemf => exact Touches.foldl (fun _ _ => .ite_self (.mono (by decide) (bemfUpdate_touches _ _ _))) _ _
    case ov3 =>
      refine .ite_self (.trans (t := latchFixed s 0x51 _) (.mono (by decide) (latchFixed_touches _ _ _)) (.ite_self ?_))
      exact .mono (by decide) (dsSingle_touches _ _)

end Sys2Proof.Machine
end

section
namespace Sys2Proof.Machine

/-- What does not touch the time leaves it. -/
theorem Touches.now {P : List Part} {s t : State} (h : Touches P s t) (hP : .now ∉ P) :
    t.now = s.now := h.agree .now hP

/-! ## The two ends of the crossing -/

/-- What does not touch the crossing leaves both of its ends. -/
theorem Touches.link {P : List Part} {s t : State} (h : Touches P s t) (d : Die) (hP : .x ∉ P) :
    t.link d = s.link d := by
  have hx : { t.x with evq := [], lost := 0, qovfDue := false } = { s.x with evq := [], lost := 0, qovfDue := false } :=
    h.agree .x hP
  have hcs := congrArg Crossing.cs hx
  have hds := congrArg Crossing.ds hx
  cases d
  · exact hcs
  · exact hds

theorem modLink_link (s : State) (d : Die) (f : Link → Link) :
    (s.modLink d f).link d = f (s.link d) := (s.modLink_new d f).1

/-! ## Events sent and judged (R16) -/

theorem eventStart_touches (s : State) : Touches [.x, .evq, .ctrs] s (eventStart s) := by
  unfold eventStart
  split
  · exact .refl _ _
  refine .ite (fun _ => .refl _ _) fun _ => ?_
  split
  · exact .mono (by decide) (x_touches _ _)
  refine .ite (fun _ => ?_) fun _ => ?_
  · exact .mono (by decide) (ctrsX_touches _ _ _)
  · split
    · exact .mono (by decide) (x_touches _ _)
    · exact .refl _ _

theorem dsControl_touches (s : State) : Touches [.x, .evq, .ctrs] s (dsControl s).1 := by
  refine .trans (eventStart_touches s) ?_
  unfold dsControl
  dsimp only
  split <;> exact .mono (by decide) (x_touches _ _)

theorem judgeLost_touches (s : State) (f : SentFrag) : Touches [.x] s (judgeLost s f) := by
  unfold judgeLost
  split
  · exact .refl _ _
  · exact .ite_self (xing_touches _ _ ⟨rfl, rfl, rfl⟩)

theorem judgeGood_touches (s : State) (f : SentFrag) : Touches [.x] s (judgeGood s f) := by
  refine .trans ?_ (.ite_self (xing_touches _ _ ⟨rfl, rfl, rfl⟩))
  exact xing_touches s { s.x with cmdAcc := some f.cmd } ⟨rfl, rfl, rfl⟩

theorem judgeAll_touches (s : State) (start : Nat) (ack : Option Byte) : Touches [.x] s (judgeAll s start ack) := by
  refine .trans ?_ (Touches.foldl (fun _ _ => .ite (fun _ => judgeGood_touches _ _) fun _ => judgeLost_touches _ _) _ _)
  exact xing_touches s _ ⟨rfl, rfl, rfl⟩

/-- An update of the crossing that leaves its ends. -/
theorem link_setX (s : State) (v : Crossing) (d : Die) (hcs : v.cs = s.x.cs) (hds : v.ds = s.x.ds) :
    ({ s with x := v } : State).link d = s.link d := by
  cases d
  · exact hcs
  · exact hds

theorem link_ite {c : Prop} [Decidable c] {t u : State} {d : Die} {l : Link} (h : t.link d = l) (k : u.link d = l) :
    (if c then t else u).link d = l := by split <;> assumption

theorem judgeLost_link (s : State) (f : SentFrag) (d : Die) : (judgeLost s f).link d = s.link d := by
  unfold judgeLost
  split
  · rfl
  · exact link_ite (link_setX s _ d rfl rfl) rfl

theorem judgeGood_link (s : State) (f : SentFrag) (d : Die) : (judgeGood s f).link d = s.link d :=
  link_ite ((link_setX _ _ d rfl rfl).trans (link_setX s _ d rfl rfl)) (link_setX s _ d rfl rfl)

/-- A judgement leaves both ends of the crossing. -/
theorem judgeAll_link (s : State) (start : Nat) (ack : Option Byte) (d : Die) :
    (judgeAll s start ack).link d = s.link d := by
  refine List.foldlRecOn _ _ (motive := fun t => State.link t d = s.link d) (link_setX s _ d rfl rfl) fun t h f _ => ?_
  exact link_ite ((judgeGood_link t f d).trans h) ((judgeLost_link t f d).trans h)

/-! ## Crossing loss (R18, R136, R396) -/

theorem applyCsOverrides_touches (s : State) : Touches [.pwmCs] s (applyCsOverrides s) :=
  .ite_self (pwmCs_touches _ _ rfl List.length_mapIdx)

theorem xEvent_touches (s : State) (d : Die) (inst cause : Nat) :
    Touches trace s (xEvent s d inst cause) := countEvent_touches _ _

theorem convOnLoss_touches (s : State) : Touches [.conv, .pwmDs, .temp, .lamp] s (convOnLoss s) :=
  Touches.foldl (fun _ _ => .ite_self (cvOff_touches _ _ _)) _ _

/-- What crossing loss touches beside the end that notes it. -/
def lossParts : List Part := [.buoys, .conv, .ac] ++ staleParts

/-- Crossing loss: the end notes it, and nothing that follows touches the crossing. -/
theorem lossEnter_touches (s : State) (d : Die) (cause : Nat) :
    Touches lossParts (s.modLink d fun l => { l with loss := true }) (lossEnter s d cause) := by
  have far (t : State) : Touches lossParts t ((List.range 8).foldl (fun s b =>
      if bmOn s b && bmHome s b != d then (reignOn s d b).modBeam d b fun m => { m with stale := true } else s) t) :=
    .mono (by decide) (Touches.foldl (fun _ _ =>
      .ite_self (.after (by decide) (modBeam_touches _ _ _ _) (reignOn_touches _ _ _))) _ _)
  cases d
  · refine .after (by decide) (applyCsOverrides_touches _) <| .after (by decide) (xEvent_touches _ _ _ _) <|
      .after (by decide) (byFollow_touches _) ?_
    exact .after (by decide) (buoys_touches _ _ List.length_mapIdx) (far _)
  · refine .after (by decide) (convOnLoss_touches _) <|
      .after (by decide) (Q := protParts)
        (latchPlain_touches (by decide) _ _ fun _ => .mono (by decide) (xEvent_touches _ _ _ _)) <|
      .after (by decide) (byFollow_touches _) ?_
    exact .after (by decide) (buoys_touches _ _ List.length_mapIdx) (far _)

/-! ## What an accepted superframe brings (R15 to R17, R132, R395) -/

theorem sfReject_touches (s : State) (d : Die) (inst : Nat) : Touches (traced [.x]) s (sfReject s d inst) :=
  .after (by decide) (countEvent_touches _ _) <| .mono (by decide) (modLink_touches s d _)

theorem sfReject_link (s : State) (d : Die) (inst : Nat) :
    (sfReject s d inst).link d = { s.link d with errCnt := satInc (s.link d).errCnt } :=
  ((countEvent_touches _ _).link d (by decide)).trans (modLink_link s d _)

theorem takeSnaps_touches (s : State) (d : Die) (start : Nat) (f : List Byte) :
    Touches [.x] s (takeSnaps s d start f) :=
  Touches.foldl (fun _ _ => .ite_self (.ite (fun _ => .refl _ _) fun _ => modLink_touches _ _ _)) _ _

theorem takeMirror_touches (s : State) (d : Die) (no : Nat) (f : List Byte) :
    Touches (.buoys :: receivedParts) s (takeMirror s d no f) :=
  Touches.foldl (fun _ _ => .after (by decide) (byReceived_touches _ _ _) <| .mono (by decide) (modBuoy_touches _ _ _)) _ _

/-- What an event from the DS die touches. -/
def remoteParts : List Part := traced [.buoys, .wr]

theorem remoteBuoy_touches (s : State) (code : BitVec 16) (unit elem wc : Nat) (decl : Bool) :
    Touches [.buoys] s (remoteBuoy s code unit elem wc decl) := .ite_self (modBuoy_touches _ _ _)

theorem remoteEvent_touches (s : State) (e : DsEvent) : Touches remoteParts s (remoteEvent s e) := by
  refine .ite (fun _ => ?_) fun _ => .ite (fun _ => ?_) fun _ => .ite (fun _ => ?_) fun _ => .ite_self ?_
  · exact .after (by decide) (remoteBuoy_touches _ _ _ _ _ _) <| .after (by decide) (inbox_touches _ _) <|
      .mono (by decide) (logFault_touches _ _)
  · exact .after (by decide) (remoteBuoy_touches _ _ _ _ _ _) <| .mono (by decide) (inbox_touches _ _)
  · exact .mono (by decide) (modWr_touches _ _ rfl)
  · exact .mono (by decide) (wrSignal_touches _ _)

theorem takeEvent_touches (s : State) (count : BitVec 16) (f : List Byte) :
    Touches (.x :: remoteParts) s (takeEvent s count f) := by
  have upd (t : State) (v : Crossing) (h : v.evq = t.x.evq ∧ v.lost = t.x.lost ∧ v.qovfDue = t.x.qovfDue) :
    Touches (.x :: remoteParts) t { t with x := v } := .mono (by decide) (xing_touches t v h)
  refine .ite (fun _ => upd _ _ ⟨rfl, rfl, rfl⟩) fun _ => .ite (fun _ => upd _ _ ⟨rfl, rfl, rfl⟩) fun _ =>
    .ite (fun _ => .ite (fun _ => .ite (fun _ => upd _ _ ⟨rfl, rfl, rfl⟩) fun _ => ?_)
      fun _ => upd _ _ ⟨rfl, rfl, rfl⟩) fun _ => upd _ _ ⟨rfl, rfl, rfl⟩
  exact .after (by decide) (remoteEvent_touches _ _) (upd s _ ⟨rfl, rfl, rfl⟩)

theorem takeEvent_link (s : State) (count : BitVec 16) (f : List Byte) (d : Die) :
    (takeEvent s count f).link d = s.link d := by
  have upd (v : Crossing) (hcs : v.cs = s.x.cs) (hds : v.ds = s.x.ds) : ({ s with x := v } : State).link d = s.link d :=
    link_setX s v d hcs hds
  refine link_ite (upd _ rfl rfl) <| link_ite (upd _ rfl rfl) <|
    link_ite (link_ite (link_ite (upd _ rfl rfl) ?event) (upd _ rfl rfl)) (upd _ rfl rfl)
  exact ((remoteEvent_touches _ _).link d (by decide)).trans (upd _ rfl rfl)

theorem csTake_touches (s : State) (count : BitVec 16) (f : List Byte) :
    Touches ([.x, .sup, .pwmCs] ++ remoteParts) s (csTake s count f) :=
  .after (by decide) (takeEvent_touches _ _ _) <| .after (by decide) (applyCsOverrides_touches _) <|
    .mono (by decide) (xSup_touches s _ _ ⟨rfl, rfl, rfl⟩)

theorem csTake_link (s : State) (count : BitVec 16) (f : List Byte) (d : Die) :
    (csTake s count f).link d = s.link d :=
  (takeEvent_link _ _ _ d).trans <| ((applyCsOverrides_touches _).link d (by decide)).trans <| by cases d <;> rfl

/-- Held reports: they are noted, and nothing that follows touches the crossing. -/
theorem heldTake_touches (s : State) (rep : BitVec 4) :
    Touches [.conv, .pwmDs, .temp, .lamp] { s with x := { s.x with heldRx := rep } } (heldTake s rep) :=
  Touches.foldl (fun _ _ => .trans (.mono (by decide) (modConv_touches _ _ _)) (.ite_self (cvOff_touches _ _ _))) _ _

theorem dsTake_touches (s : State) (start : Nat) (f : List Byte) :
    Touches [.x, .conv, .pwmDs, .temp, .lamp] s (dsTake s start f) :=
  .after (by decide) (heldTake_touches _ _) <| .after (by decide) (xing_touches _ _ ⟨rfl, rfl, rfl⟩) <|
    .after (by decide) (xing_touches _ _ ⟨rfl, rfl, rfl⟩) <|
    .mono (by decide) (judgeAll_touches s _ _)

theorem dsTake_link (s : State) (start : Nat) (f : List Byte) (d : Die) : (dsTake s start f).link d = s.link d :=
  ((heldTake_touches _ _).link d (by decide)).trans <| (link_setX _ _ d rfl rfl).trans <|
    (link_setX _ _ d rfl rfl).trans (judgeAll_link s _ _ d)

theorem takeSnaps_link (s : State) (d : Die) (start : Nat) (f : List Byte) :
    ∃ q, (takeSnaps s d start f).link d = { s.link d with snaps := q } := by
  unfold takeSnaps
  refine List.foldlRecOn _ _ (motive := fun t => ∃ q, State.link t d = { s.link d with snaps := q }) ⟨_, rfl⟩ ?_
  rintro t ⟨q, hq⟩ b -
  dsimp only
  split_ifs
  · exact ⟨q, hq⟩
  · rw [modLink_link, hq]
    exact ⟨_, rfl⟩
  · exact ⟨q, hq⟩

/-- What an accepted superframe may touch. -/
def acceptParts : List Part :=
  traced [.sup, .x, .buoys, .beamsCs, .beamsDs, .lhCs, .lhDs, .pwmCs, .pwmDs, .mach, .candle, .prot, .wr, .conv, .ac, .gact,
    .temp, .lamp]

theorem sfAccept_touches (s : State) (d : Die) (start : Nat) (n : BitVec 16) (f : List Byte) :
    Touches acceptParts s (sfAccept s d start n f) := by
  have slots (t : State) (no : Nat) : Touches acceptParts t (takeMirror (takeSnaps t d start f) d no f) :=
    .after (by decide) (takeMirror_touches _ _ _ _) <| .mono (by decide) (takeSnaps_touches t d start f)
  have accepted (t : State) (k : List Nat) (g : Link → Link) :
      Touches acceptParts t ((k.foldl (fun s _ => sfReject s d 4) t).modLink d g) :=
    .after (by decide) (modLink_touches _ _ _) <|
      .mono (by decide) (Touches.foldl (fun _ _ => sfReject_touches _ _ _) k t)
  cases d
  · exact .after (by decide) (csTake_touches _ _ _) <| .trans (accepted _ _ _) (slots _ _)
  · exact .after (by decide) (dsTake_touches _ _ _) <| .trans (accepted _ _ _) (slots _ _)

/-- An end of the crossing that has accepted a superframe of a count, dated by a cycle, and knows no loss (R16 to
R18). -/
def Accepted (l : Link) (n : BitVec 16) (t : Nat) : Prop :=
  l.lastCount = n ∧ l.haveCount = true ∧ l.loss = false ∧ l.acceptAt = t

theorem sfAccept_accepted (s : State) (d : Die) (start : Nat) (n : BitVec 16) (f : List Byte) :
    Accepted ((sfAccept s d start n f).link d) n (start + sfLen + sfLat) := by
  have slots (t : State) (no : Nat) (h : Accepted (t.link d) n (start + sfLen + sfLat)) :
      Accepted ((takeMirror (takeSnaps t d start f) d no f).link d) n (start + sfLen + sfLat) := by
    obtain ⟨q, hq⟩ := takeSnaps_link t d start f
    rw [(takeMirror_touches _ _ _ _).link d (by decide), hq]
    exact h
  cases d
  · refine (csTake_link _ _ _ _).symm ▸ slots _ _ ?_
    exact modLink_link _ _ _ ▸ ⟨rfl, rfl, rfl, rfl⟩
  · refine (dsTake_link _ _ _ _).symm ▸ slots _ _ ?_
    exact modLink_link _ _ _ ▸ ⟨rfl, rfl, rfl, rfl⟩

end Sys2Proof.Machine
end

section
namespace Sys2Proof.Machine

/-! ## The crossing's transmitters -/

/-- SUPERFRAME_SEND on an end that is up, read as one update: from a state u that differs from the one at the sending time in
what a control slot may take, the end sends a body with its CRC-32 and is next due sfLen cycles later (R11 to R16). -/
theorem superframeSend_up {die : Die} {s : State} (h : (s.link die).up = true) :
    ∃ (u : State) (body : List Byte) (n : BitVec 16), Touches [.x, .evq, .ctrs, .lamp] (s.advanceTo (s.link die).sendAt) u
      ∧ exec (.superframeSend die) s = .next { u.modLink die fun l =>
          { l with sent := body ++ wordBytes (crc32 body), sendCount := n, sendNo := l.sendNo + 1, sendAt := u.now + sfLen }
        with freeCtr := u.freeCtr + 200 } := by
  have e : exec (.superframeSend die) s = execSuperframeSend die s := rfl
  rw [e, execSuperframeSend, h]
  cases die
  · exact ⟨_, _, _, .mono (by decide) (lamp_touches _ _), rfl⟩
  · exact ⟨_, _, _, .after (by decide) (dsControl_touches _) <| .after (by decide) (judgeAll_touches _ _ _) <|
      .mono (by decide) (lamp_touches _ _), rfl⟩

/-- The bytes of a safety message before its CRC-8: three, whichever die sends it (R21). -/
def safetyBody (s : State) (alive : BitVec 4) : Die → List Byte
  | .cs => csMessage s alive
  | .ds => dsMessage s alive

theorem safetyBody_length (s : State) (alive : BitVec 4) (d : Die) :
    (safetyBody s alive d).length = 3 := by cases d <;> rfl

/-- SAFETY_MESSAGE_SEND on an end that is up, read as one update at the sending time (R20, R21, R28). -/
theorem safetyMessageSend_up {die : Die} {s : State} (h : (s.link die).up = true) :
    let u := s.advanceTo (s.link die).safeSendAt
    let alive := (s.link die).safeAlive + 1
    let m := safetyBody u alive die
    exec (.safetyMessageSend die) s = .next (u.modLink die fun l =>
      { l with
        safeAlive := alive, safeSendAt := u.now + smLen, safeSent := if die == .cs && s.clk.wrTxOff then [] else m ++ [crc8 m] }) := by
  have e : exec (.safetyMessageSend die) s = execSafetyMessageSend die s := rfl
  rw [e, execSafetyMessageSend, h]
  cases die <;> rfl

/-- Settles O5: a send is one update of the sending end at the sending time. -/
theorem crossingTransmittersAdvance : Obligations.CrossingTransmittersAdvance := by
  intro die s hup
  constructor
  · obtain ⟨u, body, n, hu, he⟩ := superframeSend_up hup
    have hnow : u.now = max s.now (s.link die).sendAt := (hu.now (by decide))
    refine ⟨_, he, ?now, ?due, ⟨body, ?sent⟩, ?frame⟩
    case now => simpa using hnow
    case due => exact (congrArg Link.sendAt (modLink_link _ _ _)).trans (by simp)
    case sent => exact congrArg Link.sent (modLink_link _ _ _)
    case frame =>
      refine Touches.onlyChanges <| .after (by decide) (freeCtr_touches _ _) <|
        .after (by decide) (modLink_touches _ _ _) <| .after (by decide) hu ?_
      exact .mono (by decide) (advanceTo_touches s _)
  · refine ⟨_, safetyMessageSend_up hup, ?now, congrArg Link.safeAlive (modLink_link _ _ _), ?due, ?stopped, ?sent, ?frame⟩
    case now => simp
    case due => exact (congrArg Link.safeSendAt (modLink_link _ _ _)).trans (by simp)
    case stopped => exact fun h => (congrArg Link.safeSent (modLink_link _ _ _)).trans (if_pos h)
    case sent => exact fun h =>
      ⟨_, safetyBody_length _ _ _, (congrArg Link.safeSent (modLink_link _ _ _)).trans (if_neg (by simp [h]))⟩
    case frame =>
      exact Touches.onlyChanges <| .after (by decide) (modLink_touches _ _ _) <|
        .mono (by decide) (advanceTo_touches s _)

end Sys2Proof.Machine
end

section
namespace Sys2Proof.Machine

/-! ## Losses of the crossing and of clocks (R18, R24, R26, R28) -/

/-- XLOSS on an end that is up and knows no loss: crossing loss is entered 2 µs after the last acceptance (R18). -/
theorem xloss_up {die : Die} {s : State} (hup : (s.link die).up = true) (hloss : (s.link die).loss = false) :
    exec (.xloss die) s = .next (lossEnter (s.advanceTo ((s.link die).acceptAt + 2 * usec)) die 2) := by
  change execXloss die s = _
  simp [execXloss, hup, hloss]

/-- SLOSS on an end that is up and knows no loss of messages: the end notes it, and nothing that follows touches the
crossing (R24). -/
theorem sloss_up {die : Die} {s : State} (hup : (s.link die).up = true) (hloss : (s.link die).safeLoss = false) :
    ∃ t, exec (.sloss die) s = .next t
      ∧ Touches protParts ((s.advanceTo ((s.link die).safeGoodAt + 4 * smLen + smLat)).modLink die
      fun l => { l with safeLoss := true, safeUp := false }) t := by
  change ∃ t, execSloss die s = .next t ∧ _
  rw [execSloss]
  simp only [hup, hloss]
  cases die
  · exact ⟨_, rfl, .mono (by decide) (xEvent_touches _ _ _ _)⟩
  · exact ⟨_, rfl, latchPlain_touches (by decide) _ _ fun _ => .mono (by decide) (xEvent_touches _ _ _ _)⟩

/-- From s a window of the Watch Room's oscillator that counted `cnt` has ended in t, and nothing but events was
counted beside (R28). -/
def WindowEnded (cnt : Nat) (s t : State) : Prop :=
  (t.clk.clkDev = BitVec.ofInt 16 (satS 16 ((cnt : Int) - 10000))
    ∧ t.clk.wrMism = decide (400 < ((cnt : Int) - 10000).natAbs)
    ∧ t.clk.winAt = t.now) ∧ Touches (traced [.now, .clk]) s t

/-- WRCLK_WINDOW outside a CS reset: the window ends, and a declaration may stop the CS transmitter (R28). -/
theorem wrclkWindow_running {cnt : Nat} {s : State} (h : s.sys.csReset = false) :
    ∃ t, exec (.wrclkWindow cnt) s = .next t ∧ WindowEnded cnt s t := by
  have ended (t : Nat) : WindowEnded cnt s { s.advanceTo t with clk := { (s.advanceTo t).clk with
      winAt := (s.advanceTo t).now, clkDev := BitVec.ofInt 16 (satS 16 ((cnt : Int) - 10000)),
      wrMism := decide (400 < ((cnt : Int) - 10000).natAbs) } } :=
    ⟨⟨rfl, rfl, rfl⟩, .after (by decide) (clk_touches _ _) <| .mono (by decide) (advanceTo_touches s t)⟩
  have counted {u : State} (e : Ev) (hu : WindowEnded cnt s u) : WindowEnded cnt s (countEvent u e) := by
    have hc := countEvent_touches u e
    have hclk : (countEvent u e).clk = u.clk := hc.agree .clk (by decide)
    refine ⟨?_, .after (by decide) hc hu.2⟩
    rw [hclk, (hc.now (by decide))]
    exact hu.1
  have stopped {u : State} (hu : WindowEnded cnt s u) : WindowEnded cnt s { u with clk := { u.clk with wrTxOff := true } } :=
    ⟨hu.1, .after (by decide) (clk_touches _ _) hu.2⟩
  refine ⟨_, congrArg Host.Outcome.next (if_neg (by simp [h])), ?_⟩
  refine iteInduction (fun _ => iteInduction (fun _ => ?_) fun _ => ?_) fun _ => ?_
  · exact stopped (counted _ (ended _))
  · exact counted _ (ended _)
  · exact ended _

/-- Settles O7: each row notes its loss and then counts its event, which touches neither the clocks nor the crossing. -/
theorem crossingAndClockLossesAreRaised : Obligations.CrossingAndClockLossesAreRaised := by
  refine ⟨?xloss, ?sloss, ?pllCs, ?pllDs, ?xtal, ?wrclk, ?relockCs, ?relockDs, ?crystal⟩
  case xloss =>
    intro die s hup hloss
    have ht := lossEnter_touches (s.advanceTo ((s.link die).acceptAt + 2 * usec)) die 2
    have hnow := (ht.now (by decide))
    refine ⟨_, xloss_up hup hloss, by simpa using hnow, ?_, ?_⟩
    · rw [ht.link die (by decide), modLink_link]
    · exact Touches.onlyChanges <| .after (by decide) ht <| .after (by decide) (modLink_touches _ _ _) <|
        .mono (by decide) (advanceTo_touches s _)
  case sloss =>
    intro die s hup hloss
    obtain ⟨t, e, ht⟩ := sloss_up hup hloss
    have hnow := (ht.now (by decide))
    refine ⟨_, e, by simpa using hnow, ?_, ?_, ?_⟩
    · rw [ht.link die (by decide), modLink_link]
    · rw [ht.link die (by decide), modLink_link]
    · exact Touches.onlyChanges <| .after (by decide) ht <| .after (by decide) (modLink_touches _ _ _) <|
        .mono (by decide) (advanceTo_touches s _)
  case pllCs =>
    intro s h
    have e : exec (.pllul .cs) s =
        .next (countEvent { s with clk := { s.clk with csLock := false } } (direct .cs 0 0 0 0 2 0)) := by
      change execPllul .cs s = _
      simp [execPllul, h]
    have ht := countEvent_touches { s with clk := { s.clk with csLock := false } } (direct .cs 0 0 0 0 2 0)
    exact ⟨_, e, ht.agree .clk (by decide),
      Touches.onlyChanges <| .after (by decide) ht <| .mono (by decide) (clk_touches s _)⟩
  case pllDs =>
    intro s h
    have e : exec (.pllul .ds) s = .next (latchPlain { s with clk := { s.clk with dsLock := false } } 0x5A
        fun s => countEvent s (direct .ds 0 0 0 0 2 0)) := by
      change execPllul .ds s = _
      simp [execPllul, h]
    have ht : Touches protParts _ _ :=
      latchPlain_touches (by decide) { s with clk := { s.clk with dsLock := false } } 0x5A
      fun t => .mono (by decide) (countEvent_touches t (direct .ds 0 0 0 0 2 0))
    exact ⟨_, e, ht.agree .clk (by decide),
      Touches.onlyChanges <| .after (by decide) ht <| .mono (by decide) (clk_touches s _)⟩
  case xtal =>
    intro s h
    have e : exec .xtal s =
        .next (countEvent { s with clk := { s.clk with xtalOk := false } } (direct .cs 0 0 0 0 1 0)) := by
      change execXtal s = _
      simp [execXtal, h]
    have ht := countEvent_touches { s with clk := { s.clk with xtalOk := false } } (direct .cs 0 0 0 0 1 0)
    exact ⟨_, e, ht.agree .clk (by decide),
      Touches.onlyChanges <| .after (by decide) ht <| .mono (by decide) (clk_touches s _)⟩
  case wrclk =>
    intro cnt s h
    obtain ⟨t, e, ⟨hdev, hmism, hwin⟩, ht⟩ := wrclkWindow_running (cnt := cnt) h
    exact ⟨t, e, hdev, hmism, hwin, ht.onlyChanges⟩
  case relockCs => exact fun s h => ⟨_, congrArg Host.Outcome.next (if_neg (by simp [h])), rfl, (clk_touches s _).onlyChanges⟩
  case relockDs => exact fun s h => ⟨_, congrArg Host.Outcome.next (if_neg (by simp [h])), rfl, (clk_touches s _).onlyChanges⟩
  case crystal => exact fun s h => ⟨_, congrArg Host.Outcome.next (if_neg (by simp [h])), rfl, (clk_touches s _).onlyChanges⟩

end Sys2Proof.Machine
end

section
namespace Sys2Proof.Machine

/-! ## Training and the snapshots of far beams (R19, R27, R132, R136) -/

/-- What does not touch the beams leaves those of both dies. -/
theorem Touches.beams {P : List Part} {s t : State} (h : Touches P s t) (d : Die)
    (hP : .beamsCs ∉ P ∧ .beamsDs ∉ P ) :
    t.beams d = s.beams d := by
  cases d
  · exact h.agree .beamsCs hP.1
  · exact h.agree .beamsDs hP.2

theorem nth_upd {α : Type} [Inhabited α] (l : List α) {i : Nat} (h : i < l.length) (f : α → α) :
    nth (upd l i f) i = f (nth l i) := by
  simp [nth, upd, h]

theorem modBeam_nth (s : State) (d : Die) (n : Nat) (f : Beam → Beam) (h : n < (s.beams d).length) :
    nth ((s.modBeam d n f).beams d) n = (nth (s.beams d) n).turn s.now (f (nth (s.beams d) n)) := by
  cases d <;> exact nth_upd _ h _

/-- What a changed beam showed before is all that is kept beside the change (R137). -/
theorem turn_keeps (o m : Beam) (t : Nat) :
    (o.turn t m).a = m.a ∧ (o.turn t m).far = m.far ∧ (o.turn t m).adopted = m.adopted
    ∧ (o.turn t m).lastUpd = m.lastUpd := by
  unfold Beam.turn
  split <;> exact ⟨rfl, rfl, rfl, rfl⟩

theorem setAnchor_anchor (s : State) (d : Die) (b : Nat) (a : Anchor) (h : b < (s.beams d).length) :
    (nth ((setAnchor s d b a).beams d) b).a = a := by
  have hn : (noteBeam s d b).beams d = s.beams d := (noteBeam_touches s d b).beams d (by decide)
  exact (congrArg Beam.a (modBeam_nth _ d b _ (hn ▸ h))).trans (turn_keeps _ _ _).1

theorem setAnchor_length (s : State) (d : Die) (b : Nat) (a : Anchor) :
    ((setAnchor s d b a).beams d).length = (s.beams d).length := by
  have hn : (noteBeam s d b).beams d = s.beams d := (noteBeam_touches s d b).beams d (by decide)
  rw [← hn]
  cases d <;> exact List.length_modify ..

/-- The anchor that a snapshot gives the far die (R132). -/
def Snap.anchor (x : Snap) : Anchor := { p0 := x.p0, cyc := x.cyc, speed := x.speed, t0 := x.t0, lim := none }

/-- The far die's beam with a snapshot adopted at a cycle. -/
def Snap.adopt (x : Snap) (t : Nat) (m : Beam) : Beam :=
  { m with far := x.status, stale := x.status.getLsbD 15, subst := x.status.getLsbD 14, adopted := true, lastUpd := t }

/-- The state after the far die's beam has taken a snapshot, with POSLOSS watched (R132, R302). -/
def snapshotTaken (u : State) (d : Die) (b : Nat) (x : Snap) : State :=
  posCheck ((setAnchor u d b x.anchor).modBeam d b (x.adopt (setAnchor u d b x.anchor).now))

theorem snapshotTaken_touches (u : State) (d : Die) (b : Nat) (x : Snap) :
    Touches ([.beamsCs, .beamsDs, .pwmCs] ++ machParts) u (snapshotTaken u d b x) :=
  .after (by decide) (posCheck_touches _) <| .after (by decide) (modBeam_touches _ _ _ _) <|
    .mono (by decide) (setAnchor_touches u d b _)

theorem snapshotTaken_beam (u : State) (d : Die) (b : Nat) (x : Snap) (h : b < (u.beams d).length) :
    (nth ((snapshotTaken u d b x).beams d) b).far = x.status
      ∧ (nth ((snapshotTaken u d b x).beams d) b).adopted = true
      ∧ (nth ((snapshotTaken u d b x).beams d) b).a = x.anchor
        ∧ (nth ((snapshotTaken u d b x).beams d) b).lastUpd = u.now := by
  have hb : b < ((setAnchor u d b x.anchor).beams d).length := by rwa [setAnchor_length]
  obtain ⟨ha, hfar, hadopted, hlast⟩ := turn_keeps (nth ((setAnchor u d b x.anchor).beams d) b)
    (x.adopt (setAnchor u d b x.anchor).now (nth ((setAnchor u d b x.anchor).beams d) b)) (setAnchor u d b x.anchor).now
  rw [snapshotTaken, (posCheck_touches _).beams d (by decide), modBeam_nth _ _ _ _ hb]
  exact ⟨hfar, hadopted, ha.trans (setAnchor_anchor u d b x.anchor h),
    hlast.trans ((setAnchor_touches u d b x.anchor).now (by decide))⟩

/-- SNAPSHOT_ADOPT with a snapshot waiting for a far beam: at its cycle it leaves the queue and the beam takes it
(R132, R136). -/
theorem snapshotAdopt_far {die : Die} {beam : Fin 8} {t : Nat} {x : Snap} {rest : List (Nat × Snap)} {s : State}
    (hq : (s.link die).snaps.getD beam.val [] = (t, x) :: rest) (hon : bmOn s beam.val = true)
    (hfar : (bmHome s beam.val == die) = false) :
    exec (.snapshotAdopt die beam) s = .next (snapshotTaken
      ((s.advanceTo t).modLink die fun l => { l with snaps := upd l.snaps beam.val fun _ => rest }) die beam.val x) := by
  change execSnapshotAdopt die beam s = _
  simp only [execSnapshotAdopt, hq]
  have hc : ¬(!bmOn s beam.val || bmHome s beam.val == die) = true := by simp [hon, hfar]
  cases die <;> exact congrArg Host.Outcome.next (if_neg hc)

section training

variable {s : State} (hstep : s.sys.step = 6) (hhalt : s.sys.halt = false) (htr : s.x.trained = false)
  (hrst : s.sys.csReset = false) (align : Fin 3)

include hstep hhalt htr hrst

/-- An attempt that trains the crossing (R19, R27). -/
theorem crossingTraining_trained :
    let u := s.advanceTo (s.now + 200 * usec)
    exec (.crossingTraining true align) s = .next
      { u with dsOfs := u.csOfs + wd align.val - 1, clk := { u.clk with dsLock := true }
               x := { u.x with
                  trained := true, upAt := u.now, attempts := u.x.attempts + 1, cs := linkStart u, ds := linkStart u } } :=
  congrArg Host.Outcome.next (if_neg (by simp [hstep, hhalt, htr, hrst]))

/-- A failed attempt that is not the third (R19). -/
theorem crossingTraining_failed (hatt : s.x.attempts < 2) :
    let u := s.advanceTo (s.now + 200 * usec)
    exec (.crossingTraining false align) s = .next { u with x := { u.x with attempts := u.x.attempts + 1 } } :=
  congrArg Host.Outcome.next <| (if_neg (by simp [hstep, hhalt, htr, hrst])).trans <|
    if_neg (Nat.not_le.2 (Nat.succ_lt_succ hatt))

end training

/-- Settles O8: an adoption sets the far die's beam and nothing that follows touches it; a training attempt is one
update. -/
theorem snapshotsAreAdoptedAndTrainingAlignsTheDies : Obligations.SnapshotsAreAdoptedAndTrainingAlignsTheDies := by
  refine ⟨?adopt, ?success, ?failure⟩
  case adopt =>
    intro die beam t x rest s hq _ hlen hon hfar
    refine ⟨_, snapshotAdopt_far hq hon hfar, ?_⟩
    have hu : Touches [.now, .x] s ((s.advanceTo t).modLink die fun l => { l with snaps := upd l.snaps beam.val fun _ => rest }) :=
      .after (by decide) (modLink_touches _ _ _) <| .mono (by decide) (advanceTo_touches s t)
    have ht :=
      snapshotTaken_touches ((s.advanceTo t).modLink die fun l => { l with snaps := upd l.snaps beam.val fun _ => rest })
      die beam.val x
    obtain ⟨hfar, hadopted, ha, hlast⟩ := snapshotTaken_beam _ die beam.val x
      (by rw [hu.beams die (by decide), hlen]; exact beam.isLt)
    have hnow := ht.now (by decide)
    refine ⟨?now, hfar, hadopted, ha, hlast.trans hnow.symm, ?frame⟩
    case now => simpa using hnow
    case frame => exact Touches.onlyChanges <| .after (by decide) ht <| .mono (by decide) hu
  case success =>
    intro align s hstep hhalt htr hrst
    refine ⟨_, crossingTraining_trained hstep hhalt htr hrst align, ?_, rfl, rfl, rfl, rfl, rfl, ?_⟩
    · exact Nat.max_eq_right (Nat.le_add_right _ _)
    · refine Touches.onlyChanges <|
        .trans (t := s.advanceTo (s.now + 200 * usec)) (.mono (by decide) (advanceTo_touches s _)) ?_
      refine .mono (Q := [.dsOfs, .clk, .x]) (by decide) (.of_update (fun p => ?_) rfl rfl rfl)
      have k := p.agree_refl (s.advanceTo (s.now + 200 * usec))
      cases p <;> exact k
  case failure =>
    intro align s hstep hhalt htr hrst hatt
    refine ⟨_, crossingTraining_failed hstep hhalt htr hrst align hatt, htr, rfl, rfl, ?_⟩
    exact Touches.onlyChanges <| .after (by decide) (xing_touches _ _ ⟨rfl, rfl, rfl⟩) <|
      .mono (by decide) (advanceTo_touches s _)

end Sys2Proof.Machine
end

section
namespace Sys2Proof.Machine

/-! ## Receiving a superframe (R16, R17) -/

/-- The state at the time the superframe due next at an end is taken. -/
def sfDue (s : State) (d : Die) : State := s.advanceTo ((s.link d).rxAt + sfLen + sfLat)

/-- When the superframe that is taken now started. -/
def sfStart (s : State) (d : Die) : Nat := (s.link d).rxAt + (s.now - sfLat - (s.link d).rxAt) / sfLen * sfLen

/-- No coding violation, 200 bytes, the right CRC-32. -/
def sfGood (frame : List Byte) (viol : Option (Fin 4)) : Bool :=
  viol.isNone && frame.length == 200 && crc32 (frame.take 196) == wd (ofLe (frame.drop 196))

/-- The count a superframe's header shows. -/
def sfCount (frame : List Byte) : BitVec 16 := BitVec.ofNat 16 (ofLe ((frame.drop 2).take 2))

/-- A count 1 to 9 above the last accepted one, or any count where there is none to compare with (R17; log 169). -/
def inWindow (l : Link) (n : BitVec 16) : Bool :=
  l.loss || !l.haveCount || (1 ≤ (n - l.lastCount).toNat && (n - l.lastCount).toNat ≤ 9)

theorem inWindow_iff (l : Link) (n : BitVec 16) : inWindow l n = true ↔
    l.loss = true ∨ l.haveCount = false ∨ 1 ≤ (n - l.lastCount).toNat ∧ (n - l.lastCount).toNat ≤ 9 := by
  simp only [inWindow, Bool.or_eq_true, Bool.and_eq_true, Bool.not_eq_true', decide_eq_true_eq, or_assoc]

/-- How far the cycle count a superframe's header shows lies from the receiver's at its start. -/
def cycleDiff (s : State) (d : Die) (start : Nat) (frame : List Byte) : Int :=
  sx 16 (ofLe (frame.take 2) + 65536 - (countAt s d start).toNat % 65536)

/-- The first violating lane, or that there is none. -/
def violLane (viol : Option (Fin 4)) : Nat := match viol with | some v => v.val | none => 4

/-- A superframe has arrived: its start and the first violating lane are noted. -/
def sfArrived (s : State) (d : Die) (viol : Option (Fin 4)) : State :=
  s.modLink d fun l => { l with rxAt := sfStart s d, lane := if l.lane = 4 then violLane viol else l.lane }

/-- What a superframe of count n that is rejected answers to is judged on the DS die, and its count is remembered
(R16, R17). -/
def sfJudged (s : State) (d : Die) (start : Nat) (n : BitVec 16) : State :=
  let l := s.link d
  let ahead := (n - l.lastCount).toNat
  let s := if d == .ds then judgeAll s (start - 2 * sfLen) none else s
  s.modLink d fun l => { l with
    rejected := if 1 ≤ ahead && ahead ≤ 9 && !l.rejected.contains n then n :: l.rejected else l.rejected }

theorem superframeReceived_accepted {die : Die} {s : State} {frame : List Byte} {viol : Option (Fin 4)}
    (hup : (s.link die).up = true) (hgood : sfGood frame viol = true)
    (hw : inWindow ((sfArrived (sfDue s die) die viol).link die) (sfCount frame) = true)
    (hdiff : (cycleDiff (sfArrived (sfDue s die) die viol) die (sfStart (sfDue s die) die) frame).natAbs ≤ 1) :
    exec (.superframeReceived die frame viol) s
      = .next (sfAccept (sfArrived (sfDue s die) die viol) die (sfStart (sfDue s die) die) (sfCount frame) frame) := by
  have hok : ¬(!sfGood frame viol || !inWindow ((sfArrived (sfDue s die) die viol).link die) (sfCount frame)) = true := by
    simp [hgood, hw]
  change execSuperframeReceived die frame viol s = _
  exact congrArg Host.Outcome.next <| (if_neg (by simp [hup])).trans ((if_neg hok).trans (if_pos hdiff))

theorem superframeReceived_rejected {die : Die} {s : State} {frame : List Byte} {viol : Option (Fin 4)}
    (hup : (s.link die).up = true)
    (hbad : sfGood frame viol = false ∨ inWindow ((sfArrived (sfDue s die) die viol).link die) (sfCount frame) = false) :
    exec (.superframeReceived die frame viol) s = .next (sfReject
      (sfJudged (sfArrived (sfDue s die) die viol) die (sfStart (sfDue s die) die) (sfCount frame)) die (violLane viol)) := by
  have hbad' : (!sfGood frame viol || !inWindow ((sfArrived (sfDue s die) die viol).link die) (sfCount frame)) = true := by
    rcases hbad with h | h <;> simp [h]
  change execSuperframeReceived die frame viol s = _
  exact congrArg Host.Outcome.next <| (if_neg (by simp [hup])).trans (if_pos hbad')

theorem sfArrived_touches (s : State) (d : Die) (viol : Option (Fin 4)) :
    Touches [.now, .x] s (sfArrived (sfDue s d) d viol) :=
  .after (by decide) (modLink_touches _ _ _) <| .mono (by decide) (advanceTo_touches s _)

/-- The end at which a superframe has arrived, but for the start and the lane noted. -/
theorem sfArrived_link (s : State) (d : Die) (viol : Option (Fin 4)) :
    ∃ r k, (sfArrived (sfDue s d) d viol).link d = { s.link d with rxAt := r, lane := k } := by
  cases d <;> exact ⟨_, _, rfl⟩

theorem sfJudged_touches (s : State) (d : Die) (start : Nat) (n : BitVec 16) :
    Touches [.x] s (sfJudged s d start n) := by
  unfold sfJudged
  exact .trans (.ite_self (judgeAll_touches s _ _)) (modLink_touches _ _ _)

/-- The end that judges a superframe keeps the count it accepted last and its counter. -/
theorem sfJudged_link (s : State) (d : Die) (start : Nat) (n : BitVec 16) :
    ((sfJudged s d start n).link d).lastCount = (s.link d).lastCount
      ∧ ((sfJudged s d start n).link d).errCnt = (s.link d).errCnt := by
  have h : (if d == .ds then judgeAll s (start - 2 * sfLen) none else s).link d = s.link d :=
    link_ite (judgeAll_link s _ _ d) rfl
  exact ⟨(congrArg Link.lastCount (modLink_link _ d _)).trans (congrArg (·.lastCount) h),
    (congrArg Link.errCnt (modLink_link _ d _)).trans (congrArg (·.errCnt) h)⟩

/-! ## Receiving a message (R21 to R24) -/

theorem wrCmdApply_touches (s : State) (b0 b1 b2 : Byte) (lvl : Nat) :
    Touches protParts s (wrCmdApply s b0 b1 b2 lvl) := by
  refine .ite (fun _ => .refl _ _) fun _ => .trans ?_
    (.ite (fun _ => checkOpp_touches _ _) fun _ => .mono (by decide) (setSeverity_touches _))
  exact .mono (by decide) (prot_touches s _ rfl rfl rfl rfl)

theorem setCt_touches (s : State) (n : Nat) (v : Bool) : Touches [.wr] s (setCt s n v) :=
  .ite (fun _ => .refl _ _) fun _ => modWr_touches _ _ rfl

theorem ctOpenAll_touches (s : State) : Touches [.wr] s (ctOpenAll s) :=
  .trans (modWr_touches s _ rfl) (Touches.foldl (fun _ _ => setCt_touches _ _ _) _ _)

theorem dsReportTake_touches (s : State) (was lvl : Nat) :
    Touches [.wr, .lhCs, .lhDs] s (dsReportTake s was lvl) := by
  refine .trans (.ite_self (.mono (by decide) (modWr_touches s _ rfl))) <|
    .trans (.ite_self ?locked) (.ite_self ?level1)
  case locked => exact .mono (by decide) (.trans (modWr_touches _ _ rfl) (ctOpenAll_touches _))
  case level1 => exact .mono (by decide) (setLh_touches _ .cs _ (List.length_map ..))

/-- The state at the time the message due next at an end is taken. -/
def smDue (s : State) (d : Die) : State := s.advanceTo ((s.link d).safeRxAt + 2 * smLen + smLat)

/-- When the message that is taken now started. -/
def smSlot (s : State) (d : Die) : Nat :=
  (s.link d).safeRxAt + (s.now - smLen - smLat - (s.link d).safeRxAt) / smLen * smLen

/-- The level a message's first byte asks of a die, if it is one of the table (R21, R22). -/
def smLevel (d : Die) (b0 : Byte) : Option Nat :=
  match d with
  | .ds => cmdLevel b0
  | .cs => let v := b0.toNat / 32; if 1 ≤ v && v ≤ 6 then some v else none

/-- The alive counter a message shows. -/
def smAlive (b1 : Byte) : BitVec 4 := BitVec.ofNat 4 (b1.toNat / 16)

/-- A message's alive counter stands as many steps past the last as message times have passed, or there is none yet
(R24; log 169). -/
def aliveOk (l : Link) (slot : Nat) (b1 : Byte) : Bool :=
  match l.rxAlive with | some a => smAlive b1 == a + BitVec.ofNat 4 ((slot - l.safeGoodAt) / smLen) | none => true

/-- The end that holds a valid message. -/
def smHeld (s : State) (d : Die) (slot : Nat) (b0 b1 b2 b3 : Byte) : State :=
  (s.modLink d fun l => { l with safeRxAt := slot }).modLink d fun l => { l with
    rxAlive := some (smAlive b1), safeGoodAt := slot, safeRx := [b0, b1, b2, b3], safeUp := true, safeLoss := false }

theorem smHeld_touches (s : State) (d : Die) (slot : Nat) (b0 b1 b2 b3 : Byte) :
    Touches [.x] s (smHeld s d slot b0 b1 b2 b3) := by
  unfold smHeld
  exact .trans (modLink_touches s _ _) (modLink_touches _ _ _)

/-- The end that has counted a message refused. -/
def smRefused (s : State) (d : Die) (slot : Nat) : State :=
  (s.modLink d fun l => { l with safeRxAt := slot }).modLink d fun l => { l with safeErrCnt := satInc l.safeErrCnt }

theorem smRefused_touches (s : State) (d : Die) (slot : Nat) : Touches [.x] s (smRefused s d slot) := by
  unfold smRefused
  exact .trans (modLink_touches s _ _) (modLink_touches _ _ _)

theorem smHeld_link (s : State) (d : Die) (slot : Nat) (b0 b1 b2 b3 : Byte) : (smHeld s d slot b0 b1 b2 b3).link d =
    { s.link d with
      safeRxAt := slot, rxAlive := some (smAlive b1), safeGoodAt := slot, safeRx := [b0, b1, b2, b3],
      safeUp := true, safeLoss := false } := by
  rw [smHeld, modLink_link, modLink_link]

theorem smRefused_link (s : State) (d : Die) (slot : Nat) :
    (smRefused s d slot).link d = { s.link d with safeRxAt := slot, safeErrCnt := satInc (s.link d).safeErrCnt } := by
  rw [smRefused, modLink_link, modLink_link]

/-- What a valid message of a level brings once it is held: on the DS die a command, on the CS die a report (R23,
R335, R358). -/
def smApply (s t : State) (d : Die) (b0 b1 b2 : Byte) (v : Nat) : State :=
  match d with
  | .ds => wrCmdApply t b0 b1 b2 v
  | .cs => dsReportTake t (csSeverity s) v

theorem smApply_touches (s t : State) (d : Die) (b0 b1 b2 : Byte) (v : Nat) :
    Touches (.wr :: protParts) t (smApply s t d b0 b1 b2 v) := by
  cases d
  · exact .mono (by decide) (dsReportTake_touches _ _ _)
  · exact .mono (by decide) (wrCmdApply_touches _ _ _ _ _)

/-- A message refused, as the window counts it (R24). -/
def smError (s : State) (d : Die) : Ev :=
  let (w, n) := wparam s 1 5 100 4
  { key := ⟨d, 1, 8, 0, 8, 5⟩, cause := 5, w := w, n := n }

/-- SAFETY_MESSAGE_RECEIVED on an end that is up: a message of the right CRC-8, alive counter and code is applied,
any other counted. -/
theorem safetyMessageReceived_up {die : Die} {s : State} (b0 b1 b2 b3 : Byte) (hup : (s.link die).up = true) :
    exec (.safetyMessageReceived die b0 b1 b2 b3) s = .next (
      let a := smDue s die
      let t := a.modLink die fun l => { l with safeRxAt := smSlot a die }
      match (if crc8 [b0, b1, b2] == b3 && aliveOk (a.link die) (smSlot a die) b1 then smLevel die b0 else none) with
      | some v => smApply t (smHeld a die (smSlot a die) b0 b1 b2 b3) die b0 b1 b2 v
      | none => countEvent (smRefused a die (smSlot a die)) (smError t die)) := by
  exact congrArg Host.Outcome.next ((if_neg (by simp [hup])).trans rfl)

theorem safetyMessageReceived_valid {die : Die} {s : State} {b0 b1 b2 b3 : Byte} (hup : (s.link die).up = true)
    (hcrc : crc8 [b0, b1, b2] = b3) (hlevel : (smLevel die b0).isSome = true)
    (halive : aliveOk ((smDue s die).link die) (smSlot (smDue s die) die) b1 = true) :
    ∃ t, exec (.safetyMessageReceived die b0 b1 b2 b3) s = .next t ∧
      Touches (.wr :: protParts) (smHeld (smDue s die) die (smSlot (smDue s die) die) b0 b1 b2 b3) t := by
  obtain ⟨v, hv⟩ := Option.isSome_iff_exists.1 hlevel
  have he := safetyMessageReceived_up b0 b1 b2 b3 hup
  simp only [hcrc, halive, hv, beq_self_eq_true, Bool.and_self, if_true] at he
  exact ⟨_, he, smApply_touches _ _ _ _ _ _ _⟩

theorem safetyMessageReceived_wrongCrc {die : Die} {s : State} {b0 b1 b2 b3 : Byte} (hup : (s.link die).up = true)
    (hcrc : crc8 [b0, b1, b2] ≠ b3) : ∃ e, exec (.safetyMessageReceived die b0 b1 b2 b3) s
      = .next (countEvent (smRefused (smDue s die) die (smSlot (smDue s die) die)) e) := by
  have he := safetyMessageReceived_up b0 b1 b2 b3 hup
  exact ⟨_, by simpa [hcrc] using he⟩

/-- An end keeps its fields while time runs. -/
theorem advanceTo_link (s : State) (t : Nat) (d : Die) : (s.advanceTo t).link d = s.link d := by cases d <;> rfl

/-- What the CS die and the DS die take as a first byte. -/
theorem smLevel_isSome (d : Die) (b0 : Byte) : (smLevel d b0).isSome
    = match d with | .ds => (cmdLevel b0).isSome | .cs => decide (1 ≤ b0.toNat / 32) && decide (b0.toNat / 32 ≤ 6) := by
  cases d
  · dsimp only [smLevel]
    split <;> simp_all
  · rfl

theorem aliveOk_iff (l : Link) (slot : Nat) (b1 : Byte) : aliveOk l slot b1 = true ↔
    ∀ a, l.rxAlive = some a → smAlive b1 = a + BitVec.ofNat 4 ((slot - l.safeGoodAt) / smLen) := by
  unfold aliveOk
  cases h : l.rxAlive <;> simp

/-- The receiver's count at a superframe's start is the same before and after it has arrived. -/
theorem cycleDiff_sfArrived (s : State) (d : Die) (viol : Option (Fin 4)) (start : Nat) (frame : List Byte) :
    cycleDiff (sfArrived (sfDue s d) d viol) d start frame = cycleDiff s d start frame := by cases d <;> rfl

theorem inWindow_sfArrived (s : State) (d : Die) (viol : Option (Fin 4)) (n : BitVec 16) :
    inWindow ((sfArrived (sfDue s d) d viol).link d) n = inWindow (s.link d) n := by
  obtain ⟨r, k, hlink⟩ := sfArrived_link s d viol
  rw [hlink, inWindow, inWindow]

/-- A superframe is taken at its arrival. -/
theorem sfArrived_now (s : State) (d : Die) (viol : Option (Fin 4)) :
    (sfArrived (sfDue s d) d viol).now = max s.now ((s.link d).rxAt + sfLen + sfLat) :=
  (modLink_touches _ _ _).now (by decide)

/-- The start of the superframe taken next, from the state before. -/
theorem sfStart_sfDue (s : State) (d : Die) : sfStart (sfDue s d) d = (s.link d).rxAt
    + (max s.now ((s.link d).rxAt + sfLen + sfLat) - sfLat - (s.link d).rxAt) / sfLen * sfLen := by cases d <;> rfl

/-- The start of the message taken next, from the state before. -/
theorem smSlot_smDue (s : State) (d : Die) : smSlot (smDue s d) d = (s.link d).safeRxAt
    + (max s.now ((s.link d).safeRxAt + 2 * smLen + smLat) - smLen - smLat - (s.link d).safeRxAt) / smLen * smLen := by
  cases d <;> rfl

/-- Settles O6: every case is one update of the end at the arrival, and what follows leaves what the case speaks of. -/
theorem crossingReceiversTakeFrames : Obligations.CrossingReceiversTakeFrames := by
  intro die s hup
  have hdue : (smDue s die).link die = s.link die := advanceTo_link s _ die
  refine ⟨fun frame viol => ⟨?accepted, ?rejected⟩, ?valid, ?wrongCrc⟩
  case accepted =>
    intro hgood hin hdiff
    obtain ⟨hcount, hhave, hloss, hat⟩ := sfAccept_accepted (sfArrived (sfDue s die) die viol) die (sfStart (sfDue s die) die)
      (sfCount frame) frame
    have ht :=
      sfAccept_touches (sfArrived (sfDue s die) die viol) die (sfStart (sfDue s die) die) (sfCount frame) frame
    refine ⟨_, superframeReceived_accepted hup hgood ?window ?cycle, ?now, hcount, hhave, hloss, ?date, ?frame⟩
    case window => rwa [inWindow_sfArrived, inWindow_iff]
    case cycle => rwa [cycleDiff_sfArrived, cycleDiff, sfStart_sfDue]
    case now => exact (ht.now (by decide)).trans (sfArrived_now s die viol)
    case date => rw [hat, sfStart_sfDue]
    case frame =>
      exact Touches.onlyChanges <| .after (by decide) ht <|
        .mono (by decide) (sfArrived_touches s die viol)
  case rejected =>
    intro hbad
    have hjudged :=
      sfJudged_touches (sfArrived (sfDue s die) die viol) die (sfStart (sfDue s die) die) (sfCount frame)
    have ht :=
      sfReject_touches (sfJudged (sfArrived (sfDue s die) die viol) die (sfStart (sfDue s die) die) (sfCount frame)) die
      (violLane viol)
    obtain ⟨hlast, herr⟩ := sfJudged_link (sfArrived (sfDue s die) die viol) die (sfStart (sfDue s die) die) (sfCount frame)
    obtain ⟨r, k, hlink⟩ := sfArrived_link s die viol
    rw [hlink] at hlast herr
    refine ⟨_, superframeReceived_rejected hup ?bad, ?now, ?err, ?last, ?frame⟩
    case bad => rwa [inWindow_sfArrived, ← Bool.not_eq_true (inWindow _ _), inWindow_iff]
    case now => exact (ht.now (by decide)).trans <| (hjudged.now (by decide)).trans (sfArrived_now s die viol)
    case err => rw [sfReject_link, herr]
    case last => rw [sfReject_link, hlast]
    case frame =>
      exact Touches.onlyChanges <| .after (by decide) ht <| .after (by decide) hjudged <|
        .mono (by decide) (sfArrived_touches s die viol)
  case valid =>
    intro b0 b1 b2 alive hlevel halive
    have hheld := smHeld_touches (smDue s die) die (smSlot (smDue s die) die) b0 b1 b2 (crc8 [b0, b1, b2])
    obtain ⟨t, he, ht⟩ := safetyMessageReceived_valid (b1 := b1) (b2 := b2) hup rfl ((smLevel_isSome die b0).trans hlevel)
      ((aliveOk_iff _ _ _).2 (by rw [hdue, smSlot_smDue]; exact halive))
    refine ⟨t, he, (ht.now (by decide)).trans (hheld.now (by decide)), ?_⟩
    rw [ht.link die (by decide), smHeld_link]
    exact ⟨rfl, rfl, rfl, rfl, Touches.onlyChanges <| .after (by decide) ht <| .after (by decide) hheld <|
      .mono (by decide) (advanceTo_touches s _)⟩
  case wrongCrc =>
    intro b0 b1 b2 b3 hcrc
    obtain ⟨e, he⟩ := safetyMessageReceived_wrongCrc hup hcrc
    have hrefused := smRefused_touches (smDue s die) die (smSlot (smDue s die) die)
    have ht := countEvent_touches (smRefused (smDue s die) die (smSlot (smDue s die) die)) e
    refine ⟨_, he, (ht.now (by decide)).trans (hrefused.now (by decide)), ?_⟩
    rw [ht.link die (by decide), smRefused_link, hdue]
    exact ⟨rfl, rfl, Touches.onlyChanges <| .after (by decide) ht <| .after (by decide) hrefused <|
      .mono (by decide) (advanceTo_touches s _)⟩

end Sys2Proof.Machine
end

section
namespace Sys2Proof.Machine

/-! ## Requests of the host (R502 to R504) -/

/-- An update of the answer and of the host interface that leaves its events. -/
theorem accHost_touches (s : State) (a : Access) (g : HostIf) (h : g.evt = s.host.evt) :
    Touches [.acc, .host] s { s with acc := a, host := g } := by
  refine .of_update (fun p => ?_) rfl rfl rfl
  have k := p.agree_refl s
  cases p
  case hostEvt => exact h
  all_goals exact k

/-- A request answered: the answer, and the host interface that sends it. -/
theorem respond_eq (s : State) (q : Req) (ty : Nat) (a : Ans) : ∃ g, respond s q ty a =
    { s with acc := { status := a.status, ucode := a.ucode, idx := BitVec.ofNat 16 a.idx, data := a.data }, host := g }
      ∧ g.evt = s.host.evt := by
  unfold respond
  dsimp only
  split <;> exact ⟨_, rfl, rfl⟩

theorem unqueue_eq (s : State) (q : Req) (ty : Nat) (pay : List Byte) :
    ∃ r, unqueue s q ty pay = { s with host := { s.host with reqs := r } } := by
  unfold unqueue
  split
  · split
    · exact ⟨_, rfl⟩
    · exact ⟨s.host.reqs, rfl⟩
  · exact ⟨s.host.reqs, rfl⟩

theorem setAlive_eq (s : State) (m : Stream) (a : Byte) :
    ∃ g, setAlive s m a = { s with host := g } ∧ g.evt = s.host.evt := by
  cases m <;> exact ⟨_, rfl, rfl⟩

/-- A broadcast goes on as it arrives (R511); nothing else does before it is checked. -/
theorem forward_eq (s : State) (c : Bool) (f : List Byte) :
    ∃ o, (if c then sendPb s f else s) = { s with host := { s.host with outPbq := o } } := by
  cases c
  · exact ⟨s.host.outPbq, rfl⟩
  · exact ⟨_, rfl⟩

/-- A frame that is heard passes the checks of its arrival, and changes nothing but the host interface (R502). -/
theorem arrive_heard {s : State} {q : Req} {ty : Nat} {pay : List Byte} (h : Heard s q ty pay) :
    ∃ g, arrive s q ty pay = ({ s with host := g }, true) ∧ g.evt = s.host.evt := by
  obtain ⟨-, -, -, -, hcoding, hcrc, hlen, henum, hme, halive⟩ := h
  obtain ⟨o, ho⟩ := forward_eq s (reqStream q == .broadcast && pbOpen s) (reqFrame q ty pay)
  obtain ⟨g, hg, hevt⟩ := setAlive_eq { s with host := { s.host with outPbq := o } } (reqStream q) q.alive
  refine ⟨g, ?_, hevt⟩
  unfold arrive
  rw [if_neg (by simp [hcoding, hcrc])]
  dsimp only
  rw [ho]
  refine (if_neg (not_not.2 hlen)).trans <| (if_neg ?_).trans <| (if_neg ?_).trans <|
    (if_neg ?_).trans (congrArg (·, true) hg)
  · exact fun k => Bool.false_ne_true (henum.symm.trans k)
  · exact fun k => by simp at k; exact Bool.false_ne_true (k.symm.trans hme)
  · exact fun k => k halive

/-- A request that is heard and not barred is answered with what it comes to, in the state it has left the host
interface in. -/
theorem request_heard {s : State} {q : Req} {ty : Nat} {pay : List Byte} (h : Heard s q ty pay) :
    ∃ g, g.evt = s.host.evt
      ∧ ∀ (bar : State → Option Ans) (f : State → State × Ans), bar { s with host := g } = none →
      request s q ty pay bar f = respond (f { s with host := g }).1 q ty (f { s with host := g }).2 := by
  obtain ⟨r, hr⟩ := unqueue_eq s q ty pay
  obtain ⟨g, hg, hevt⟩ := arrive_heard (s := { s with host := { s.host with reqs := r } }) h
  obtain ⟨hup, hrun, hport, hroom, -⟩ := h
  refine ⟨g, hevt, fun bar f hbar => ?_⟩
  have hdo : handDo { s with host := g } q ty bar (fun s => respond (f s).1 q ty (f s).2)
      = respond (f { s with host := g }).1 q ty (f { s with host := g }).2 := by
    rw [handDo, if_neg (by simp [hrun]), hbar]
  unfold request requestDo
  rw [if_neg (by simp [hup, hport]), if_neg (by simp [hroom]), hr, hg]
  exact hdo

/-- What a request that is answered with `a` after its frame was heard leaves: the answer, and the host interface. -/
theorem answered_of_heard {s : State} {g : HostIf} (q : Req) (ty : Nat) (a : Ans) (hg : g.evt = s.host.evt) :
    Replied (respond { s with host := g } q ty a) a ∧ Touches [.acc, .host] s (respond { s with host := g } q ty a) := by
  obtain ⟨k, hk, hevt⟩ := respond_eq { s with host := g } q ty a
  rw [hk]
  exact ⟨rfl, accHost_touches s _ k (hevt.trans hg)⟩

/-! ## Words read (R34, R35) -/

/-- A RAM region lies in the window 0x30 of the map, and no part of the store does (R34, R38). -/
theorem inRam_bounds {a : Nat} (h : inRam a = true) : 0x30000000 ≤ a ∧ a < 0x31000000 := by
  simp [inRam] at h
  omega

theorem regRead_ram {s : State} {a : Nat} (ha : a % 4 = 0) (h : inRam a = true)
    (hx : addrDie a = .ds → xingDown s = false) :
    regRead s a = (s, 0, memWord s.mem a) := by
  obtain ⟨hlo, hhi⟩ := inRam_bounds h
  have hw : a / 2 ^ 24 = 0x30 := by omega
  have hbuf : inDevBuf s a = false := by simp only [inDevBuf, hw]; rfl
  have hstore : inStore a = false :=
    Bool.and_eq_false_iff.2 (.inl (decide_eq_false (by simp only [storeBase]; omega)))
  have hacts : windowActs s a = s := by simp only [windowActs, hw]
  have hopen : (addrDie a == .ds && xingDown s) = false := by
    cases hd : addrDie a
    · rfl
    · exact hx hd
  simp [regRead, ha, hbuf, hstore, h, hacts, hopen]

theorem regRead_odd {s : State} {a : Nat} (ha : a % 4 ≠ 0) : regRead s a = (s, 1, 0) := if_pos ha

theorem regRead_devBuf {s : State} {a : Nat} (ha : a % 4 = 0) (h : inDevBuf s a = true) : regRead s a = (s, 4, 0) :=
  (if_neg (not_not.2 ha)).trans (if_pos h)

/-- Words of RAM are read in the order of their addresses, and nothing changes. -/
theorem readWords_ram (n : Nat) (s : State) (a i : Nat) (ws : List Word) (ha : a % 4 = 0)
    (h : ∀ k < n, inRam (a + 4 * k) = true ∧ (addrDie (a + 4 * k) = .ds → xingDown s = false)) :
    readWords n s a i ws = (s, { status := 0, data := ws ++ (List.range n).map fun k => memWord s.mem (a + 4 * k) }) := by
  induction n generalizing a i ws with
  | zero => simp [readWords]
  | succ n ih =>
    obtain ⟨hram, hopen⟩ := h 0 (Nat.succ_pos n)
    have hnext (k : Nat) : a + 4 + 4 * k = a + 4 * (k + 1) := by omega
    have hrest := ih (a + 4) (i + 1) (ws ++ [memWord s.mem a]) (by omega) fun k hk => by
      rw [hnext]
      exact h (k + 1) (Nat.succ_lt_succ hk)
    rw [readWords, regRead_ram ha hram hopen]
    simpa [List.range_succ_eq_map, Function.comp_def, hnext] using hrest

/-- A read that stops at its first word is answered with the status and index 0. -/
theorem readWords_stop {n : Nat} {s : State} {a st : Nat} {w : Word} (hn : 1 ≤ n) (hr : regRead s a = (s, st, w))
    (hst : st ≠ 0) :
    readWords n s a 0 [] = (s, { status := st, ucode := if st = 4 then 0x20 else 0, idx := 0 }) := by
  obtain ⟨m, rfl⟩ := Nat.exists_eq_add_of_le' hn
  rw [readWords, hr]
  exact if_neg hst

/-- HOST_READ that is heard and not barred: the words are read in a state that differs in the host interface alone,
and answered. -/
theorem hostRead_heard {q : Req} {addr : Word} {count : BitVec 16} {s : State}
    (h : Heard s q tREAD (leBytes 4 addr.toNat ++ leBytes 2 count.toNat)) (hbar : typeBar q tREAD false = none)
    (hshed : s.kp.shed2 = false) (a : Ans)
    (hread : ∀ g, (if count.toNat = 0 || 63 < count.toNat then (({ s with host := g } : State), lenAns)
      else readWords count.toNat { s with host := g } addr.toNat 0 []) = ({ s with host := g }, a)) :
    Runs (.hostRead q addr count) s fun t => Replied t a ∧ OnlyChanges [.acc, .host] s t := by
  obtain ⟨g, hg, hrequest⟩ := request_heard h
  obtain ⟨hrep, ht⟩ := answered_of_heard q tREAD a hg
  refine ⟨_, congrArg Host.Outcome.next ((hrequest _ _ ?_).trans ?_), hrep, ht.onlyChanges⟩
  · simp [hbar, hshed]
  · simp only [hread]

/-- Settles O16: by what reading a word does, word after word. -/
theorem hostReadsMemoryInOrder : Obligations.HostReadsMemoryInOrder := by
  intro q addr count s hheard hbar hshed
  have hlen (h1 : 1 ≤ count.toNat) (h63 : count.toNat ≤ 63) : ¬(count.toNat = 0 || decide (63 < count.toNat)) = true := by
    simp; omega
  refine ⟨?ram, ?length, ?odd, ?devBuf⟩
  case ram =>
    intro h1 h63 ha hram
    exact hostRead_heard hheard hbar hshed _ fun g => (if_neg (hlen h1 h63)).trans (readWords_ram _ _ _ _ _ ha hram)
  case length =>
    intro hcount
    exact hostRead_heard hheard hbar hshed _ fun g => if_pos (by simpa using hcount)
  case odd =>
    intro h1 h63 ha
    exact hostRead_heard hheard hbar hshed _ fun g => (if_neg (hlen h1 h63)).trans
      (readWords_stop h1 (regRead_odd ha) (by decide))
  case devBuf =>
    intro h1 h63 ha hbuf
    exact hostRead_heard hheard hbar hshed _ fun g =>
      (if_neg (hlen h1 h63)).trans (readWords_stop h1 (regRead_devBuf ha hbuf) (by decide))

end Sys2Proof.Machine
end

section
namespace Sys2Proof.Machine

/-! ## Words written (R34, R35) -/

/-- No word is written off a multiple of 4, into the store's window or into RAM. -/
theorem regWrite_refused {s : State} {a : Nat} (h : a % 4 ≠ 0 ∨ inStore a = true ∨ inRam a = true) (v : Word) :
    regWrite s a v = (s, 1, 0) := if_pos (by simpa [or_assoc] using h)

/-- SYS_ALMASK takes the six bits written (R548). -/
theorem regWrite_almask (s : State) (v : Word) :
    regWrite s 0x1000001C v = ({ s with sys := { s.sys with almask := v &&& 0x3F } }, 0, 0) := by
  have hplace : ¬((0x1000001C % 4 ≠ 0 || inStore 0x1000001C || inRam 0x1000001C) = true) := by decide
  have hwrite : windowWrite s 0x1000001C v = served { s with sys := { s.sys with almask := v &&& 0x3F } } := rfl
  rw [regWrite, if_neg hplace, hwrite]
  rfl

/-- A write whose first word is refused with ADDR is answered so and changes nothing. -/
theorem writeWords_refused {words : List Word} {s : State} {a : Nat} (hn : 1 ≤ words.length)
    (h : a % 4 ≠ 0 ∨ inStore a = true ∨ inRam a = true) :
    writeWords words s a 0 = (s, { status := 1, idx := 0 }) := by
  cases words with
  | nil => exact absurd hn (by decide)
  | cons v vs =>
    rw [writeWords, regWrite_refused h]
    rfl

/-- An update of the system unit that leaves its events. -/
theorem sys_touches (s : State) (v : Sys) (h : v.sysEvt = s.sys.sysEvt) : Touches [.sys] s { s with sys := v } := by
  refine .of_update (fun p => ?_) rfl rfl rfl
  have k := p.agree_refl s
  cases p
  case sysEvt => exact h
  all_goals exact k

/-- HOST_WRITE of 1 to 63 words that is heard and not barred: they are written in a state that differs in the host
interface alone. -/
theorem hostWrite_heard {q : Req} {addr : Word} {words : List Word} {s : State}
    (h : Heard s q tWRITE (leBytes 4 addr.toNat ++ bytesOf words)) (hbar : typeBar q tWRITE true = none)
    (hwrite : writeBar s = none)    (h1 : 1 ≤ words.length) (h63 : words.length ≤ 63) : ∃ g, g.evt = s.host.evt ∧
      exec (.hostWrite q addr words) s = .next (respond (writeWords words { s with host := g } addr.toNat 0).1 q tWRITE
        (writeWords words { s with host := g } addr.toNat 0).2) := by
  obtain ⟨g, hg, hrequest⟩ := request_heard h
  have hbarG : writeBar { s with host := g } = none := hwrite
  have hlen : ¬(words.length = 0 || decide (63 < words.length)) = true := by
    simp only [Bool.or_eq_true, decide_eq_true_eq]
    omega
  refine ⟨g, hg, congrArg Host.Outcome.next ((hrequest _ _ ?_).trans ?_)⟩
  · simp [hbar, hbarG]
  · simp only [if_neg hlen]

/-- Settles O17: by what writing the first word does. -/
theorem hostWritesARegisterButNoMemory : Obligations.HostWritesARegisterButNoMemory := by
  intro q addr words s hheard hbar hwrite
  refine ⟨?almask, ?refused⟩
  case almask =>
    rintro v rfl rfl
    obtain ⟨g, hg, he⟩ := hostWrite_heard hheard hbar hwrite (Nat.le_refl 1) (by simp)
    have hwords : writeWords [v] { s with host := g } (0x1000001C : Word).toNat 0
        = ({ s with host := g, sys := { s.sys with almask := v &&& 0x3F } }, okAns) := by
      rw [writeWords, show (0x1000001C : Word).toNat = 0x1000001C from rfl, regWrite_almask]
      rfl
    rw [hwords] at he
    obtain ⟨hrep, ht⟩ := answered_of_heard (s := { s with sys := { s.sys with almask := v &&& 0x3F } })
      q tWRITE okAns hg
    obtain ⟨k, hk, -⟩ := respond_eq { s with host := g, sys := { s.sys with almask := v &&& 0x3F } } q tWRITE okAns
    refine ⟨_, he, hrep, by rw [hk], Touches.onlyChanges <| .after (by decide) ht <|
      .mono (by decide) (sys_touches s _ rfl)⟩
  case refused =>
    intro h1 h63 haddr
    obtain ⟨g, hg, he⟩ := hostWrite_heard hheard hbar hwrite h1 h63
    obtain ⟨hrep, ht⟩ := answered_of_heard q tWRITE { status := 1, idx := 0 } hg
    rw [writeWords_refused h1 haddr] at he
    exact ⟨_, he, hrep, ht.onlyChanges⟩

end Sys2Proof.Machine
end

section
namespace Sys2Proof.Machine

/-! ## Updates of parts that commands make -/

/-- An update of the host interface that leaves its events. -/
theorem host_touches (s : State) (v : HostIf) (h : v.evt = s.host.evt) : Touches [.host] s { s with host := v } := by
  refine .of_update (fun p => ?_) rfl rfl rfl
  have k := p.agree_refl s
  cases p
  case hostEvt => exact h
  all_goals exact k

theorem im_touches (s : State) (v : ImgMgr) : Touches [.im] s { s with im := v } :=
  .of_update (fun p => by have k := p.agree_refl s; cases p <;> exact k) rfl rfl rfl

/-- An update of the Keeper that leaves the fault log's number and early records. -/
theorem kp_touches (s : State) (v : Keeper) (h : v.seqNo = s.kp.seqNo ∧ v.early = s.kp.early) :
    Touches [.kp] s { s with kp := v } := by
  refine .of_update (fun p => ?_) rfl rfl rfl
  have k := p.agree_refl s
  cases p
  case kpLog => exact h
  all_goals exact k

/-- An update of the non-volatile data that leaves the position of the fault log. -/
theorem nv_touches (s : State) (v : Nv) (h : v.logNext = s.nv.logNext) : Touches [.nv] s { s with nv := v } := by
  refine .of_update (fun p => ?_) rfl rfl rfl
  have k := p.agree_refl s
  cases p
  case logNext => exact h
  all_goals exact k

/-- An update of memory and of the non-volatile data that keeps memory canonical and the position of the fault log. -/
theorem memNv_touches (s : State) (m : List Host.Cell) (v : Nv) (hm : Memory.wf s.mem = true → Memory.wf m = true)
    (h : v.logNext = s.nv.logNext) : Touches [.mem, .log, .nv] s { s with mem := m, nv := v } where
  same p hp := by
    have k := p.agree_refl s
    cases p
    case mem => exact absurd hp (by decide)
    case log => exact absurd hp (by decide)
    case nv => exact absurd hp (by decide)
    case logNext => exact h
    all_goals exact k
  time := Nat.le_refl _
  mem := hm
  size := id

theorem OnlyChanges.mono {P Q : List Part} {s t : State} (hQ : Q ⊆ P) (h : OnlyChanges Q s t) : OnlyChanges P s t :=
  fun p hp => h p fun k => hp (hQ k)

/-- What was touched touches no fault log that reads as before. -/
theorem OnlyChanges.without_log {P : List Part} {s t : State} (h : OnlyChanges (.log :: P) s t)
    (hlog : ∀ a, inLog a = true → memGet t.mem a = memGet s.mem a) : OnlyChanges P s t := by
  intro p hp
  by_cases k : p = .log
  · exact k ▸ hlog
  · exact h p (by simp [k, hp])

theorem modCk_touches (s : State) (d : Die) (n : Nat) (f : Ck → Ck) : Touches [.ckCs, .ckDs] s (s.modCk d n f) := by
  cases d <;>
    exact .of_update (fun p => by have k := p.agree_refl s; cases p <;> exact k) rfl rfl
      (by simp [shape, State.modCk, State.setCks, State.cks, upd])

/-! ## The nonce of signed commands (R509): no frame's arrival changes it -/

theorem respond_cnonce (s : State) (q : Req) (ty : Nat) (a : Ans) : (respond s q ty a).host.cnonce = s.host.cnonce := by
  unfold respond
  dsimp only
  split <;> rfl

/-- What does not touch the host interface leaves the nonce. -/
theorem Touches.cnonce {P : List Part} {s t : State} (h : Touches P s t) (hP : .host ∉ P) :
    t.host.cnonce = s.host.cnonce :=
  have hh : { t.host with evt := 0 } = { s.host with evt := 0 } := h.agree .host hP
  (congrArg HostIf.cnonce hh :)

theorem hcCount_cnonce (s : State) (cause inst : Nat) (detail : Word) :
    (hcCount s cause inst detail).host.cnonce = s.host.cnonce := (countEvent_touches _ _).cnonce (by decide)

theorem setAlive_cnonce (s : State) (m : Stream) (a : Byte) : (setAlive s m a).host.cnonce = s.host.cnonce := by
  cases m <;> rfl

theorem cnonce_ite {c : Prop} [Decidable c] {t u : State} {n : Word} (h : t.host.cnonce = n) (k : u.host.cnonce = n) :
    (if c then t else u).host.cnonce = n := by split <;> assumption

theorem cnonce_ite_fst {α : Type} {c : Prop} [Decidable c] {t u : State × α} {n : Word} (h : t.1.host.cnonce = n)
    (k : u.1.host.cnonce = n) : (if c then t else u).1.host.cnonce = n := by split <;> assumption

theorem arrive_cnonce (s : State) (q : Req) (ty : Nat) (pay : List Byte) :
    (arrive s q ty pay).1.host.cnonce = s.host.cnonce := by
  have hsent : (if reqStream q == .broadcast && pbOpen s then sendPb s (reqFrame q ty pay) else s).host.cnonce
      = s.host.cnonce := cnonce_ite rfl rfl
  refine cnonce_ite_fst (hcCount_cnonce _ _ _ _) <| cnonce_ite_fst ?length <| cnonce_ite_fst hsent <|
    cnonce_ite_fst ?other <| cnonce_ite_fst ?alive ?heard
  case length => exact (respond_cnonce _ _ _ _).trans hsent
  case other => exact cnonce_ite hsent (cnonce_ite hsent ((respond_cnonce _ _ _ _).trans hsent))
  case alive => exact (respond_cnonce _ _ _ _).trans <| (hcCount_cnonce _ _ _ _).trans hsent
  case heard => exact (setAlive_cnonce _ _ _).trans hsent

theorem unqueue_cnonce (s : State) (q : Req) (ty : Nat) (pay : List Byte) :
    (unqueue s q ty pay).host.cnonce = s.host.cnonce := by
  obtain ⟨r, hr⟩ := unqueue_eq s q ty pay
  rw [hr]

/-- A request that does nothing leaves the nonce, whether it is heard or not. -/
theorem request_cnonce (s : State) (q : Req) (ty : Nat) (pay : List Byte) (a : Ans) :
    (request s q ty pay (fun _ => none) fun s => (s, a)).host.cnonce = s.host.cnonce := by
  have harrive := (arrive_cnonce (unqueue s q ty pay) q ty pay).trans (unqueue_cnonce s q ty pay)
  refine cnonce_ite rfl <| cnonce_ite rfl <| cnonce_ite (cnonce_ite harrive ?_) harrive
  exact (respond_cnonce _ _ _ _).trans harrive

/-! ## Commands (R502, R508) -/

/-- A state in which a request was heard: the host interface has taken its frame, and the nonce and the events are as they
were. -/
def HeardIn (s u : State) : Prop :=
  ∃ g : HostIf, u = { s with host := g } ∧ g.evt = s.host.evt ∧ g.cnonce = s.host.cnonce

namespace HeardIn

variable {s u : State}

theorem touches (h : HeardIn s u) : Touches [.host] s u := by
  obtain ⟨g, rfl, hevt, -⟩ := h
  exact host_touches s g hevt

theorem cnonce (h : HeardIn s u) : u.host.cnonce = s.host.cnonce := by
  obtain ⟨g, rfl, -, hn⟩ := h
  exact hn

theorem restartOk_eq (h : HeardIn s u) : restartOk u = restartOk s := by
  obtain ⟨g, rfl, -⟩ := h
  rfl

end HeardIn

/-- What the answer `a` leaves of u: u with the answer, and a host interface that sends it. -/
def AnsweredFrom (u t : State) (a : Ans) : Prop :=
  ∃ g : HostIf, t = { u with
      acc := { status := a.status, ucode := a.ucode, idx := BitVec.ofNat 16 a.idx, data := a.data }, host := g }
    ∧ g.evt = u.host.evt ∧ g.cnonce = u.host.cnonce

theorem respond_answered (u : State) (q : Req) (ty : Nat) (a : Ans) : AnsweredFrom u (respond u q ty a) a := by
  obtain ⟨g, hg, hevt⟩ := respond_eq u q ty a
  refine ⟨g, hg, hevt, ?_⟩
  rw [← respond_cnonce u q ty a, hg]

namespace AnsweredFrom

variable {u t : State} {a : Ans}

theorem replied (h : AnsweredFrom u t a) : Replied t a := by
  obtain ⟨g, rfl, -⟩ := h
  rfl

theorem touches (h : AnsweredFrom u t a) : Touches [.acc, .host] u t := by
  obtain ⟨g, rfl, hevt, -⟩ := h
  exact accHost_touches u _ g hevt

theorem cnonce (h : AnsweredFrom u t a) : t.host.cnonce = u.host.cnonce := by
  obtain ⟨g, rfl, -, hn⟩ := h
  exact hn

end AnsweredFrom

/-- A command that is heard and not barred is answered with what it comes to in the state that heard it. -/
theorem command_runs {c : Instr} {s : State} {q : Req} {code : Nat} {args : List Byte} {bcOk anyImage : Bool} {cls : Nat}
    {f : State → State × Ans} {P : State → Prop} (h : Commanded s q code args bcOk anyImage cls)
    (hc : exec c s = .next (command s q code args bcOk anyImage cls f))
    (hP : ∀ u, HeardIn s u → ∃ v a, f u = (v, a) ∧ ∀ t, AnsweredFrom v t a → P t) : Runs c s P := by
  obtain ⟨hheard, hbar⟩ := h
  obtain ⟨g, hevt, hrequest⟩ := request_heard hheard
  have hn : g.cnonce = s.host.cnonce := by
    rw [← request_cnonce s q tCMD (cmdPay code args) okAns, hrequest _ _ rfl, respond_cnonce]
  obtain ⟨v, a, hf, hv⟩ := hP _ ⟨g, rfl, hevt, hn⟩
  have hdone := hrequest (cmdBar q bcOk anyImage cls) f hbar
  rw [hf] at hdone
  exact ⟨_, hc.trans (congrArg Host.Outcome.next hdone), hv _ (respond_answered _ _ _ _)⟩

/-- A command that comes to an answer and to nothing else. -/
theorem command_stays {c : Instr} {s : State} {q : Req} {code : Nat} {args : List Byte} {bcOk anyImage : Bool} {cls : Nat}
    {f : State → State × Ans} {a : Ans} (h : Commanded s q code args bcOk anyImage cls)
    (hc : exec c s = .next (command s q code args bcOk anyImage cls f)) (hf : ∀ u, HeardIn s u → f u = (u, a)) :
    Runs c s fun t => Replied t a ∧ t.host.cnonce = s.host.cnonce ∧ OnlyChanges [.acc, .host] s t := by
  refine command_runs h hc fun u hu => ⟨u, a, hf u hu, fun t ht => ⟨ht.replied, ht.cnonce.trans hu.cnonce, ?_⟩⟩
  exact Touches.onlyChanges <| .after (by decide) ht.touches (.mono (by decide) hu.touches)

theorem Runs.imp {c : Instr} {s : State} {P Q : State → Prop} (h : Runs c s P) (k : ∀ t, P t → Q t) : Runs c s Q := by
  obtain ⟨t, he, ht⟩ := h
  exact ⟨t, he, k t ht⟩

/-! ## SYS_RESTART (R61, R533, R538) -/

/-- Settles O12: the conditions do not look at the host interface, and a restart is one update of the state that heard it. -/
theorem restartResumesStartUpAtStepThree : Obligations.RestartResumesStartUpAtStepThree := by
  intro q s h
  constructor
  · intro hok
    refine command_runs h rfl fun u hu => ⟨restart u, okAns, if_pos (hu.restartOk_eq.trans hok), fun t ht => ?_⟩
    obtain ⟨g, rfl, -⟩ := hu
    obtain ⟨k, rfl, -⟩ := ht
    refine ⟨rfl, rfl, rfl, rfl, rfl, rfl, rfl, rfl, rfl, rfl, rfl, rfl, fun p hp => ?_⟩
    fin_cases hp <;> rfl
  · intro hno
    refine (command_stays h rfl fun u hu => if_neg (by simp [hu.restartOk_eq, hno])).imp ?_
    exact fun t ⟨hrep, _, ht⟩ => ⟨hrep, ht.mono (by decide)⟩

end Sys2Proof.Machine
end

section
namespace Sys2Proof.Machine

/-! ## Bytes read after bytes were written or erased (R38) -/

/-- The byte at a place among consecutive bytes written. -/
theorem memGet_memPutBytes_in {m : List Host.Cell} (h : Memory.wf m = true) (bs : List Byte) (a : Nat) {i : Nat}
    (hi : i < bs.length) : memGet (memPutBytes m a bs) (a + i) = bs.getD i 0 := by
  induction bs generalizing m a i with
  | nil => exact absurd hi (Nat.not_lt_zero i)
  | cons b bs ih =>
    cases i with
    | zero => exact (memGet_memPutBytes_out bs _ (.inl (by omega))).trans <| by simp [memGet_memPut h]
    | succ i =>
      have := ih (Memory.wf_memPut a b h) (a + 1) (Nat.lt_of_succ_lt_succ hi)
      rwa [Nat.add_right_comm, Nat.add_assoc] at this

/-- Bytes put one after the other, each by its place, are consecutive bytes written. -/
theorem foldl_memPut (bs : List Byte) (m : List Host.Cell) (a : Nat) :
    (List.range bs.length).foldl (fun m i => memPut m (a + i) (bs.getD i 0)) m = memPutBytes m a bs := by
  induction bs generalizing m a with
  | nil => rfl
  | cons b bs ih =>
    rw [List.length_cons, List.range_succ_eq_map, List.foldl_cons, List.foldl_map, memPutBytes, ← ih]
    simp [Nat.add_assoc, Nat.add_comm 1]

/-- An address with no cell reads as an unlisted one. -/
theorem memGet_unlisted {m : List Host.Cell} {a : Nat} (h : ∀ c ∈ m, c.1 ≠ a) : memGet m a = 0 := by
  induction m with
  | nil => rfl
  | cons c m ih => exact (if_neg (h c (by simp))).trans (ih fun e he => h e (by simp [he]))

/-- The cells that an erasure leaves: those outside its range. -/
theorem mem_memErase {m : List Host.Cell} {a n : Nat} {c : Host.Cell} :
    c ∈ memErase m a n ↔ c ∈ m ∧ (c.1 < a ∨ a + n ≤ c.1) := by
  simp [memErase]

/-! ## The store where it takes writes (R39, R532) -/

/-- The store takes writes: it is supplied, and no word is worn out. -/
def StoreTakes (s : State) : Prop := s.sup.csOk.getLsbD 2 = true ∧ s.nv.worn = []

/-- What does not touch the supplies or the non-volatile data leaves a store that takes writes. -/
theorem StoreTakes.of_touches {P : List Part} {s t : State} (h : StoreTakes s) (ht : Touches P s t)
    (hP : .sup ∉ P ∧ .nv ∉ P) : StoreTakes t := by
  have hsup : t.sup = s.sup := ht.agree .sup hP.1
  have hnv : { t.nv with logNext := 0 } = { s.nv with logNext := 0 } := ht.agree .nv hP.2
  exact ⟨hsup ▸ h.1, (congrArg Nv.worn hnv :).trans h.2⟩

/-- From s the store has taken memory anew: v differs from s in memory and in the codes of words, and the store takes
writes as before. -/
def Stored (s v : State) (m : List Host.Cell) : Prop := v.mem = m ∧ StoreTakes v ∧ Touches [.log, .mem, .nv] s v

theorem stored_of_flips {s : State} (h : StoreTakes s) {m : List Host.Cell}
    (hm : Memory.wf s.mem = true → Memory.wf m = true) (fl : List (Nat × Nat)) :
    Stored s { s with mem := m, nv := { s.nv with flips := fl } } m :=
  ⟨rfl, h, .mono (by decide) (memNv_touches s m _ hm rfl)⟩

/-- A write that the store takes. -/
theorem storeWrite_takes {s : State} (h : StoreTakes s) (hm : Memory.wf s.mem = true) (a : Nat) (bs : List Byte) :
    ∃ v, storeWrite s a bs = (v, true) ∧ Stored s v (memPutBytes s.mem a bs) := by
  by_cases h0 : bs.length = 0
  · obtain rfl := List.eq_nil_of_length_eq_zero h0
    exact ⟨s, rfl, rfl, h, .refl _ _⟩
  · have hput : (List.range bs.length).foldl
        (fun m i => if s.nv.worn.contains ((a + i) / 8) then m else memPut m (a + i) (bs.getD i 0)) s.mem
        = memPutBytes s.mem a bs := by simpa [h.2] using foldl_memPut bs s.mem a
    have hgood : ((List.range bs.length).all fun i => memGet (memPutBytes s.mem a bs) (a + i) == bs.getD i 0) = true := by
      simp only [List.all_eq_true, List.mem_range, beq_iff_eq]
      exact fun i hi => memGet_memPutBytes_in hm bs a hi
    refine ⟨_, ?_, stored_of_flips h (Memory.wf_memPutBytes a bs)
      (s.nv.flips.filter fun f => f.1 < a / 8 || (a + bs.length - 1) / 8 < f.1)⟩
    unfold storeWrite
    rw [if_neg h0, if_neg (by simp [h.1])]
    dsimp only
    rw [hput, if_pos hgood]

/-- An erasure that the store takes. -/
theorem storeErase_takes {s : State} (h : StoreTakes s) (a n : Nat) :
    ∃ v, storeErase s a n = (v, true) ∧ Stored s v (memErase s.mem a n) := by
  have hmem : s.mem.filter (fun c => c.1 < a || a + n ≤ c.1 || s.nv.worn.contains (c.1 / 8)) = memErase s.mem a n := by
    simp [h.2, memErase]
  have hgood : ((memErase s.mem a n).all fun c => c.1 < a || decide (a + n ≤ c.1)) = true := by
    simp only [List.all_eq_true, Bool.or_eq_true, decide_eq_true_eq]
    exact fun c hc => (mem_memErase.1 hc).2
  refine ⟨_, ?_, stored_of_flips h (Memory.wf_memErase a n)
    (s.nv.flips.filter fun f => f.1 < a / 8 || (a + n - 1) / 8 < f.1)⟩
  unfold storeErase
  dsimp only
  rw [hmem, if_pos hgood]

/-! ## The boot area where the store takes writes (R40) -/

theorem inCopy_iff {k w : Nat} : inCopy k w = true ↔ bootWord k ≤ w ∧ w < bootWord (k + 1) := by simp [inCopy]

/-- No 64-bit word lies in two copies of the boot area. -/
theorem inCopy_disjoint {j k w : Nat} (hjk : j ≠ k) (h : inCopy k w = true) : inCopy j w = false := by
  rw [← Bool.not_eq_true, inCopy_iff]
  rw [inCopy_iff] at h
  simp only [bootWord, storeBase] at h ⊢
  omega

/-- Writing a copy anew leaves whether another copy can be read. -/
theorem copyGood_copyFresh (s : State) (v : Nv) {j k : Nat} (hjk : j ≠ k) (b : Bool) :
    copyGood { s with nv := copyFresh j v } k b = copyGood { s with nv := v } k b := by
  have hword (f : Nat × Nat) :
      (!inCopy j f.1 && (inCopy k f.1 && decide (2 ≤ f.2))) = (inCopy k f.1 && decide (2 ≤ f.2)) := by
    cases h : inCopy k f.1
    · simp
    · simp [inCopy_disjoint hjk h]
  simp only [copyGood, copyFresh, List.any_filter, hword]

/-- The non-volatile data with a key table in both of its copies. -/
def Nv.withKeys (v : Nv) (c : KeyCopy) : Nv := copyFresh 1 { copyFresh 0 { v with keysA := c } with keysB := c }

/-- The non-volatile data with a boot record in both of its copies. -/
def Nv.withBoot (v : Nv) (c : BootCopy) : Nv := copyFresh 3 { copyFresh 2 { v with bootA := c } with bootB := c }

theorem keysNow_withKeys (s : State) (c : KeyCopy) : keysNow { s with nv := s.nv.withKeys c } = c := ite_self c

theorem recNow_withBoot (s : State) (c : BootCopy) : recNow { s with nv := s.nv.withBoot c } = c := ite_self c

theorem recNow_withKeys (s : State) (c : KeyCopy) : recNow { s with nv := s.nv.withKeys c } = recNow s := by
  have hgood (k : Nat) (h0 : 0 ≠ k) (h1 : 1 ≠ k) (b : Bool) :
      copyGood { s with nv := s.nv.withKeys c } k b = copyGood s k b :=
    (copyGood_copyFresh s _ h1 b).trans (copyGood_copyFresh s _ h0 b)
  simp only [recNow, hgood _ (by decide : 0 ≠ 2) (by decide), hgood _ (by decide : 0 ≠ 3) (by decide)]
  rfl

theorem keysNow_withBoot (s : State) (c : BootCopy) : keysNow { s with nv := s.nv.withBoot c } = keysNow s := by
  have hgood (k : Nat) (h2 : 2 ≠ k) (h3 : 3 ≠ k) (b : Bool) :
      copyGood { s with nv := s.nv.withBoot c } k b = copyGood s k b :=
    (copyGood_copyFresh s _ h3 b).trans (copyGood_copyFresh s _ h2 b)
  simp only [keysNow, hgood _ (by decide : 2 ≠ 0) (by decide), hgood _ (by decide : 2 ≠ 1) (by decide)]
  rfl

theorem keysWrite_takes {s : State} (h : s.nv.worn = []) (keys : List KeyEntry) :
    keysWrite s keys = ({ s with nv := s.nv.withKeys { gen := (keysNow s).gen + 1, crcOk := true, keys := keys } }, true) :=
  (if_neg (by simp [copyTakes, h])).trans (if_neg (by simp [copyTakes, copyFresh, h]))

theorem recWrite_takes {s : State} (h : s.nv.worn = []) (boot : Boot) :
    recWrite s boot = ({ s with nv := s.nv.withBoot { gen := (recNow s).gen + 1, crcOk := true, boot := boot } }, true) :=
  (if_neg (by simp [copyTakes, h])).trans (if_neg (by simp [copyTakes, copyFresh, h]))

/-- A change of the key table that the store takes: it is in force, and the boot record as it was. -/
theorem keysChange_takes {s : State} (h : StoreTakes s) (keys : List KeyEntry) :
    ∃ v, (if keys = (bootNow s).keys then (s, true) else keysWrite s keys) = ({ s with nv := v }, true)
      ∧ bootNow { s with nv := v } = { bootNow s with keys := keys } ∧ v.worn = [] ∧ v.logNext = s.nv.logNext := by
  by_cases hk : keys = (bootNow s).keys
  · exact ⟨s.nv, if_pos hk, by rw [hk], h.2, rfl⟩
  · refine ⟨_, (if_neg hk).trans (keysWrite_takes h.2 keys), ?_, h.2, rfl⟩
    simp only [bootNow, keysNow_withKeys, recNow_withKeys]

/-- A change of the boot record that the store takes: it is in force, and the key table as it was. -/
theorem recChange_takes {s : State} (h : s.nv.worn = []) (boot : Boot) :
    ∃ v, (if boot = (bootNow s).boot then (s, true) else recWrite s boot) = ({ s with nv := v }, true)
      ∧ bootNow { s with nv := v } = { bootNow s with boot := boot } ∧ v.logNext = s.nv.logNext := by
  by_cases hb : boot = (bootNow s).boot
  · exact ⟨s.nv, if_pos hb, by rw [hb], rfl⟩
  · refine ⟨_, (if_neg hb).trans (recWrite_takes h boot), ?_, rfl⟩
    simp only [bootNow, recNow_withBoot, keysNow_withBoot]

/-- A change of the boot area that the store takes is in force after it. -/
theorem bootWrite_takes {s : State} (h : StoreTakes s) (f : BootArea → BootArea) :
    ∃ v, bootWrite s f = (v, true) ∧ bootNow v = f (bootNow s) ∧ Touches [.nv] s v := by
  obtain ⟨v, hv, hvboot, hvworn, hvlog⟩ := keysChange_takes h (f (bootNow s)).keys
  obtain ⟨w, hw, hwboot, hwlog⟩ := recChange_takes (s := { s with nv := v }) hvworn (f (bootNow s)).boot
  refine ⟨{ s with nv := w }, ?_, hwboot.trans (by rw [hvboot]), nv_touches s w (hwlog.trans hvlog)⟩
  rw [hvboot] at hw
  unfold bootWrite
  rw [if_neg (by simp [h.1])]
  dsimp only
  rw [hv]
  simpa using hw

end Sys2Proof.Machine
end

section
namespace Sys2Proof.Machine

/-! ## What the arrival of a command leaves alone -/

namespace HeardIn

variable {s u : State}

theorem mem_eq (h : HeardIn s u) : u.mem = s.mem := by
  obtain ⟨g, rfl, -⟩ := h
  rfl

theorem im_eq (h : HeardIn s u) : u.im = s.im := by
  obtain ⟨g, rfl, -⟩ := h
  rfl

theorem bootNow_eq (h : HeardIn s u) : bootNow u = bootNow s := by
  obtain ⟨g, rfl, -⟩ := h
  rfl

theorem spareSlot_eq (h : HeardIn s u) : spareSlot u = spareSlot s := by
  obtain ⟨g, rfl, -⟩ := h
  rfl

theorem storeTakes (h : HeardIn s u) (k : StoreTakes s) : StoreTakes u := k.of_touches h.touches (by decide)

end HeardIn

namespace AnsweredFrom

variable {u t : State} {a : Ans}

theorem mem_eq (h : AnsweredFrom u t a) : t.mem = u.mem := by
  obtain ⟨g, rfl, -⟩ := h
  rfl

theorem im_eq (h : AnsweredFrom u t a) : t.im = u.im := by
  obtain ⟨g, rfl, -⟩ := h
  rfl

theorem bootNow_eq (h : AnsweredFrom u t a) : bootNow t = bootNow u := by
  obtain ⟨g, rfl, -⟩ := h
  rfl

end AnsweredFrom

/-- The frame of a command: its arrival, what it does, and its answer. -/
theorem command_frame {P : List Part} {s u v t : State} {a : Ans} (hP : [.acc, .host] ⊆ P) (hu : HeardIn s u)
    (hv : Touches P u v) (ht : AnsweredFrom v t a) : OnlyChanges P s t :=
  Touches.onlyChanges <| .after hP ht.touches <|
    .trans (.mono (List.Subset.trans (by decide : [Part.host] ⊆ [.acc, .host]) hP) hu.touches) hv

/-! ## Slots checked (R39, R56, R58) -/

theorem nvEvent_touches (s : State) (cause w n : Nat) : Touches trace s (nvEvent s cause w n) :=
  .after (by decide) (countEvent_touches _ _) <| .mono (by decide) (useFree_touches s)

/-- Reading the words of a range, each of a state of its code counted as an event. -/
theorem codeScan_touches (s : State) (ws : List Nat) (st cause w n : Nat) :
    Touches trace s (ws.foldl (fun s x => if wordState s x = st then nvEvent s cause w n else s) s) :=
  Touches.foldl (fun _ _ => .ite_self (nvEvent_touches _ _ _ _)) _ _

theorem storeRead_touches (s : State) (a n : Nat) : Touches trace s (storeRead s a n).1 := by
  unfold storeRead
  split
  · exact .refl _ _
  · exact ((codeScan_touches _ _ _ _ _ _).trans (codeScan_touches _ _ _ _ _ _)).trans
      (.ite_self (.mono (by decide) (freeCtr_touches _ _)))

theorem readSlot_touches (s : State) (slot : Nat) : Touches trace s (readSlot s slot).1 := by
  unfold readSlot
  exact (storeRead_touches s (slotBase slot) 64).trans (storeRead_touches _ (slotBase slot + 64) _)

theorem f23_counts (s : State) (cause inst detail : Nat) :
    Touches trace { s with im := { s.im with lastCause := cause, err := wd detail } } (f23 s cause inst detail) :=
  countEvent_touches _ _

theorem f23_im (s : State) (cause inst detail : Nat) :
    (f23 s cause inst detail).im = { s.im with lastCause := cause, err := wd detail } :=
  (f23_counts s cause inst detail).agree .im (by decide)

/-- SYS_SLOTSTAT with the cause of a slot's check in its half (R58). -/
def slotStatWith (w : Word) (slot c : Nat) : Word :=
  if slot = 0 then wd (fld w 31 16 * 65536 + c) else wd (c * 65536 + fld w 15 0)

/-- The state with the cause of a slot's check noted. -/
def slotNoted (s : State) (slot c : Nat) : State :=
  { s with im := { s.im with slotStat := slotStatWith s.im.slotStat slot c } }

theorem slotNoted_touches (s : State) (slot c : Nat) : Touches [.im] s (slotNoted s slot c) := im_touches s _

/-- A check notes its cause in the state that has read the slot, and counts it where it is one. -/
theorem verifySlot_cases (s : State) (slot : Nat) : ∃ u c, Touches trace s u
    ∧ ((verifySlot s slot).1 = slotNoted u slot c ∨ ∃ d, (verifySlot s slot).1 = f23 (slotNoted u slot c) c slot d) := by
  have hread := readSlot_touches s slot
  unfold verifySlot
  dsimp only
  generalize readSlot s slot = r at hread ⊢
  cases verify r.1 false slotSize r.2 with
  | none => exact ⟨_, 0, hread, .inl rfl⟩
  | some x => exact ⟨_, x.1, hread, .inr ⟨x.2, rfl⟩⟩

theorem f23_touches (s : State) (cause inst detail : Nat) :
    Touches (traced [.im]) s (f23 s cause inst detail) :=
  .after (by decide) (f23_counts s cause inst detail) <| .mono (by decide) (im_touches s _)

theorem verifySlot_touches (s : State) (slot : Nat) : Touches (traced [.im]) s (verifySlot s slot).1 := by
  obtain ⟨u, c, hu, h⟩ := verifySlot_cases s slot
  have hnoted : Touches (traced [.im]) s (slotNoted u slot c) :=
    .after (by decide) (slotNoted_touches u slot c) (.mono (by decide) hu)
  obtain h | ⟨d, h⟩ := h <;> rw [h]
  · exact hnoted
  · exact hnoted.trans (f23_touches _ _ _ _)

/-- What a check leaves of image management: the cause it noted last, its detail, and SYS_SLOTSTAT. -/
theorem verifySlot_im (s : State) (slot : Nat) : ∃ (c e : Nat) (d : Word),
    (verifySlot s slot).1.im = { (slotNoted s slot c).im with lastCause := e, err := d } := by
  obtain ⟨u, c, hu, h⟩ := verifySlot_cases s slot
  have him : (slotNoted u slot c).im = (slotNoted s slot c).im := by
    have : u.im = s.im := hu.agree .im (by decide)
    simp only [slotNoted, this]
  obtain h | ⟨d, h⟩ := h
  · exact ⟨c, s.im.lastCause, s.im.err, by rw [h, him]; rfl⟩
  · exact ⟨c, c, wd d, by rw [h, f23_im, him]⟩

end Sys2Proof.Machine
end

section
namespace Sys2Proof.Machine

/-! ## Slots written and activated (R58, R61) -/

/-- The half of SYS_SLOTSTAT that shows slot A is as it was after a check of slot B. -/
theorem slotStatWith_low (w : Word) (c : Nat) : fld (slotStatWith w 1 c) 15 0 = fld w 15 0 := by
  simp [slotStatWith, fld, wd]

/-- No byte of a slot lies in the fault log (R38, R521). -/
theorem slot_below_log (slot : Nat) {a : Nat} (h : inLog a = true) : slotBase slot + slotSize ≤ a := by
  have hlog : storeBase + 0x610000 ≤ a := (decide_eq_true_iff.1 (Bool.and_eq_true_iff.1 h).1)
  refine Nat.le_trans ?_ hlog
  unfold slotBase
  split <;> decide

/-- IMG_WRITE that fits its slot, with a store that takes it: the bytes are in the slot and an earlier check no longer
counts. -/
theorem imgWrite_takes {s : State} (h : StoreTakes s) (hm : Memory.wf s.mem = true) {off : Nat} {data : List Byte}
    (h1 : 1 ≤ data.length) (h240 : data.length ≤ 240) (h4 : data.length % 4 = 0)
    (hfit : off + data.length ≤ slotSize) :
    ∃ v, imgWrite s off data = (v, okAns) ∧ v.mem = memPutBytes s.mem (slotBase (spareSlot s) + off) data
      ∧ v.im = { s.im with checked := s.im.checked.set (spareSlot s) false } ∧ Touches [.log, .mem, .nv, .im] s v := by
  obtain ⟨v, hw, hmem, -, hv⟩ := storeWrite_takes h hm (slotBase (spareSlot s) + off) data
  have him : v.im = s.im := hv.agree .im (by decide)
  refine ⟨{ v with im := { v.im with checked := v.im.checked.set (spareSlot s) false } }, ?_, hmem, by rw [him],
    .after (by decide) (im_touches v _) (.mono (by decide) hv)⟩
  unfold imgWrite
  dsimp only
  rw [if_neg (by simp only [Bool.or_eq_true, decide_eq_true_eq]; omega), hw]
  rfl

/-- A slot checked, and whether it passed remembered (R61). -/
def slotChecked (s : State) (n : Nat) : State :=
  { (verifySlot s n).1 with im := { (verifySlot s n).1.im with
      checked := (verifySlot s n).1.im.checked.set n ((verifySlot s n).2.1 == 0) } }

/-- IMG_CHECK's answer: the cause of the first failing check, or that there is none. -/
def checkAns (c : Nat) : Ans := if c = 0 then okAns else { status := 4, ucode := 6, data := [wd c] }

/-- IMG_CHECK comes to the check of the slot that does not run, remembered, and to its cause. -/
theorem imgCheck_eq (q : Req) (s : State) : execImgCheck q s = .next (command s q 0x11 [] false true 2 fun u =>
    (slotChecked u (spareSlot u), checkAns (verifySlot u (spareSlot u)).2.1)) := by
  refine congrArg (fun f => Host.Outcome.next (command s q 0x11 [] false true 2 f)) (funext fun u => ?_)
  dsimp only [slotChecked]
  generalize verifySlot u (spareSlot u) = r
  rfl

theorem slotChecked_touches (s : State) (n : Nat) : Touches (traced [.im]) s (slotChecked s n) :=
  .after (by decide) (im_touches _ _) (verifySlot_touches s n)

theorem slotChecked_checked (s : State) (n : Nat) :
    (slotChecked s n).im.checked = s.im.checked.set n ((verifySlot s n).2.1 == 0) := by
  obtain ⟨c, e, d, him⟩ := verifySlot_im s n
  have hkept : (verifySlot s n).1.im.checked = s.im.checked := by rw [him]; rfl
  rw [slotChecked, hkept]

/-- The state with the check after READY no longer due (R58). -/
def checkTaken (s : State) : State := { s with kp := { s.kp with slotDue := false } }

theorem checkTaken_touches (s : State) : Touches [.kp] s (checkTaken s) := kp_touches s _ ⟨rfl, rfl⟩

theorem slotCheck_due {s : State} (hdue : s.kp.slotDue = true) (hready : s.sys.ready = true) (hdefer : s.kp.defer3 = false)
    (hrestarting : s.kp.restarting = false) (hrun : s.img.runslot ≠ 3) :
    exec .slotCheck s = .next (verifySlot (checkTaken s) (spareSlot s)).1 :=
  congrArg Host.Outcome.next (if_neg (by simp [hdue, hready, hdefer, hrestarting, hrun]))

/-- What does not touch the Keeper leaves whether the check of a slot is due. -/
theorem Touches.slotDue {P : List Part} {s t : State} (h : Touches P s t) (hP : .kp ∉ P) :
    t.kp.slotDue = s.kp.slotDue :=
  have hkp : { t.kp with seqNo := 0, early := [] } = { s.kp with seqNo := 0, early := [] } := h.agree .kp hP
  (congrArg Keeper.slotDue hkp :)

/-- Settles O22: by what the store takes, and what a check of a slot leaves of image management. -/
theorem spareSlotIsWrittenCheckedAndActivated : Obligations.SpareSlotIsWrittenCheckedAndActivated := by
  refine ⟨?write, ?check, ?activate, ?slotCheck⟩
  case write =>
    intro q offset data s hinv h h1 h240 h4 hfit hsup hworn
    refine command_runs h rfl fun u hu => ?_
    obtain ⟨v, hw, hvmem, hvim, hv⟩ :=
      imgWrite_takes (hu.storeTakes ⟨hsup, hworn⟩) (hu.touches.mem hinv.1) h1 h240 h4 hfit
    rw [hu.mem_eq, hu.spareSlot_eq] at hvmem
    rw [hu.im_eq, hu.spareSlot_eq] at hvim
    refine ⟨v, okAns, hw, fun t ht => ?_⟩
    have hmem := ht.mem_eq.trans hvmem
    have hout (x : Nat) (hx : x < slotBase (spareSlot s) + offset.toNat
        ∨ slotBase (spareSlot s) + offset.toNat + data.length ≤ x) : memGet t.mem x = memGet s.mem x :=
      hmem ▸ memGet_memPutBytes_out data s.mem hx
    refine ⟨ht.replied, fun i hi => hmem ▸ memGet_memPutBytes_in hinv.1 data _ hi, hout, ht.im_eq.trans hvim, ?_⟩
    have hlog (a : Nat) (ha : inLog a = true) : memGet t.mem a = memGet s.mem a := by
      have := slot_below_log (spareSlot s) ha
      exact hout a (.inr (by omega))
    exact (command_frame (by decide) hu (.mono (by decide) hv) ht).without_log hlog
  case check =>
    intro q s h
    refine command_runs h (imgCheck_eq q s) fun u hu => ⟨_, _, rfl, fun t ht => ?_⟩
    rw [hu.spareSlot_eq] at ht
    have hframe := (slotChecked_touches u (spareSlot s)).mono (P := traced [.acc, .im, .host]) (by decide)
    refine ⟨u, hu.touches.onlyChanges, ⟨ht.replied, ?_⟩, command_frame (by decide) hu hframe ht⟩
    rw [ht.im_eq, slotChecked_checked, hu.im_eq]
  case activate =>
    intro q slot s h hsup hworn
    constructor
    · intro hspare hchecked
      refine command_runs h rfl fun u hu => ?_
      obtain ⟨v, hv, hboot, htouch⟩ := bootWrite_takes (hu.storeTakes ⟨hsup, hworn⟩) fun c =>
        { c with boot := { c.boot with prefer := slot.toNat == 1, trial := true, attempted := false } }
      refine ⟨v, okAns, ?_, fun t ht => ?_⟩
      · dsimp only
        rw [if_neg (by simp [hu.spareSlot_eq, hu.im_eq, hspare, ← hspare ▸ hchecked]), bootSet, hv]
        rfl
      · have hnow := ht.bootNow_eq.trans hboot
        rw [hu.bootNow_eq] at hnow
        exact ⟨ht.replied, congrArg BootArea.boot hnow, (congrArg BootArea.keys hnow :),
          command_frame (by decide) hu (.mono (by decide) htouch) ht⟩
    · intro hno
      refine (command_stays h rfl fun u hu => if_pos ?_).imp fun t ⟨hrep, _, ht⟩ => ⟨hrep, ht⟩
      simpa [hu.spareSlot_eq, hu.im_eq] using hno
  case slotCheck =>
    intro s hdue hready hdefer hrestarting hrun
    have ht := verifySlot_touches (checkTaken s) (spareSlot s)
    obtain ⟨c, e, d, him⟩ := verifySlot_im (checkTaken s) (spareSlot s)
    refine ⟨_, slotCheck_due hdue hready hdefer hrestarting hrun, ht.slotDue (by decide), ?other, ?frame⟩
    case other =>
      intro h1
      rw [him, h1]
      exact slotStatWith_low _ _
    case frame =>
      exact Touches.onlyChanges <| .after (by decide) ht <| .mono (by decide) (checkTaken_touches s)

end Sys2Proof.Machine
end

section
namespace Sys2Proof.Machine

/-! ## Staging (R62 to R64, R508, R520) -/

theorem HeardIn.stageBytes_eq {s u : State} (h : HeardIn s u) : stageBytes u = stageBytes s := by
  simp only [stageBytes, h.im_eq]

/-- A staging write holds the scans of its range, and nothing else changes. -/
theorem stageHold_touches (s : State) (it : StageItem) : Touches [.ckCs, .ckDs] s (stageHold s it) :=
  Touches.foldl (fun t k => .ite_self (modCk_touches t (itemDie it) k _)) _ _

theorem stageHold_mem (s : State) (it : StageItem) : (stageHold s it).mem = s.mem := by
  refine List.foldlRecOn _ _ (motive := fun t => State.mem t = s.mem) rfl fun t ht k _ => ?_
  exact iteInduction (motive := fun t => State.mem t = s.mem) (fun _ => by simpa using ht) fun _ => ht

/-- The state with the staging buffer cleared. -/
def stageCleared (s : State) : State := { s with im := { s.im with stageBuf := [] } }

theorem stageCleared_touches (s : State) : Touches [.im] s (stageCleared s) := im_touches s _

/-- The state in which the items of a package wait, with the scans of their ranges held. -/
def stageTaken (s : State) (items : List StageItem) : State :=
  items.foldl stageHold
    { s with im := { s.im with staging := s.im.staging || !items.isEmpty, items := s.im.items ++ items } }

theorem stageTaken_touches (s : State) (items : List StageItem) : Touches [.im, .ckCs, .ckDs] s (stageTaken s items) :=
  .trans (.mono (by decide) (im_touches s _)) (.mono (by decide) (Touches.foldl stageHold_touches items _))

theorem stageTaken_im (s : State) (items : List StageItem) : (stageTaken s items).im =
    { s.im with staging := s.im.staging || !items.isEmpty, items := s.im.items ++ items } :=
  (Touches.foldl stageHold_touches items _).agree .im (by decide)

/-- A package that fails its verification (R62). -/
theorem stgApply_failed {s : State} {c d : Nat} (h : verify (stageCleared s) true stageSize (stageBytes s) = some (c, d)) :
    stgApply s = (f23 (stageCleared s) c 2 d, { status := 4, ucode := 6, data := [wd c] }) := by
  unfold stgApply
  dsimp only [stageCleared] at h ⊢
  rw [h]

/-- A package that passes, none of whose pages is refused (R62, R63). -/
theorem stgApply_taken {s : State} (h : verify (stageCleared s) true stageSize (stageBytes s) = none)
    (hp : ∀ p ∈ imPages (stageBytes s), stageRef (stageCleared s) p = none) :
    stgApply s = (stageTaken (stageCleared s) (stageItems (stageBytes s)), okAns) := by
  have hnone : ((imPages (stageBytes s)).findSome? fun p =>
      (stageRef (stageCleared s) p).map fun k => k * 65536 + pagePlace p) = none :=
    List.findSome?_eq_none_iff.2 fun p hmem => by rw [hp p hmem]; rfl
  unfold stgApply
  dsimp only [stageCleared] at h hnone ⊢
  rw [h]
  dsimp only
  rw [hnone]
  rfl

/-- A package that passes, one of whose pages is refused (R62). -/
theorem stgApply_refused {s : State} (h : verify (stageCleared s) true stageSize (stageBytes s) = none)
    (hp : ¬∀ p ∈ imPages (stageBytes s), stageRef (stageCleared s) p = none) :
    ∃ d, stgApply s = (f23 (stageCleared s) 0x0B 2 d, refuseAns 4) := by
  obtain ⟨d, hd⟩ : ∃ d, ((imPages (stageBytes s)).findSome? fun p =>
      (stageRef (stageCleared s) p).map fun k => k * 65536 + pagePlace p) = some d := by
    rw [← Option.ne_none_iff_exists', ne_eq, List.findSome?_eq_none_iff]
    exact fun k => hp fun p hmem => Option.map_eq_none_iff.1 (k p hmem)
  refine ⟨d, ?_⟩
  unfold stgApply
  dsimp only [stageCleared] at h hd ⊢
  rw [h]
  dsimp only
  rw [hd]

/-- Whatever a package comes to, the buffer is cleared. -/
theorem stgApply_leaves (s : State) : (stgApply s).1.im.stageBuf = []
    ∧ Touches (traced [.im, .ckCs, .ckDs]) (stageCleared s) (stgApply s).1 := by
  have counted (c d : Nat) : (f23 (stageCleared s) c 2 d).im.stageBuf = []
      ∧ Touches (traced [.im, .ckCs, .ckDs]) (stageCleared s) (f23 (stageCleared s) c 2 d) :=
    ⟨by rw [f23_im]; rfl, .mono (by decide) (f23_touches _ _ _ _)⟩
  cases h : verify (stageCleared s) true stageSize (stageBytes s) with
  | some x =>
    rw [stgApply_failed h]
    exact counted _ _
  | none =>
    by_cases hp : ∀ p ∈ imPages (stageBytes s), stageRef (stageCleared s) p = none
    · rw [stgApply_taken h hp]
      exact ⟨by rw [stageTaken_im]; rfl, .mono (by decide) (stageTaken_touches _ _)⟩
    · obtain ⟨d, hd⟩ := stgApply_refused h hp
      rw [hd]
      exact counted _ _

/-! ## An item written (R63) -/

/-- The state with an item off the list of those that wait. -/
def itemTaken (s : State) (item : Nat) : State := { s with im := { s.im with items := s.im.items.eraseIdx item } }

theorem itemTaken_touches (s : State) (item : Nat) : Touches [.im] s (itemTaken s item) := im_touches s _

/-- The place of an item follows from the records of the image. -/
theorem itemRange_congr {s t : State} (h : t.img = s.img) (it : StageItem) : itemRange t it = itemRange s it := by
  cases it with
  | page => simp only [itemRange, h]
  | param => rfl

theorem pagePut_touches (s : State) (h : PageHdr) (bs : List Byte) : Touches [.mem, .log, .img] s (pagePut s h bs) where
  same p hp := by
    have k := p.agree_refl s
    cases p
    case mem => exact absurd hp (by decide)
    case log => exact absurd hp (by decide)
    case img => exact absurd hp (by decide)
    all_goals exact k
  time := Nat.le_refl _
  mem := Memory.wf_memPutBytes _ _
  size := id

/-- STAGE_LOAD_COMPLETE of a waiting CS page that is not the last item. -/
theorem stageLoadComplete_page {item : Nat} {h : PageHdr} {bs : List Byte} {s : State}
    (hitem : s.im.items[item]? = some (.page h bs)) (hdie : h.die = .cs) (hrun : s.kp.restarting = false)
    (hmore : 2 ≤ s.im.items.length) :
    exec (.stageLoadComplete item) s = .next (pagePut (stageHold (itemTaken s item) (.page h bs)) h bs) := by
  have hopen : (s.kp.restarting || (itemDie (.page h bs) == .ds && xingDown s)) = false := by simp [hrun, itemDie, hdie]
  have hitems : (stageHold (itemTaken s item) (.page h bs)).im.items = s.im.items.eraseIdx item :=
    congrArg ImgMgr.items ((stageHold_touches (itemTaken s item) (.page h bs)).agree .im (by decide))
  have hleft : (pagePut (stageHold (itemTaken s item) (.page h bs)) h bs).im.items.isEmpty = false := by
    have hlt := (List.getElem?_eq_some_iff.1 hitem).1
    rw [List.isEmpty_eq_false_iff, ← List.length_pos_iff]
    refine Nat.lt_of_lt_of_eq ?_ (congrArg List.length hitems).symm
    rw [List.length_eraseIdx_of_lt hlt]
    omega
  change execStageLoadComplete item s = _
  unfold execStageLoadComplete
  rw [hitem]
  dsimp only
  rw [if_neg (by simp [hopen])]
  exact congrArg Host.Outcome.next (if_neg (by rw [← Bool.not_eq_true] at hleft; exact hleft))

/-- Settles O23: by what a package and an item come to. -/
theorem stagePackageIsBufferedVerifiedAndLoaded : Obligations.StagePackageIsBufferedVerifiedAndLoaded := by
  refine ⟨?write, ?apply, ?load⟩
  case write =>
    intro q offset data s h h1 h240 hfit
    refine command_runs h rfl fun u hu => ⟨_, _, if_neg ?fits, fun t ht => ⟨ht.replied, ?im, ?frame⟩⟩
    case fits =>
      simp only [Bool.or_eq_true, decide_eq_true_eq]
      omega
    case im => rw [ht.im_eq, ← hu.im_eq]
    case frame => exact command_frame (by decide) hu (.mono (by decide) (im_touches u _)) ht
  case apply =>
    intro q s h
    refine command_runs h rfl fun u hu => ⟨(stgApply u).1, (stgApply u).2, Prod.mk.eta.symm, fun t ht => ?_⟩
    obtain ⟨hbuf, hleaves⟩ := stgApply_leaves u
    have hcleared : Touches [.host, .im] s (stageCleared u) :=
      .after (by decide) (stageCleared_touches u) (.mono (by decide) hu.touches)
    refine ⟨ht.im_eq ▸ hbuf, ⟨stageCleared u, hcleared.onlyChanges, ?cleared, ?failed, ?taken⟩, ?frame⟩
    case cleared => rw [← hu.im_eq]; rfl
    case failed =>
      intro c d hcd
      rw [stgApply_failed (hu.stageBytes_eq.symm ▸ hcd)] at ht
      exact ⟨ht.replied, ht.im_eq.trans (f23_im _ _ _ _)⟩
    case taken =>
      intro hnone hpages
      rw [stgApply_taken (hu.stageBytes_eq.symm ▸ hnone) (hu.stageBytes_eq.symm ▸ hpages), hu.stageBytes_eq] at ht
      exact ⟨ht.replied, ht.im_eq.trans (stageTaken_im _ _)⟩
    case frame =>
      exact command_frame (by decide) hu
        (.trans (.mono (by decide) (stageCleared_touches u)) (.mono (by decide) hleaves)) ht
  case load =>
    intro item h bs s hitem hdie hrun hmore
    have hhold := stageHold_touches (itemTaken s item) (.page h bs)
    have himg : (stageHold (itemTaken s item) (.page h bs)).img = s.img := hhold.agree .img (by decide)
    have hwhere : itemRange (stageHold (itemTaken s item) (.page h bs)) (.page h bs) = itemRange s (.page h bs) :=
      itemRange_congr himg _
    refine ⟨_, stageLoadComplete_page hitem hdie hrun hmore, ?mem, ?im, ?page, (congrArg Image.recs himg :), ?frame⟩
    case mem =>
      rw [pagePut, hwhere, stageHold_mem]
      rfl
    case im => exact hhold.agree .im (by decide)
    case page => simp [pagePut]
    case frame =>
      exact Touches.onlyChanges <| .after (by decide) (pagePut_touches _ _ _) <| .after (by decide) hhold <|
        .mono (by decide) (itemTaken_touches s item)

end Sys2Proof.Machine
end

section
namespace Sys2Proof.Machine

/-! ## Signed commands (R53, R54, R509) -/

namespace HeardIn

variable {s u : State}

theorem keyTime_eq (h : HeardIn s u) : keyTime u = keyTime s := by
  obtain ⟨g, rfl, -⟩ := h
  rfl

theorem keyRemains_eq (h : HeardIn s u) (n role : Nat) : keyRemains u n role = keyRemains s n role := by
  obtain ⟨g, rfl, -⟩ := h
  rfl

theorem signedOk_eq (h : HeardIn s u) (code : Nat) (args : List Byte) (signer : Nat) (sig : List Byte) :
    signedOk u code args signer sig = signedOk s code args signer sig := by
  obtain ⟨g, rfl, -, hn⟩ := h
  simp only [signedOk, signedMsg, hn]
  rfl

end HeardIn

/-- A check that is passed does not refuse. -/
theorem not_bnot {b : Bool} (h : b = true) : ¬(!b) = true := by simp [h]

theorem newNonce_touches (s : State) (nonce : Word) : Touches [.host] s (newNonce s nonce) := host_touches s _ rfl

/-! ## KEY_ENROL (R54) -/

/-- Whether no key is enrolled. -/
def noKey (s : State) : Bool := (bootNow s).keys.all fun k => k.state == 0

/-- Whether KEY_ENROL may change the key table: no key is enrolled, or its signature is that of an ACTIVE IMAGE key. -/
def enrolEntitled (s : State) (entry roles signer resv : Byte) (xy sig : List Byte) : Bool :=
  noKey s || signedOk s 0x20 ([entry, roles, signer, resv] ++ xy) signer.toNat sig

section enrol

variable {s : State} {entry roles signer resv : Byte} {xy sig : List Byte} (nonce : Word) (hxy : xy.length = 64)
  (hsig : sig.length = 64)

theorem HeardIn.noKey_eq {s u : State} (h : HeardIn s u) : noKey u = noKey s := by rw [noKey, h.bootNow_eq, noKey]

theorem HeardIn.enrolEntitled_eq {u : State} (h : HeardIn s u) :
    enrolEntitled u entry roles signer resv xy sig = enrolEntitled s entry roles signer resv xy sig := by
  rw [enrolEntitled, h.noKey_eq, h.signedOk_eq, enrolEntitled]

include hxy hsig

theorem keyEnrol_untimely (ht : keyTime s = false) :
    keyEnrol s entry roles signer resv xy sig nonce = (s, refuseAns 2) :=
  (if_neg (by simp [hxy, hsig])).trans (if_pos (by simp [ht]))

theorem keyEnrol_unsigned (ht : keyTime s = true) (hno : enrolEntitled s entry roles signer resv xy sig = false) :
    keyEnrol s entry roles signer resv xy sig nonce = (s, refuseAns 5) := by
  obtain ⟨hfirst, hsigned⟩ := Bool.or_eq_false_iff.1 hno
  exact (if_neg (by simp [hxy, hsig])).trans <| (if_neg (by simp [ht])).trans <| if_pos (by
    rw [Bool.and_eq_true, Bool.not_eq_true', Bool.not_eq_true']; exact ⟨hfirst, hsigned⟩)

theorem keyEnrol_entitled (ht : keyTime s = true) (hok : enrolEntitled s entry roles signer resv xy sig = true) :
    keyEnrol s entry roles signer resv xy sig nonce =
    if 3 < entry.toNat || (nth (bootNow s).keys entry.toNat).state ≠ 0 then (s, refuseAns 2)
    else
      let r := bootWrite s fun b => { b with keys := b.keys.set entry.toNat ⟨1, roles.setWidth 3, xy⟩ }
      if !r.2 then failed r.1 else (if noKey s then r.1 else newNonce r.1 nonce, okAns) := by
  refine (if_neg (by simp [hxy, hsig])).trans <| (if_neg (by simp [ht])).trans <| if_neg ?_
  rw [Bool.and_eq_true, Bool.not_eq_true', Bool.not_eq_true']
  exact fun ⟨hfirst, hsigned⟩ => Bool.false_ne_true (hok.symm.trans (Bool.or_eq_false_iff.2 ⟨hfirst, hsigned⟩)).symm

theorem keyEnrol_occupied (ht : keyTime s = true) (hok : enrolEntitled s entry roles signer resv xy sig = true)
    (hn : 3 < entry.toNat ∨ (nth (bootNow s).keys entry.toNat).state ≠ 0) :
    keyEnrol s entry roles signer resv xy sig nonce = (s, refuseAns 2) :=
  (keyEnrol_entitled nonce hxy hsig ht hok).trans <| if_pos <| by
    rwa [Bool.or_eq_true, decide_eq_true_eq, decide_eq_true_eq]

/-- KEY_ENROL that is timely and entitled, of an EMPTY entry, with a store that takes it: the entry is in force, and the
nonce is new where the command was signed. -/
theorem keyEnrol_takes (ht : keyTime s = true) (hok : enrolEntitled s entry roles signer resv xy sig = true)
    (hn : entry.toNat ≤ 3) (hempty : (nth (bootNow s).keys entry.toNat).state = 0) (h : StoreTakes s) :
    ∃ v, keyEnrol s entry roles signer resv xy sig nonce = (v, okAns)
      ∧ bootNow v = { bootNow s with keys := (bootNow s).keys.set entry.toNat ⟨1, roles.setWidth 3, xy⟩ }
      ∧ v.host.cnonce = (if noKey s then s.host.cnonce else nonce) ∧ Touches [.nv, .host] s v := by
  obtain ⟨v, hw, hboot, hv⟩ :=
    bootWrite_takes h fun b => { b with keys := b.keys.set entry.toNat ⟨1, roles.setWidth 3, xy⟩ }
  have hdone : keyEnrol s entry roles signer resv xy sig nonce = (if noKey s then v else newNonce v nonce, okAns) := by
    refine (keyEnrol_entitled nonce hxy hsig ht hok).trans <| (if_neg (by simp [hempty]; omega)).trans ?_
    rw [hw]
    rfl
  have hv' : Touches [.nv, .host] s v := .mono (by decide) hv
  rw [hdone]
  cases noKey s
  · exact ⟨_, rfl, hboot, rfl, .after (by decide) (newNonce_touches v nonce) hv'⟩
  · exact ⟨_, rfl, hboot, hv.cnonce (by decide), hv'⟩

end enrol

/-! ## KEY_REVOKE (R54) -/

/-- The bytes of KEY_REVOKE that its signature covers. -/
def revokeArgs (entry signer : Byte) (resv : List Byte) : List Byte := [entry] ++ resv.take 3 ++ [signer] ++ resv.drop 3

section revoke

variable {s : State} {entry signer : Byte} {resv sig : List Byte} (nonce : Word) (hresv : resv.length = 6)
  (hsig : sig.length = 64)

include hresv hsig

theorem keyRevoke_untimely (ht : keyTime s = false) : keyRevoke s entry signer resv sig nonce = (s, refuseAns 2) :=
  (if_neg (by simp [hresv, hsig])).trans (if_pos (by simp [ht]))

theorem keyRevoke_unsigned (ht : keyTime s = true)
    (hno : signedOk s 0x21 (revokeArgs entry signer resv) signer.toNat sig = false) :
    keyRevoke s entry signer resv sig nonce = (s, refuseAns 5) :=
  (if_neg (by simp [hresv, hsig])).trans <| (if_neg (by simp [ht])).trans <| if_pos (congrArg not hno)

theorem keyRevoke_signed (ht : keyTime s = true)
    (hok : signedOk s 0x21 (revokeArgs entry signer resv) signer.toNat sig = true) :
    keyRevoke s entry signer resv sig nonce =
    if 3 < entry.toNat || !keyRemains s entry.toNat 0 || !keyRemains s entry.toNat 1 then (s, refuseAns 2)
    else
      let r := bootWrite s fun b => { b with keys := b.keys.modify entry.toNat fun k => { k with state := 2 } }
      if r.2 then (newNonce r.1 nonce, okAns) else failed r.1 :=
  (if_neg (by simp [hresv, hsig])).trans <| (if_neg (not_bnot ht)).trans <| if_neg (not_bnot hok)

theorem keyRevoke_last (ht : keyTime s = true)
    (hok : signedOk s 0x21 (revokeArgs entry signer resv) signer.toNat sig = true)
    (hn : 3 < entry.toNat ∨ ¬(keyRemains s entry.toNat 0 = true ∧ keyRemains s entry.toNat 1 = true)) :
    keyRevoke s entry signer resv sig nonce = (s, refuseAns 2) := by
  refine (keyRevoke_signed nonce hresv hsig ht hok).trans (if_pos ?_)
  obtain hn | hn := hn
  · simp [hn]
  · obtain h0 | h1 := not_and_or.1 hn
    · simp [h0]
    · simp [h1]

/-- KEY_REVOKE that is timely and signed, with keys of both roles left, with a store that takes it. -/
theorem keyRevoke_takes (ht : keyTime s = true)
    (hok : signedOk s 0x21 (revokeArgs entry signer resv) signer.toNat sig = true) (hn : entry.toNat ≤ 3)
    (h0 : keyRemains s entry.toNat 0 = true) (h1 : keyRemains s entry.toNat 1 = true) (h : StoreTakes s) :
    ∃ v, keyRevoke s entry signer resv sig nonce = (v, okAns)
      ∧ bootNow v = { bootNow s with keys := (bootNow s).keys.modify entry.toNat fun k => { k with state := 2 } }
      ∧ v.host.cnonce = nonce ∧ Touches [.nv, .host] s v := by
  obtain ⟨v, hw, hboot, hv⟩ :=
    bootWrite_takes h fun b => { b with keys := b.keys.modify entry.toNat fun k => { k with state := 2 } }
  refine ⟨newNonce v nonce, ?_, hboot, rfl, .after (by decide) (newNonce_touches v nonce) (.mono (by decide) hv)⟩
  refine (keyRevoke_signed nonce hresv hsig ht hok).trans <| (if_neg (by simp [h0, h1]; omega)).trans ?_
  rw [hw]
  rfl

end revoke

/-! ## SEAL_FOR_RETURN (R508, R522) -/

theorem slotIdent_touches (s : State) (slot : Nat) : Touches trace s (slotIdent s slot).1 := by
  have hread := readSlot_touches s slot
  unfold slotIdent
  dsimp only
  exact hread

theorem returnRecord_touches (s : State) : Touches trace s (returnRecord s).1 := by
  have h1 := slotIdent_touches (slotIdent s 0).1 1
  unfold returnRecord
  dsimp only
  exact (slotIdent_touches s 0).trans h1

/-- The state with the staging buffer, the return record and the safety-frame key as sealing leaves them. -/
def sealCleared (s : State) (w : List Word) : State :=
  { s with
    im := { s.im with stageBuf := [] }
    nv := { s.nv with returned := w }
    wr := { s.wr with key := none, keyset := false } }

theorem sealCleared_touches (s : State) (w : List Word) : Touches [.im, .nv, .wr] s (sealCleared s w) :=
  .after (by decide) (wr_touches { s with im := { s.im with stageBuf := [] }, nv := { s.nv with returned := w } } _ rfl) <|
    .after (by decide) (nv_touches { s with im := { s.im with stageBuf := [] } } _ rfl) <|
    .mono (by decide) (im_touches s _)

theorem sealCleared_storeTakes {s : State} (h : StoreTakes s) (w : List Word) : StoreTakes (sealCleared s w) := h

/-- After both slots were erased no byte of them is listed. -/
theorem slots_erased {m : List Host.Cell} {a : Nat} (h0 : slotBase 0 ≤ a) (h1 : a < slotBase 1 + slotSize) :
    memGet (memErase (memErase m (slotBase 0) slotSize) (slotBase 1) slotSize) a = 0 := by
  have hnext : slotBase 1 = slotBase 0 + slotSize := rfl
  refine memGet_unlisted fun c hc => ?_
  obtain ⟨hc, hout1⟩ := mem_memErase.1 hc
  obtain ⟨-, hout0⟩ := mem_memErase.1 hc
  omega

/-- What a device is once it is sealed: SEALED set, no keys, no safety-frame key, slots and staging buffer erased. -/
def SealedState (t : State) : Prop :=
  (bootNow t).boot.isSealed = true ∧ (bootNow t).keys = List.replicate 4 {} ∧ t.wr.key = none ∧ t.wr.keyset = false
    ∧ t.im.stageBuf = [] ∧ ∀ a, slotBase 0 ≤ a → a < slotBase 1 + slotSize → memGet t.mem a = 0

/-- A new nonce and an answer leave a device sealed. -/
theorem SealedState.of_answered {v t : State} {nonce : Word} {a : Ans} (h : SealedState v)
    (ht : AnsweredFrom (newNonce v nonce) t a) : SealedState t := by
  obtain ⟨g, rfl, -⟩ := ht
  exact h

/-- What does not touch memory reads the same everywhere. -/
theorem Touches.memGet_eq {P : List Part} {s t : State} (h : Touches P s t) (hP : .mem ∉ P ∧ .log ∉ P) (a : Nat) :
    memGet t.mem a = memGet s.mem a := by
  cases ha : inLog a
  · exact h.agree .mem hP.1 a ha
  · exact h.agree .log hP.2 a ha

/-- Sealing with a store that takes every write. -/
theorem sealDevice_takes {s : State} (h : StoreTakes s) (hm : Memory.wf s.mem = true) :
    ∃ v, sealDevice s = (v, true) ∧ SealedState v ∧ Touches (traced [.mem, .nv, .im, .wr]) s v := by
  have hr := returnRecord_touches s
  generalize hrec : returnRecord s = r at hr
  obtain ⟨v1, hw, -, hs1, ht1⟩ := storeWrite_takes (h.of_touches hr (by decide)) (hr.mem hm) (storeBase + 0x740000)
    (bytesOf r.2)
  obtain ⟨v2, hA, hm2, hs2, ht2⟩ := storeErase_takes hs1 (slotBase 0) slotSize
  obtain ⟨v3, hB, hm3, hs3, ht3⟩ := storeErase_takes hs2 (slotBase 1) slotSize
  have hc := sealCleared_touches v3 r.2
  obtain ⟨v, hboot, hnow, ht⟩ := bootWrite_takes (sealCleared_storeTakes hs3 r.2)
    fun b => { b with keys := List.replicate 4 {}, boot := { b.boot with isSealed := true } }
  have hwr : { v.wr with inbox := [] } = { (sealCleared v3 r.2).wr with inbox := [] } := ht.agree .wr (by decide)
  have him : v.im = (sealCleared v3 r.2).im := ht.agree .im (by decide)
  refine ⟨v, ?run, ⟨by rw [hnow], by rw [hnow], (congrArg Wr.key hwr :), (congrArg Wr.keyset hwr :),
    congrArg ImgMgr.stageBuf him, fun a h0 h1 => ?erased⟩, ?frame⟩
  case run =>
    unfold sealDevice
    rw [hrec]
    dsimp only
    rw [hw]
    dsimp only
    rw [if_neg (by simp), hA]
    dsimp only
    rw [hB]
    exact (if_neg (by simp)).trans hboot
  case erased =>
    rw [ht.memGet_eq (by decide)]
    change memGet v3.mem a = 0
    rw [hm3, hm2]
    exact slots_erased h0 h1
  case frame =>
    exact .after (by decide) ht <| .after (by decide) hc <| .after (by decide) ht3 <| .after (by decide) ht2 <|
      .after (by decide) ht1 <| .mono (by decide) hr

/-- What SEAL_FOR_RETURN comes to where a restart would be taken (R508). -/
theorem sealForReturn_eq (q : Req) (signer : Byte) (resv sig : List Byte) (nonce : Word) (s : State) :
    execSealForReturn q signer resv sig nonce s = .next (command s q 0x41 ([signer] ++ resv ++ sig) false false 2 fun u =>
      if resv.length ≠ 3 || sig.length ≠ 64 then (u, lenAns)
      else if !restartOk u then (u, refuseAns 2)
      else if !signedOk u 0x41 ([signer] ++ resv) signer.toNat sig then (u, refuseAns 5)
      else if (sealDevice u).2 then (newNonce (sealDevice u).1 nonce, okAns) else failed (sealDevice u).1) := by
  refine congrArg (fun f => Host.Outcome.next (command s q 0x41 ([signer] ++ resv ++ sig) false false 2 f))
    (funext fun u => ?_)
  dsimp only

/-- Settles O24: by what each command comes to, in the order of its checks. -/
theorem keysChangeOnlyBySignedCommands : Obligations.KeysChangeOnlyBySignedCommands := by
  intro q sig nonce s hsig
  refine ⟨?enrol, ?revoke, ?sealing⟩
  case enrol =>
    intro entry roles signer resv xy h hxy
    have entitled : enrolEntitled s entry roles signer resv xy sig = true ↔ noKey s = true
        ∨ signedOk s 0x20 ([entry, roles, signer, resv] ++ xy) signer.toNat sig = true := Bool.or_eq_true_iff
    refine ⟨?takes, ?unsigned, ?refused⟩
    case takes =>
      intro ht hok hn hempty hstore
      refine command_runs h rfl fun u hu => ?_
      obtain ⟨v, hv, hboot, hnonce, htouch⟩ := keyEnrol_takes nonce hxy hsig (hu.keyTime_eq.trans ht)
        (hu.enrolEntitled_eq.trans (entitled.2 hok)) hn (by rwa [hu.bootNow_eq]) (hu.storeTakes hstore)
      refine ⟨v, okAns, hv, fun t hans => ?_⟩
      rw [hu.bootNow_eq, ← hans.bootNow_eq] at hboot
      refine ⟨hans.replied, congrArg BootArea.keys hboot, (congrArg BootArea.boot hboot :), ?nonce,
        command_frame (by decide) hu (.mono (by decide) htouch) hans⟩
      case nonce => rw [hans.cnonce, hnonce, hu.noKey_eq, hu.cnonce]; rfl
    case unsigned =>
      intro ht hfirst hno
      exact command_stays h rfl fun u hu => keyEnrol_unsigned nonce hxy hsig (hu.keyTime_eq.trans ht)
        (hu.enrolEntitled_eq.trans (Bool.or_eq_false_iff.2 ⟨hfirst, hno⟩))
    case refused =>
      intro hno
      refine command_stays h rfl fun u hu => ?_
      cases ht : keyTime s with
      | false => exact keyEnrol_untimely nonce hxy hsig (hu.keyTime_eq.trans ht)
      | true =>
        obtain ⟨hok, hn⟩ := hno.resolve_left (by simp [ht])
        exact keyEnrol_occupied nonce hxy hsig (hu.keyTime_eq.trans ht) (hu.enrolEntitled_eq.trans (entitled.2 hok))
          (by rwa [hu.bootNow_eq])
  case revoke =>
    intro entry signer resv h hresv
    refine ⟨?takes, ?unsigned, ?refused⟩
    case takes =>
      intro ht hok hn hleft hstore
      refine command_runs h rfl fun u hu => ?_
      obtain ⟨v, hv, hboot, hnonce, htouch⟩ := keyRevoke_takes nonce hresv hsig (hu.keyTime_eq.trans ht)
        ((hu.signedOk_eq _ _ _ _).trans hok) hn ((hu.keyRemains_eq _ _).trans hleft.1)
        ((hu.keyRemains_eq _ _).trans hleft.2) (hu.storeTakes hstore)
      refine ⟨v, okAns, hv, fun t hans => ?_⟩
      rw [hu.bootNow_eq, ← hans.bootNow_eq] at hboot
      exact ⟨hans.replied, congrArg BootArea.keys hboot, (congrArg BootArea.boot hboot :), hans.cnonce.trans hnonce,
        command_frame (by decide) hu (.mono (by decide) htouch) hans⟩
    case unsigned =>
      intro ht hno
      exact command_stays h rfl fun u hu => keyRevoke_unsigned nonce hresv hsig (hu.keyTime_eq.trans ht)
        ((hu.signedOk_eq _ _ _ _).trans hno)
    case refused =>
      intro hno
      refine command_stays h rfl fun u hu => ?_
      cases ht : keyTime s with
      | false => exact keyRevoke_untimely nonce hresv hsig (hu.keyTime_eq.trans ht)
      | true =>
        obtain ⟨hok, hn⟩ := hno.resolve_left (by simp [ht])
        exact keyRevoke_last nonce hresv hsig (hu.keyTime_eq.trans ht) ((hu.signedOk_eq _ _ _ _).trans hok)
          (by rwa [hu.keyRemains_eq, hu.keyRemains_eq])
  case sealing =>
    intro signer resv h hresv hrestart
    have hlen : ¬(resv.length ≠ 3 || sig.length ≠ 64) = true := by simp [hresv, hsig]
    have htime {u : State} (hu : HeardIn s u) : ¬(!restartOk u) = true := not_bnot (hu.restartOk_eq.trans hrestart)
    refine ⟨fun hok hinv hstore => ?takes, fun hno => ?unsigned⟩
    case takes =>
      refine command_runs h (sealForReturn_eq q signer resv sig nonce s) fun u hu => ?_
      obtain ⟨v, hv, hsealed, htouch⟩ := sealDevice_takes (hu.storeTakes hstore) (hu.touches.mem hinv.1)
      refine ⟨newNonce v nonce, okAns, ?run, fun t hans => ?_⟩
      case run =>
        refine (if_neg hlen).trans <| (if_neg (htime hu)).trans <|
          (if_neg (not_bnot ((hu.signedOk_eq _ _ _ _).trans hok))).trans ?_
        rw [hv]
        rfl
      obtain ⟨hflag, hkeys, hkey, hkeyset, hbuf, herased⟩ := SealedState.of_answered (nonce := nonce) hsealed hans
      have hnonced : Touches (traced [.mem, .acc, .nv, .im, .wr, .host]) u (newNonce v nonce) :=
        .after (by decide) (newNonce_touches v nonce) (.mono (by decide) htouch)
      exact ⟨hans.replied, hflag, hkeys, hkey, hkeyset, hbuf, hans.cnonce, herased,
        command_frame (by decide) hu hnonced hans⟩
    case unsigned =>
      refine command_stays h (sealForReturn_eq q signer resv sig nonce s) fun u hu => ?_
      exact (if_neg hlen).trans <| (if_neg (htime hu)).trans <| if_pos (congrArg not ((hu.signedOk_eq _ _ _ _).trans hno))

end Sys2Proof.Machine
end

section
namespace Sys2Proof.Machine

/-! ## What an operation makes of one buoy -/

/-- From s to t one buoy turns by f, every other buoy stays, and nothing but the named parts differs. -/
structure TurnsBuoy (P : List Part) (n : Nat) (f : Buoy → Buoy) (s t : State) : Prop where
  touches : Touches P s t
  buoys : t.buoys = upd s.buoys n f

namespace TurnsBuoy

variable {P Q : List Part} {n : Nat} {f g : Buoy → Buoy} {s t u : State}

theorem refl (P : List Part) (n : Nat) (s : State) : TurnsBuoy P n id s s :=
  ⟨.refl P s, (List.modify_id n s.buoys).symm⟩

theorem mono (hQ : Q ⊆ P) (h : TurnsBuoy Q n f s t) : TurnsBuoy P n f s t := ⟨h.touches.mono hQ, h.buoys⟩

theorem trans (h : TurnsBuoy P n f s t) (k : TurnsBuoy P n g t u) : TurnsBuoy P n (g ∘ f) s u :=
  ⟨h.touches.trans k.touches, by rw [k.buoys, h.buoys, upd, upd, upd, List.modify_modify_eq]⟩

/-- An operation that does not touch the buoys, after the turn. -/
theorem andThen (h : TurnsBuoy P n f s t) (hQ : Q ⊆ P) (hb : .buoys ∉ Q) (k : Touches Q t u) : TurnsBuoy P n f s u :=
  ⟨.after hQ k h.touches, (k.agree .buoys hb).trans h.buoys⟩

theorem other (h : TurnsBuoy P n f s t) {k : Nat} (hk : k ≠ n) : nth t.buoys k = nth s.buoys k := by
  rw [h.buoys]
  simp [nth, upd, Ne.symm hk]

theorem own (h : TurnsBuoy P n f s t) (hn : n < s.buoys.length) : nth t.buoys n = f (nth s.buoys n) := by
  rw [h.buoys, nth_upd _ hn]

end TurnsBuoy

/-- What does not touch the buoys turns none of them. -/
theorem Touches.turnsBuoy {P : List Part} {s t : State} (h : Touches P s t) (hb : .buoys ∉ P) (n : Nat) :
    TurnsBuoy P n id s t :=
  (TurnsBuoy.refl P n s).andThen (List.Subset.refl P) hb h

theorem modBuoy_turns (s : State) (n : Nat) (f : Buoy → Buoy) : TurnsBuoy [.buoys] n f s (s.modBuoy n f) :=
  ⟨modBuoy_touches s n f, rfl⟩

/-- What does not touch the image in force leaves every BUOYDEF. -/
theorem Touches.byDef_eq {P : List Part} {s t : State} (h : Touches P s t)
    (hP : .img ∉ P ∧ .csLoaded ∉ P ∧ .dsLoaded ∉ P) : byDef t = byDef s := by
  have himg : t.img = s.img := h.agree .img hP.1
  have hcs : t.csLoaded = s.csLoaded := h.agree .csLoaded hP.2.1
  have hds : t.dsLoaded = s.dsLoaded := h.agree .dsLoaded hP.2.2
  unfold byDef
  rw [himg, hcs, hds]

theorem Touches.byW_eq {P : List Part} {s t : State} (h : Touches P s t)
    (hP : .img ∉ P ∧ .csLoaded ∉ P ∧ .dsLoaded ∉ P) : byW t = byW s := by
  unfold byW
  rw [h.byDef_eq hP]

/-! ## A value or a timeout meets its buoy (R76) -/

/-- The state in which a value or a timeout meets its buoy: the bins of its counter have passed, the output of the cycle before is
kept for its readers (R76). -/
def arrived (s : State) (n : Nat) : State := byTouch (byRoll s n) n

/-- A buoy with the state, the values and the times it had. -/
structure SameValue (b c : Buoy) : Prop where
  state : c.state = b.state
  last : c.last = b.last
  out : c.out = b.out
  lastAt : c.lastAt = b.lastAt
  tmoAt : c.tmoAt = b.tmoAt

theorem SameValue.refl (b : Buoy) : SameValue b b := ⟨rfl, rfl, rfl, rfl, rfl⟩

theorem SameValue.trans {a b c : Buoy} (h : SameValue a b) (k : SameValue b c) : SameValue a c :=
  ⟨k.state.trans h.state, k.last.trans h.last, k.out.trans h.out, k.lastAt.trans h.lastAt, k.tmoAt.trans h.tmoAt⟩

/-- The passing of the bins changes at most whether a FAULT waits to end (R81). -/
theorem byRoll_turns (s : State) (n : Nat) : ∃ f, TurnsBuoy (traced [.buoys]) n f s (byRoll s n)
    ∧ ∀ b, SameValue b (f b) := by
  unfold byRoll
  split
  · exact ⟨id, .refl _ n s, .refl⟩
  · dsimp only
    have hctrs (l : List Ctr) : TurnsBuoy (traced [.buoys]) n id s { s with ctrs := l } :=
      (ctrs_touches s l).turnsBuoy (by decide) n |>.mono (by decide)
    split
    · exact ⟨_, (hctrs _).andThen (by decide) (by decide) (release_touches _ _) |>.trans
        ((modBuoy_turns _ _ _).mono (by decide)), fun _ => ⟨rfl, rfl, rfl, rfl, rfl⟩⟩
    · exact ⟨id, hctrs _, .refl⟩

/-- The output is kept for the readers of the cycle (R76). -/
theorem byTouch_turns (s : State) (n : Nat) : ∃ f, TurnsBuoy [.buoys] n f s (byTouch s n)
    ∧ ∀ b, SameValue b (f b) := by
  unfold byTouch
  dsimp only
  split
  · exact ⟨id, .refl _ n s, .refl⟩
  · exact ⟨_, modBuoy_turns s n _, fun _ => ⟨rfl, rfl, rfl, rfl, rfl⟩⟩

theorem arrived_turns (s : State) (n : Nat) : ∃ f, TurnsBuoy (traced [.buoys]) n f s (arrived s n)
    ∧ ∀ b, SameValue b (f b) := by
  obtain ⟨f, hf, hroll⟩ := byRoll_turns s n
  obtain ⟨g, hg, htouch⟩ := byTouch_turns (byRoll s n) n
  exact ⟨g ∘ f, hf.trans (hg.mono (by decide)), fun b => (hroll b).trans (htouch (f b))⟩

theorem arrived_byW (s : State) (n : Nat) : byW (arrived s n) = byW s := by
  obtain ⟨_, h, _⟩ := arrived_turns s n
  exact h.touches.byW_eq (by decide)

theorem arrived_now (s : State) (n : Nat) : (arrived s n).now = s.now := by
  obtain ⟨_, h, _⟩ := arrived_turns s n
  exact h.touches.now (by decide)

/-- The record of the buoy is as it was. -/
theorem arrived_record (s : State) (n : Nat) :
    byScale (arrived s n) n = byScale s n ∧ byMin (arrived s n) n = byMin s n ∧ byMax (arrived s n) n = byMax s n
      ∧ byRate (arrived s n) n = byRate s n ∧ byFilt (arrived s n) n = byFilt s n ∧ byTmo (arrived s n) n = byTmo s n
      ∧ byPeriod (arrived s n) n = byPeriod s n := by
  simp only [byScale, byMin, byMax, byRate, byFilt, byTmo, byPeriod, arrived_byW, and_self]

/-- A buoy as an event leaves it: the violation noted, FAULT entered or not, the values and times as they were. -/
structure Violated (viol : Nat) (b c : Buoy) : Prop where
  lastViol : c.lastViol = viol
  state : c.state = b.state ∨ c.state = 2
  last : c.last = b.last
  out : c.out = b.out
  lastAt : c.lastAt = b.lastAt
  tmoAt : c.tmoAt = b.tmoAt

theorem Violated.of_same {viol : Nat} {a b c : Buoy} (h : SameValue a b) (k : Violated viol b c) : Violated viol a c :=
  ⟨k.lastViol, h.state ▸ k.state, k.last.trans h.last, k.out.trans h.out, k.lastAt.trans h.lastAt, k.tmoAt.trans h.tmoAt⟩

/-- An event of a buoy is noted and counted; one that brings the count to N puts the buoy into FAULT (R73, R80). -/
theorem byEvent_turns (s : State) (n viol : Nat) (detail : Word) :
    ∃ f, TurnsBuoy (traced [.buoys]) n f s (byEvent s n viol detail) ∧ ∀ b, Violated viol b (f b) := by
  have hcount (e : Ev) : TurnsBuoy (traced [.buoys]) n (fun b => { b with lastViol := viol }) s
      (countEvent (s.modBuoy n fun b => { b with lastViol := viol }) e) :=
    (modBuoy_turns s n _).mono (by decide) |>.andThen (by decide) (by decide) (countEvent_touches _ e)
  unfold byEvent
  dsimp only
  split
  · exact ⟨_, (hcount _).trans ((modBuoy_turns _ _ _).mono (by decide)), fun _ => ⟨rfl, .inr rfl, rfl, rfl, rfl, rfl⟩⟩
  · exact ⟨_, hcount _, fun _ => ⟨rfl, .inl rfl, rfl, rfl, rfl, rfl⟩⟩

end Sys2Proof.Machine
end

section
namespace Sys2Proof.Machine

/-! ## A value is offered (R69 to R74) -/

/-- What an offered value may touch: its buoy, the units that receive it and those that watch the buoys. -/
def offerParts : List Part :=
  traced [.buoys, .beamsCs, .beamsDs, .lhCs, .lhDs, .pwmCs, .pwmDs, .mach, .candle, .prot, .conv, .ac, .gact, .temp, .lamp]

/-- A buoy as a value leaves it that was admitted in a cycle, with its next timeout. -/
structure AdmittedAs (x : Word) (at_ due : Nat) (b : Buoy) : Prop where
  last : b.last = x
  out : b.out = x
  state : b.state = 0
  admitted : b.admitted = true
  lastAt : b.lastAt = at_
  tmoAt : b.tmoAt = due

/-- A value at SCALE that its buoy admits and puts out as it is: it fits, lies in range, meets no rate limit and no filter. -/
structure Admissible (s : State) (n : Nat) (x : Int) : Prop where
  fitsLow : -(2 ^ 31) ≤ x
  fitsHigh : x < 2 ^ 31
  min : byMin s n ≤ x
  max : x ≤ byMax s n
  rate : byRate s n = 0
  filt : byFilt s n = 0

theorem satS_of_fits {x : Int} (h0 : -(2 ^ 31) ≤ x) (h1 : x < 2 ^ 31) : satS 32 x = x := by
  simp only [satS]
  omega

theorem satHits_of_not_fits {x : Int} (h : x < -(2 ^ 31) ∨ 2 ^ 31 ≤ x) : satHits 32 x = true := by
  simp only [satHits, satS, bne_iff_ne]
  omega

/-- The filter changes the output and its own history alone (R71). -/
theorem byFilter_eq (s : State) (n : Nat) (seed : Option Word) (x : Word) (b : Buoy) :
    byFilter s n seed x b = { b with
      out := (byFilter s n seed x b).out, hist := (byFilter s n seed x b).hist, y := (byFilter s n seed x b).y } := by
  unfold byFilter
  cases seed <;> dsimp only <;> split <;> rfl

theorem byFilter_out_of_none {s : State} {n : Nat} (h : byFilt s n = 0) (seed : Option Word) (x : Word) (b : Buoy) :
    (byFilter s n seed x b).out = x := by
  simp only [byFilter, h]

/-- A violation withholds the value: it is noted and, under FAULTVAL, the configured value is out for a period (R70, R74). -/
def withheld (s : State) (n viol : Nat) (x : Word) : State :=
  let t := byEvent s n viol x
  byFollow (if byPolicy t n = 3 then t.modBuoy n fun b => { b with fvUntil := t.now + byPeriod s n } else t)

theorem withheld_turns (s : State) (n viol : Nat) (x : Word) :
    ∃ f, TurnsBuoy offerParts n f s (withheld s n viol x) ∧ ∀ b, Violated viol b (f b) := by
  obtain ⟨f, hf, hviol⟩ := byEvent_turns s n viol x
  have noted : TurnsBuoy offerParts n f s (byEvent s n viol x) := hf.mono (by decide)
  unfold withheld
  dsimp only
  split
  · refine ⟨_, (noted.trans ((modBuoy_turns _ n _).mono (by decide))).andThen (by decide) (by decide) (byFollow_touches _),
      fun b => ?_⟩
    obtain ⟨hv, hstate, hlast, hout, hat, htmo⟩ := hviol b
    exact ⟨hv, hstate, hlast, hout, hat, htmo⟩
  · exact ⟨f, noted.andThen (by decide) (by decide) (byFollow_touches _), hviol⟩

section offered

variable {s : State} {n : Nat} {m e x : Int}

/-- A value out of range, or one that saturates, is rejected with RANGE (R69, R70). -/
theorem offer_out_of_range (hon : byOn s n = true) (hx : rescale m e (byScale s n) = x)
    (hout : x < byMin s n ∨ byMax s n < x ∨ x < -(2 ^ 31) ∨ 2 ^ 31 ≤ x) :
    offer s n m e = withheld (arrived s n) n vRANGE (wi (satS 32 x)) := by
  have hbar : (satHits 32 x || decide (satS 32 x < byMin s n) || decide (byMax s n < satS 32 x)) = true := by
    by_cases hfit : -(2 ^ 31) ≤ x ∧ x < 2 ^ 31
    · rw [satS_of_fits hfit.1 hfit.2]
      have hrange : x < byMin s n ∨ byMax s n < x := by omega
      simpa [or_assoc] using Or.inr hrange
    · simp [satHits_of_not_fits (x := x) (by omega)]
  obtain ⟨hscale, hmin, hmax, _⟩ := arrived_record s n
  rw [← hmin, ← hmax, ← hx, ← hscale] at hbar
  rw [← hx, ← hscale]
  exact (if_neg (not_bnot hon)).trans (if_pos hbar)

/-- A value in range, with no rate limit and no filter, is taken by a buoy that is not in FAULT (R70 to R73). -/
theorem offer_admissible (hon : byOn s n = true) (hx : rescale m e (byScale s n) = x) (hadm : Admissible s n x) :
    ∃ f d, offer s n m e = byFollow (byReceived ((arrived s n).modBuoy n f) d n)
      ∧ ∀ b, b.state ≠ 2 → AdmittedAs (wi x) s.now (s.now + byTmo s n * byPeriod s n) (f b) := by
  have hbar : ¬(satHits 32 x || decide (satS 32 x < byMin s n) || decide (byMax s n < satS 32 x)) = true := by
    simp [satHits, satS_of_fits hadm.fitsLow hadm.fitsHigh, hadm.min, hadm.max]
  have hlimit (a c : Bool) : ¬(a && decide (byRate s n ≠ 0) && c) = true := by simp [hadm.rate]
  obtain ⟨hscale, hlow, hhigh, hr, hf, ht, hp⟩ := arrived_record s n
  rw [← hlow, ← hhigh, ← hx, ← hscale] at hbar
  rw [← hr] at hlimit
  rw [← satS_of_fits hadm.fitsLow hadm.fitsHigh, ← hx, ← hscale, ← ht, ← hp, ← arrived_now s n]
  refine ⟨_, _, (if_neg (not_bnot hon)).trans <| (if_neg hbar).trans <| if_neg (hlimit _ _), fun b hb => ?_⟩
  rw [if_neg (by simp [hb]), byFilter_eq]
  exact ⟨rfl, byFilter_out_of_none (hf.trans hadm.filt) _ _ _, rfl, rfl, rfl, rfl⟩

theorem offer_rejects (hon : byOn s n = true) (hx : rescale m e (byScale s n) = x)
    (hout : x < byMin s n ∨ byMax s n < x ∨ x < -(2 ^ 31) ∨ 2 ^ 31 ≤ x) :
    ∃ f, TurnsBuoy offerParts n f s (offer s n m e) ∧ ∀ b, Violated vRANGE b (f b) := by
  obtain ⟨r, hr, hsame⟩ := arrived_turns s n
  obtain ⟨f, hf, hviol⟩ := withheld_turns (arrived s n) n vRANGE (wi (satS 32 x))
  rw [offer_out_of_range hon hx hout]
  exact ⟨f ∘ r, (hr.mono (by decide)).trans hf, fun b => (hviol (r b)).of_same (hsame b)⟩

theorem offer_admits (hon : byOn s n = true) (hx : rescale m e (byScale s n) = x) (hadm : Admissible s n x) :
    ∃ f, TurnsBuoy offerParts n f s (offer s n m e)
      ∧ ∀ b, b.state ≠ 2 → AdmittedAs (wi x) s.now (s.now + byTmo s n * byPeriod s n) (f b) := by
  obtain ⟨r, hr, hsame⟩ := arrived_turns s n
  obtain ⟨f, d, ho, hf⟩ := offer_admissible hon hx hadm
  have taken : TurnsBuoy offerParts n (f ∘ r) s ((arrived s n).modBuoy n f) :=
    (hr.mono (by decide)).trans ((modBuoy_turns _ n f).mono (by decide))
  rw [ho]
  exact ⟨f ∘ r, taken.andThen (by decide) (by decide) (byReceived_touches _ d n) |>.andThen (by decide) (by decide)
    (byFollow_touches _), fun b hb => hf (r b) ((hsame b).state ▸ hb)⟩

end offered

end Sys2Proof.Machine
end

section
namespace Sys2Proof.Machine

/-! ## The three rows (R67, R72, R76, R85) -/

theorem acc_touches (s : State) (v : Access) : Touches [.acc] s { s with acc := v } :=
  .of_update (fun p => by have k := p.agree_refl s; cases p <;> exact k) rfl rfl rfl

/-- The invariant holds a buoy for every number. -/
theorem Inv.buoys_length {s : State} (h : Inv s) : s.buoys.length = 512 := by
  have hsame : s.buoys.length = State.reset.buoys.length := congrArg (fun l => nth l 0) h.2
  rw [hsame]
  exact List.length_replicate

theorem buoyUpdate_runs {s : State} {b : Fin 512} {path : SrcPath} (m : Word) (e : Byte)
    (h : pathOk s b.val path = true) :
    exec (.buoyUpdate b path m e) s
      = .next (offer s b.val m.toInt (if pathExp path then e.toInt else byScale s b.val)) :=
  congrArg Host.Outcome.next (if_pos h)

theorem byWexpWrite_runs {s : State} {b : Fin 512} (e : Byte) (hw : WriteOpen s .cs) (hon : byOn s b.val = true)
    (h : pathOk s b.val .host = true) :
    exec (.byWexpWrite b e) s = .next ((offer s b.val (nth s.buoys b.val).wmant.toInt e.toInt).ok []) :=
  congrArg Host.Outcome.next <| (writeGate_open hw _).trans (if_pos (by rw [hon, h]; rfl))

/-- What a timeout makes of its buoy before the event counts: VALID becomes STALE, the next timeout is set (R72, R73). -/
def Buoy.expire (tmo : Nat) (b : Buoy) : Buoy := { b with state := if b.state = 0 then 1 else b.state, tmoAt := tmo }

/-- What a timeout may touch beside the time: its buoy and the units that watch the buoys. -/
def timeoutParts : List Part :=
  traced [.buoys, .beamsCs, .beamsDs, .lhCs, .lhDs, .pwmCs, .pwmDs, .mach, .prot, .ac, .temp, .lamp]

theorem SameValue.expire {a b : Buoy} (h : SameValue a b) (tmo : Nat) : SameValue (a.expire tmo) (b.expire tmo) :=
  ⟨by simp only [Buoy.expire, h.state], h.last, h.out, h.lastAt, rfl⟩

/-- The state in which a timeout's event counts: the due cycle, the buoy met and expired. -/
def overdue (s : State) (n : Nat) : State :=
  (arrived (s.advanceTo (byDue s n)) n).modBuoy n (Buoy.expire (byDue s n + byTmo s n * byPeriod s n))

theorem overdue_turns (s : State) (n : Nat) : ∃ f, TurnsBuoy timeoutParts n f (s.advanceTo (byDue s n)) (overdue s n)
    ∧ ∀ b, SameValue (b.expire (byDue s n + byTmo s n * byPeriod s n)) (f b) := by
  obtain ⟨r, hr, hsame⟩ := arrived_turns (s.advanceTo (byDue s n)) n
  exact ⟨_, (hr.mono (by decide)).trans ((modBuoy_turns _ n _).mono (by decide)), fun b => (hsame b).expire _⟩

theorem buoyTimeout_runs {s : State} {b : Fin 512} (hon : byOn s b.val = true) (hruns : s.runs (byHome s b.val) = true) :
    exec (.buoyTimeout b) s = .next (byFollow
      (byEvent (overdue s b.val) b.val vTIMEOUT (tmoDetail (overdue s b.val) b.val))) := by
  obtain ⟨_, _, _, _, _, htmo, hper⟩ := arrived_record (s.advanceTo (byDue s b.val)) b.val
  rw [overdue, ← show byTmo (arrived _ b.val) b.val = byTmo s b.val from htmo,
    ← show byPeriod (arrived _ b.val) b.val = byPeriod s b.val from hper]
  exact congrArg Host.Outcome.next (if_pos (by rw [hon, hruns]; rfl))

/-- In its due cycle a timeout expires its buoy, which is an event of it (R72, R73). -/
theorem buoyTimeout_turns {s : State} {b : Fin 512} (hon : byOn s b.val = true) (hruns : s.runs (byHome s b.val) = true) :
    ∃ t f, exec (.buoyTimeout b) s = .next t ∧ TurnsBuoy timeoutParts b.val f (s.advanceTo (byDue s b.val)) t
      ∧ ∀ x, Violated vTIMEOUT (x.expire (byDue s b.val + byTmo s b.val * byPeriod s b.val)) (f x) := by
  obtain ⟨g, hg, hsame⟩ := overdue_turns s b.val
  obtain ⟨f, hf, hviol⟩ := byEvent_turns (overdue s b.val) b.val vTIMEOUT (tmoDetail (overdue s b.val) b.val)
  exact ⟨_, f ∘ g, buoyTimeout_runs hon hruns,
    (hg.trans (hf.mono (by decide))).andThen (by decide) (by decide) (byFollow_touches _),
    fun x => (hviol (g x)).of_same (hsame x)⟩

/-! ## Sources (R67) -/

/-- The path of a buoy's source; a HOST buoy that is an output of the charging or thermal unit has the unit's (R67, R68, R406). -/
def pathOf (s : State) (n : Nat) : SrcPath :=
  match bySrc s n with
  | 0 => .adc
  | 1 => .feedback
  | 2 => .can
  | 3 => if (unitBuoys s).contains n then .unitPath else .host
  | 4 => .temp
  | _ => .datapath

/-- By the table of R67 and R68: each source admits one path. -/
theorem pathOk_iff {s : State} {n : Nat} (h : bySrc s n ≤ 5) (p : SrcPath) : pathOk s n p = true ↔ p = pathOf s n := by
  unfold pathOk pathOf
  generalize bySrc s n = src, (unitBuoys s).contains n = unit at h
  interval_cases src <;> cases unit <;> cases p <;> decide

/-- Settles O27: the one path of a source is `pathOf`. -/
theorem eachBuoyHasOneSource : Obligations.EachBuoyHasOneSource := by
  refine ⟨fun n s hsrc => ?one, fun b path m e s h => ?other, fun b e s hw hsrc => ?host⟩
  case one => exact ⟨pathOf s n, (pathOk_iff hsrc _).2 rfl, fun p => (pathOk_iff hsrc p).1⟩
  case other => exact ⟨s, congrArg Host.Outcome.next (if_neg (by simp [h])), rfl⟩
  case host =>
    have hbar : ¬(byOn s b.val && pathOk s b.val .host) = true := by simp [pathOk, hsrc]
    exact ⟨s.refuse 0x10, congrArg Host.Outcome.next <| (writeGate_open hw _).trans (if_neg hbar), rfl,
      (acc_touches s _).onlyChanges⟩

/-- Settles O28: the three rows turn one buoy, by what an offered value and a timeout make of it. -/
theorem buoysAdmitRejectAndTimeOut : Obligations.BuoysAdmitRejectAndTimeOut := by
  intro b s hinv hon
  have hlen : b.val < s.buoys.length := b.isLt.trans_eq hinv.buoys_length.symm
  refine ⟨fun path m e hpath => ⟨?taken, ?rejected⟩, ?host, ?timeout⟩
  case taken =>
    intro h0 h1 hmin hmax hrate hfilt hstate
    obtain ⟨f, hf, hadm⟩ := offer_admits hon rfl ⟨h0, h1, hmin, hmax, hrate, hfilt⟩
    obtain ⟨hlast, hout, hvalid, had, hat, htmo⟩ := hadm _ hstate
    rw [← hf.own hlen] at hlast hout hvalid had hat htmo
    exact ⟨_, buoyUpdate_runs m e hpath, hlast, hout, hvalid, had, hat, htmo, fun _ => hf.other, hf.touches.onlyChanges⟩
  case rejected =>
    intro hrange
    obtain ⟨f, hf, hrej⟩ := offer_rejects hon rfl hrange
    obtain ⟨hviol, hstate, hlast, hout, hat, _⟩ := hrej (nth s.buoys b.val)
    rw [← hf.own hlen] at hviol hlast hout hat hstate
    exact ⟨_, buoyUpdate_runs m e hpath, hviol, hlast, hout, hat, hstate, fun _ => hf.other, hf.touches.onlyChanges⟩
  case host =>
    intro e hw hpath x h0 h1 hmin hmax hrate hfilt hstate
    obtain ⟨f, hf, hadm⟩ := offer_admits hon rfl ⟨h0, h1, hmin, hmax, hrate, hfilt⟩
    obtain ⟨hlast, hout, hvalid, _, _, _⟩ := hadm _ hstate
    rw [← hf.own hlen] at hlast hout hvalid
    exact ⟨_, byWexpWrite_runs e hw hon hpath, rfl, hlast, hout, hvalid, fun _ => hf.other,
      Touches.onlyChanges <| .after (by decide) (acc_touches _ _) (.mono (by decide) hf.touches)⟩
  case timeout =>
    intro hruns
    obtain ⟨t, f, he, hf, hturn⟩ := buoyTimeout_turns hon hruns
    obtain ⟨hviol, hstate, _, hout, _, htmo⟩ := hturn (nth s.buoys b.val)
    have hown : nth t.buoys b.val = f (nth s.buoys b.val) := hf.own hlen
    rw [← hown] at hviol hstate hout htmo
    have hstale (h : (nth s.buoys b.val).state = 0) : (nth t.buoys b.val).state = 1 ∨ (nth t.buoys b.val).state = 2 := by
      simpa [Buoy.expire, h] using hstate
    exact ⟨t, he, hf.touches.now (by decide), hviol, htmo, hstale, hout, fun _ => hf.other,
      Touches.onlyChanges <| .after (by decide) hf.touches (.mono (by decide) (advanceTo_touches s _))⟩

end Sys2Proof.Machine
end

section
namespace Sys2Proof.Machine

/-! ## What an operation makes of one feedback channel -/

/-- From s to t one channel turns by f, every other channel stays, and nothing but the named parts differs. -/
structure TurnsFb (P : List Part) (c : Nat) (f : Fb → Fb) (s t : State) : Prop where
  touches : Touches P s t
  fb : t.fb = upd s.fb c f

/-- The invariant holds the twelve channels. -/
theorem Inv.fb_length {s : State} (h : Inv s) : s.fb.length = 12 := by
  have hsame : s.fb.length = State.reset.fb.length := congrArg (fun l => nth l 1) h.2
  rw [hsame]
  exact List.length_replicate

namespace TurnsFb

variable {P Q : List Part} {c : Nat} {f g : Fb → Fb} {s t u : State}

theorem refl (P : List Part) (c : Nat) (s : State) : TurnsFb P c id s s :=
  ⟨.refl P s, (List.modify_id c s.fb).symm⟩

theorem mono (hQ : Q ⊆ P) (h : TurnsFb Q c f s t) : TurnsFb P c f s t := ⟨h.touches.mono hQ, h.fb⟩

/-- One turn after another. -/
theorem andTurns (h : TurnsFb P c f s t) (hQ : Q ⊆ P) (k : TurnsFb Q c g t u) : TurnsFb P c (g ∘ f) s u :=
  ⟨.after hQ k.touches h.touches, by rw [k.fb, h.fb, upd, upd, upd, List.modify_modify_eq]⟩

/-- An operation that does not touch the channels, after the turn. -/
theorem andThen (h : TurnsFb P c f s t) (hQ : Q ⊆ P) (hf : .fb ∉ Q) (k : Touches Q t u) : TurnsFb P c f s u :=
  ⟨.after hQ k h.touches, (k.agree .fb hf).trans h.fb⟩

theorem other (h : TurnsFb P c f s t) (k : Nat) (hk : k ≠ c) : nth t.fb k = nth s.fb k := by
  rw [h.fb]
  simp [nth, upd, hk.symm]

theorem own (h : TurnsFb P c f s t) (hinv : Inv s) (hc : c < 12) : nth t.fb c = f (nth s.fb c) := by
  rw [h.fb, nth_upd _ (hc.trans_eq hinv.fb_length.symm)]

end TurnsFb

theorem modFb_turns (s : State) (c : Nat) (f : Fb → Fb) : TurnsFb [.fb] c f s (s.modFb c f) :=
  ⟨.of_update (fun p => by have k := p.agree_refl s; cases p <;> exact k) rfl rfl (by simp [shape, upd]), rfl⟩

/-! ## Events of a channel (R117) -/

/-- A register in which a bit was set has that bit. -/
theorem bitOf_of_eq_orBit {v w : Word} {k : Nat} (h : v = orBit w k) (hk : k < 32) : bitOf v k = true := by
  have hbit : (wd (2 ^ k)).getLsbD k = true := by
    rw [wd, BitVec.getLsbD_ofNat, Nat.testBit_two_pow_self, decide_eq_true hk]
    rfl
  rw [h, bitOf, orBit, BitVec.getLsbD_or, hbit, Bool.or_true]

/-- A channel with the event bit of a cause set. -/
def Fb.noted (cause : Nat) (f : Fb) : Fb := { f with evt := orBit f.evt cause }

/-- An event sets the bit of its cause and is counted (R117). -/
theorem fbEvent_turns (s : State) (c cause elem : Nat) (detail : Word) :
    TurnsFb (traced [.fb]) c (Fb.noted cause) s (fbEvent s c cause elem detail) :=
  (modFb_turns s c _).mono (by decide) |>.andThen (by decide) (by decide) (countEvent_touches _ _)

/-! ## An edge counted (R97, R99, R101, R439) -/

/-- A channel at an angle. -/
def Fb.angled (angle : Word) (f : Fb) : Fb := { f with angle := angle }

theorem fbSetAngle_turns (s : State) (c : Nat) : TurnsFb [.fb] c (Fb.angled (fbAngle s c)) s (fbSetAngle s c) :=
  modFb_turns s c _

/-- A channel after an edge went through the speed rules: history, status, direction, speed, angle and time stamp are new. -/
def Fb.paced (hist : SpeedHist) (spstat : Nat) (neg : Bool) (speed angle tstamp : Word) (f : Fb) : Fb :=
  { f with hist := hist, spstat := spstat, dirNeg := neg, speed := speed, angle := angle, tstamp := tstamp }

/-- The speed rules and the angle leave the position, the lines and the reference of the channel (R97, R99). -/
theorem speedEdge_turns (s : State) (c te : Nat) (n : Int) : ∃ hist st v a,
    TurnsFb [.fb] c (Fb.paced hist st (decide (n < 0)) v a (countAt s .cs te)) s (fbSetAngle (speedEdge s c te n) c) := by
  have hdir : decide ((if n < 0 then (-1 : Int) else 1) < 0) = decide (n < 0) := by split <;> simp [*]
  have hturns : TurnsFb [.fb] c _ s (fbSetAngle (speedEdge s c te n) c) :=
    ((modFb_turns s c _).andTurns (by decide) (modFb_turns _ c _)).andTurns (by decide) (fbSetAngle_turns _ c)
  rw [← hdir]
  exact ⟨_, _, _, _, hturns⟩

theorem posCount_touches (s : State) (c : Nat) : Touches [.gact] s (posCount s c) :=
  .of_update (fun p => by have k := p.agree_refl s; cases p <;> exact k) rfl rfl (by simp [shape, posCount])

/-- What an event of a channel or a change of its status may touch: the channel, and what the stale evaluation touches
(R134). -/
def fbParts : List Part :=
  traced [.fb, .beamsCs, .beamsDs, .lhCs, .lhDs, .pwmCs, .pwmDs, .mach, .prot, .temp, .lamp]

/-- What a count of a channel may touch: an actuator's stall time beside (R439). -/
def countParts : List Part :=
  traced [.fb, .beamsCs, .beamsDs, .lhCs, .lhDs, .pwmCs, .pwmDs, .mach, .prot, .gact, .temp, .lamp]

/-- After the turn of a channel the beams are evaluated (R134). -/
theorem TurnsFb.stale {P : List Part} {c : Nat} {f : Fb → Fb} {s t : State} (h : TurnsFb P c f s t) (hP : P ⊆ fbParts) :
    TurnsFb fbParts c f s (staleCheck t) :=
  (h.mono hP).andThen (by decide) (by decide) (staleCheck_touches t)

/-- An event follows the turn of a channel, and the beams are evaluated (R117, R134). -/
theorem TurnsFb.noted {P : List Part} {c : Nat} {f : Fb → Fb} {s t : State} (h : TurnsFb P c f s t) (hP : P ⊆ fbParts)
    (cause elem : Nat) (detail : Word) :
    TurnsFb fbParts c (Fb.noted cause ∘ f) s (staleCheck (fbEvent t c cause elem detail)) :=
  ((h.mono hP).andTurns (by decide) (fbEvent_turns t c cause elem detail)).stale (by decide)

/-- A count restarts the stall time of an actuator, and the beams are evaluated (R134, R439). -/
theorem TurnsFb.counted {P : List Part} {c : Nat} {f : Fb → Fb} {s t : State} (hP : P ⊆ countParts)
    (h : TurnsFb P c f s t) : TurnsFb countParts c f s (staleCheck (posCount t c)) :=
  ((h.mono hP).andThen (by decide) (by decide) (posCount_touches t c)).andThen (by decide) (by decide) (staleCheck_touches _)

end Sys2Proof.Machine
end

section
namespace Sys2Proof.Machine

/-! ## Encoder edges (R91, R94, R95) -/

theorem fld_lt (w : Word) (hi lo : Nat) : fld w hi lo < 2 ^ (hi + 1 - lo) := Nat.mod_lt _ (Nat.two_pow_pos _)

/-- The counts of a turn fit a position register. -/
theorem fbCounts_lt (s : State) (c : Nat) : max 1 (fbCounts s c) < 2 ^ 32 := by
  have enc := fld_lt (fbCfg s c 0) 23 0
  have tooth := fld_lt (fbCfg s c 0) 10 0
  have hall := fld_lt (fbCfg s c 1) 23 0
  unfold fbCounts
  split_ifs <;> omega

theorem quadCount_self (x : Nat) : quadCount x x = 0 := by
  simp [quadCount]

theorem quadCount_cases (old new : Nat) : quadCount old new = 1 ∨ quadCount old new = -1 ∨ quadCount old new = 0 := by
  unfold quadCount
  dsimp only
  split_ifs <;> simp

/-- A channel with the position moved, modulo 2^32. -/
def Fb.moved (n : Int) (f : Fb) : Fb := { f with pos := f.pos + wi n }

/-- Without WRAP a step moves the position by itself (R94). -/
theorem encCount_of_not_wrap {s : State} {c : Nat} (h : fld (fbCfg s c 2) 1 0 ≠ 3) (n : Int) :
    encCount s c n = Fb.moved n :=
  funext fun _ => if_neg h

/-- In WRAP a step moves the position modulo the counts of a turn (R94). -/
theorem encCount_pos_of_wrap {s : State} {c : Nat} {n : Int} {f : Fb} (h : fld (fbCfg s c 2) 1 0 = 3) (hn : n = 1 ∨ n = -1)
    (hpos : f.pos.toNat < max 1 (fbCounts s c)) :
    ((encCount s c n f).pos.toNat : Int) = ((f.pos.toNat : Int) + n) % ((max 1 (fbCounts s c) : Nat) : Int) := by
  have hcpt := fbCounts_lt s c
  generalize hm : max 1 (fbCounts s c) = cpt at hpos hcpt ⊢
  rw [encCount, if_pos h, hm]
  have hnone : (0 : Word).toNat = 0 := rfl
  have hone : (1 : Word).toNat = 1 := rfl
  rcases hn with rfl | rfl
  · rw [if_pos Int.one_pos]
    split
    next hlast =>
      rw [← Int.natCast_one, ← Int.natCast_add, hlast]
      simp
    next hlast =>
      rw [Int.emod_eq_of_lt (by omega) (by omega), BitVec.toNat_add_of_lt (by omega), hone]
      exact Int.natCast_add ..
  · rw [if_neg (by decide)]
    split
    next hzero =>
      rw [hzero, wd, BitVec.toNat_ofNat, Nat.mod_eq_of_lt (by omega), hnone]
      rw [← Int.add_emod_right, Int.emod_eq_of_lt (by omega) (by omega)]
      omega
    next hzero =>
      have hpos0 : 1 ≤ f.pos.toNat := Nat.one_le_iff_ne_zero.2 fun h0 => hzero (BitVec.eq_of_toNat_eq h0)
      rw [Int.emod_eq_of_lt (by omega) (by omega), BitVec.toNat_sub_of_le (show (1 : Word) ≤ f.pos from hpos0), hone]
      omega

/-- Only ALWAYS and ONCE have index events (R95). -/
theorem isIndex_eq_false {s : State} {c : Nat} (h : 2 ≤ fld (fbCfg s c 2) 1 0) (new : Nat) (z : Bool) :
    isIndex s c new z = false := by
  simp [isIndex, Nat.not_le.2 h]

/-- Where no edge is an index event an edge counts (R91). -/
theorem encEdge_eq {s : State} {c : Nat} (h : 2 ≤ fld (fbCfg s c 2) 1 0) (new : Nat) (n : Int) (z : Bool) :
    encEdge s c new n z = fbSetAngle (speedEdge (s.modFb c (encCount s c n)) c (edgeTime s c) n) c := by
  simp [encEdge, isIndex_eq_false h]

/-- The place of a pair of levels in the quadrature sequence, as 2A + B (R91). -/
def pairOf (a b : Bool) : Nat := 2 * b2n a + b2n b

/-- The place of a channel's lines A and B. -/
def Fb.pair (f : Fb) : Nat := pairOf (f.lines.getLsbD 0) (f.lines.getLsbD 1)

/-- The step of an edge in the channel's direction (R91). -/
def stepOf (s : State) (c : Nat) (a b : Bool) : Int :=
  let k := quadCount (nth s.fb c).pair (pairOf a b)
  if bitOf (fbCfg s c 2) 7 then -k else k

/-- An edge counts by one, up or down (R91). -/
theorem stepOf_cases {s : State} {c : Nat} {a b : Bool} (h : quadCount (nth s.fb c).pair (pairOf a b) ≠ 0) :
    stepOf s c a b = 1 ∨ stepOf s c a b = -1 := by
  rcases quadCount_cases (nth s.fb c).pair (pairOf a b) with hk | hk | hk
  · cases hdir : bitOf (fbCfg s c 2) 7 <;> simp [stepOf, hk, hdir]
  · cases hdir : bitOf (fbCfg s c 2) 7 <;> simp [stepOf, hk, hdir]
  · exact absurd hk h

/-- A channel with the lines at their levels. -/
def Fb.levels (a b z : Bool) (f : Fb) : Fb := { f with lines := BitVec.ofNat 3 (b2n a + 2 * b2n b + 4 * b2n z) }

/-- A channel whose position is uncertain. -/
def Fb.unsure (f : Fb) : Fb := { f with uncertain := true, upset := true }

section encoder

variable {s : State} {ch : Fin 4} {c : Nat} {a b : Bool}

/-- Nothing bars an edge that moves a working channel (R89, R93). -/
theorem encoderEdge_unbarred (hlive : fbLive s c = true) (hgood : encBad (nth s.fb c) = false)
    (hmoved : (nth s.fb c).pair ≠ pairOf a b) :
    ¬(!fbLive s c || encBad (nth s.fb c) || decide ((nth s.fb c).pair = pairOf a b)) = true := by
  rw [hlive, hgood, decide_eq_false hmoved]
  decide

/-- A step on a working channel counts (R91); without index events that is all it does but for the speed rules. -/
theorem encoderEdge_counts (hc : c = 2 + ch.val) (hlive : fbLive s c = true) (hgood : encBad (nth s.fb c) = false)
    (hk : quadCount (nth s.fb c).pair (pairOf a b) ≠ 0) (hmode : 2 ≤ fld (fbCfg s c 2) 1 0) (z : Bool) :
    ∃ t hist st v g, exec (.encoderEdge ch a b z) s = .next t ∧ TurnsFb countParts c
      (Fb.paced hist st (decide (stepOf s c a b < 0)) v g (countAt s .cs (edgeTime s c)) ∘ encCount s c (stepOf s c a b)
        ∘ Fb.levels a b z) s t := by
  have hmoved : (nth s.fb c).pair ≠ pairOf a b := fun h => hk (h ▸ quadCount_self _)
  have hexec : exec (.encoderEdge ch a b z) s
      = .next (staleCheck (posCount (encEdge (s.modFb c (Fb.levels a b z)) c (pairOf a b) (stepOf s c a b) z) c)) := by
    subst hc
    exact congrArg Host.Outcome.next <| (if_neg (encoderEdge_unbarred hlive hgood hmoved)).trans (if_neg hk)
  have hlevels : TurnsFb [.fb] c _ s ((s.modFb c (Fb.levels a b z)).modFb c (encCount s c (stepOf s c a b))) :=
    (modFb_turns s c _).andTurns (by decide) (modFb_turns _ c _)
  obtain ⟨hist, st, v, g, hpaced⟩ :=
    speedEdge_turns ((s.modFb c (Fb.levels a b z)).modFb c (encCount s c (stepOf s c a b))) c (edgeTime s c) (stepOf s c a b)
  rw [encEdge_eq (s := s.modFb c (Fb.levels a b z)) hmode] at hexec
  exact ⟨_, hist, st, v, g, hexec, (hlevels.andTurns (by decide) hpaced).counted (by decide)⟩

/-- A step in which both lines changed is an event and makes the position uncertain (R91). -/
theorem encoderEdge_jumps (hc : c = 2 + ch.val) (hlive : fbLive s c = true) (hgood : encBad (nth s.fb c) = false)
    (hk : quadCount (nth s.fb c).pair (pairOf a b) = 0) (hmoved : (nth s.fb c).pair ≠ pairOf a b) (z : Bool) :
    ∃ t, exec (.encoderEdge ch a b z) s = .next t
      ∧ TurnsFb fbParts c (Fb.noted 5 ∘ Fb.unsure ∘ Fb.levels a b z) s t := by
  subst hc
  refine ⟨_, congrArg Host.Outcome.next <| (if_neg (encoderEdge_unbarred hlive hgood hmoved)).trans (if_pos hk), ?_⟩
  exact ((modFb_turns s _ (Fb.levels a b z)).andTurns (by decide) (modFb_turns _ _ Fb.unsure)).noted (by decide) _ _ _

end encoder

/-! ## Wires of an encoder (R93) -/

/-- The two wires of a pair come to one level: the watch of the line starts. -/
def Fb.watch (line : Nat) (level : Bool) (at_ : Nat) (f : Fb) : Fb :=
  { f with wdAct := f.wdAct ||| 1#3 <<< line, wdSince := f.wdSince.set line at_
           wdLevel := if level then f.wdLevel ||| 1#3 <<< line else f.wdLevel &&& ~~~(1#3 <<< line) }

/-- The two wires of a pair leave one level: the watch and the disagree of the line end. -/
def Fb.unwatch (line : Nat) (f : Fb) : Fb :=
  { f with wdAct := f.wdAct &&& ~~~(1#3 <<< line), wdis := f.wdis &&& ~~~(1#3 <<< line) }

/-- A wire-disagree on a line; on A or B the position is uncertain and the speed STALE. -/
def Fb.disagree (line : Nat) (f : Fb) : Fb :=
  let f := { f with wdis := f.wdis ||| 1#3 <<< line }
  if line < 2 then { f with uncertain := true, upset := true, spstat := 5 } else f

section wires

variable {s : State} {ch : Fin 4} {line : Fin 3}

theorem wireLevelChange_ends (s : State) (ch : Fin 4) (line : Fin 3) (level : Bool) : ∃ t f,
    exec (.wireLevelChange ch line false level) s = .next t ∧ TurnsFb fbParts (2 + ch.val) f s t
      ∧ ∀ x, (f x).wdAct = (x.unwatch line.val).wdAct ∧ (f x).wdis = (x.unwatch line.val).wdis := by
  have hended : TurnsFb fbParts (2 + ch.val) _ s (s.modFb _ (Fb.unwatch line.val)) := (modFb_turns s _ _).mono (by decide)
  by_cases hcleared : (encBad { nth s.fb (2 + ch.val) with unresLines := 0 }
      && decide ((nth (s.modFb (2 + ch.val) (Fb.unwatch line.val)).fb (2 + ch.val)).wdis.toNat % 4 = 0)) = true
  · exact ⟨_, _, congrArg Host.Outcome.next (if_pos hcleared),
      (hended.andTurns (by decide) (modFb_turns _ _ _)).stale (by decide), fun _ => ⟨rfl, rfl⟩⟩
  · exact ⟨_, _, congrArg Host.Outcome.next (if_neg hcleared), hended, fun _ => ⟨rfl, rfl⟩⟩

/-- The cycle in which a wire-disagree has lasted longer than WDTIME (R93). -/
def wdDue (s : State) (c line : Nat) : Nat :=
  (nth s.fb c).wdSince.getD line 0 + 40 * fld (fbCfg s c 2) 31 24 + 1

theorem wiredis_turns (hlive : fbLive s (2 + ch.val) = true) (hact : (nth s.fb (2 + ch.val)).wdAct.getLsbD line.val = true)
    (hdis : (nth s.fb (2 + ch.val)).wdis.getLsbD line.val = false) :
    ∃ t, exec (.wiredis ch line) s = .next t ∧ TurnsFb fbParts (2 + ch.val)
      (Fb.noted 4 ∘ Fb.disagree line.val) (s.advanceTo (wdDue s (2 + ch.val) line.val)) t := by
  have hpass : (fbLive s (2 + ch.val) && (nth s.fb (2 + ch.val)).wdAct.getLsbD line.val
      && !(nth s.fb (2 + ch.val)).wdis.getLsbD line.val) = true := by
    rw [hlive, hact, hdis]
    decide
  refine ⟨_, congrArg Host.Outcome.next (if_pos hpass), ?_⟩
  exact (modFb_turns _ _ (Fb.disagree line.val)).noted (by decide) _ _ _

end wires

/-- After time has come and a channel has turned, nothing but time and what the turn names differs. -/
theorem TurnsFb.onlyChanges_of_advanceTo {P Q : List Part} {c due : Nat} {f : Fb → Fb} {s t : State}
    (hQ : .now :: P ⊆ Q) (h : TurnsFb P c f (s.advanceTo due) t) : OnlyChanges Q s t :=
  Touches.onlyChanges <| .after (fun _ hp => hQ (.tail _ hp)) h.touches <|
    .mono (fun _ hp => hQ (List.mem_singleton.1 hp ▸ .head _)) (advanceTo_touches s due)

/-- A wire-disagree of A or B alone makes the position uncertain and the speed STALE (R93). -/
theorem Fb.disagree_spec (line : Nat) (f : Fb) : (f.disagree line).wdis = f.wdis ||| 1#3 <<< line
    ∧ (line < 2 → (f.disagree line).uncertain = true ∧ (f.disagree line).spstat = 5) := by
  by_cases hab : line < 2
  · simp [Fb.disagree, hab]
  · simp [Fb.disagree, hab]

/-- Settles O30: an edge counts or jumps, a wire pair is watched, left or found to disagree; each turns one channel. -/
theorem encodersCountQuadratureSteps : Obligations.EncodersCountQuadratureSteps := by
  intro ch s hinv c f other
  have hc : c < 12 := by omega
  refine ⟨fun a b z hlive hgood => ⟨?free, ?wrap, ?jump⟩, fun line level => ?watch, fun line level => ?leave,
    fun line hlive hact hdis => ?disagree⟩
  case free =>
    intro hk hmode
    obtain ⟨t, hist, st, v, g, he, ht⟩ := encoderEdge_counts rfl hlive hgood hk hmode.ge z
    rw [encCount_of_not_wrap (hmode.trans_ne (by decide))] at ht
    have hown := ht.own hinv hc
    exact ⟨t, he, congrArg Fb.pos hown, congrArg Fb.lines hown, congrArg Fb.tstamp hown, congrArg Fb.dirNeg hown, ht.other,
      ht.touches.onlyChanges⟩
  case wrap =>
    intro hk hmode hpos
    obtain ⟨t, hist, st, v, g, he, ht⟩ := encoderEdge_counts rfl hlive hgood hk (Nat.le_of_lt hmode.ge) z
    have hown := congrArg (fun x : Fb => (x.pos.toNat : Int)) (ht.own hinv hc)
    exact ⟨t, he, hown.trans (encCount_pos_of_wrap hmode (stepOf_cases hk) hpos), ht.other, ht.touches.onlyChanges⟩
  case jump =>
    intro hk hmoved
    obtain ⟨t, he, ht⟩ := encoderEdge_jumps rfl hlive hgood hk hmoved z
    have hown := ht.own hinv hc
    exact ⟨t, he, (congrArg Fb.pos hown :), congrArg Fb.uncertain hown,
      bitOf_of_eq_orBit (congrArg Fb.evt hown) (by decide), ht.other, (ht.touches.mono (by decide)).onlyChanges⟩
  case watch =>
    have ht := modFb_turns s c (Fb.watch line.val level s.now)
    have hown := ht.own hinv hc
    exact ⟨_, rfl, congrArg Fb.wdAct hown, congrArg Fb.wdSince hown, ht.other, ht.touches.onlyChanges⟩
  case leave =>
    obtain ⟨t, g, he, ht, hg⟩ := wireLevelChange_ends s ch line level
    have hown := ht.own hinv hc
    exact ⟨t, he, (congrArg Fb.wdAct hown).trans (hg f).1, (congrArg Fb.wdis hown).trans (hg f).2, ht.other,
      ht.touches.onlyChanges⟩
  case disagree =>
    obtain ⟨t, he, ht⟩ := wiredis_turns hlive hact hdis
    have hown := ht.own (s := s.advanceTo _) hinv hc
    obtain ⟨hwdis, hab⟩ := Fb.disagree_spec line.val f
    refine ⟨t, he, ht.touches.now (by decide), (congrArg Fb.wdis hown).trans hwdis,
      bitOf_of_eq_orBit (congrArg Fb.evt hown) (by decide), fun h => ?_, ht.other, ht.onlyChanges_of_advanceTo (by decide)⟩
    exact ⟨(congrArg Fb.uncertain hown).trans (hab h).1, (congrArg Fb.spstat hown).trans (hab h).2⟩

end Sys2Proof.Machine
end

section
namespace Sys2Proof.Machine

/-! ## Commands on a channel, rest and unresolved inputs (R90, R94, R101, R105) -/

/-- A tooth wheel back in SEARCH (R105). -/
def Fb.searching (f : Fb) : Fb := { f with ref := false, uncertain := true }

/-- A channel at rest (R101). -/
def Fb.atRest (f : Fb) : Fb := { f with spstat := 1, speed := 0 }

/-- A channel whose unresolved inputs were counted at a cycle (R90). -/
def Fb.unresCounted (at_ : Nat) (f : Fb) : Fb := { f with unresAt := at_ }

/-- What a write to PF_CTRL may touch: the answer beside the channel (R94, R105). -/
def ctrlParts : List Part := .acc :: fbParts

/-- The write is answered after the turn. -/
theorem TurnsFb.answered {c : Nat} {f : Fb → Fb} {s t : State} (h : TurnsFb fbParts c f s t) :
    TurnsFb ctrlParts c f s (t.ok []) :=
  (h.mono (by decide)).andThen (by decide) (by decide) (acc_touches t _)

theorem armFb_uncertain (s : State) (c : Nat) (f : Fb) : (armFb s c f).uncertain = encBad f := by
  unfold armFb
  dsimp only
  split <;> rfl

/-- In ALWAYS the reference is dropped (R94). -/
theorem armFb_of_always {s : State} {c : Nat} (h : fld (fbCfg s c 2) 1 0 = 0) (f : Fb) :
    (armFb s c f).ref = false ∧ (armFb s c f).pos = f.pos := by
  simp [armFb, h]

/-- In ONCE the reference is dropped and the next index event is awaited (R94). -/
theorem armFb_of_once {s : State} {c : Nat} (h : fld (fbCfg s c 2) 1 0 = 1) (f : Fb) :
    (armFb s c f).ref = false ∧ (armFb s c f).armed = true ∧ (armFb s c f).pos = f.pos := by
  simp [armFb, h]

/-- Without index the position is loaded (R94). -/
theorem armFb_of_none {s : State} {c : Nat} (h : fld (fbCfg s c 2) 1 0 = 2) (f : Fb) : (armFb s c f).pos = f.load := by
  simp [armFb, h]

/-- In WRAP the position is loaded modulo the counts of a turn (R94). -/
theorem armFb_of_wrap {s : State} {c : Nat} (h : fld (fbCfg s c 2) 1 0 = 3) (f : Fb) :
    (armFb s c f).pos.toNat = f.load.toNat % max 1 (fbCounts s c) := by
  have hlt : f.load.toNat % max 1 (fbCounts s c) < 2 ^ 32 :=
    (Nat.mod_lt _ (Nat.lt_of_lt_of_le Nat.one_pos (Nat.le_max_left ..))).trans (fbCounts_lt s c)
  simp only [armFb, h, wd, BitVec.toNat_ofNat, Nat.mod_eq_of_lt hlt]

section rows

variable {s : State} {ch : Fin 12}

theorem arm_turns (hw : WriteOpen s .cs) (h2 : 2 ≤ ch.val) (h5 : ch.val ≤ 5) (hon : fbOn s ch.val = true) :
    ∃ t a, exec (.arm ch) s = .next t ∧ Answered t 0 [] ∧ TurnsFb ctrlParts ch.val (Fb.angled a ∘ armFb s ch.val) s t := by
  have hpass : (decide (2 ≤ ch.val) && decide (ch.val ≤ 5) && fbOn s ch.val) = true := by simp [h2, h5, hon]
  have harmed := (modFb_turns s ch.val (armFb s ch.val)).andTurns (by decide) (fbSetAngle_turns _ ch.val)
  exact ⟨_, _, congrArg Host.Outcome.next <| (writeGate_open hw _).trans (if_pos hpass), rfl,
    (harmed.stale (by decide)).answered⟩

theorem resync_turns (hw : WriteOpen s .cs) (hc : ch.val = 6 ∨ ch.val = 7) (hon : fbOn s ch.val = true) :
    ∃ t, exec (.resync ch) s = .next t ∧ Answered t 0 [] ∧ TurnsFb ctrlParts ch.val Fb.searching s t := by
  have hpass : ((decide (ch.val = 6) || decide (ch.val = 7)) && fbOn s ch.val) = true := by simp [hc, hon]
  exact ⟨_, congrArg Host.Outcome.next <| (writeGate_open hw _).trans (if_pos hpass), rfl,
    ((modFb_turns s _ Fb.searching).stale (by decide)).answered⟩

/-- The cycle in which no edge has come for TSTILL (R101). -/
def stillDue (s : State) (c : Nat) : Nat := max (nth s.fb c).hist.lastAt (s.t0.getD 0) + fbStill s c

theorem standstill_turns (hlive : fbLive s ch.val = true) (hedges : fbEdges ch.val = true) (hres : fbUnres s ch.val = 0)
    (hwdis : (nth s.fb ch.val).wdis = 0) (hinv : (nth s.fb ch.val).hallInv = false) (hst : (nth s.fb ch.val).spstat ≠ 1) :
    ∃ t, exec (.standstill ch) s = .next t
      ∧ TurnsFb fbParts ch.val Fb.atRest (s.advanceTo (stillDue s ch.val)) t := by
  have hpass : (fbLive s ch.val && fbEdges ch.val && decide (fbUnres s ch.val = 0) && decide ((nth s.fb ch.val).wdis = 0)
      && !(nth s.fb ch.val).hallInv && decide ((nth s.fb ch.val).spstat ≠ 1)) = true := by
    simp [hlive, hedges, hres, hwdis, hinv, hst]
  exact ⟨_, congrArg Host.Outcome.next (if_pos hpass), (modFb_turns _ _ Fb.atRest).stale (by decide)⟩

end rows

/-- One event for every line that is hit. -/
def noteLines (s : State) (c cause : Nat) (detail : Word) (hit : Nat → Bool) (lines : List Nat) : State :=
  lines.foldl (fun s l => if hit l then fbEvent s c cause l detail else s) s

theorem Fb.noted_noted (cause : Nat) (f : Fb) : (f.noted cause).noted cause = f.noted cause := by
  simp [Fb.noted, orBit, BitVec.or_assoc]

/-- However many events of one cause, its bit is set (R117). -/
theorem noteLines_turns (c cause : Nat) (detail : Word) (hit : Nat → Bool) (lines : List Nat) (s : State) :
    TurnsFb (traced [.fb]) c (if lines.any hit then Fb.noted cause else id) s (noteLines s c cause detail hit lines) := by
  induction lines generalizing s with
  | nil => exact .refl _ c s
  | cons l ls ih =>
    cases hl : hit l with
    | false => simpa [noteLines, hl] using ih s
    | true =>
      have hnoted := (fbEvent_turns s c cause l detail).andTurns (List.Subset.refl _) (ih (fbEvent s c cause l detail))
      have hsame : (if ls.any hit then Fb.noted cause else id) ∘ Fb.noted cause = Fb.noted cause := by
        split
        · exact funext (Fb.noted_noted cause)
        · rfl
      rw [hsame] at hnoted
      simpa [noteLines, hl] using hnoted

/-- A set of unresolved inputs has one of three lines. -/
theorem fbUnres_hits {s : State} {c : Nat} (h : fbUnres s c ≠ 0) : [0, 1, 2].any (hasBit (fbUnres s c)) = true := by
  have hlt : fbUnres s c < 8 := Nat.lt_of_le_of_lt Nat.and_le_left (nth s.fb c).unresLines.isLt
  generalize fbUnres s c = u at h hlt
  interval_cases u
  · exact absurd rfl h
  all_goals decide

/-- The cycle in which inputs still unresolved count (R90). -/
def unresDue (s : State) (c : Nat) : Nat :=
  (if (nth s.fb c).unresAt = 0 then s.t0.getD 0 else (nth s.fb c).unresAt) + 10 * msec

theorem unres_turns {s : State} {ch : Fin 12} (hlive : fbLive s ch.val = true) (h6 : ch.val ≠ 6) (h7 : ch.val ≠ 7)
    (hunres : fbUnres s ch.val ≠ 0) :
    ∃ t, exec (.unres ch) s = .next t ∧ TurnsFb (traced [.fb]) ch.val
      (Fb.noted 0x0C ∘ Fb.unresCounted (unresDue s ch.val)) (s.advanceTo (unresDue s ch.val)) t := by
  have hpass : (fbLive s ch.val && decide (ch.val ≠ 6) && decide (ch.val ≠ 7) && decide (fbUnres s ch.val ≠ 0)) = true := by
    simp [hlive, h6, h7, hunres]
  have hlines := noteLines_turns ch.val 0x0C (wd (fbUnres s ch.val)) (hasBit (fbUnres s ch.val)) [0, 1, 2]
    ((s.advanceTo (unresDue s ch.val)).modFb ch.val (Fb.unresCounted (unresDue s ch.val)))
  rw [if_pos (fbUnres_hits hunres)] at hlines
  exact ⟨_, congrArg Host.Outcome.next (if_pos hpass),
    ((modFb_turns _ _ _).mono (by decide)).andTurns (List.Subset.refl _) hlines⟩

/-- Settles O31: each of the four rows turns one channel. -/
theorem feedbackChannelsArmResyncAndRest : Obligations.FeedbackChannelsArmResyncAndRest := by
  intro ch s hinv c f other
  have hc : c < 12 := ch.isLt
  refine ⟨fun hw h2 h5 hon => ?arm, fun hw hwheel hon => ?resync, fun hlive hedges hres hwdis hhall hst => ?rest,
    fun hlive h6 h7 hunres => ?unres⟩
  case arm =>
    obtain ⟨t, a, he, hans, ht⟩ := arm_turns hw h2 h5 hon
    have hown : nth t.fb c = (armFb s c f).angled a := ht.own hinv hc
    have hpos := congrArg Fb.pos hown
    have href := congrArg Fb.ref hown
    refine ⟨t, he, hans, (congrArg Fb.uncertain hown).trans (armFb_uncertain s c f), fun h => ?_, fun h => ?_, fun h => ?_,
      fun h => ?_, ht.other, ht.touches.onlyChanges⟩
    · exact (armFb_of_always h f).imp href.trans hpos.trans
    · exact (armFb_of_once h f).imp href.trans (.imp (congrArg Fb.armed hown).trans hpos.trans)
    · exact hpos.trans (armFb_of_none h f)
    · exact (congrArg BitVec.toNat hpos).trans (armFb_of_wrap h f)
  case resync =>
    obtain ⟨t, he, hans, ht⟩ := resync_turns hw hwheel hon
    exact ⟨t, he, hans, ht.own hinv hc, ht.other, ht.touches.onlyChanges⟩
  case rest =>
    obtain ⟨t, he, ht⟩ := standstill_turns hlive hedges hres hwdis hhall hst
    exact ⟨t, he, ht.touches.now (by decide), ht.own (s := s.advanceTo _) hinv hc, ht.other,
      ht.onlyChanges_of_advanceTo (by decide)⟩
  case unres =>
    obtain ⟨t, he, ht⟩ := unres_turns hlive h6 h7 hunres
    have hown := ht.own (s := s.advanceTo _) hinv hc
    exact ⟨t, he, ht.touches.now (by decide), congrArg Fb.unresAt hown,
      bitOf_of_eq_orBit (congrArg Fb.evt hown) (by decide), ht.other, ht.onlyChanges_of_advanceTo (by decide)⟩

end Sys2Proof.Machine
end

section
namespace Sys2Proof.Machine

/-! ## Tooth edges (R103 to R107) -/

/-- A signed count added to a position register (R94, R103). -/
theorem add_wi_count (x : Word) (k : Nat) (up : Prop) [Decidable up] :
    x + wi (if up then (k : Int) else -(k : Int)) = if up then x + wd k else x - wd k := by
  have hcast : wi (k : Int) = wd k := BitVec.ofInt_natCast 32 k
  split
  · rw [hcast]
  · rw [BitVec.sub_eq_add_neg, ← hcast, wi, wi, BitVec.ofInt_neg]

/-- The positions a tooth counts, by its direction. -/
def toothStep (k : Nat) (fwd : Bool) : Int := if fwd then k else -(k : Int)

/-- A channel after a tooth at cycle te that ended an interval and counted n, now at an index (R103, R104). -/
def Fb.atTooth (te index interval : Nat) (n : Int) (f : Fb) : Fb :=
  { f with pos := f.pos + wi n, aux := wd index
           tooth := { f.tooth with index := index, prevT := if f.tooth.edges = 0 then 0 else interval, lastT := te
                                   edges := min 2 (f.tooth.edges + 1), extra := false } }

/-- A channel synchronised with its reference (R105). -/
def Fb.synced (f : Fb) : Fb := { f with ref := true, uncertain := false }

theorem toothCount_turns (s : State) (c te k index : Nat) (x : ToothCase) (fwd : Bool) : ∃ hist st v a,
    TurnsFb [.fb] c (Fb.paced hist st (decide (toothStep k fwd < 0)) v a (countAt s .cs te)
      ∘ Fb.atTooth te index x.t (toothStep k fwd)) s (toothCount s c te k index x fwd) := by
  obtain ⟨hist, st, v, a, hpaced⟩ := speedEdge_turns (s.modFb c (Fb.atTooth te index x.t (toothStep k fwd))) c te
    (toothStep k fwd)
  exact ⟨hist, st, v, a, (modFb_turns s c _).andTurns (by decide) hpaced⟩

section tooth

variable {s : State} {ch : Fin 2} {c : Nat} {dirLevel : Bool}

/-- The index before the edge that ends the gap (R104, R105). -/
def gapIndex (s : State) (c : Nat) (fwd : Bool) : Nat :=
  if fwd then max 1 (fbCounts s c) - fld (fbCfg s c 0) 21 20 - 1 else 0

/-- The index after the edge that ends the gap (R105). -/
def gapEnd (s : State) (c : Nat) (fwd : Bool) : Nat :=
  if fwd then 0 else max 1 (fbCounts s c) - fld (fbCfg s c 0) 21 20 - 1

/-- Before synchronisation an ordinary tooth counts one position (R103, R107). -/
theorem toothEdge_ordinary (hc : c = 6 + ch.val) (hlive : fbLive s c = true)
    (hres : (nth s.fb c).unresLines.getLsbD 0 = false) (hextra : (toothCase s c (edgeTime s c)).extra = false)
    (hgap : (toothCase s c (edgeTime s c)).gap = false) (href : (nth s.fb c).ref = false)
    (hlast : (nth s.fb c).tooth.extra = false) :
    let fwd := toothForward s c dirLevel
    ∃ t hist st v a neg ts, exec (.toothEdge ch dirLevel) s = .next t ∧ TurnsFb countParts c
      (Fb.paced hist st neg v a ts ∘ Fb.atTooth (edgeTime s c) (toothNext (max 1 (fbCounts s c)) (nth s.fb c).tooth.index fwd)
        (toothCase s c (edgeTime s c)).t (toothStep 1 fwd)) s t := by
  intro fwd
  obtain ⟨hist, st, v, a, hcount⟩ := toothCount_turns s c (edgeTime s c) 1
    (toothNext (max 1 (fbCounts s c)) (nth s.fb c).tooth.index fwd) (toothCase s c (edgeTime s c)) fwd
  refine ⟨_, hist, st, v, a, _, _, ?_, hcount.counted (by decide)⟩
  subst hc
  refine (show exec (.toothEdge ch dirLevel) s = execToothEdge ch dirLevel s from rfl).trans ?_
  simp only [execToothEdge, hlive, hres, hextra, hgap, href, hlast, Bool.not_true, Bool.or_self, Bool.false_and,
    Bool.false_eq_true, if_false, fwd]

/-- The edge that ends the gap synchronises the channel and counts the missing teeth too (R104, R105). -/
theorem toothEdge_gap (hc : c = 6 + ch.val) (hlive : fbLive s c = true)
    (hres : (nth s.fb c).unresLines.getLsbD 0 = false) (hextra : (toothCase s c (edgeTime s c)).extra = false)
    (hgap : (toothCase s c (edgeTime s c)).gap = true) (hkind : fld (fbCfg s c 0) 16 16 = 0)
    (href : (nth s.fb c).ref = false ∨ (nth s.fb c).tooth.index = gapIndex s c (toothForward s c dirLevel)) :
    let fwd := toothForward s c dirLevel
    let missed := fld (fbCfg s c 0) 21 20
    ∃ t hist st v a neg ts, exec (.toothEdge ch dirLevel) s = .next t ∧ TurnsFb countParts c
      ((Fb.paced hist st neg v a ts ∘ Fb.atTooth (edgeTime s c) (gapEnd s c fwd) (toothCase s c (edgeTime s c)).t
        (toothStep (missed + 1) fwd)) ∘ Fb.synced) s t := by
  intro fwd missed
  have hexpected : ((nth s.fb c).ref && !((nth s.fb c).ref && (nth s.fb c).tooth.index == gapIndex s c fwd)) = false := by
    rcases href with h | h <;> simp [h, fwd]
  obtain ⟨hist, st, v, a, hcount⟩ := toothCount_turns (s.modFb c Fb.synced) c (edgeTime s c) (missed + 1) (gapEnd s c fwd)
    (toothCase s c (edgeTime s c)) fwd
  refine ⟨_, hist, st, v, a, _, _, ?_, ((modFb_turns s c Fb.synced).andTurns (by decide) hcount).counted (by decide)⟩
  subst hc
  refine (show exec (.toothEdge ch dirLevel) s = execToothEdge ch dirLevel s from rfl).trans ?_
  rw [gapIndex] at hexpected
  simp only [execToothEdge, hlive, hres, hextra, hgap, hkind, hexpected, Bool.not_true, Bool.or_self, Bool.false_eq_true,
    if_false, if_true, fwd]
  rfl

end tooth

/-! ## Hall codes (R108) -/

/-- A group with a code taken: each resolved line has its level (R89). -/
def Fb.coded (code : Nat) (f : Fb) : Fb :=
  { f with hallCode := code, lines := (f.lines &&& f.unresLines) ||| (BitVec.ofNat 3 code &&& ~~~f.unresLines) }

/-- A group with a valid code. -/
def Fb.hallValid (f : Fb) : Fb := { f with hallInv := false }

/-- A group with code 0 or 7: uncertain and STALE. -/
def Fb.hallLost (f : Fb) : Fb := { f with hallInv := true, uncertain := true, spstat := 5 }

/-- A group one sector on. -/
def Fb.atSector (sec : Nat) (n : Int) (f : Fb) : Fb := { f with sector := sec, pos := f.pos + wi n, uncertain := false }

/-- A group that shows sector and code. -/
def Fb.shown (code : Nat) (f : Fb) : Fb := { f with aux := wd (f.sector * 16 + code) }

theorem actFloat_touches (s : State) (a : Nat) : Touches [.gact, .pwmCs, .pwmDs] s (actFloat s a) :=
  .after (by decide) (Touches.foldl (fun _ _ => modChan_touches ..) _ _) <| .mono (by decide) (modAct_touches s a _)

theorem actHallStep_touches (s : State) (ch : Nat) : Touches [.gact, .pwmCs, .pwmDs] s (actHallStep s ch) :=
  Touches.foldl (fun t a => .ite_self <|
    .after (by decide) (Touches.foldl (fun _ _ => modChan_touches ..) _ _) (actFloat_touches t a)) _ _

/-- What follows a hall code: the group shows it, the actuators follow, the beams are evaluated (R134, R437). -/
def afterHall (s : State) (c code : Nat) : State := staleCheck (actHallStep (s.modFb c (Fb.shown code)) c)

theorem TurnsFb.hall {P : List Part} {c : Nat} {f : Fb → Fb} {s t : State} (hP : P ⊆ countParts) (h : TurnsFb P c f s t)
    (code : Nat) : TurnsFb countParts c (Fb.shown code ∘ f) s (afterHall t c code) :=
  ((h.mono hP).andTurns (by decide) (modFb_turns t c _)).andThen (by decide) (by decide) (actHallStep_touches _ c)
    |>.andThen (by decide) (by decide) (staleCheck_touches _)

/-- The way of a step from a sector to a neighbour (R108). -/
def sectorStep (old new : Nat) : Int := if (new + 6 - old) % 6 = 1 then 1 else -1

/-- A step to a neighbouring sector counts by one (R108). -/
theorem hallStep_neighbour {s : State} {c old sec : Nat} (hold : (nth s.fb c).sector = old)
    (hrestart : (nth s.fb c).restart = false) (hd : (sec + 6 - old) % 6 = 1 ∨ (sec + 6 - old) % 6 = 5) :
    ∃ hist st v a neg ts, TurnsFb (traced [.fb, .gact]) c
      (Fb.paced hist st neg v a ts ∘ Fb.atSector sec (sectorStep old sec)) s (hallStep s c sec) := by
  subst hold
  generalize hn : sectorStep (nth s.fb c).sector sec = n
  obtain ⟨hist, st, v, a, hpaced⟩ := speedEdge_turns (s.modFb c (Fb.atSector sec n)) c (edgeTime s c) n
  have hstays : ¬(sec + 6 - (nth s.fb c).sector) % 6 = 0 := by omega
  have hstep : hallStep s c sec
      = posCount (fbSetAngle (speedEdge (s.modFb c (Fb.atSector sec n)) c (edgeTime s c) n) c) c := by
    subst hn
    exact (if_neg (Bool.eq_false_iff.1 hrestart)).trans <| (if_neg hstays).trans <| if_pos (by simpa using hd)
  rw [hstep]
  exact ⟨hist, st, v, a, _, _, (((modFb_turns s c _).mono (by decide)).andTurns (by decide) hpaced).andThen (by decide)
    (by decide) (posCount_touches _ c)⟩

section hall

variable {s : State} {g : Fin 2} {code : Fin 8} {c : Nat}

/-- Nothing bars the code of a working group with resolved lines (R89). -/
theorem hallTake_unbarred (hinv : Inv s) (hc : c < 12) (hlive : fbLive s c = true) (hres : fbUnres s c = 0) (code : Nat) :
    ¬(!fbLive (s.modFb c (Fb.coded code)) c || decide (fbUnres (s.modFb c (Fb.coded code)) c ≠ 0)) = true := by
  have hown := congrArg Fb.unresLines ((modFb_turns s c (Fb.coded code)).own hinv hc)
  have hsame : fbUnres (s.modFb c (Fb.coded code)) c = fbUnres s c :=
    congrArg (fun l : BitVec 3 => Nat.land l.toNat (fbLines c)) hown
  have hon : fbLive (s.modFb c (Fb.coded code)) c = true := hlive
  simp [hon, hsame, hres]

/-- A valid code of a neighbouring sector counts by one (R108). -/
theorem hallCodeChange_neighbour (hinv : Inv s) (hc : c = 10 + g.val) (hlive : fbLive s c = true) (hres : fbUnres s c = 0)
    (hvalid : code.val ≠ 0 ∧ code.val ≠ 7) (hrestart : (nth s.fb c).restart = false)
    (hd : (hallSector s c code.val + 6 - (nth s.fb c).sector) % 6 = 1
      ∨ (hallSector s c code.val + 6 - (nth s.fb c).sector) % 6 = 5) :
    ∃ t hist st v a neg ts, exec (.hallCodeChange g code) s = .next t ∧ TurnsFb countParts c
      (Fb.shown code.val ∘ (Fb.paced hist st neg v a ts ∘ Fb.atSector (hallSector s c code.val)
        (sectorStep (nth s.fb c).sector (hallSector s c code.val))) ∘ Fb.hallValid ∘ Fb.coded code.val) s t := by
  have htaken : TurnsFb countParts c (Fb.hallValid ∘ Fb.coded code.val) s
      ((s.modFb c (Fb.coded code.val)).modFb c Fb.hallValid) :=
    ((modFb_turns s c _).andTurns (by decide) (modFb_turns _ c _)).mono (by decide)
  have hown := htaken.own hinv (by omega)
  obtain ⟨hist, st, v, a, neg, ts, hstep⟩ := hallStep_neighbour (congrArg Fb.sector hown)
    ((congrArg Fb.restart hown).trans hrestart) hd
  refine ⟨_, hist, st, v, a, neg, ts, ?_, (htaken.andTurns (by decide) hstep).hall (by decide) code.val⟩
  subst hc
  refine congrArg Host.Outcome.next <| (if_neg (hallTake_unbarred hinv (by omega) hlive hres code.val)).trans ?_
  exact congrArg (afterHall · (10 + g.val) code.val)
    (if_neg (by simp only [Bool.or_eq_true, decide_eq_true_eq]; omega))

/-- Code 0 or 7 newly seen is an event and loses the position (R108). -/
theorem hallCodeChange_invalid (hinv : Inv s) (hc : c = 10 + g.val) (hlive : fbLive s c = true) (hres : fbUnres s c = 0)
    (hcode : code.val = 0 ∨ code.val = 7) (hnew : (nth s.fb c).hallInv = false) :
    ∃ t, exec (.hallCodeChange g code) s = .next t ∧ TurnsFb countParts c
      (Fb.shown code.val ∘ Fb.noted 0x0A ∘ Fb.hallLost ∘ Fb.coded code.val) s t := by
  have hseen : ¬(nth (s.modFb c (Fb.coded code.val)).fb c).hallInv = true := by
    rw [(modFb_turns s c (Fb.coded code.val)).own hinv (by omega)]
    exact Bool.eq_false_iff.1 hnew
  have hlost : TurnsFb (traced [.fb]) c _ s _ :=
    (((modFb_turns s c (Fb.coded code.val)).andTurns (by decide) (modFb_turns _ c Fb.hallLost)).mono (by decide)).andTurns
      (by decide) (fbEvent_turns _ c 0x0A 0 (wd code.val))
  refine ⟨_, ?_, hlost.hall (by decide) code.val⟩
  subst hc
  refine congrArg Host.Outcome.next <| (if_neg (hallTake_unbarred hinv (by omega) hlive hres code.val)).trans ?_
  exact congrArg (afterHall · (10 + g.val) code.val)
    ((if_pos (by simpa only [Bool.or_eq_true, decide_eq_true_eq] using hcode)).trans (if_neg hseen))

end hall

/-- Settles O32: a tooth and a hall code turn one channel. -/
theorem toothWheelsAndHallGroupsCount : Obligations.ToothWheelsAndHallGroupsCount := by
  refine ⟨?tooth, ?hall⟩
  case' tooth =>
    intro ch dirLevel s hinv c f x fwd teeth gapm other hlive hres hextra
    refine ⟨?ordinary, ?gap⟩
  case' hall =>
    intro g code s hinv c f d other hlive hres
    refine ⟨?sector, ?invalid⟩
  case ordinary =>
    intro hgap href hlast
    obtain ⟨t, hist, st, v, a, neg, ts, he, ht⟩ := toothEdge_ordinary rfl hlive hres hextra hgap href hlast
    have hown := ht.own hinv (by omega)
    have htooth := congrArg Fb.tooth hown
    exact ⟨t, he, (congrArg Fb.pos hown).trans (add_wi_count f.pos 1 _), congrArg Tooth.index htooth,
      congrArg Tooth.lastT htooth, (congrArg Fb.ref hown).trans href, ht.other, ht.touches.onlyChanges⟩
  case gap =>
    intro hgap hkind href
    obtain ⟨t, hist, st, v, a, neg, ts, he, ht⟩ := toothEdge_gap rfl hlive hres hextra hgap hkind href
    have hown := ht.own hinv (by omega)
    have htooth := congrArg Fb.tooth hown
    exact ⟨t, he, (congrArg Fb.pos hown).trans (add_wi_count f.pos (gapm + 1) _), congrArg Fb.ref hown,
      congrArg Fb.uncertain hown, congrArg Tooth.index htooth, ht.other, ht.touches.onlyChanges⟩
  case sector =>
    intro h0 h7 hrestart hd
    obtain ⟨t, hist, st, v, a, neg, ts, he, ht⟩ := hallCodeChange_neighbour hinv rfl hlive hres ⟨h0, h7⟩ hrestart hd
    have hown := ht.own hinv (by omega)
    exact ⟨t, he, (congrArg Fb.pos hown).trans (add_wi_count f.pos 1 _), congrArg Fb.sector hown, congrArg Fb.hallCode hown,
      congrArg Fb.uncertain hown, congrArg Fb.hallInv hown, ht.other, ht.touches.onlyChanges⟩
  case invalid =>
    intro hcode hnew
    obtain ⟨t, he, ht⟩ := hallCodeChange_invalid hinv rfl hlive hres hcode hnew
    have hown := ht.own hinv (by omega)
    exact ⟨t, he, congrArg Fb.hallInv hown, congrArg Fb.uncertain hown, congrArg Fb.spstat hown, (congrArg Fb.pos hown :),
      bitOf_of_eq_orBit (congrArg Fb.evt hown) (by decide), ht.other, ht.touches.onlyChanges⟩

end Sys2Proof.Machine
end

section
namespace Sys2Proof.Machine

/-! ## One beam of a die, without its history (R124, R137) -/

/-- A beam without the anchors it had before and what it showed before a change. -/
def Beam.bare (m : Beam) : Beam := { m with since := 0, olds := [], old := {}, oldAt := 0 }

/-- What a die holds of a beam, without its history. -/
def beamAt (s : State) (d : Die) (b : Nat) : Beam := (nth (s.beams d) b).bare

theorem turn_bare (o m : Beam) (t : Nat) : (o.turn t m).bare = m.bare := by
  unfold Beam.turn
  split <;> rfl

/-- The invariant holds the eight beams of each die. -/
theorem Inv.beams_length {s : State} (h : Inv s) (d : Die) : (s.beams d).length = 8 := by
  cases d
  · exact (congrArg (fun l => nth l 2) h.2).trans List.length_replicate
  · exact (congrArg (fun l => nth l 3) h.2).trans List.length_replicate

theorem Touches.inv {P : List Part} {s t : State} (h : Touches P s t) (k : Inv s) : Inv t := ⟨h.mem k.1, h.size k.2⟩

/-- What does not touch the beams leaves each of them. -/
theorem Touches.beamAt_eq {P : List Part} {s t : State} (h : Touches P s t) (hP : .beamsCs ∉ P ∧ .beamsDs ∉ P)
    (d : Die) (b : Nat) : beamAt t d b = beamAt s d b := by
  rw [beamAt, h.beams d hP, beamAt]

/-- What does not touch the image in force leaves every BEAMDEF. -/
theorem Touches.bmDef_eq {P : List Part} {s t : State} (h : Touches P s t)
    (hP : .img ∉ P ∧ .csLoaded ∉ P ∧ .dsLoaded ∉ P) : bmDef t = bmDef s := by
  have himg : t.img = s.img := h.agree .img hP.1
  have hcs : t.csLoaded = s.csLoaded := h.agree .csLoaded hP.2.1
  have hds : t.dsLoaded = s.dsLoaded := h.agree .dsLoaded hP.2.2
  unfold bmDef
  rw [himg, hcs, hds]

theorem Touches.bmW_eq {P : List Part} {s t : State} (h : Touches P s t)
    (hP : .img ∉ P ∧ .csLoaded ∉ P ∧ .dsLoaded ∉ P) : bmW t = bmW s := by
  unfold bmW
  rw [h.bmDef_eq hP]

theorem Touches.bmHome_eq {P : List Part} {s t : State} (h : Touches P s t)
    (hP : .img ∉ P ∧ .csLoaded ∉ P ∧ .dsLoaded ∉ P) : bmHome t = bmHome s := by
  unfold bmHome
  rw [h.bmW_eq hP]

/-! ## One beam changed, and its anchor -/

section changed

variable {s : State} {d e : Die} {b n : Nat}

/-- The change of a beam leaves every other. -/
theorem modBeam_other (h : ¬(e = d ∧ n = b)) (f : Beam → Beam) :
    nth ((s.modBeam e n f).beams d) b = nth (s.beams d) b := by
  obtain ⟨hown, hfar⟩ := s.modBeam_new e n f
  rcases eq_or_ne e d with rfl | hed
  · rw [hown]
    simp [nth, upd, show n ≠ b from fun hn => h ⟨rfl, hn⟩]
  · have hd : d = e.other := by cases d <;> cases e <;> trivial
    rw [hd, hfar]

theorem beamAt_modBeam {f g : Beam → Beam} (hinv : Inv s) (hb : b < 8) (hg : ∀ m, (f m).bare = g m.bare) :
    beamAt (s.modBeam d b f) d b = g (beamAt s d b) := by
  rw [beamAt, modBeam_nth s d b f (hb.trans_eq (hinv.beams_length d).symm), turn_bare, hg, beamAt]

/-- A reflexive relation that the change keeps relates each beam before to the same beam after one has changed. -/
theorem modBeam_rel {R : Beam → Beam → Prop} {f : Beam → Beam} (hrefl : ∀ x, R x x) (hf : ∀ m, R m.bare (f m).bare) :
    R (beamAt s d b) (beamAt (s.modBeam e n f) d b) := by
  by_cases h : e = d ∧ n = b
  · obtain ⟨rfl, rfl⟩ := h
    by_cases hlen : n < (s.beams e).length
    · rw [beamAt, beamAt, modBeam_nth s e n f hlen, turn_bare]
      exact hf _
    · have hout : (s.modBeam e n f).beams e = s.beams e := by
        rw [(s.modBeam_new e n f).1, upd, List.modify_eq_self (by omega)]
      rw [beamAt, beamAt, hout]
      exact hrefl _
  · rw [beamAt, beamAt, modBeam_other h]
    exact hrefl _

theorem noteBeam_beams (s : State) (e : Die) (n : Nat) (d : Die) : (noteBeam s e n).beams d = s.beams d :=
  (noteBeam_touches s e n).beams d (by decide)

theorem setAnchor_other (h : ¬(e = d ∧ n = b)) (a : Anchor) :
    nth ((setAnchor s e n a).beams d) b = nth (s.beams d) b :=
  (modBeam_other h _).trans (by rw [noteBeam_beams])

theorem beamAt_setAnchor (hinv : Inv s) (hb : b < 8) (a : Anchor) :
    beamAt (setAnchor s d b a) d b = { beamAt s d b with a := a } := by
  have hnote : beamAt (noteBeam s d b) d b = beamAt s d b := by rw [beamAt, noteBeam_beams, beamAt]
  rw [← hnote]
  exact beamAt_modBeam (g := fun m => { m with a := a }) ((noteBeam_touches s d b).inv hinv) hb fun _ => rfl

theorem beamAt_setUpd (hinv : Inv s) (hb : b < 8) (a : Anchor) :
    beamAt (setUpd s d b a) d b = { beamAt s d b with a := a, upd := (beamAt s d b).upd + 1 } := by
  rw [setUpd, beamAt_modBeam (g := fun m => { m with upd := m.upd + 1 }) ((setAnchor_touches s d b a).inv hinv) hb
    fun _ => rfl, beamAt_setAnchor hinv hb]

theorem setUpd_other (h : ¬(e = d ∧ n = b)) (a : Anchor) : beamAt (setUpd s e n a) d b = beamAt s d b := by
  rw [beamAt, setUpd, modBeam_other h, setAnchor_other h, beamAt]

end changed

end Sys2Proof.Machine
end

section
namespace Sys2Proof.Machine

/-! ## What the stale evaluation makes of a beam (R134, R135) -/

/-- A beam that keeps what its last update noted and does not leave STALE. -/
structure Carries (x y : Beam) : Prop where
  lastUpd : y.lastUpd = x.lastUpd
  adopted : y.adopted = x.adopted
  edgeT : y.edgeT = x.edgeT
  stale : x.stale = true → y.stale = true

/-- A beam that, where no other supplies its phase, stays as it is or is stale. -/
structure Follows (x y : Beam) : Prop extends Carries x y where
  stands : x.supplier = none → y.stale = false → y = x

/-- A beam with at most another anchor and another UPD. -/
def Moved (x y : Beam) : Prop := ∃ a u, y = { x with a := a, upd := u }

theorem Carries.refl (x : Beam) : Carries x x := ⟨rfl, rfl, rfl, id⟩

theorem Carries.trans {x y z : Beam} (h : Carries x y) (k : Carries y z) : Carries x z :=
  ⟨k.lastUpd.trans h.lastUpd, k.adopted.trans h.adopted, k.edgeT.trans h.edgeT, k.stale ∘ h.stale⟩

theorem Carries.fresh {x y : Beam} (h : Carries x y) (hy : y.stale = false) : x.stale = false :=
  Bool.eq_false_iff.2 fun hx => Bool.eq_false_iff.1 hy (h.stale hx)

/-- A beam that carries on into STALE follows. -/
theorem Carries.follows {x y : Beam} (h : Carries x y) (hs : y.stale = true) : Follows x y :=
  ⟨h, fun _ hy => absurd (hs.symm.trans hy) (by decide)⟩

theorem Follows.of_eq {x y : Beam} (h : y = x) : Follows x y := h ▸ ⟨.refl y, fun _ _ => rfl⟩

theorem Follows.trans {x y z : Beam} (h : Follows x y) (k : Follows y z) : Follows x z where
  toCarries := h.toCarries.trans k.toCarries
  stands hx hz := by
    have hyx := h.stands hx (k.fresh hz)
    exact (k.stands (hyx ▸ hx) hz).trans hyx

theorem Moved.refl (x : Beam) : Moved x x := ⟨_, _, rfl⟩

theorem Moved.trans {x y z : Beam} (h : Moved x y) (k : Moved y z) : Moved x z := by
  obtain ⟨_, _, rfl⟩ := h
  obtain ⟨_, _, rfl⟩ := k
  exact ⟨_, _, rfl⟩

theorem Moved.carries {x y : Beam} (h : Moved x y) : Carries x y := by
  obtain ⟨_, _, rfl⟩ := h
  exact ⟨rfl, rfl, rfl, id⟩

section policy

variable {s : State} {d e : Die} {b n : Nat}

theorem setAnchor_moved (a : Anchor) : Moved (beamAt s d b) (beamAt (setAnchor s e n a) d b) := by
  have hnote : beamAt (noteBeam s e n) d b = beamAt s d b := by rw [beamAt, noteBeam_beams, beamAt]
  rw [← hnote]
  exact modBeam_rel Moved.refl fun _ => ⟨a, _, rfl⟩

theorem setUpd_moved (a : Anchor) : Moved (beamAt s d b) (beamAt (setUpd s e n a) d b) :=
  (setAnchor_moved a).trans (modBeam_rel Moved.refl fun m => ⟨m.a, _, rfl⟩)

theorem setUpds_moved (a : Anchor) (l : List Nat) (s : State) :
    Moved (beamAt s d b) (beamAt (l.foldl (fun s n => setUpd s e n a) s) d b) := by
  induction l generalizing s with
  | nil => exact Moved.refl _
  | cons n l ih => exact (setUpd_moved a).trans (ih _)

theorem setUpds_other (a : Anchor) (l : List Nat) (s : State) (h : ∀ n ∈ l, ¬(e = d ∧ n = b)) :
    beamAt (l.foldl (fun s n => setUpd s e n a) s) d b = beamAt s d b := by
  induction l generalizing s with
  | nil => rfl
  | cons n l ih =>
    obtain ⟨hn, hl⟩ := List.forall_mem_cons.1 h
    exact (ih _ hl).trans (setUpd_other hn a)

/-- A beam without supplier does not move with another (R135). -/
theorem moveFollowers_follows (s : State) (e : Die) (n : Nat) :
    Follows (beamAt s d b) (beamAt (moveFollowers s e n) d b) where
  toCarries := (setUpds_moved _ _ s).carries
  stands hnone _ := by
    refine setUpds_other _ _ s fun k hk => ?_
    rintro ⟨rfl, rfl⟩
    have hsup : (nth (s.beams e) k).supplier = none := hnone
    simp [hsup] at hk

/-- Whatever the policy, the beam stands on an anchor in place of its source and its followers move (R135). -/
theorem stalePolicy_eq (s : State) (d : Die) (b : Nat) : ∃ a sup, stalePolicy s d b =
    moveFollowers ((setAnchor s d b a).modBeam d b fun m => { m with subst := true, supplier := sup }) d b := by
  unfold stalePolicy
  split
  · exact ⟨_, _, rfl⟩
  · split
    · exact ⟨_, _, rfl⟩
    · split
      · split <;> exact ⟨_, _, rfl⟩
      · exact ⟨_, _, rfl⟩

theorem stalePolicy_carries (s : State) (e : Die) (n : Nat) :
    Carries (beamAt s d b) (beamAt (stalePolicy s e n) d b) := by
  obtain ⟨a, sup, hpol⟩ := stalePolicy_eq s e n
  have hsub := modBeam_rel (s := setAnchor s e n a) (d := d) (e := e) (b := b) (n := n)
    (f := fun m => { m with subst := true, supplier := sup }) Carries.refl fun _ => ⟨rfl, rfl, rfl, id⟩
  rw [hpol]
  exact ((setAnchor_moved a).carries.trans hsub).trans (moveFollowers_follows _ e n).toCarries

theorem stalePolicy_follows (s : State) (h : ¬(e = d ∧ n = b)) :
    Follows (beamAt s d b) (beamAt (stalePolicy s e n) d b) := by
  obtain ⟨a, sup, hpol⟩ := stalePolicy_eq s e n
  rw [hpol]
  refine (Follows.of_eq ?_).trans (moveFollowers_follows _ e n)
  rw [beamAt, modBeam_other h, setAnchor_other h, beamAt]

theorem beamAt_countEvent (s : State) (v : Ev) : beamAt (countEvent s v) d b = beamAt s d b :=
  (countEvent_touches s v).beamAt_eq (by decide) d b

theorem bmEvent_other (s : State) (h : ¬(e = d ∧ n = b)) (cause : Nat) (detail : Word) :
    beamAt (bmEvent s e n cause detail) d b = beamAt s d b := by
  rw [bmEvent, beamAt_countEvent, beamAt, modBeam_other h, beamAt]

theorem beamAt_bmEvent (hinv : Inv s) (hb : b < 8) (cause : Nat) (detail : Word) :
    beamAt (bmEvent s d b cause detail) d b = { beamAt s d b with evt := orBit (beamAt s d b).evt cause } := by
  rw [bmEvent, beamAt_countEvent]
  exact beamAt_modBeam (g := fun m => { m with evt := orBit m.evt cause }) hinv hb fun _ => rfl

end policy

/-! ## The stale evaluation (R134, R137) -/

section evaluation

variable {s : State} {d : Die} {b n : Nat}

theorem enterStale_stale (hinv : Inv s) (hb : b < 8) (cond : Nat) :
    Carries (beamAt s (bmHome s b) b) (beamAt (enterStale s b cond) (bmHome s b) b)
      ∧ (beamAt (enterStale s b cond) (bmHome s b) b).stale = true := by
  have hpol := (stalePolicy_touches s (bmHome s b) b).inv hinv
  obtain ⟨hupd, had, hedge, -⟩ := stalePolicy_carries (d := bmHome s b) (b := b) s (bmHome s b) b
  have hset := beamAt_modBeam (d := bmHome s b) (f := fun m => { m with stale := true })
    (g := fun m => { m with stale := true }) hpol hb fun _ => rfl
  unfold enterStale
  dsimp only
  split
  · rw [beamAt_bmEvent ((modBeam_touches _ _ _ _).inv hpol) hb, hset]
    exact ⟨⟨hupd, had, hedge, fun _ => rfl⟩, rfl⟩
  · rw [hset]
    exact ⟨⟨hupd, had, hedge, fun _ => rfl⟩, rfl⟩

theorem enterStale_follows (hinv : Inv s) (hb : b < 8) (d : Die) (n cond : Nat) :
    Follows (beamAt s d b) (beamAt (enterStale s n cond) d b) := by
  by_cases h : bmHome s n = d ∧ n = b
  · obtain ⟨rfl, rfl⟩ := h
    obtain ⟨hcarry, hstale⟩ := enterStale_stale hinv hb cond
    exact hcarry.follows hstale
  · refine (stalePolicy_follows s h).trans (Follows.of_eq ?_)
    have hset : beamAt ((stalePolicy s (bmHome s n) n).modBeam (bmHome s n) n fun m => { m with stale := true }) d b
        = beamAt (stalePolicy s (bmHome s n) n) d b := by rw [beamAt, modBeam_other h, beamAt]
    unfold enterStale
    dsimp only
    split
    · rw [bmEvent_other _ h, hset]
    · exact hset

/-- One beam evaluated on its home die: it goes stale with the condition found, where it may. -/
def staleStep (s : State) (n : Nat) : State :=
  if bmOn s n && !(nth (s.beams (bmHome s n)) n).stale && bmSrc s n ≠ 3 && bmSrc s n ≠ 4 then
    match staleCond s n with
    | some c => enterStale s n c
    | none => s
  else s

theorem staleCheck_eq (s : State) : staleCheck s = posCheck ((List.range 8).foldl staleStep s) := rfl

theorem staleStep_cases (s : State) (n : Nat) : staleStep s n = s ∨ ∃ c, staleStep s n = enterStale s n c := by
  unfold staleStep
  split
  · split
    · exact .inr ⟨_, rfl⟩
    · exact .inl rfl
  · exact .inl rfl

theorem staleStep_touches (s : State) (n : Nat) : Touches (traced beamParts) s (staleStep s n) := by
  obtain h | ⟨c, h⟩ := staleStep_cases s n
  · rw [h]
    exact .refl _ _
  · rw [h]
    exact enterStale_touches s n c

theorem staleStep_follows (hinv : Inv s) (hb : b < 8) (d : Die) (n : Nat) :
    Follows (beamAt s d b) (beamAt (staleStep s n) d b) := by
  obtain h | ⟨c, h⟩ := staleStep_cases s n
  · rw [h]
    exact .of_eq rfl
  · rw [h]
    exact enterStale_follows hinv hb d n c

theorem staleSteps_touches (l : List Nat) (s : State) : Touches (traced beamParts) s (l.foldl staleStep s) :=
  Touches.foldl staleStep_touches l s

theorem staleSteps_follows (hb : b < 8) (d : Die) (l : List Nat) (s : State) (hinv : Inv s) :
    Follows (beamAt s d b) (beamAt (l.foldl staleStep s) d b) := by
  induction l generalizing s with
  | nil => exact .of_eq rfl
  | cons n l ih => exact (staleStep_follows hinv hb d n).trans (ih _ ((staleStep_touches s n).inv hinv))

/-- The evaluation leaves a beam without supplier as it is, or stale. -/
theorem staleCheck_follows (hinv : Inv s) (hb : b < 8) (d : Die) :
    Follows (beamAt s d b) (beamAt (staleCheck s) d b) := by
  rw [staleCheck_eq, (posCheck_touches _).beamAt_eq (by decide)]
  exact staleSteps_follows hb d _ s hinv

/-- A timed beam whose source has been silent for STALETIME (R134). -/
structure Overdue (s : State) (b : Nat) : Prop where
  on : bmOn s b = true
  timed : bmTimed s b = true
  limit : bmStaletime s b ≠ 0
  silent : (beamAt s (bmHome s b) b).lastUpd + bmStaletime s b * usec ≤ s.now

theorem Overdue.of_touches {P : List Part} {t : State} (h : Overdue s b) (ht : Touches P s t)
    (hP : .img ∉ P ∧ .csLoaded ∉ P ∧ .dsLoaded ∉ P) (hnow : .now ∉ P)
    (hc : Carries (beamAt s (bmHome s b) b) (beamAt t (bmHome s b) b)) : Overdue t b where
  on := by rw [bmOn, ht.bmDef_eq hP]; exact h.on
  timed := by rw [bmTimed, bmSrc, bmInst, ht.bmW_eq hP]; exact h.timed
  limit := by simpa only [bmStaletime, ht.bmW_eq hP] using h.limit
  silent := by
    rw [ht.bmHome_eq hP, hc.lastUpd, bmStaletime, ht.bmW_eq hP, ht.now hnow]
    exact h.silent

theorem Overdue.src (h : Overdue s b) : bmSrc s b = 0 ∨ bmSrc s b = 1 := by
  have ht := h.timed
  simp only [bmTimed, Bool.or_eq_true, Bool.and_eq_true, beq_iff_eq] at ht
  exact ht.symm.imp_left And.left

theorem Overdue.staleCond_isSome (h : Overdue s b) : ∃ c, staleCond s b = some c := by
  have hsilent : bmStaletime s b * usec ≤ s.now - (nth (s.beams (bmHome s b)) b).lastUpd := Nat.le_sub_of_add_le' h.silent
  unfold staleCond
  dsimp only
  split
  · exact ⟨_, rfl⟩
  · rw [if_pos (by simp [h.timed, h.limit, hsilent])]
    exact ⟨_, rfl⟩

theorem staleStep_stale (hinv : Inv s) (hb : b < 8) (h : Overdue s b) :
    (beamAt (staleStep s b) (bmHome s b) b).stale = true := by
  obtain ⟨c, hc⟩ := h.staleCond_isSome
  cases hs : (nth (s.beams (bmHome s b)) b).stale with
  | true => exact (staleStep_follows hinv hb (bmHome s b) b).stale hs
  | false =>
    have hsrc : bmSrc s b ≠ 3 ∧ bmSrc s b ≠ 4 := by have := h.src; omega
    have hstep : staleStep s b = enterStale s b c := by
      rw [staleStep, if_pos (by simp [h.on, hs, hsrc]), hc]
    rw [hstep]
    exact (enterStale_stale hinv hb c).2

/-- The evaluation leaves an overdue beam stale. -/
theorem staleCheck_stale (hinv : Inv s) (hb : b < 8) (h : Overdue s b) :
    (beamAt (staleCheck s) (bmHome s b) b).stale = true := by
  rw [staleCheck_eq, (posCheck_touches _).beamAt_eq (by decide)]
  obtain ⟨before, after, hl⟩ := List.append_of_mem (List.mem_range.2 hb)
  have ht := staleSteps_touches before s
  have hstep := staleStep_stale (ht.inv hinv) hb
    (h.of_touches ht (by decide) (by decide) (staleSteps_follows hb _ before s hinv).toCarries)
  rw [ht.bmHome_eq (by decide)] at hstep
  rw [hl, List.foldl_append, List.foldl_cons]
  exact (staleSteps_follows hb _ after _ ((staleStep_touches _ b).inv (ht.inv hinv))).stale hstep

end evaluation

end Sys2Proof.Machine
end

section
namespace Sys2Proof.Machine

/-! ## A source update (R126 to R131, R134, R573) -/

section update

variable {s u : State} {d : Die} {b : Nat}

theorem notStale_touches (s : State) (b : Nat) : Touches beamParts s (notStale s b) :=
  .after (by decide) (modBeam_touches _ _ _ _) (reignOn_touches s _ b)

theorem leaveStale_touches (s : State) (b : Nat) : Touches beamParts s (leaveStale s b) :=
  .ite_self (notStale_touches s b)

theorem jumpCheck_touches (s : State) (b : Nat) (left : Bool) (step : Int) :
    Touches (traced beamParts) s (jumpCheck s b left step) :=
  .ite_self (bmEvent_touches _ _ _ _ _)

/-- A beam that keeps what its last update noted, and its count of updates. -/
structure SameUpdate (x y : Beam) : Prop where
  lastUpd : y.lastUpd = x.lastUpd
  adopted : y.adopted = x.adopted
  upd : y.upd = x.upd

theorem SameUpdate.refl (x : Beam) : SameUpdate x x := ⟨rfl, rfl, rfl⟩

theorem SameUpdate.trans {x y z : Beam} (h : SameUpdate x y) (k : SameUpdate y z) : SameUpdate x z :=
  ⟨k.lastUpd.trans h.lastUpd, k.adopted.trans h.adopted, k.upd.trans h.upd⟩

theorem notStale_keeps (hinv : Inv s) (hb : b < 8) :
    SameUpdate (beamAt s (bmHome s b) b) (beamAt (notStale s b) (bmHome s b) b) := by
  have hreign : beamAt (reignOn s (bmHome s b) b) (bmHome s b) b = beamAt s (bmHome s b) b := beamAt_setAnchor hinv hb _
  rw [← hreign]
  exact modBeam_rel SameUpdate.refl fun _ => ⟨rfl, rfl, rfl⟩

theorem leaveStale_keeps (hinv : Inv s) (hb : b < 8) :
    SameUpdate (beamAt s (bmHome s b) b) (beamAt (leaveStale s b) (bmHome s b) b) := by
  unfold leaveStale
  split
  · exact notStale_keeps hinv hb
  · exact .refl _

theorem jumpCheck_keeps (hinv : Inv s) (hb : b < 8) (left : Bool) (step : Int) :
    SameUpdate (beamAt s (bmHome s b) b) (beamAt (jumpCheck s b left step) (bmHome s b) b) := by
  unfold jumpCheck
  split
  · rw [beamAt_bmEvent hinv hb]
    exact ⟨rfl, rfl, rfl⟩
  · exact .refl _

/-- The state in which a beam has noted an update, before its anchor is replaced. -/
structure NotesUpdate (b : Nat) (s u : State) : Prop where
  touches : Touches (traced beamParts) s u
  inv : Inv u
  lastUpd : (beamAt u (bmHome s b) b).lastUpd = s.now
  adopted : (beamAt u (bmHome s b) b).adopted = true
  upd : (beamAt u (bmHome s b) b).upd = (beamAt s (bmHome s b) b).upd

/-- A beam that has noted an update (R134). -/
def Beam.noted (at_ : Nat) (m : Beam) : Beam := { m with lastUpd := at_, adopted := true }

/-- A beam that takes its phase from no other (R135). -/
def Beam.unsupplied (m : Beam) : Beam := { m with supplier := none }

theorem noted_notes (hinv : Inv s) (hb : b < 8) :
    NotesUpdate b s (s.modBeam (bmHome s b) b (Beam.noted s.now)) := by
  have ht := modBeam_touches s (bmHome s b) b (Beam.noted s.now)
  have hown : beamAt (s.modBeam (bmHome s b) b (Beam.noted s.now)) (bmHome s b) b = (beamAt s (bmHome s b) b).noted s.now :=
    beamAt_modBeam hinv hb fun _ => rfl
  exact ⟨ht.mono (by decide), ht.inv hinv, congrArg Beam.lastUpd hown, congrArg Beam.adopted hown,
    (congrArg Beam.upd hown :)⟩

/-- An operation on the beam after the note that keeps it. -/
theorem NotesUpdate.andThen {v : State} (h : NotesUpdate b s u) (ht : Touches (traced beamParts) u v)
    (hk : SameUpdate (beamAt u (bmHome u b) b) (beamAt v (bmHome u b) b)) : NotesUpdate b s v := by
  rw [h.touches.bmHome_eq (by decide)] at hk
  exact ⟨h.touches.trans ht, ht.inv h.inv, hk.lastUpd.trans h.lastUpd, hk.adopted.trans h.adopted, hk.upd.trans h.upd⟩

theorem NotesUpdate.leaveStale (h : NotesUpdate b s u) (hb : b < 8) : NotesUpdate b s (leaveStale u b) :=
  h.andThen ((leaveStale_touches u b).mono (by decide)) (leaveStale_keeps h.inv hb)

theorem NotesUpdate.notStale (h : NotesUpdate b s u) (hb : b < 8) : NotesUpdate b s (notStale u b) :=
  h.andThen ((notStale_touches u b).mono (by decide)) (notStale_keeps h.inv hb)

theorem NotesUpdate.jumpCheck (h : NotesUpdate b s u) (hb : b < 8) (left : Bool) (step : Int) :
    NotesUpdate b s (jumpCheck u b left step) :=
  h.andThen (jumpCheck_touches u b left step) (jumpCheck_keeps h.inv hb left step)

/-- A new anchor that is a source update, the policy again while the beam stays stale (R134, R137). -/
def anchorTaken (u : State) (d : Die) (b : Nat) (a : Anchor) : State :=
  let v := updAnchor (u.modBeam d b Beam.unsupplied) d b a
  if (nth (v.beams d) b).stale then stalePolicy v d b else v

theorem updAnchor_touches (s : State) (d : Die) (b : Nat) (a : Anchor) : Touches beamParts s (updAnchor s d b a) :=
  (setUpd_touches s d b a).trans (moveFollowers_touches _ d b)

theorem anchorTaken_touches (u : State) (d : Die) (b : Nat) (a : Anchor) : Touches beamParts u (anchorTaken u d b a) := by
  have ht := Touches.after (by decide) (updAnchor_touches (u.modBeam d b Beam.unsupplied) d b a)
    ((modBeam_touches u d b Beam.unsupplied).mono (P := beamParts) (by decide))
  exact .ite (fun _ => ht.trans (stalePolicy_touches _ d b)) fun _ => ht

/-- A beam that has taken an update: it stands on the new anchor or is stale. -/
structure Updated (at_ : Nat) (a : Anchor) (upd : BitVec 4) (y : Beam) : Prop where
  lastUpd : y.lastUpd = at_
  adopted : y.adopted = true
  stands : y.stale = false → y.a = a ∧ y.upd = upd ∧ y.supplier = none

theorem Updated.follows {at_ : Nat} {a : Anchor} {v : BitVec 4} {x y : Beam} (h : Updated at_ a v x) (k : Follows x y) :
    Updated at_ a v y where
  lastUpd := k.lastUpd.trans h.lastUpd
  adopted := k.adopted.trans h.adopted
  stands hy := by
    obtain ⟨ha, hupd, hnone⟩ := h.stands (k.fresh hy)
    rw [k.stands hnone hy]
    exact ⟨ha, hupd, hnone⟩

theorem NotesUpdate.updated (h : NotesUpdate b s u) (hb : b < 8) (a : Anchor) :
    Updated s.now a ((beamAt s (bmHome s b) b).upd + 1) (beamAt (anchorTaken u (bmHome s b) b a) (bmHome s b) b) := by
  have ht := modBeam_touches u (bmHome s b) b Beam.unsupplied
  have hown : beamAt (u.modBeam (bmHome s b) b Beam.unsupplied) (bmHome s b) b = (beamAt u (bmHome s b) b).unsupplied :=
    beamAt_modBeam h.inv hb fun _ => rfl
  have hset := beamAt_setUpd (d := bmHome s b) (ht.inv h.inv) hb a
  rw [hown] at hset
  have hstands : Updated s.now a ((beamAt s (bmHome s b) b).upd + 1)
      (beamAt (setUpd (u.modBeam (bmHome s b) b Beam.unsupplied) (bmHome s b) b a) (bmHome s b) b) := by
    rw [hset]
    exact ⟨h.lastUpd, h.adopted, fun _ => ⟨rfl, congrArg (· + 1) h.upd, rfl⟩⟩
  have hmoved := hstands.follows (moveFollowers_follows _ (bmHome s b) b)
  unfold anchorTaken
  dsimp only
  split
  case isTrue hstale =>
    have hpol := stalePolicy_carries (d := bmHome s b) (b := b)
      (updAnchor (u.modBeam (bmHome s b) b Beam.unsupplied) (bmHome s b) b a) (bmHome s b) b
    exact hmoved.follows (hpol.follows (hpol.stale hstale))
  case isFalse => exact hmoved

/-- From s to t a beam takes a source update: on its home die it notes it and stands on the anchor or is stale. -/
structure TakesUpdate (b : Nat) (a : Anchor) (s t : State) : Prop where
  touches : Touches (traced beamParts) s t
  beam : Updated s.now a ((beamAt s (bmHome s b) b).upd + 1) (beamAt t (bmHome s b) b)

theorem NotesUpdate.takes (h : NotesUpdate b s u) (hb : b < 8) (a : Anchor) :
    TakesUpdate b a s (anchorTaken u (bmHome s b) b a) :=
  ⟨.after (by decide) (anchorTaken_touches u _ b a) h.touches, h.updated hb a⟩

/-- An update of phase and speed brings an anchor of that phase, speed and time (R127, R130). -/
theorem sourceUpdate_takes (hinv : Inv s) (hb : b < 8) (phase speed t0 : Word) (lim : Option Nat) :
    ∃ a, TakesUpdate b a s (sourceUpdate s b phase speed t0 lim) ∧ a.p0 = phase ∧ a.speed = speed ∧ a.t0 = t0 :=
  ⟨_, (((noted_notes hinv hb).leaveStale hb).jumpCheck hb _ _).takes hb _, rfl, rfl, rfl⟩

/-- The update of a directly computed beam brings the anchor of its law (R573). -/
theorem directUpdate_takes (hinv : Inv s) (hb : b < 8) : TakesUpdate b (directAnchor s b) s (directUpdate s b) := by
  unfold directUpdate
  dsimp only
  split
  · exact (((noted_notes hinv hb).notStale hb).jumpCheck hb _ _).takes hb _
  · exact (((noted_notes hinv hb).leaveStale hb).jumpCheck hb _ _).takes hb _

/-- An edge of the source, as its beam notes it (R129). -/
def Beam.edge (u : BitVec 48) (stamp : Word) (inn : Bool) (m : Beam) : Beam :=
  { m with edgeU := u, edgeT := stamp, edgeIn := inn }

/-- A FEEDBACK beam takes the angle and the speed of its channel at a new time stamp, which it notes (R126, R127, R129). -/
theorem fbSourceUpdate_takes (hinv : Inv s) (hb : b < 8)
    (hnew : (nth (s.beams (bmHome s b)) b).adopted = false ∨
      (nth (s.beams (bmHome s b)) b).edgeT ≠ (nth s.fb (bmInst s b)).tstamp) :
    ∃ a, TakesUpdate b a s (fbSourceUpdate s b)
      ∧ (beamAt (fbSourceUpdate s b) (bmHome s b) b).edgeT = (nth s.fb (bmInst s b)).tstamp
      ∧ a.p0 = fbPhase s b (nth s.fb (bmInst s b)).angle ∧ a.speed = fbSpeed s b (nth s.fb (bmInst s b)).speed
      ∧ a.t0 = (nth s.fb (bmInst s b)).tstamp - wi (bmLatcomp s b) := by
  obtain ⟨a, ht, ha⟩ := sourceUpdate_takes hinv hb (fbPhase s b (nth s.fb (bmInst s b)).angle)
    (fbSpeed s b (nth s.fb (bmInst s b)).speed) ((nth s.fb (bmInst s b)).tstamp - wi (bmLatcomp s b))
    (if (2 ≤ bmInst s b && bmInst s b ≤ 7 : Bool) then some (edgeRoom s b) else none)
  have hold : ¬((nth (s.beams (bmHome s b)) b).adopted = true
      ∧ (nth (s.beams (bmHome s b)) b).edgeT = (nth s.fb (bmInst s b)).tstamp) := by
    rintro ⟨had, hedge⟩
    exact hnew.elim (fun h => by simp [h] at had) fun h => h hedge
  obtain ⟨u, inn, hfb⟩ : ∃ u inn, fbSourceUpdate s b = (sourceUpdate s b _ _ _ _).modBeam (bmHome s b) b
      (Beam.edge u (nth s.fb (bmInst s b)).tstamp inn) := ⟨_, _, if_neg (by simpa using hold)⟩
  have hown := beamAt_modBeam (d := bmHome s b) (f := Beam.edge u (nth s.fb (bmInst s b)).tstamp inn)
    (g := Beam.edge u (nth s.fb (bmInst s b)).tstamp inn) (ht.touches.inv hinv) hb fun _ => rfl
  rw [← hfb] at hown
  refine ⟨a, ⟨?_, ?_⟩, congrArg Beam.edgeT hown, ha⟩
  · rw [hfb]
    exact .after (by decide) (modBeam_touches _ _ _ _) ht.touches
  · rw [hown]
    exact ⟨ht.beam.lastUpd, ht.beam.adopted, ht.beam.stands⟩

/-- The stale evaluation after an update (R134, R137). -/
theorem TakesUpdate.evaluated {a : Anchor} {t : State} (h : TakesUpdate b a s t) (hinv : Inv s) (hb : b < 8) :
    Touches staleParts s (staleCheck t)
      ∧ Updated s.now a ((beamAt s (bmHome s b) b).upd + 1) (beamAt (staleCheck t) (bmHome s b) b) :=
  ⟨.after (by decide) (staleCheck_touches t) (h.touches.mono (by decide)),
    h.beam.follows (staleCheck_follows (h.touches.inv hinv) hb _)⟩

end update

/-! ## The rows of chapter 05 -/

section rows

variable {s : State} {beam : Fin 8}

/-- A running FEEDBACK beam takes the update of its channel, and the beams are evaluated. -/
theorem beamSourceUpdate_feedback (hon : bmOn s beam.val = true) (hruns : s.runs (bmHome s beam.val) = true)
    (hsrc : bmSrc s beam.val = 0) :
    exec (.beamSourceUpdate beam) s = .next (staleCheck (fbSourceUpdate s beam.val)) := by
  change execBeamSourceUpdate beam s = _
  simp [execBeamSourceUpdate, hon, hruns, hsrc]

/-- So does a running beam of any other source. -/
theorem beamSourceUpdate_other (hinv : Inv s) (hon : bmOn s beam.val = true) (hruns : s.runs (bmHome s beam.val) = true)
    (hsrc : bmSrc s beam.val ≠ 0) :
    ∃ t a, exec (.beamSourceUpdate beam) s = .next (staleCheck t) ∧ TakesUpdate beam.val a s t := by
  have hpass : ¬(!bmOn s beam.val || !s.runs (bmHome s beam.val)) = true := by simp [hon, hruns]
  by_cases hmains : bmSrc s beam.val = 1
  · obtain ⟨a, ht, -⟩ := sourceUpdate_takes hinv beam.isLt (mainsPhase s beam.val) (wi (satS 32 (shrHalfAway s.mains.freq 24)))
      (countAt s .cs s.mains.inst - wi (bmLatcomp s beam.val)) none
    refine ⟨_, a, congrArg Host.Outcome.next ((if_neg hpass).trans ?_), ht⟩
    rw [hmains]
    rfl
  · refine ⟨_, _, congrArg Host.Outcome.next ((if_neg hpass).trans ?_), directUpdate_takes hinv beam.isLt⟩
    split
    case h_1 h => exact absurd h hsrc
    case h_2 h => exact absurd h hmains
    case h_3 => rfl

/-- The least of a cycle and another that may be none is not above it. -/
theorem minOpt_some (x : Nat) (o : Option Nat) : ∃ y, minOpt (some x) o = some y ∧ y ≤ x := by
  cases o with
  | none => exact ⟨x, rfl, le_refl x⟩
  | some z => exact ⟨_, rfl, min_le_left x z⟩

theorem advanceTo_of_le {s : State} {t : Nat} (h : t ≤ s.now) : s.advanceTo t = s := by
  rw [State.advanceTo, Nat.max_eq_left h]

/-- A beam that is due on its home die is re-anchored now, there first (R125). -/
theorem beamReanchor_due {due : Nat} (hon : bmOn s beam.val = true)
    (hdue : reanchorDue s (bmHome s beam.val) beam.val = some due) (hnow : due ≤ s.now) :
    exec (.beamReanchor beam) s = .next (reanchorOn (reanchorOn s (bmHome s beam.val) beam.val) (bmHome s beam.val).other
      beam.val) := by
  obtain ⟨first, hmin, hle⟩ := minOpt_some due (reanchorDue s (bmHome s beam.val).other beam.val)
  change execBeamReanchor beam s = _
  simp only [execBeamReanchor, hon, hdue, hmin, advanceTo_of_le (hle.trans hnow), Bool.not_true, Bool.false_eq_true,
    if_false]

theorem Die.other_ne (d : Die) : d.other ≠ d := by cases d <;> decide

/-- On the far die at most the anchor it holds moves on (R125). -/
theorem reanchorOn_far {b : Nat} {d : Die} (h : bmHome s b ≠ d) :
    reanchorOn s d b = s ∨ ∃ a, reanchorOn s d b = setAnchor s d b a := by
  unfold reanchorOn
  split
  · exact .inl rfl
  · rw [if_neg (by simp [h])]
    split
    · exact .inr ⟨_, rfl⟩
    · exact .inl rfl

/-- What the far die does leaves the beams of the home die. -/
theorem reanchorOn_other {b : Nat} {d : Die} (h : bmHome s b = d) :
    Touches beamParts s (reanchorOn s d.other b) ∧ ∀ k, nth ((reanchorOn s d.other b).beams d) k = nth (s.beams d) k := by
  obtain hsame | ⟨a, hset⟩ := reanchorOn_far (s := s) (b := b) (d := d.other) (h ▸ (Die.other_ne d).symm)
  · rw [hsame]
    exact ⟨.refl _ _, fun _ => rfl⟩
  · rw [hset]
    exact ⟨setAnchor_touches s _ b a, fun _ => setAnchor_other (fun hk => Die.other_ne d hk.1) a⟩

/-- On the home die of a FREE or NETTIME beam 2^20 cycles after its last update comes another (R573). -/
theorem reanchorOn_direct {b : Nat} (hruns : s.runs (bmHome s b) = true) (hsrc : bmSrc s b = 2 ∨ bmSrc s b = 3)
    (hold : (nth (s.beams (bmHome s b)) b).lastUpd + 2 ^ 20 ≤ s.now) :
    reanchorDue s (bmHome s b) b = some ((nth (s.beams (bmHome s b)) b).lastUpd + 2 ^ 20)
      ∧ reanchorOn s (bmHome s b) b = directUpdate s b := by
  have hdue : reanchorDue s (bmHome s b) b = some ((nth (s.beams (bmHome s b)) b).lastUpd + 2 ^ 20) := by
    simp [reanchorDue, hruns, hsrc]
  refine ⟨hdue, ?_⟩
  simp only [reanchorOn, hdue, if_pos hold]
  simp [hsrc]

/-- On the home die of any other beam an anchor 2^20 cycles old moves on (R125). -/
theorem reanchorOn_old {b : Nat} (hruns : s.runs (bmHome s b) = true) (hnet : bmSrc s b ≠ 2) (hfree : bmSrc s b ≠ 3)
    (hold : (2 ^ 20 : Int) ≤ sinceT0 s (bmHome s b) (nth (s.beams (bmHome s b)) b).a s.now) :
    (∃ due ≤ s.now, reanchorDue s (bmHome s b) b = some due)
      ∧ reanchorOn s (bmHome s b) b = setAnchor s (bmHome s b) b (anchorOn (nth (s.beams (bmHome s b)) b).a) := by
  obtain ⟨due, hle, hdue⟩ : ∃ due ≤ s.now, reanchorDue s (bmHome s b) b = some due :=
    ⟨((s.now : Int) + 2 ^ 20 - sinceT0 s (bmHome s b) (nth (s.beams (bmHome s b)) b).a s.now).toNat, by omega,
      by simp [reanchorDue, hruns, hnet, hfree]⟩
  refine ⟨⟨due, hle, hdue⟩, ?_⟩
  simp only [reanchorOn, hdue, if_pos (hle.trans (Nat.le_add_right _ 2))]
  simp [hnet, hfree]

end rows

end Sys2Proof.Machine
end

section
namespace Sys2Proof.Machine

/-! ## The stale timeout, and a beam between its updates (R125, R134) -/

/-- The cycle in which the source of a timed beam has been silent for STALETIME (R134). -/
def silentAt (s : State) (b : Nat) : Nat := (nth (s.beams (bmHome s b)) b).lastUpd + bmStaletime s b * usec

/-- In that cycle the beams are evaluated, of which this one is overdue. -/
theorem beamStaleTimeout_runs {s : State} {beam : Fin 8} (hon : bmOn s beam.val = true)
    (hruns : s.runs (bmHome s beam.val) = true) (htimed : bmTimed s beam.val = true) (hlim : bmStaletime s beam.val ≠ 0) :
    exec (.beamStaleTimeout beam) s = .next (staleCheck (s.advanceTo (silentAt s beam.val)))
      ∧ Overdue (s.advanceTo (silentAt s beam.val)) beam.val :=
  ⟨congrArg Host.Outcome.next (if_pos (by simp [hon, hruns, htimed, hlim])), hon, htimed, hlim, le_max_right ..⟩

/-- Settles O34: an update leaves its beam on the new anchor or stale, the far die leaves the beams of the home die, and an
overdue beam is found stale. -/
theorem beamsFollowTheirSources : Obligations.BeamsFollowTheirSources := by
  intro beam s hinv b d m f hon hruns
  have hb : b < 8 := beam.isLt
  refine ⟨fun hsrc hnew => ?feedback, fun hsrc => ?other, fun hsrc hold => ?direct, fun hnet hfree hold => ?moves,
    fun htimed hlim => ?silent⟩
  case feedback =>
    obtain ⟨a, ht, hedge, hp0, hspeed, ht0⟩ := fbSourceUpdate_takes hinv hb hnew
    obtain ⟨hall, hlast, hadopted, hstands⟩ := ht.evaluated hinv hb
    have hkept := (staleCheck_follows (ht.touches.inv hinv) hb d).edgeT
    refine ⟨_, beamSourceUpdate_feedback hon hruns hsrc, hlast, hadopted, hkept.trans hedge, fun hfresh => ?_,
      (hall.mono (by decide)).onlyChanges⟩
    obtain ⟨ha, hupd, -⟩ := hstands hfresh
    exact ⟨(congrArg Anchor.p0 ha).trans hp0, (congrArg Anchor.speed ha).trans hspeed, (congrArg Anchor.t0 ha).trans ht0, hupd⟩
  case other =>
    obtain ⟨u, a, he, ht⟩ := beamSourceUpdate_other hinv hon hruns hsrc
    obtain ⟨hall, hlast, hadopted, -⟩ := ht.evaluated hinv hb
    exact ⟨_, he, hlast, hadopted, (hall.mono (by decide)).onlyChanges⟩
  case direct =>
    obtain ⟨hdue, hnear⟩ := reanchorOn_direct hruns hsrc hold
    have ht : TakesUpdate b _ s (directUpdate s b) := directUpdate_takes hinv hb
    have hhome : bmHome (directUpdate s b) b = d := congrFun (ht.touches.bmHome_eq (by decide)) b
    obtain ⟨hfar, hbeams⟩ := reanchorOn_other hhome
    have hall : Touches (traced beamParts) s (reanchorOn (directUpdate s b) d.other b) := .after (by decide) hfar ht.touches
    have he := beamReanchor_due hon hdue hold
    rw [hnear] at he
    refine ⟨_, he, hall.now (by decide), ?_, ?_, (hall.mono (by decide)).onlyChanges⟩
    · rw [hbeams]
      exact ht.beam.lastUpd
    · rw [hbeams]
      exact ht.beam.adopted
  case moves =>
    obtain ⟨⟨due, hle, hdue⟩, hnear⟩ := reanchorOn_old hruns hnet hfree hold
    have ht : Touches beamParts s (setAnchor s d b (anchorOn m.a)) := setAnchor_touches s d b _
    have hown : beamAt (setAnchor s d b (anchorOn m.a)) d b = { beamAt s d b with a := anchorOn m.a } :=
      beamAt_setAnchor hinv hb _
    have hhome : bmHome (setAnchor s d b (anchorOn m.a)) b = d := congrFun (ht.bmHome_eq (by decide)) b
    obtain ⟨hfar, hbeams⟩ := reanchorOn_other hhome
    have hall := ht.trans hfar
    have he := beamReanchor_due hon hdue hle
    rw [hnear] at he
    have hanchor := congrArg Beam.a hown
    refine ⟨_, he, hall.now (by decide), ?_, ?_, ?_, fun k hk => ?_, (hall.mono (by decide)).onlyChanges⟩
    · rw [hbeams]
      exact hanchor
    · rw [hbeams]
      exact (congrArg Anchor.speed hanchor :)
    · rw [hbeams]
      exact (congrArg Beam.stale hown :)
    · rw [hbeams]
      exact setAnchor_other (fun h => hk h.2.symm) _
  case silent =>
    obtain ⟨he, hover⟩ := beamStaleTimeout_runs hon hruns htimed hlim
    have hadv := advanceTo_touches s (silentAt s b)
    have hcheck := staleCheck_touches (s.advanceTo (silentAt s b))
    exact ⟨_, he, hcheck.now (by decide), staleCheck_stale (hadv.inv hinv) hb hover,
      Touches.onlyChanges <| .after (by decide) hcheck (hadv.mono (by decide))⟩

end Sys2Proof.Machine
end

section
namespace Sys2Proof.Machine

/-! ## The mains loop (R138, R139) -/

/-- Whatever becomes of an offered value, it touches its buoy and what receives or watches the buoys (R69 to R74). -/
theorem offer_touches (s : State) (n : Nat) (m e : Int) : Touches offerParts s (offer s n m e) := by
  obtain ⟨_, harr, _⟩ := arrived_turns s n
  have hmet : Touches offerParts s (arrived s n) := harr.touches.mono (by decide)
  have hwith (viol : Nat) (x : Word) : Touches offerParts s (withheld (arrived s n) n viol x) := by
    obtain ⟨_, h, _⟩ := withheld_turns (arrived s n) n viol x
    exact hmet.trans h.touches
  refine .ite (fun _ => .refl _ _) fun _ => .ite (fun _ => hwith _ _) fun _ => .ite (fun _ => hwith _ _) fun _ => ?_
  exact .after (by decide) (byFollow_touches _) <| .after (by decide) (byReceived_touches _ _ n) <|
    .after (by decide) (modBuoy_touches _ n _) hmet

theorem modPort_touches (s : State) (n : Nat) (f : Port_ → Port_) : Touches [.ports] s (s.modPort n f) :=
  .of_update (fun p => by have k := p.agree_refl s; cases p <;> exact k) rfl rfl (by simp [shape, upd])

/-- What the AC port's watch of the mains touches (R417 to R421). -/
def watchParts : List Part := .ports :: offerParts

theorem chDrop_touches (s : State) (p : Nat) : Touches watchParts s (chDrop s p) :=
  .ite_self <| .after (by decide) (offer_touches _ _ _ _) <| .mono (by decide) (modPort_touches s p _)

theorem acWatch_touches (s : State) (lost : Bool) : Touches watchParts s (acWatch s lost) := by
  refine .ite (fun _ => .refl _ _) fun _ => ?_
  have hac (v : Ac) : Touches watchParts s { s with ac := v } := (ac_touches s v).mono (by decide)
  exact .ite (fun _ => hac _) fun _ => (hac _).trans (chDrop_touches _ 1)

theorem mains_touches (s : State) (v : Mains) : Touches [.mains] s { s with mains := v } :=
  .of_update (fun p => by have k := p.agree_refl s; cases p <;> exact k) rfl rfl rfl

theorem clampI_bounds {lo hi : Int} (h : lo ≤ hi) (x : Int) : lo ≤ clampI lo hi x ∧ clampI lo hi x ≤ hi :=
  ⟨le_max_left .., max_le h (min_le_left ..)⟩

section loop

variable (s : State) (b : Nat)

/-- In FORM the frequency is the nominal one (R139). -/
theorem mainsStep_freq_form (h : s.mains.pendForm = true) : (mainsStep s b).freq = (mainsNom s b : Int) * 2 ^ 32 :=
  if_pos h

/-- In TRACK the frequency is held inside the record's band (R138). -/
theorem mainsStep_freq_track (h : s.mains.pendForm = false) :
    ((mainsNom s b : Int) - fld (bmW s b 6) 23 20) * 2 ^ 32 ≤ (mainsStep s b).freq
      ∧ (mainsStep s b).freq ≤ ((mainsNom s b : Int) + fld (bmW s b 6) 23 20) * 2 ^ 32 := by
  have hband : ((mainsNom s b : Int) - fld (bmW s b 6) 23 20) * 2 ^ 32
      ≤ ((mainsNom s b : Int) + fld (bmW s b 6) 23 20) * 2 ^ 32 := by omega
  have hfreq : (mainsStep s b).freq = clampI (((mainsNom s b : Int) - fld (bmW s b 6) 23 20) * 2 ^ 32)
      (((mainsNom s b : Int) + fld (bmW s b 6) 23 20) * 2 ^ 32) _ := if_neg (by simp [h])
  rw [hfreq]
  exact clampI_bounds hband _

/-- A loop that is locked has just had an update inside the tolerance (R138). -/
theorem mainsStep_locked (h : (mainsStep s b).locked = true) : (mainsStep s b).lockRun ≠ 0 := by
  obtain ⟨hin, -⟩ := Bool.and_eq_true_iff.1 h
  have hrun : (mainsStep s b).lockRun = min (100 * 255) (_ + 1) := if_pos hin
  omega

/-- The loop after an update now, with what the reads and the stamp of the sample need (R128, R137). -/
def mainsUpdated (s : State) (b : Nat) : Mains :=
  { mainsStep s b with
    lockedWas := s.mains.locked, at10 := s.now, inst := (nth s.buoys (fld (bmW s b 6) 8 0)).sampAt }

end loop

/-- The cycle of the next update of the loop (R138). -/
def mainsDue (s : State) : Nat := (if s.mains.at10 = 0 then s.t0.getD 0 else s.mains.at10) + 4000

/-- What follows an update of the loop: the event of a lost lock, the evaluation of the beams, the AC port's watch. -/
def followParts : List Part := staleParts ++ watchParts

/-- The step takes LOCKED from a loop in TRACK (R139, R145). -/
def lockLost (s : State) (b : Nat) : Bool :=
  s.mains.locked && !(s.mains.form && !s.mains.pendForm) && !(mainsStep s b).locked && !(mainsStep s b).form

/-- The loop updated, a lost lock counted as MNLOCK (R145). -/
def mainsStepped (s : State) (b : Nat) : State :=
  let t := { s with mains := mainsUpdated s b }
  if lockLost s b then bmEvent t .cs b 3 (wi (mainsUpdated s b).e) else t

/-- In its due cycle the loop takes one step, and what follows leaves it. -/
theorem mainsPllUpdate_runs {s : State} {b : Nat} (hb : mainsBeam s = some b) (hready : s.sys.ready = true) :
    let u := s.advanceTo (mainsDue s)
    ∃ t, exec .mainsPllUpdate s = .next t ∧ Touches followParts { u with mains := mainsUpdated u b } t := by
  intro u
  have he : exec .mainsPllUpdate s = .next (acWatch (staleCheck (mainsStepped u b)) (lockLost u b)) := by
    change execMainsPllUpdate s = _
    rw [execMainsPllUpdate, hb]
    exact congrArg Host.Outcome.next (if_neg (by simp [hready]))
  refine ⟨_, he, .after (by decide) (acWatch_touches _ _) <| .after (by decide) (staleCheck_touches _) <| .ite_self ?_⟩
  exact .mono (by decide) (bmEvent_touches _ .cs b 3 _)

/-! ## Reading a phase (R137, R146) -/

theorem beamsCommitted_bmOn (s : State) (d : Die) (b : Nat) : bmOn (beamsCommitted s d) b = bmOn s b := by cases d <;> rfl

theorem ok_beams (s : State) (data : List Word) (d : Die) : (s.ok data).beams d = s.beams d := by cases d <;> rfl

/-- A beam with the registers that go with a phase latched (R146). -/
def Beam.latched (speed cyc rdt : Word) (m : Beam) : Beam := { m with latSpeed := speed, latCyc := cyc, latRdt := rdt }

/-- A served read answers the phase of the cycle before and latches one beam. -/
theorem bmphaseRead_runs {s : State} {die : Die} {beam : Fin 8} (h : ReadOpen s die) : ∃ cyc,
    exec (.bmphaseRead die beam) s = .next ((s.modBeam die beam.val
      (Beam.latched (beamSpeed (beamsCommitted s die) die beam.val) cyc (countAt s die s.now))).ok
        [beamPhase (beamsCommitted s die) die beam.val ((s.now : Int) - 1)]) :=
  ⟨_, congrArg Host.Outcome.next (regGate_open h _)⟩

/-- Settles O35: the loop takes one step that nothing after it touches; a read latches one beam. -/
theorem mainsLoopHoldsItsBandAndReadsLatch : Obligations.MainsLoopHoldsItsBandAndReadsLatch := by
  refine ⟨fun b s hmains hready => ?loop, fun die beam s hinv hopen => ?read⟩
  case loop =>
    intro q nom band
    obtain ⟨t, he, ht⟩ := mainsPllUpdate_runs hmains hready
    have hnow := ht.now (by decide)
    have hm : t.mains = mainsUpdated (s.advanceTo (mainsDue s)) b := ht.agree .mains (by decide)
    refine ⟨t, he, hnow, ?_, ?_, fun hform => ?_, fun htrack => ?_, ?_, ?_⟩
    · rw [hm, hnow]
      rfl
    · rw [hm]
      rfl
    · rw [hm]
      exact mainsStep_freq_form (s.advanceTo (mainsDue s)) b hform
    · rw [hm]
      exact mainsStep_freq_track (s.advanceTo (mainsDue s)) b htrack
    · rw [hm]
      exact mainsStep_locked (s.advanceTo (mainsDue s)) b
    · exact Touches.onlyChanges <| .after (by decide) ht <| .after (by decide) (mains_touches _ _) <|
        .mono (by decide) (advanceTo_touches s _)
  case read =>
    intro b
    obtain ⟨cyc, he⟩ := bmphaseRead_runs (beam := beam) hopen
    have hown : beamAt (s.modBeam die b (Beam.latched (beamSpeed (beamsCommitted s die) die b) cyc (countAt s die s.now)))
        die b = (beamAt s die b).latched (beamSpeed (beamsCommitted s die) die b) cyc (countAt s die s.now) :=
      beamAt_modBeam hinv beam.isLt fun _ => rfl
    have ht := modBeam_touches s die b (Beam.latched (beamSpeed (beamsCommitted s die) die b) cyc (countAt s die s.now))
    refine ⟨_, he, rfl, fun hoff => ?_, ?_, ?_, ?_, fun k hk => ?_, ?_⟩
    · have hzero : beamPhase (beamsCommitted s die) die b ((s.now : Int) - 1) = 0 :=
        if_neg (by rw [beamsCommitted_bmOn, hoff]; decide)
      rw [hzero]
      rfl
    · rw [ok_beams]
      exact congrArg Beam.latSpeed hown
    · rw [ok_beams]
      exact congrArg Beam.latRdt hown
    · rw [ok_beams]
      exact (congrArg Beam.a hown :)
    · rw [ok_beams]
      exact modBeam_other (fun h => hk h.2.symm) _
    · exact Touches.onlyChanges <| .after (by decide) (acc_touches _ _) (ht.mono (by decide))

end Sys2Proof.Machine
end

section
namespace Sys2Proof.Machine

/-! ## Engines, pairs, legs and lanes: updates and what leaves them -/

theorem engs_touches (s : State) (d : Die) (v : List Eng) (h : v.length = (s.engs d).length) :
    Touches [.engCs, .engDs] s (s.setEngs d v) := by
  cases d <;>
    exact .of_update (fun p => by have k := p.agree_refl s; cases p <;> exact k) rfl rfl
      (by simp_all [shape, State.engs, State.setEngs])

theorem modEng_touches (s : State) (d : Die) (n : Nat) (f : Eng → Eng) : Touches [.engCs, .engDs] s (s.modEng d n f) :=
  engs_touches s d _ (List.length_modify ..)

theorem modPair_touches (s : State) (d : Die) (n : Nat) (f : Pair → Pair) :
    Touches [.pairCs, .pairDs] s (s.modPair d n f) := by
  cases d <;>
    exact .of_update (fun p => by have k := p.agree_refl s; cases p <;> exact k) rfl rfl
      (by simp [shape, State.modPair, State.pairs, State.setPairs, upd])

/-- An update of memory that keeps it canonical. -/
theorem mem_touches (s : State) (m : List Host.Cell) (h : Memory.wf s.mem = true → Memory.wf m = true) :
    Touches [.mem, .log] s { s with mem := m } where
  same p hp := by
    have k := p.agree_refl s
    cases p
    case mem => exact absurd hp (by decide)
    case log => exact absurd hp (by decide)
    all_goals exact k
  time := Nat.le_refl _
  mem := h
  size := id

/-- What does not touch the Lighthouse of either die leaves it. -/
theorem Touches.lh {P : List Part} {s t : State} (h : Touches P s t) (d : Die) (hP : .lhCs ∉ P ∧ .lhDs ∉ P) :
    t.lh d = s.lh d := by
  cases d
  · exact h.agree .lhCs hP.1
  · exact h.agree .lhDs hP.2

/-- What does not touch the pairs of either die leaves them. -/
theorem Touches.pairs {P : List Part} {s t : State} (h : Touches P s t) (d : Die) (hP : .pairCs ∉ P ∧ .pairDs ∉ P) :
    t.pairs d = s.pairs d := by
  cases d
  · exact h.agree .pairCs hP.1
  · exact h.agree .pairDs hP.2

theorem Inv.lanes_length {s : State} (h : Inv s) (d : Die) : (s.lh d).lanes.length = 4 := by
  cases d
  · exact (congrArg (fun l => nth l 4) h.2 :)
  · exact (congrArg (fun l => nth l 5) h.2 :)

theorem Inv.pairs_length {s : State} (h : Inv s) (d : Die) : (s.pairs d).length = pairCount d := by
  cases d
  · exact (congrArg (fun l => nth l 8) h.2 :)
  · exact (congrArg (fun l => nth l 9) h.2 :)

theorem laneCount_le (d : Die) : laneCount d ≤ 4 := by cases d <;> decide

/-- The invariant holds every lane of a die. -/
theorem Inv.lane_lt {s : State} (h : Inv s) {d : Die} {l : Nat} (hl : l < laneCount d) : l < (s.lh d).lanes.length :=
  (hl.trans_le (laneCount_le d)).trans_eq (h.lanes_length d).symm

theorem nth_upd_other {α : Type} [Inhabited α] (l : List α) {i k : Nat} (h : k ≠ i) (f : α → α) :
    nth (upd l i f) k = nth l k := by
  simp [nth, upd, h.symm]

theorem setLh_lh (s : State) (d : Die) (v : Lh) : (s.setLh d v).lh d = v := (s.setLh_new d v).1

theorem modLane_lh (s : State) (d : Die) (l : Nat) (f : Lane → Lane) :
    (s.modLane d l f).lh d = { s.lh d with lanes := upd (s.lh d).lanes l f } := (s.modLane_new d l f).1

theorem advanceTo_lh (s : State) (t : Nat) (d : Die) : (s.advanceTo t).lh d = s.lh d := by cases d <;> rfl

/-! ## What an operation makes of one lane -/

/-- From s to t one lane of a die turns by f; the rest of the die's Lighthouse stays, and nothing but the named parts
differs. -/
structure TurnsLane (P : List Part) (d : Die) (l : Nat) (f : Lane → Lane) (s t : State) : Prop where
  touches : Touches P s t
  lh : t.lh d = { s.lh d with lanes := upd (s.lh d).lanes l f }

namespace TurnsLane

variable {P Q : List Part} {d : Die} {l : Nat} {f g : Lane → Lane} {s t u : State}

theorem mono (hQ : Q ⊆ P) (h : TurnsLane Q d l f s t) : TurnsLane P d l f s t := ⟨h.touches.mono hQ, h.lh⟩

/-- One turn after another. -/
theorem andTurns (h : TurnsLane P d l f s t) (hQ : Q ⊆ P) (k : TurnsLane Q d l g t u) : TurnsLane P d l (g ∘ f) s u :=
  ⟨.after hQ k.touches h.touches, by rw [k.lh, h.lh, upd, upd, upd, List.modify_modify_eq]⟩

/-- An operation that touches neither Lighthouse, after the turn. -/
theorem andThen (h : TurnsLane P d l f s t) (hQ : Q ⊆ P) (hl : .lhCs ∉ Q ∧ .lhDs ∉ Q) (k : Touches Q t u) :
    TurnsLane P d l f s u :=
  ⟨.after hQ k h.touches, (k.lh d hl).trans h.lh⟩

theorem own (h : TurnsLane P d l f s t) (hl : l < (s.lh d).lanes.length) :
    nth (t.lh d).lanes l = f (nth (s.lh d).lanes l) := by
  rw [h.lh, nth_upd _ hl]

theorem other (h : TurnsLane P d l f s t) (k : Nat) (hk : k ≠ l) : nth (t.lh d).lanes k = nth (s.lh d).lanes k := by
  rw [h.lh, nth_upd_other _ hk]

theorem infl (h : TurnsLane P d l f s t) : (t.lh d).infl = (s.lh d).infl := by rw [h.lh]

theorem seqn (h : TurnsLane P d l f s t) : (t.lh d).seqn = (s.lh d).seqn := by rw [h.lh]

end TurnsLane

/-- What touches neither Lighthouse turns no lane. -/
theorem Touches.turnsLane {P : List Part} {s t : State} (h : Touches P s t) (hP : .lhCs ∉ P ∧ .lhDs ∉ P) (d : Die)
    (l : Nat) : TurnsLane P d l id s t :=
  ⟨h, by rw [h.lh d hP, upd, List.modify_id]⟩

theorem modLane_turns (s : State) (d : Die) (l : Nat) (f : Lane → Lane) :
    TurnsLane [.lhCs, .lhDs] d l f s (s.modLane d l f) :=
  ⟨modLane_touches s d l f, modLane_lh s d l f⟩

/-! ## Staged blocks and page boundaries (R177, R209) -/

/-- What a staged block that takes effect may touch: the parameter RAM, its engines and their counters. -/
def boundaryParts : List Part := [.mem, .log, .ctrs, .engCs, .engDs]

theorem retimeEng_touches (s : State) (d : Die) (e : Nat) : Touches [.ctrs] s (retimeEng s d e) := ctrs_touches s _

theorem takeStaged_touches (s : State) (d : Die) (e : Nat) : Touches boundaryParts s (takeStaged s d e) := by
  unfold takeStaged
  split
  · exact .refl _ s
  · refine .after (by decide) (modEng_touches _ _ _ _) <| .trans (t := { s with mem := _ })
      (.mono (by decide) (mem_touches s _ (Memory.wf_memPutWords _ _))) (Touches.foldl (fun _ _ => ?_) _ _)
    exact .after (by decide) (retimeEng_touches _ _ _) <| .mono (by decide) (modEng_touches _ _ _ _)

theorem stagedBoundary_touches (s : State) (d : Die) (l : Nat) : Touches boundaryParts s (stagedBoundary s d l) :=
  Touches.foldl (fun t e => .ite_self <| .ite (fun _ => .mono (by decide) (modEng_touches t d e _)) fun _ =>
    takeStaged_touches t d e) _ s

/-- From s to t page boundaries pass on a die: lanes may note it, and nothing else of its Lighthouse differs. -/
structure BoundariesPass (d : Die) (s t : State) : Prop where
  touches : Touches ([.lhCs, .lhDs] ++ boundaryParts) s t
  lh : ∃ lanes, t.lh d = { s.lh d with lanes := lanes }
  noted : ∀ k, nth (t.lh d).lanes k = { nth (s.lh d).lanes k with wrapDone := (nth (t.lh d).lanes k).wrapDone }

namespace BoundariesPass

variable {d : Die} {s t u : State}

theorem refl (d : Die) (s : State) : BoundariesPass d s s := ⟨.refl _ s, ⟨_, rfl⟩, fun _ => rfl⟩

theorem trans (h : BoundariesPass d s t) (k : BoundariesPass d t u) : BoundariesPass d s u := by
  obtain ⟨_, hlh⟩ := h.lh
  obtain ⟨_, klh⟩ := k.lh
  exact ⟨h.touches.trans k.touches, ⟨_, by rw [klh, hlh]⟩, fun n => by rw [k.noted, h.noted]⟩

end BoundariesPass

/-- A lane that notes that its page boundary has passed. -/
def Lane.passed (ln : Lane) : Lane := { ln with wrapDone := true }

theorem boundary_passes (s : State) (d : Die) (l : Nat) :
    TurnsLane ([.lhCs, .lhDs] ++ boundaryParts) d l Lane.passed s ((stagedBoundary s d l).modLane d l Lane.passed) :=
  have h : TurnsLane ([.lhCs, .lhDs] ++ boundaryParts) d l id s (stagedBoundary s d l) :=
    ((stagedBoundary_touches s d l).turnsLane (by decide) d l).mono (by decide)
  h.andTurns (by decide) (modLane_turns _ d l Lane.passed)

/-- A lane's page boundary passes, if it is due. -/
def laneDue (d : Die) (s : State) (l : Nat) : State :=
  if wrapDue s d l then (stagedBoundary s d l).modLane d l Lane.passed else s

theorem lanesDue_eq (s : State) (d : Die) : lanesDue s d = (List.range (laneCount d)).foldl (laneDue d) s := rfl

theorem laneDue_passes (d : Die) (s : State) (l : Nat) : BoundariesPass d s (laneDue d s l) := by
  unfold laneDue
  split
  · have h := boundary_passes s d l
    refine ⟨h.touches, ⟨_, h.lh⟩, fun k => ?_⟩
    by_cases hk : k = l
    · subst hk
      by_cases hl : k < (s.lh d).lanes.length
      · rw [h.own hl]
        rfl
      · have hnone : (s.lh d).lanes[k]? = none := List.getElem?_eq_none (Nat.not_lt.1 hl)
        rw [h.lh]
        simp [nth, upd, hnone]
    · rw [h.other k hk]
  · exact .refl d s

theorem lanesDue_passes (s : State) (d : Die) : BoundariesPass d s (lanesDue s d) := by
  rw [lanesDue_eq]
  exact List.foldlRecOn _ _ (motive := BoundariesPass d s) (.refl d s) fun t h l _ => h.trans (laneDue_passes d t l)

/-- A lane within a page, or that issues the first entry of a page, waits for no boundary. -/
theorem wrapDue_of_within {s : State} {d : Die} {l : Nat}
    (h : 0 < (nth (s.lh d).lanes l).ptr ∨ (nth (s.lh d).lanes l).fresh = true) : wrapDue s d l = false := by
  have hptr : ((nth (s.lh d).lanes l).ptr == 0 && !(nth (s.lh d).lanes l).fresh) = false := by
    rcases h with h | h
    · simp [Nat.ne_of_gt h]
    · simp [h]
  simp only [wrapDue, Bool.and_assoc, hptr, Bool.false_and, Bool.and_false]

/-- Such a lane notes nothing as the boundaries of other lanes pass. -/
theorem lanesDue_lane {s : State} {d : Die} {l : Nat}
    (h : 0 < (nth (s.lh d).lanes l).ptr ∨ (nth (s.lh d).lanes l).fresh = true) :
    nth ((lanesDue s d).lh d).lanes l = nth (s.lh d).lanes l := by
  rw [lanesDue_eq]
  refine List.foldlRecOn _ (laneDue d) (motive := fun t => nth (State.lh t d).lanes l = nth (s.lh d).lanes l) rfl
    fun t ht k _ => ?_
  unfold laneDue
  split
  · rename_i hdue
    have hk : l ≠ k := by
      rintro rfl
      rw [wrapDue_of_within (ht ▸ h)] at hdue
      exact absurd hdue (by decide)
    rw [(boundary_passes t d k).other l hk, ht]
  · exact ht

end Sys2Proof.Machine
end

section
namespace Sys2Proof.Machine

/-! ## Events of a lane (R172, R182) -/

/-- A lane with the event bit of a cause set. -/
def Lane.noted (cause : Nat) (ln : Lane) : Lane := { ln with levt := orBit ln.levt cause }

theorem laneEvent_turns (s : State) (d : Die) (l cause : Nat) (detail : Word) :
    TurnsLane (traced [.lhCs, .lhDs]) d l (Lane.noted cause) s (laneEvent s d l cause detail) :=
  (modLane_turns s d l (Lane.noted cause)).mono (by decide) |>.andThen (by decide) (by decide) (countEvent_touches _ _)

/-- A lane that has counted an overrun (R153, R172). -/
def Lane.overrun (detail : Word) (ln : Lane) : Lane :=
  { ln with ovrCnt := satInc ln.ovrCnt, ovrLast := detail
            ovrMax := BitVec.ofNat 16 (max ln.ovrMax.toNat (fld detail 31 16)) }

theorem overrun_turns (s : State) (d : Die) (l : Nat) (detail : Word) :
    TurnsLane (traced [.lhCs, .lhDs]) d l (Lane.noted 1 ∘ Lane.overrun detail) s (overrun s d l detail) := by
  have h : TurnsLane (traced [.lhCs, .lhDs]) d l (Lane.noted 1 ∘ Lane.overrun detail) s
      (laneEvent (s.modLane d l (Lane.overrun detail)) d l 1 detail) :=
    (modLane_turns s d l (Lane.overrun detail)).mono (by decide) |>.andTurns (List.Subset.refl _) (laneEvent_turns _ d l 1 detail)
  cases d
  · exact h
  · exact h.andThen (by decide) (by decide) (dsSingle_touches _ _)

/-! ## Units taken and entries accepted (R163, R166, R169) -/

/-- What an entry's acceptance may touch: the window, its engines, the machines that keep the phase of a SAMPLE. -/
def unitParts : List Part := [.lhCs, .lhDs, .engCs, .engDs, .mach]

theorem noteSample_touches (s : State) (mask : Nat) : Touches [.mach] s (noteSample s mask) :=
  Touches.foldl (fun _ _ => .ite_self (modMach_touches _ _ _)) _ s

theorem modEngs_touches (s : State) (d : Die) (f : State → Nat → Eng → Eng) (l : List Nat) :
    Touches [.engCs, .engDs] s (l.foldl (fun s j => s.modEng d j (f s j)) s) :=
  Touches.foldl (fun t j => modEng_touches t d j (f t j)) l s

/-- Taking a unit changes the Lighthouse of the die only in until when its ADCs are taken (R166). -/
theorem takeUnit_takes (s v : State) (d : Die) (e : Entry) : Touches unitParts s (takeUnit s v d e)
    ∧ ∃ free, (takeUnit s v d e).lh d = { s.lh d with adcFree := free } := by
  unfold takeUnit
  dsimp only
  split
  · have hfree (a : List Nat) : Touches unitParts s (s.setLh d { s.lh d with adcFree := a }) :=
      (setLh_touches s d { s.lh d with adcFree := a } rfl).mono (by decide)
    cases d
    · exact ⟨hfree _, _, setLh_lh s .cs _⟩
    · exact ⟨.after (by decide) (noteSample_touches _ _) (hfree _), _,
        ((noteSample_touches _ _).lh .ds (by decide)).trans (setLh_lh s .ds _)⟩
  · split
    · exact ⟨(modEngs_touches _ _ _ _).mono (by decide), _, (modEngs_touches _ _ _ _).lh d (by decide)⟩
    · exact ⟨.refl _ s, _, rfl⟩

/-- An entry as its unit accepts it in a cycle. -/
def accepted (s : State) (d : Die) (x : InFl) (codes : List (BitVec 16)) : InFl :=
  { x with acceptAt := some s.now, retireAt := some (s.now + latency s d x.entry)
           vals := captured (dueView s d (s.lh d).infl.length) d x.lane x.entry codes }

/-- Acceptance changes the entry in the window, and until when the ADCs are taken. -/
theorem acceptNow_takes (s : State) (d : Die) (x : InFl) (codes : List (BitVec 16)) :
    Touches unitParts s (acceptNow s d x codes)
    ∧ ∃ free, (acceptNow s d x codes).lh d = { s.lh d with
      adcFree := free, infl := (s.lh d).infl.map fun z => if z.seqn = x.seqn then accepted s d x codes else z } := by
  obtain ⟨ht, free, hlh⟩ := takeUnit_takes s (dueView s d (s.lh d).infl.length) d x.entry
  refine ⟨.after (by decide) (setLh_touches _ d _ rfl) ht, free, (setLh_lh _ d _).trans ?_⟩
  rw [hlh]
  rfl

/-- The latency of an entry that needs no unit hangs on the entry alone (R169). -/
theorem latency_of_noUnit {e : Entry} (h : e.needsUnit = false) (s t : State) (d : Die) :
    latency s d e = latency t d e := by
  have hrun : ¬e.opcode = oRUN := fun hr => by simp [Entry.needsUnit, hr] at h
  simp only [latency, if_neg hrun]

/-! ## An entry enters the window (R150, R166, R171) -/

/-- A lane whose issued entry is in flight. -/
def Lane.follows (q : Nat) (ln : Lane) : Lane := { ln with predSeq := some q }

/-- An entry of the window that came from a slot: issued as it was and, where it needs no unit and is no FENCE, accepted
in the cycle and retiring its latency later. -/
structure HeldAs (s : State) (d : Die) (x z : InFl) : Prop where
  seqn : z.seqn = x.seqn
  lane : z.lane = x.lane
  entry : z.entry = x.entry
  issueAt : z.issueAt = x.issueAt
  accepts : x.entry.needsUnit = false → x.entry.opcode ≠ oFENCE →
    z.acceptAt = some s.now ∧ z.retireAt = some (s.now + latency s d x.entry)

/-- The state with a slot at the end of the window. -/
def queued (s : State) (d : Die) (l : Nat) (x : InFl) : State :=
  (s.setLh d { s.lh d with infl := (s.lh d).infl ++ [x] }).modLane d l (Lane.follows x.seqn)

theorem queued_touches (s : State) (d : Die) (l : Nat) (x : InFl) : Touches [.lhCs, .lhDs] s (queued s d l x) :=
  (setLh_touches s d { s.lh d with infl := (s.lh d).infl ++ [x] } rfl).trans (modLane_touches _ d l _)

theorem queued_lh (s : State) (d : Die) (l : Nat) (x : InFl) : (queued s d l x).lh d = { s.lh d with
    infl := (s.lh d).infl ++ [x], lanes := upd (s.lh d).lanes l (Lane.follows x.seqn) } := by
  rw [queued, modLane_lh, setLh_lh]

/-- From s to t a slot has come into the window of a lane that waits for it. -/
structure Enters (d : Die) (l : Nat) (x : InFl) (s t : State) : Prop where
  touches : Touches unitParts s t
  lh : ∃ free window, t.lh d = { s.lh d with
    lanes := upd (s.lh d).lanes l (Lane.follows x.seqn), adcFree := free, infl := window }
  holds : ∃ z ∈ (t.lh d).infl, HeldAs s d x z

theorem queued_enters {x : InFl} (h : x.entry.needsUnit = false → x.entry.opcode = oFENCE) (s : State) (d : Die) (l : Nat) :
    Enters d l x s (queued s d l x) where
  touches := (queued_touches s d l x).mono (by decide)
  lh := ⟨_, _, queued_lh s d l x⟩
  holds := ⟨x, by simp [queued_lh], rfl, rfl, rfl, rfl, fun hu hf => absurd (h hu) hf⟩

theorem acceptNow_enters (s : State) (d : Die) (l : Nat) (x : InFl) (codes : List (BitVec 16)) :
    Enters d l x s (acceptNow (queued s d l x) d x codes) := by
  obtain ⟨ht, free, hlh⟩ := acceptNow_takes (queued s d l x) d x codes
  have hq := queued_touches s d l x
  have hnow : (queued s d l x).now = s.now := hq.now (by decide)
  refine ⟨.after (by decide) ht (hq.mono (by decide)), ⟨free, _, hlh.trans (by rw [queued_lh])⟩,
    accepted (queued s d l x) d x codes, ?_, rfl, rfl, rfl, rfl, fun hu _ => ⟨congrArg some hnow, ?_⟩⟩
  · rw [hlh]
    exact List.mem_map.2 ⟨x, by simp [queued_lh], if_pos rfl⟩
  · rw [accepted, hnow, latency_of_noUnit hu _ s]

theorem enterWindow_enters (s : State) (d : Die) (l : Nat) (x : InFl) (codes : List (BitVec 16)) :
    Enters d l x s (enterWindow s d l x codes) := by
  unfold enterWindow
  refine iteInduction (motive := Enters d l x s) (fun hfence => queued_enters (fun _ => hfence) s d l) fun _ =>
    iteInduction (motive := Enters d l x s) (fun _ => acceptNow_enters s d l x codes) fun hbusy =>
      queued_enters (fun hu => ?_) s d l
  simp [hu] at hbusy

end Sys2Proof.Machine
end

section
namespace Sys2Proof.Machine

/-! ## What page boundaries leave alone -/

/-- What does not touch the image leaves the COUNT of every page. -/
theorem Touches.pageCount_eq {P : List Part} {s t : State} (h : Touches P s t) (hP : .img ∉ P) :
    pageCount t = pageCount s := by
  have himg : t.img = s.img := h.agree .img hP
  unfold pageCount pageHdr
  rw [himg]

/-- What does not touch the pairs leaves which engines an entry may name (R167, R187). -/
theorem Touches.engRefBad_eq {P : List Part} {s t : State} (h : Touches P s t) (hP : .pairCs ∉ P ∧ .pairDs ∉ P) :
    engRefBad t = engRefBad s := by
  funext d e
  simp only [engRefBad, engUsable, engHalted, twin, h.pairs d hP]

theorem Touches.recsIn_eq {P : List Part} {s t : State} (h : Touches P s t)
    (hP : .img ∉ P ∧ .csLoaded ∉ P ∧ .dsLoaded ∉ P) : recsIn t = recsIn s := by
  have himg : t.img = s.img := h.agree .img hP.1
  have hcs : t.csLoaded = s.csLoaded := h.agree .csLoaded hP.2.1
  have hds : t.dsLoaded = s.dsLoaded := h.agree .dsLoaded hP.2.2
  funext d
  cases d <;> simp only [recsIn, himg, hcs, hds]

/-- What does not touch the pairs leaves the engines of every operation. -/
theorem Touches.engSet_eq {P : List Part} {s t : State} (h : Touches P s t) (hP : .pairCs ∉ P ∧ .pairDs ∉ P) :
    engSet t = engSet s := by
  funext d e
  simp only [engSet, engHalted, twin, h.pairs d hP]
  rfl

/-- What touches neither the pairs nor the records in force leaves what an entry writes (R164). -/
theorem Touches.entryWrites_eq {P : List Part} {s t : State} (h : Touches P s t)
    (hP : (.pairCs ∉ P ∧ .pairDs ∉ P) ∧ .img ∉ P ∧ .csLoaded ∉ P ∧ .dsLoaded ∉ P) : entryWrites t = entryWrites s := by
  unfold entryWrites adcMap inMap
  rw [h.engSet_eq hP.1, h.recsIn_eq hP.2]

/-! ## A lane issues its next entry (R149 to R157) -/

/-- The lane has issued its next entry in a cycle, triggered at t; page boundaries that have come pass first. -/
def laneIssued (s : State) (d : Die) (l page t c : Nat) (swept : Bool) : State :=
  let u := lanesDue s d
  let v := u.modLane d l fun x => x.issued (pageCount u d l page) t c swept
  v.setLh d { v.lh d with seqn := (u.lh d).seqn + 1, hwm := max (v.lh d).hwm ((v.lh d).infl.length + 1) }

/-- What follows the issue: the checks of the entry, then the window (R152, R167, R171). -/
def entryTaken (s : State) (d : Die) (l c q : Nat) (ln : Lane) (e : Entry) (codes : List (BitVec 16)) : State :=
  if !e.chkOk then laneEvent s d l 2 (laneDetail 0 ln.page ln.ptr)
  else if engRefBad s d e then laneEvent s d l 3 (laneDetail 0 ln.page ln.ptr)
  else if e.opcode = oNOP || (e.opcode = oFENCE && (awaited s d l e.fn q).length = 0) then s
  else enterWindow s d l
    { seqn := q, lane := l, page := ln.page, idx := ln.ptr, w := [e.w0, e.w1, e.w2, e.w3], issueAt := c
      acceptAt := none, retireAt := none, vals := [] } codes

section issue

variable {s : State} {d : Die} {l t : Nat} {codes : List (BitVec 16)}

/-- An entry whose trigger comes neither before now nor before the issue before it issues in its trigger cycle. -/
theorem issueAt_onTime (hnow : s.now ≤ t) (hpred : (nth (s.lh d).lanes l).predIssue ≤ t)
    (hroom : (nth (s.lh d).lanes l).issueN < 4) :
    issueAt s d l t codes = entryTaken (laneIssued (s.advanceTo t) d l (nth (s.lh d).lanes l).page t t true) d l t
      ((lanesDue (s.advanceTo t) d).lh d).seqn (nth (s.lh d).lanes l) (nextEntry s d l) codes := by
  have hwidth (c : Nat) : ((nth (s.lh d).lanes l).issueCyc = c && 4 ≤ (nth (s.lh d).lanes l).issueN) = false := by
    simp [Nat.not_le.2 hroom]
  have hlate : t - t - 1 = 0 := by omega
  simp only [issueAt, hwidth, Bool.false_eq_true, if_false, Nat.max_eq_left hpred, Nat.max_eq_left hnow, hlate, if_true,
    Nat.le_refl, hpred, decide_true, Bool.true_or, Bool.and_self]
  rfl

/-- An entry whose trigger and the issue before it are more than one cycle back issues now, as an overrun. -/
theorem issueAt_late (htrig : t + 1 < s.now) (hpred : (nth (s.lh d).lanes l).predIssue + 1 < s.now)
    (hroom : (nth (s.lh d).lanes l).issueN < 4) :
    issueAt s d l t codes = entryTaken (laneIssued (overrun (s.advanceTo s.now) d l
        (laneDetail (s.now - t - 1) (nth (s.lh d).lanes l).page (nth (s.lh d).lanes l).ptr)) d l
        (nth (s.lh d).lanes l).page t s.now false) d l s.now
      ((lanesDue (overrun (s.advanceTo s.now) d l
        (laneDetail (s.now - t - 1) (nth (s.lh d).lanes l).page (nth (s.lh d).lanes l).ptr)) d).lh d).seqn
      (nth (s.lh d).lanes l) (nextEntry s d l) codes := by
  have hwidth (c : Nat) : ((nth (s.lh d).lanes l).issueCyc = c && 4 ≤ (nth (s.lh d).lanes l).issueN) = false := by
    simp [Nat.not_le.2 hroom]
  have hnow : max (max t (nth (s.lh d).lanes l).predIssue) s.now = s.now := by omega
  have hbeyond : ¬s.now ≤ max t (nth (s.lh d).lanes l).predIssue := by omega
  have hlate : ¬s.now - t - 1 = 0 := by omega
  simp only [issueAt, hwidth, Bool.false_eq_true, if_false, hnow, hbeyond, hlate, decide_false, Bool.false_and]
  rfl

end issue

/-- A lane as it issued but for its events and the entry its next one follows: an event that it had stays. -/
structure Lane.Checked (x y : Lane) : Prop where
  rest : y = { x with levt := y.levt, predSeq := y.predSeq }
  events : ∀ i, bitOf x.levt i = true → bitOf y.levt i = true

theorem bitOf_orBit {w : Word} {i : Nat} (h : bitOf w i = true) (k : Nat) : bitOf (orBit w k) i = true := by
  rw [bitOf, orBit, BitVec.getLsbD_or, ← bitOf, h, Bool.true_or]

theorem Lane.checked_noted (cause : Nat) (x : Lane) : Lane.Checked x (x.noted cause) :=
  ⟨rfl, fun _ h => bitOf_orBit h cause⟩

/-- From s to t the entry that a lane has issued is taken or turned away. -/
structure TakesEntry (d : Die) (l : Nat) (s t : State) : Prop where
  touches : Touches (traced unitParts) s t
  own : Lane.Checked (nth (s.lh d).lanes l) (nth (t.lh d).lanes l)
  other : ∀ k, k ≠ l → nth (t.lh d).lanes k = nth (s.lh d).lanes k
  seqn : (t.lh d).seqn = (s.lh d).seqn

section taken

variable {s t : State} {d : Die} {l : Nat} (hl : l < (s.lh d).lanes.length)

include hl

theorem laneEvent_takes (cause : Nat) (detail : Word) : TakesEntry d l s (laneEvent s d l cause detail) := by
  have h := laneEvent_turns s d l cause detail
  exact ⟨h.touches.mono (by decide), h.own hl ▸ Lane.checked_noted _ _, h.other, h.seqn⟩

theorem Enters.takes {x : InFl} (h : Enters d l x s t) : TakesEntry d l s t := by
  obtain ⟨_, _, hlh⟩ := h.lh
  refine ⟨h.touches.mono (by decide), ?_, fun k hk => ?_, by rw [hlh]⟩
  · rw [hlh, nth_upd _ hl]
    exact ⟨rfl, fun _ => id⟩
  · rw [hlh, nth_upd_other _ hk]

theorem entryTaken_takes (c q : Nat) (ln : Lane) (e : Entry) (codes : List (BitVec 16)) :
    TakesEntry d l s (entryTaken s d l c q ln e codes) := by
  refine iteInduction (motive := TakesEntry d l s) (fun _ => laneEvent_takes hl _ _) fun _ =>
    iteInduction (motive := TakesEntry d l s) (fun _ => laneEvent_takes hl _ _) fun _ =>
      iteInduction (motive := TakesEntry d l s) (fun _ => ?_) fun _ => (enterWindow_enters _ _ _ _ _).takes hl
  exact ⟨.refl _ s, ⟨rfl, fun _ => id⟩, fun _ _ => rfl, rfl⟩

end taken

/-- From s to v a lane has issued its next entry; page boundaries that had come have passed. -/
structure Issued (d : Die) (l : Nat) (y : Lane) (s v : State) : Prop where
  touches : Touches ([.lhCs, .lhDs] ++ boundaryParts) s v
  own : nth (v.lh d).lanes l = y
  other : ∀ k, k ≠ l → nth (v.lh d).lanes k = { nth (s.lh d).lanes k with wrapDone := (nth (v.lh d).lanes k).wrapDone }
  infl : (v.lh d).infl = (s.lh d).infl
  seqn : (v.lh d).seqn = (s.lh d).seqn + 1

theorem laneIssued_issued {s : State} (hinv : Inv s) {d : Die} {l : Nat} (hl : l < laneCount d)
    (hwithin : 0 < (nth (s.lh d).lanes l).ptr ∨ (nth (s.lh d).lanes l).fresh = true) (page t c : Nat) (swept : Bool) :
    Issued d l ((nth (s.lh d).lanes l).issued (pageCount s d l page) t c swept) s (laneIssued s d l page t c swept) := by
  have hpass := lanesDue_passes s d
  obtain ⟨_, hlh⟩ := hpass.lh
  have hlane := lanesDue_lane hwithin
  have hcount := hpass.touches.pageCount_eq (by decide)
  have hlen := (hpass.touches.inv hinv).lane_lt hl
  have hturn := modLane_turns (lanesDue s d) d l fun x => x.issued (pageCount (lanesDue s d) d l page) t c swept
  have hv : (laneIssued s d l page t c swept).lh d = _ := setLh_lh _ d _
  refine ⟨?_, ?_, fun k hk => ?_, ?_, ?_⟩
  · exact .after (by decide) (setLh_touches _ d _ rfl) <| .after (by decide) hturn.touches hpass.touches
  · rw [hv]
    exact (hturn.own hlen).trans (by rw [hlane, hcount])
  · rw [hv]
    dsimp only
    rw [hturn.other k hk]
    exact hpass.noted k
  · rw [hv]
    dsimp only
    rw [hturn.infl, hlh]
  · rw [hv]
    dsimp only
    rw [hlh]

end Sys2Proof.Machine
end

section
namespace Sys2Proof.Machine

/-! ## What becomes of an issued entry (R152, R167, R170, R171) -/

/-- What a FENCE waits for hangs on the window and on what its entries write. -/
theorem awaited_eq {s t : State} {d : Die} (hinfl : (t.lh d).infl = (s.lh d).infl)
    (hwrites : entryWrites t = entryWrites s) (l fn q : Nat) : awaited t d l fn q = awaited s d l fn q := by
  unfold awaited
  rw [hinfl, hwrites]

/-- An entry that waits for nothing: a NOP, or a FENCE with no entry before it that it waits for. -/
def Entry.idle (s : State) (d : Die) (l q : Nat) (e : Entry) : Prop :=
  e.opcode = oNOP ∨ (e.opcode = oFENCE ∧ (awaited s d l e.fn q).length = 0)

/-- The slot of an issued entry. -/
def issuedSlot (l c q : Nat) (ln : Lane) (e : Entry) : InFl :=
  { seqn := q, lane := l, page := ln.page, idx := ln.ptr, w := [e.w0, e.w1, e.w2, e.w3], issueAt := c
    acceptAt := none, retireAt := none, vals := [] }

section outcomes

variable {s : State} {d : Die} {l c q : Nat} {ln : Lane} {e : Entry} {codes : List (BitVec 16)}

theorem entryTaken_badChk (h : e.chkOk = false) :
    entryTaken s d l c q ln e codes = laneEvent s d l 2 (laneDetail 0 ln.page ln.ptr) := by
  simp [entryTaken, h]

theorem entryTaken_badEngine (h : e.chkOk = true) (hbad : engRefBad s d e = true) :
    entryTaken s d l c q ln e codes = laneEvent s d l 3 (laneDetail 0 ln.page ln.ptr) := by
  simp [entryTaken, h, hbad]

theorem entryTaken_idle (h : e.chkOk = true) (hgood : engRefBad s d e = false) (hidle : e.idle s d l q) :
    entryTaken s d l c q ln e codes = s := by
  simp only [entryTaken, h, hgood, Bool.not_true, Bool.false_eq_true, if_false]
  exact if_pos (by simpa [Entry.idle] using hidle)

theorem entryTaken_busy (h : e.chkOk = true) (hgood : engRefBad s d e = false) (hbusy : ¬e.idle s d l q) :
    entryTaken s d l c q ln e codes = enterWindow s d l (issuedSlot l c q ln e) codes := by
  simp only [entryTaken, h, hgood, Bool.not_true, Bool.false_eq_true, if_false]
  exact if_neg (by simpa [Entry.idle] using hbusy)

/-- A lane event sets its bit and leaves the window. -/
theorem laneEvent_notes (hl : l < (s.lh d).lanes.length) {cause : Nat} (hc : cause < 32) (detail : Word) :
    bitOf (nth ((laneEvent s d l cause detail).lh d).lanes l).levt cause = true
      ∧ ((laneEvent s d l cause detail).lh d).infl = (s.lh d).infl :=
  have h := laneEvent_turns s d l cause detail
  ⟨bitOf_of_eq_orBit (congrArg Lane.levt (h.own hl)) hc, h.infl⟩

theorem Enters.levt {t : State} {x : InFl} (h : Enters d l x s t) (hl : l < (s.lh d).lanes.length) :
    (nth (t.lh d).lanes l).levt = (nth (s.lh d).lanes l).levt := by
  obtain ⟨_, _, hlh⟩ := h.lh
  rw [hlh, nth_upd _ hl]
  rfl

/-- What the checks make of an issued entry: turned away with an event of its lane, done at once, or in the window. -/
theorem entryTaken_outcome (hl : l < (s.lh d).lanes.length) {t : State} (ht : entryTaken s d l c q ln e codes = t) :
    (e.chkOk = false → bitOf (nth (t.lh d).lanes l).levt 2 = true ∧ (t.lh d).infl = (s.lh d).infl)
      ∧ (e.chkOk = true → engRefBad s d e = true →
        bitOf (nth (t.lh d).lanes l).levt 3 = true ∧ (t.lh d).infl = (s.lh d).infl)
      ∧ (e.chkOk = true → engRefBad s d e = false → (nth (t.lh d).lanes l).levt = (nth (s.lh d).lanes l).levt
        ∧ (e.idle s d l q → (t.lh d).infl = (s.lh d).infl)
        ∧ (¬e.idle s d l q → ∃ z ∈ (t.lh d).infl, HeldAs s d (issuedSlot l c q ln e) z)) := by
  refine ⟨fun h => ?_, fun h hbad => ?_, fun h hgood => ?_⟩
  · rw [entryTaken_badChk h] at ht
    exact ht ▸ laneEvent_notes hl (by decide) _
  · rw [entryTaken_badEngine h hbad] at ht
    exact ht ▸ laneEvent_notes hl (by decide) _
  · by_cases hidle : e.idle s d l q
    · rw [entryTaken_idle h hgood hidle] at ht
      exact ht ▸ ⟨rfl, fun _ => rfl, fun k => absurd hidle k⟩
    · rw [entryTaken_busy h hgood hidle] at ht
      have henter := enterWindow_enters s d l (issuedSlot l c q ln e) codes
      exact ht ▸ ⟨henter.levt hl, fun k => absurd k hidle, fun _ => henter.holds⟩

end outcomes

/-! ## The rows of the Light List -/

/-- The instructions of the rows, each with its opcode and variant. -/
def listRows (d : Die) (lane : Fin 4) (codes : List (BitVec 16)) : List (Instr × Nat × Nat) :=
  [(.nop d lane, oNOP, 0), (.sample d lane codes, oSAMPLE, 0), (.read d lane, oREAD, 0), (.move d lane, oMOVE, 0),
    (.run d lane, oRUN, 0), (.load d lane, oLOAD, 0), (.write d lane, oWRITE, 0), (.blendRamp d lane, oBLEND, 0),
    (.blendMix d lane, oBLEND, 1), (.limitRange d lane, oLIMIT, 0), (.limitSym d lane, oLIMIT, 1),
    (.commit d lane, oCOMMIT, 0), (.scan d lane, oSCAN, 0), (.snap d lane, oSNAP, 0), (.fenceAll d lane, oFENCE, 0),
    (.fenceData d lane, oFENCE, 1), (.fenceOut d lane, oFENCE, 2), (.mark d lane, oMARK, 0),
    (.signalKeeper d lane, oSIGNAL, 0), (.signalWatchRoom d lane, oSIGNAL, 1)]

/-- Every row issues its lane's next entry, a SAMPLE with the results its ADCs give. -/
theorem listRows_issue (d : Die) (lane : Fin 4) (codes : List (BitVec 16)) : ∀ r ∈ listRows d lane codes,
    ∃ cs, ∀ s, exec r.1 s = .next (issueEntry d lane.val r.2.1 r.2.2 cs s) := by
  simp only [listRows, List.forall_mem_cons]
  exact ⟨⟨_, fun _ => rfl⟩, ⟨_, fun _ => rfl⟩, ⟨_, fun _ => rfl⟩, ⟨_, fun _ => rfl⟩, ⟨_, fun _ => rfl⟩, ⟨_, fun _ => rfl⟩,
    ⟨_, fun _ => rfl⟩, ⟨_, fun _ => rfl⟩, ⟨_, fun _ => rfl⟩, ⟨_, fun _ => rfl⟩, ⟨_, fun _ => rfl⟩, ⟨_, fun _ => rfl⟩,
    ⟨_, fun _ => rfl⟩, ⟨_, fun _ => rfl⟩, ⟨_, fun _ => rfl⟩, ⟨_, fun _ => rfl⟩, ⟨_, fun _ => rfl⟩, ⟨_, fun _ => rfl⟩,
    ⟨_, fun _ => rfl⟩, ⟨_, fun _ => rfl⟩, fun _ h => absurd h List.not_mem_nil⟩

/-- A running lane whose next entry is of the row and not held back issues it at its trigger. -/
theorem issueEntry_ready {s : State} {d : Die} {l op fn tr : Nat} (hrun : (nth (s.lh d).lanes l).run = true)
    (hl : l < laneCount d) (hdrain : (nth (s.lh d).lanes l).drain = false) (hmerge : (nth (s.lh d).lanes l).merging = false)
    (hrow : (nextEntry s d l).isRow op fn = true) (hblocked : blocked s d l (nextEntry s d l) = false)
    (htrig : laneTrigger s d l = some tr) (codes : List (BitVec 16)) :
    issueEntry d l op fn codes s = issueAt s d l tr codes := by
  simp [issueEntry, hrun, hl, hdrain, hmerge, hrow, hblocked, htrig]

/-- What a row that issues an entry may touch: the pages turn, the entry is taken, and where its unit is free that unit
is taken with it. -/
def rowParts : List Part := traced [.now, .mem, .buoys, .beamsCs, .beamsDs, .lhCs, .lhDs, .engCs, .engDs, .pairCs, .pairDs,
  .pwmCs, .pwmDs, .mach, .candle, .legs, .prot, .wr, .conv, .ac, .gact, .temp, .lamp, .ckCs, .ckDs]

/-- The frame of a row whose entry issues and is taken. -/
theorem Issued.taken {d : Die} {l : Nat} {y : Lane} {s u v t : State} (hiss : Issued d l y u v) (h : Touches rowParts s u)
    (htakes : TakesEntry d l v t) : Touches rowParts s t :=
  .after (by decide) htakes.touches (.after (by decide) hiss.touches h)

/-- Settles O36: the issue in the trigger cycle (`issueAt_onTime`), what it makes of the lane (`laneIssued_issued`), then
each outcome of the checks of the entry. -/
theorem entriesIssueAtTheirTrigger : Obligations.EntriesIssueAtTheirTrigger := by
  unfold Obligations.EntriesIssueAtTheirTrigger
  intro die lane codes tr s hinv ln e q last r hr hrun hl hdrain hmerge hrow hblocked htrig hnow hpred hroom hwithin
  obtain ⟨cs, hexec⟩ := listRows_issue die lane codes r hr
  have hadv := advanceTo_touches s tr
  have hlh : (s.advanceTo tr).lh die = s.lh die := advanceTo_lh s tr die
  have hiss := laneIssued_issued (s := s.advanceTo tr) (hadv.inv hinv) hl (by rwa [hlh]) ln.page tr tr true
  have hq : ((lanesDue (s.advanceTo tr) die).lh die).seqn = q := by
    obtain ⟨_, h⟩ := (lanesDue_passes (s.advanceTo tr) die).lh
    rw [h, hlh]
  generalize hv : laneIssued (s.advanceTo tr) die lane.val ln.page tr tr true = v at hiss
  have hstep : exec r.1 s = .next (entryTaken v die lane.val tr q ln e cs) := by
    rw [hexec, issueEntry_ready hrun hl hdrain hmerge hrow hblocked htrig, issueAt_onTime hnow hpred hroom, hq, ← hv]
  have hlen : lane.val < (v.lh die).lanes.length := (hiss.touches.inv (hadv.inv hinv)).lane_lt hl
  have htakes := entryTaken_takes hlen tr q ln e cs
  have hbefore : Touches (.now :: [.lhCs, .lhDs] ++ boundaryParts) s v := .after (by decide) hiss.touches (hadv.mono (by decide))
  have hown : nth (v.lh die).lanes lane.val = ln.issued (pageCount s die lane.val ln.page) tr tr true := by
    rw [hiss.own, hlh, hadv.pageCount_eq (by decide)]
  have hinfl : (v.lh die).infl = (s.lh die).infl := by rw [hiss.infl, hlh]
  have hvnow : v.now = tr := by rw [hiss.touches.now (by decide)]; exact max_eq_right hnow
  have hrest := htakes.own.rest
  rw [hown] at hrest
  have heng : engRefBad v die e = engRefBad s die e := by
    rw [hbefore.engRefBad_eq (by decide)]
  have hidle : e.idle v die lane.val q ↔ (e.opcode = oNOP ∨ (e.opcode = oFENCE ∧ (awaited s die lane.val e.fn q).length = 0)) := by
    rw [Entry.idle, awaited_eq hinfl (hbefore.entryWrites_eq (by decide))]
  obtain ⟨hchk, hbad, hgood⟩ := entryTaken_outcome hlen (rfl : entryTaken v die lane.val tr q ln e cs = _)
  rw [heng, hinfl, hown] at hgood
  rw [heng, hinfl] at hbad
  rw [hinfl] at hchk
  refine ⟨_, hstep, (htakes.touches.now (by decide)).trans hvnow, fun h => ?_, fun h => ?_, ?_, ?_, ?_, hchk, hbad, fun hc hg => ?_,
    fun k hk => ?_, (hiss.taken (hadv.mono (by decide)) htakes).onlyChanges⟩
  · rw [hrest]
    simp [Lane.issued, show pageCount s die lane.val ln.page ≤ ln.ptr + 1 from h]
  · rw [hrest]
    simp [Lane.issued, show ¬pageCount s die lane.val ln.page ≤ ln.ptr + 1 from h]
  · rw [hrest]
    rfl
  · rw [htakes.seqn, hiss.seqn, hlh]
  · rw [hrest]
    rfl
  · obtain ⟨hlevt, hdone, hwindow⟩ := hgood hc hg
    refine ⟨hlevt, fun h => hdone (hidle.2 h), fun h => ?_⟩
    obtain ⟨z, hz, hheld⟩ := hwindow fun k => h (hidle.1 k)
    refine ⟨z, hz, hheld.seqn, hheld.lane, hheld.entry, hheld.issueAt, fun hu hf => ?_⟩
    obtain ⟨haccept, hretire⟩ := hheld.accepts hu hf
    rw [hvnow] at haccept hretire
    exact ⟨haccept, hretire.trans (congrArg (fun n => some (tr + n)) (latency_of_noUnit hu v s die))⟩
  · rw [htakes.other k hk, hiss.other k hk, hlh]

/-! ## A late entry (R153, R172) -/

/-- The rows whose lateness is stated are rows of the Light List. -/
theorem lateRows_subset (d : Die) (lane : Fin 4) : ([(.nop d lane, oNOP, 0), (.run d lane, oRUN, 0),
    (.fenceAll d lane, oFENCE, 0)] : List (Instr × Nat × Nat)) ⊆ listRows d lane [] := by
  simp [listRows]

/-- Settles O37: the overrun noted in the cycle of the issue (`issueAt_late`, `overrun_turns`) outlives the issue and the
checks of the entry. -/
theorem lateEntriesCountAsOverruns : Obligations.LateEntriesCountAsOverruns := by
  unfold Obligations.LateEntriesCountAsOverruns
  intro die lane tr s hinv ln e r hr hrun hl hdrain hmerge hrow hblocked htrig hlate hpred hroom hwithin
  obtain ⟨cs, hexec⟩ := listRows_issue die lane [] r (lateRows_subset die lane hr)
  have hadv := advanceTo_touches s s.now
  have hlh : (s.advanceTo s.now).lh die = s.lh die := advanceTo_lh s s.now die
  have hover := overrun_turns (s.advanceTo s.now) die lane.val (laneDetail (s.now - tr - 1) ln.page ln.ptr)
  have hlen : lane.val < ((s.advanceTo s.now).lh die).lanes.length := (hadv.inv hinv).lane_lt hl
  have hnoted := hover.own hlen
  have hothers := hover.other
  rw [hlh] at hnoted hothers
  have hstep := (hexec s).trans (congrArg Host.Outcome.next
    ((issueEntry_ready hrun hl hdrain hmerge hrow hblocked htrig cs).trans (issueAt_late hlate hpred hroom)))
  generalize overrun (s.advanceTo s.now) die lane.val (laneDetail (s.now - tr - 1) ln.page ln.ptr) = u at *
  have hu : Inv u := hover.touches.inv (hadv.inv hinv)
  have hiss := laneIssued_issued hu hl (by rw [hnoted]; exact hwithin) ln.page tr s.now false
  have htakes := entryTaken_takes ((hiss.touches.inv hu).lane_lt hl) s.now ((lanesDue u die).lh die).seqn ln e cs
  have hrest := htakes.own.rest
  have hbit := htakes.own.events 1
  rw [hiss.own, hnoted] at hrest hbit
  refine ⟨_, hstep, ?_, ?_, ?_, ?_, hbit (bitOf_of_eq_orBit rfl (by decide)), ?_, fun k hk => ?_, ?_⟩
  · exact (htakes.touches.now (by decide)).trans <| (hiss.touches.now (by decide)).trans <|
      (hover.touches.now (by decide)).trans (max_self _)
  · rw [hrest]; rfl
  · rw [hrest]; rfl
  · rw [hrest]; rfl
  · rw [hrest]
    exact Nat.mod_eq_of_lt (Nat.max_lt.2 ⟨BitVec.isLt _, fld_lt _ 31 16⟩)
  · rw [htakes.other k hk, hiss.other k hk, hothers k hk]
  · exact (hiss.taken (hadv.mono (by decide) |>.trans (hover.touches.mono (by decide))) htakes).onlyChanges

end Sys2Proof.Machine
end

section
namespace Sys2Proof.Machine

/-! ## Two statements that fail -/

/-- The checkpoint of an engine with one state mantissa too many is a word longer than the 38 of the format. -/
theorem ckptWords_length {x : Eng} (h : x.st.length = 33) (t : Word) : (ckptWords x t).length = 39 := by
  simp [ckptWords, h]

theorem memGetBytes_length (m : List Host.Cell) (a n : Nat) : (memGetBytes m a n).length = n := by
  simp [memGetBytes]

/-- Engine 0 of the DS die has 33 state mantissas, which the invariant does not exclude, and its SNAP is about to
retire. -/
def snapOfLongState : State :=
  { State.reset with
    lhDs := { State.reset.lhDs with infl := [⟨0, 0, 0, 0, [0, 0x000B0000, 0, 0], 0, some 0, some 0, []⟩] }
    engDs := upd State.reset.engDs 0 fun x => { x with st := List.replicate 33 0 } }

/-- Refutes O38: the invariant does not bound the state mantissas of an engine, and the checkpoint of an engine that has
33 of them, in place of 22, does not fit the 152 bytes that SNAP is said to leave. -/
theorem not_entriesAreAcceptedAndRetire : ¬ Obligations.EntriesAreAcceptedAndRetire := by
  unfold Obligations.EntriesAreAcceptedAndRetire
  intro h
  have hretire := (h .ds snapOfLongState ⟨by decide +kernel, by decide +kernel⟩).2 none
  obtain ⟨t, -, -, -, -, -, -, -, -, -, -, -, -, heng, -⟩ :=
    hretire.2 ⟨0, 0, 0, 0, [0, 0x000B0000, 0, 0], 0, some 0, some 0, []⟩ (by decide +kernel)
  obtain ⟨-, hsnap, -⟩ := heng (by decide +kernel) (by decide +kernel) (by decide +kernel) (by decide +kernel) (by decide +kernel)
  obtain ⟨-, -, hbytes⟩ := hsnap (by decide +kernel)
  have hlen := congrArg List.length hbytes
  rw [memGetBytes_length, bytesOf_length, ckptWords_length (by decide +kernel)] at hlen
  exact absurd hlen (by decide)

/-- Pair 0 of the DS die is about to be merged, and its primary has stopped an integrator. -/
def mergeOfStopped : State :=
  { State.reset with
    lhDs := { State.reset.lhDs with
      lanes := upd State.reset.lhDs.lanes 0 fun l => { l with merging := true, drainPairs := 1 } }
    pairDs := upd State.reset.pairDs 0 fun x => { x with mode := 2 }
    engDs := upd State.reset.engDs 0 fun x => { x with istopped := true } }

/-- The pair is BROKEN by its merge. -/
theorem mergeOfStopped_breaks : Runs (.mergeCopyComplete .ds 0 0 none) mergeOfStopped fun t => (nth (t.pairs .ds) 0).mode = 3 :=
  ⟨_, rfl, by decide +kernel⟩

/-- Refutes O41: the copy of a merge leaves out ISTOPPED, which the compare that follows takes in (R218), so a primary with
a stopped integrator is BROKEN by its merge though no engine is halted. -/
theorem not_pairsMergeRestoreAndHalt : ¬ Obligations.PairsMergeRestoreAndHalt := by
  unfold Obligations.PairsMergeRestoreAndHalt
  intro h
  obtain ⟨t, he, -, -, -, -, -, -, -, hmerged, -⟩ :=
    h.1 .ds 0 0 mergeOfStopped ⟨by decide +kernel, by decide +kernel⟩ (by decide) (by decide) (by decide +kernel)
      (by decide +kernel) (by decide +kernel)
  obtain ⟨u, hu, hbroken⟩ := mergeOfStopped_breaks
  obtain rfl : t = u := Host.Outcome.next.inj (he.symm.trans hu)
  obtain ⟨hmode, -⟩ := hmerged (by decide +kernel) (by decide +kernel)
  exact absurd (hmode.symm.trans hbroken) (by decide)

end Sys2Proof.Machine
end

section
namespace Sys2Proof.Machine

/-! ## The store (R39) -/

/-- Memory after bytes were written into words of which some are worn. -/
def wornPut (s : State) (a : Nat) (bs : List Byte) : List Host.Cell :=
  (List.range bs.length).foldl
    (fun m i => if s.nv.worn.contains ((a + i) / 8) then m else memPut m (a + i) (bs.getD i 0)) s.mem

theorem wf_wornPut {s : State} (h : Memory.wf s.mem = true) (a : Nat) (bs : List Byte) :
    Memory.wf (wornPut s a bs) = true := by
  refine List.foldlRecOn _ _ (motive := fun m => Memory.wf m = true) h fun m hm i _ => ?_
  split
  · exact hm
  · exact Memory.wf_memPut _ _ hm

theorem storeWrite_touches (s : State) (a : Nat) (bs : List Byte) :
    Touches (traced [.mem, .nv]) s (storeWrite s a bs).1 := by
  have hfail (t : State) : Touches (traced [.mem, .nv]) t (nvEvent t 3 1 1) := (nvEvent_touches _ _ _ _).mono (by decide)
  have hput (v : Nv) (hv : v.logNext = s.nv.logNext) : Touches (traced [.mem, .nv]) s { s with mem := wornPut s a bs, nv := v } :=
    (memNv_touches s _ v (wf_wornPut · a bs) hv).mono (by decide)
  unfold storeWrite
  split
  · exact .refl _ s
  split
  · exact hfail s
  dsimp only
  split
  · exact hput _ rfl
  · refine .trans ?_ (hfail _)
    exact hput _ rfl

/-! ## The lamp-hours unit at a commit point (R463 to R465) -/

/-- What a commit point may touch: where the values in use act, and the unit's log in the store. -/
def commitParts : List Part := traced [.mem, .nv, .pwmCs, .pwmDs, .prot, .temp, .lamp]

theorem modTemp_touches (s : State) (n : Nat) (f : Temp → Temp) : Touches [.temp] s (s.modTemp n f) :=
  .of_update (fun p => by have k := p.agree_refl s; cases p <;> exact k) rfl rfl (by simp [shape, State.modTemp, upd])

theorem laEvent_touches (s : State) (inst unit elem cause : Nat) (detail : Word) :
    Touches (traced [.lamp]) s (laEvent s inst unit elem cause detail) :=
  .after (by decide) (countEvent_touches _ _) ((lamp_touches s _).mono (by decide))

theorem fenceApply_touches (s : State) (q i : Nat) (v : Int) :
    Touches [.pwmCs, .pwmDs, .prot, .temp, .lamp] s (fenceApply s q i v) := by
  unfold fenceApply
  split
  · exact (modChan_touches _ _ _ _).mono (by decide)
  · exact (modChan_touches _ _ _ _).mono (by decide)
  · exact .mono (by decide) (prot_touches s _ (List.length_modify ..) rfl rfl rfl)
  · exact (modChan_touches _ _ _ _).mono (by decide)
  · exact (modChan_touches _ _ _ _).mono (by decide)
  · exact (modTemp_touches _ _ _).mono (by decide)
  · exact (lamp_touches s _).mono (by decide)
  · exact .refl _ s

/-- The log's position after a record, which the unit keeps as its last. -/
def logPlaced (s : State) (r : List Word) : State :=
  { s with nv := { s.nv with lseq := s.nv.lseq + 1, lampPos := (s.nv.lampPos + 1) % 8192 }
           lamp := { s.lamp with last := r, evt := orBit s.lamp.evt 16 } }

theorem logPlaced_touches (s : State) (r : List Word) : Touches [.nv, .lamp] s (logPlaced s r) :=
  .trans ((nv_touches s { s.nv with lseq := s.nv.lseq + 1, lampPos := (s.nv.lampPos + 1) % 8192 } rfl).mono (by decide))
    ((lamp_touches { s with nv := _ } _).mono (by decide))

theorem lampPut_touches (s : State) (w : List Word) : Touches commitParts s (lampPut s w) := by
  have hplaced (r : List Word) :
      Touches commitParts s (logPlaced (storeWrite s (lampAddr s.nv.lampPos) (bytesOf r)).1 r) :=
    .after (by decide) (logPlaced_touches _ r) ((storeWrite_touches s _ _).mono (by decide))
  unfold lampPut
  dsimp only
  split
  · exact hplaced _
  · exact .after (by decide) (laEvent_touches _ _ _ _ _ _) (.after (by decide) (lamp_touches _ _) (hplaced _))

theorem lampTurn_touches (s : State) : Touches commitParts s (lampTurn s) := by
  have hread (l : List Nat) : Touches commitParts s (l.foldl (fun (r : State × List (List Word)) i =>
      ((lampRead r.1 i).1, r.2 ++ [(lampRead r.1 i).2])) (s, [])).1 :=
    List.foldlRecOn _ _ (motive := fun r : State × List (List Word) => Touches commitParts s r.1) (.refl _ s)
      fun r h i _ => .after (by decide) (storeRead_touches r.1 (lampAddr i) 32) h
  unfold lampTurn
  split
  · exact .refl _ s
  dsimp only
  refine (hread _).trans (Touches.foldl (fun t k => ?_) _ _)
  split
  · exact lampPut_touches t _
  · exact .refl _ t

theorem lampLog_touches (s : State) (code q i : Nat) (old new : Word) :
    Touches commitParts s (lampLog s code q i old new) := by
  unfold lampLog
  exact (lampTurn_touches s).trans (lampPut_touches _ _)

theorem commitOne_touches (s : State) (f : Fence) : Touches commitParts s (commitOne s f) := by
  have happly (v : Lamp) (q i : Nat) (n : Int) : Touches commitParts s (fenceApply { s with lamp := v } q i n) :=
    .after (by decide) (fenceApply_touches _ q i n) ((lamp_touches s v).mono (by decide))
  have hlog (t : State) (v : Lamp) (code q i : Nat) (old new : Word) :
      Touches commitParts t (lampLog { t with lamp := v } code q i old new) :=
    .trans ((lamp_touches t v).mono (by decide)) (lampLog_touches _ _ _ _ _ _)
  unfold commitOne
  split
  · dsimp only
    split
    · exact .refl _ s
    have hhit (v : Lamp) (n : Int) (c : Bool) (inst unit elem cause : Nat) (detail : Word) :
        Touches commitParts s (if c then laEvent (fenceApply { s with lamp := v } f.qty f.inst n) inst unit elem cause detail
          else fenceApply { s with lamp := v } f.qty f.inst n) :=
      (happly v f.qty f.inst n).trans (.ite_self ((laEvent_touches _ _ _ _ _ _).mono (by decide)))
    exact .ite (fun _ => hhit _ _ _ _ _ _ _ _) fun _ => (hhit _ _ _ _ _ _ _ _).trans (hlog _ _ _ _ _ _ _)
  · exact .refl _ s

theorem lampCommit_touches (s : State) : Touches commitParts s (lampCommit s) := by
  have hnote (v : Lamp) : Touches commitParts s { s with lamp := v } := (lamp_touches s v).mono (by decide)
  unfold lampCommit
  split
  · exact .refl _ s
  · exact (hnote _).trans (Touches.foldl commitOne_touches _ _)

end Sys2Proof.Machine
end

section
namespace Sys2Proof.Machine

/-! ## Updates of several pairs (R178, R227 to R230) -/

/-- A fold of one update over places of a list, where the update made twice is the update: the places named have it. -/
theorem nth_foldl_upd {α : Type} [Inhabited α] {g : α → α} (hg : ∀ x, g (g x) = g x) (ps : List Nat) (l : List α) {k : Nat}
    (hk : k < l.length) : nth (ps.foldl (fun l p => upd l p g) l) k = if k ∈ ps then g (nth l k) else nth l k := by
  induction ps generalizing l with
  | nil => simp
  | cons p ps ih =>
    rw [List.foldl_cons, ih _ (by simpa [upd] using hk)]
    by_cases hp : k = p
    · subst hp
      rw [nth_upd _ hk]
      simp [hg]
    · rw [nth_upd_other _ hp]
      simp [hp]

theorem nth_foldl_upd_other {α : Type} [Inhabited α] (g : α → α) {ps : List Nat} (l : List α) {k : Nat} (hk : k ∉ ps) :
    nth (ps.foldl (fun l p => upd l p g) l) k = nth l k := by
  induction ps generalizing l with
  | nil => rfl
  | cons p ps ih =>
    obtain ⟨hp, hps⟩ := not_or.1 (List.mem_cons.not.1 hk)
    rw [List.foldl_cons, ih _ hps, nth_upd_other _ hp]

/-- A pair whose merge copy runs. -/
def Pair.copying (x : Pair) : Pair := { x with mode := 2 }

/-- A pair that splits, where it is not split yet. -/
def Pair.splits (x : Pair) : Pair :=
  if x.mode = 1 || x.mode = 7 then x
  else { x with mode := 1, dbgBroken := false, apart := true, isRecover := false, holdCnt := 0 }

theorem Pair.splits_splits (x : Pair) : x.splits.splits = x.splits := by
  unfold Pair.splits
  split <;> simp_all

theorem Pair.splits_mode {x : Pair} (h : x.mode ≠ 7) : x.splits.mode = 1 := by
  unfold Pair.splits
  split <;> simp_all

theorem modPair_pairs (s : State) (d : Die) (p : Nat) (f : Pair → Pair) : (s.modPair d p f).pairs d = upd (s.pairs d) p f := by
  cases d <;> rfl

/-- An update hangs on what its function makes of the element. -/
theorem upd_congr {α : Type} [Inhabited α] {l : List α} {p : Nat} {f g : α → α} (h : f (nth l p) = g (nth l p)) :
    upd l p f = upd l p g := by
  rw [upd, upd, List.modify_eq_set_getElem?, List.modify_eq_set_getElem?]
  rcases hp : l[p]? with _ | x
  · rfl
  · have hn : nth l p = x := by simp [nth, List.getD_eq_getElem?_getD, hp]
    rw [hn] at h
    simp [h]

theorem splitPair_pairs (s : State) (d : Die) (p : Nat) : (splitPair s d p).pairs d = upd (s.pairs d) p Pair.splits := by
  unfold splitPair
  dsimp only
  split
  · rename_i h
    rw [upd_congr (g := id) (by simp [Pair.splits, h]), upd, List.modify_id]
  · rename_i h
    rw [(modEng_touches _ _ _ _).pairs d (by decide), modPair_pairs]
    exact upd_congr (by simp [Pair.splits, h])

theorem splitPair_touches (s : State) (d : Die) (p : Nat) :
    Touches [.engCs, .engDs, .pairCs, .pairDs] s (splitPair s d p) := by
  unfold splitPair
  dsimp only
  split
  · exact .refl _ s
  · exact .after (by decide) (modEng_touches _ _ _ _) ((modPair_touches _ _ _ _).mono (by decide))

/-! ## The end of a drain (R178) -/

/-- The pairs that the drain of a lane splits or merges. -/
def drained (s : State) (d : Die) (l : Nat) : List Nat :=
  (maskPairs d (nth (s.lh d).lanes l).drainPairs.toNat).filter fun p => (nth (s.pairs d) p).mode != 7

/-- A lane whose drain, noted to have ended in a cycle, ends with its pairs. -/
def Lane.endDrain (merge : Bool) (t : Nat) (ps : List Nat) (ln : Lane) : Lane :=
  if merge then { ln.watchFrom (t + 32) with drain := false, merging := ps ≠ [], mergeAt := t }
  else { ln.watchFrom (t + 1) with drain := false }

/-- What the end of a drain may touch. -/
def drainParts : List Part := [.lhCs, .lhDs, .engCs, .engDs, .pairCs, .pairDs]

/-- A fold of updates of pairs, as the list of pairs has it. -/
theorem foldl_pairs {f : State → Nat → State} {g : Pair → Pair} {d : Die}
    (hf : ∀ t p, (f t p).pairs d = upd (t.pairs d) p g) (ps : List Nat) (s : State) :
    (ps.foldl f s).pairs d = ps.foldl (fun l p => upd l p g) (s.pairs d) := by
  induction ps generalizing s with
  | nil => rfl
  | cons p ps ih => rw [List.foldl_cons, ih, hf, List.foldl_cons]

/-- What the end of a drain makes of its pairs. -/
def Pair.drained (merge : Bool) : Pair → Pair := if merge then Pair.copying else Pair.splits

theorem Pair.drained_drained (merge : Bool) (x : Pair) : (x.drained merge).drained merge = x.drained merge := by
  cases merge
  · exact x.splits_splits
  · rfl

/-- The pairs of the drain, updated one after the other. -/
def pairsDrained (s : State) (d : Die) (ps : List Nat) (merge : Bool) : State :=
  ps.foldl (fun s p => if merge then s.modPair d p Pair.copying else splitPair s d p) s

theorem pairsDrained_touches (s : State) (d : Die) (ps : List Nat) (merge : Bool) :
    Touches [.engCs, .engDs, .pairCs, .pairDs] s (pairsDrained s d ps merge) :=
  Touches.foldl (fun t p => .ite (fun _ => (modPair_touches t d p _).mono (by decide)) fun _ => splitPair_touches t d p) ps s

theorem pairsDrained_pairs (s : State) (d : Die) (ps : List Nat) (merge : Bool) :
    (pairsDrained s d ps merge).pairs d = ps.foldl (fun l p => upd l p (Pair.drained merge)) (s.pairs d) := by
  refine foldl_pairs (fun t p => ?_) ps s
  cases merge
  · exact splitPair_pairs t d p
  · exact modPair_pairs t d p _

theorem drainEnd_eq (s : State) (d : Die) (l : Nat) : drainEnd s d l =
    (pairsDrained s d (drained s d l) (nth (s.lh d).lanes l).drainMerge).modLane d l
      (Lane.endDrain (nth (s.lh d).lanes l).drainMerge (nth (s.lh d).lanes l).drainAt (drained s d l)) := by
  unfold drainEnd pairsDrained Lane.endDrain
  dsimp only
  split <;> rfl

theorem drainEnd_turns (s : State) (d : Die) (l : Nat) : TurnsLane drainParts d l
    (Lane.endDrain (nth (s.lh d).lanes l).drainMerge (nth (s.lh d).lanes l).drainAt (drained s d l)) s (drainEnd s d l) := by
  rw [drainEnd_eq]
  have hpairs : TurnsLane drainParts d l id s _ :=
    ((pairsDrained_touches s d (drained s d l) (nth (s.lh d).lanes l).drainMerge).turnsLane (by decide) d l).mono (by decide)
  exact hpairs.andTurns (by decide) (modLane_turns _ d l (Lane.endDrain _ _ _))

/-- The pairs of the drain, and no other, are drained. -/
theorem drainEnd_pairs (s : State) (d : Die) (l : Nat) : (drainEnd s d l).pairs d =
    (drained s d l).foldl (fun q p => upd q p (Pair.drained (nth (s.lh d).lanes l).drainMerge)) (s.pairs d) := by
  rw [drainEnd_eq, (modLane_touches _ d l _).pairs d (by decide), pairsDrained_pairs]

theorem maskPairs_lt {d : Die} {m p : Nat} (h : p ∈ maskPairs d m) : p < pairCount d :=
  List.mem_range.1 (List.mem_of_mem_filter h)

section drained

variable {s : State} {d : Die} {l p : Nat}

/-- A pair of the drain, of those a die has, is drained. -/
theorem drainEnd_pair (h : Inv s) (hp : p ∈ drained s d l) :
    nth ((drainEnd s d l).pairs d) p = (nth (s.pairs d) p).drained (nth (s.lh d).lanes l).drainMerge := by
  have hlt : p < (s.pairs d).length := (maskPairs_lt (List.mem_of_mem_filter hp)).trans_eq (h.pairs_length d).symm
  rw [drainEnd_pairs, nth_foldl_upd (Pair.drained_drained _) _ _ hlt, if_pos hp]

theorem drainEnd_pair_other (hp : p ∉ drained s d l) : nth ((drainEnd s d l).pairs d) p = nth (s.pairs d) p := by
  rw [drainEnd_pairs, nth_foldl_upd_other _ _ hp]

theorem drained_split (hp : p ∈ drained s d l) : (nth (s.pairs d) p).mode ≠ 7 := by
  simpa using (List.mem_filter.1 hp).2

end drained

/-- A lane that turns after the time has advanced. -/
theorem TurnsLane.advanced {P : List Part} {d : Die} {l tm : Nat} {f : Lane → Lane} {s t : State}
    (h : TurnsLane P d l f (s.advanceTo tm) t) : TurnsLane (.now :: P) d l f s t :=
  ⟨.after (List.subset_cons_self _ _) h.touches ((advanceTo_touches s tm).mono (by simp)), by rw [h.lh, advanceTo_lh]⟩

/-- The end of a drain does not hang on the time. -/
theorem drained_advanceTo (s : State) (tm : Nat) (d : Die) (l : Nat) : drained (s.advanceTo tm) d l = drained s d l := by
  cases d <;> rfl

/-! ## A swap (R176 to R178, R463) -/

/-- What a swap may touch. -/
def swapParts : List Part := traced [.mem, .nv, .lhCs, .lhDs, .engCs, .engDs, .pairCs, .pairDs, .pwmCs, .pwmDs, .prot,
  .temp, .lamp]

/-- What follows a swap leaves the page of the lane, where no request is held. -/
structure Lane.SamePage (x y : Lane) : Prop where
  page : y.page = x.page
  prev : y.prev = x.prev
  ptr : y.ptr = x.ptr
  passes : y.passes = x.passes
  held : x.held = none → y.held = none
  lastRef : y.lastRef = x.lastRef
  swTime : y.swTime = x.swTime

theorem Lane.samePage_endDrain (merge : Bool) (t : Nat) (ps : List Nat) (x : Lane) : x.SamePage (x.endDrain merge t ps) := by
  have hheld (u : Nat) (h : x.held = none) : (x.watchFrom u).held = none := by simp [Lane.watchFrom, h]
  unfold Lane.endDrain
  split
  · exact ⟨rfl, rfl, rfl, rfl, hheld _, rfl, rfl⟩
  · exact ⟨rfl, rfl, rfl, rfl, hheld _, rfl, rfl⟩

theorem Lane.endDrain_drain (merge : Bool) (t : Nat) (ps : List Nat) (x : Lane) : (x.endDrain merge t ps).drain = false := by
  cases merge <;> rfl

/-- A lane that starts to drain as a page asks. -/
def Lane.startDrain (h : PageHdr) (t : Nat) (ln : Lane) : Lane :=
  { ln with drain := true, drainPairs := BitVec.ofNat 8 (fld h.w2 7 0), drainMerge := bitOf h.w0 1, drainAt := t }

theorem Lane.SamePage.refl (x : Lane) : x.SamePage x := ⟨rfl, rfl, rfl, rfl, id, rfl, rfl⟩

theorem Lane.samePage_startDrain (h : PageHdr) (t : Nat) (x : Lane) : x.SamePage (x.startDrain h t) :=
  ⟨rfl, rfl, rfl, rfl, id, rfl, rfl⟩

theorem Lane.SamePage.trans {x y z : Lane} (h : x.SamePage y) (k : y.SamePage z) : x.SamePage z :=
  ⟨k.page.trans h.page, k.prev.trans h.prev, k.ptr.trans h.ptr, k.passes.trans h.passes, fun n => k.held (h.held n),
    k.lastRef.trans h.lastRef, k.swTime.trans h.swTime⟩

/-- A lane turns by something that leaves its page. -/
def StaysOn (d : Die) (l : Nat) (s t : State) : Prop :=
  ∃ g, (∀ x : Lane, x.SamePage (g x)) ∧ TurnsLane drainParts d l g s t

/-- What a page's MERGE and SPLIT ask for at its swap. -/
def pageDrain (s : State) (d : Die) (l : Nat) (h : PageHdr) : State :=
  if fld h.w0 1 0 = 0 then s
  else
    let t := s.modLane d l (Lane.startDrain h s.now)
    if drainWaits t d l then t else drainEnd t d l

theorem TurnsLane.refl (P : List Part) (d : Die) (l : Nat) (s : State) : TurnsLane P d l id s s :=
  ⟨.refl P s, by rw [upd, List.modify_id]⟩

theorem StaysOn.refl (d : Die) (l : Nat) (s : State) : StaysOn d l s s := ⟨id, Lane.SamePage.refl, .refl _ d l s⟩

theorem pageDrain_stays (s : State) (d : Die) (l : Nat) (h : PageHdr) : StaysOn d l s (pageDrain s d l h) := by
  have hstart : TurnsLane drainParts d l (Lane.startDrain h s.now) s _ := (modLane_turns s d l _).mono (by decide)
  have hstarted : StaysOn d l s _ := ⟨_, Lane.samePage_startDrain h s.now, hstart⟩
  refine iteInduction (motive := StaysOn d l s) (fun _ => .refl d l s) fun _ =>
    iteInduction (motive := StaysOn d l s) (fun _ => hstarted) fun _ =>
      ⟨_, fun x => ?_, hstart.andTurns (List.Subset.refl _) (drainEnd_turns _ d l)⟩
  exact (x.samePage_startDrain h s.now).trans (Lane.samePage_endDrain _ _ _ _)

/-- What takes effect at a swap before the page turns: staged blocks, and a re-plan on the DS die. -/
def swapReady (s : State) (d : Die) (l : Nat) : State :=
  match d with
  | .ds => lampCommit (stagedBoundary s d l)
  | .cs => stagedBoundary s d l

theorem swapReady_touches (s : State) (d : Die) (l : Nat) : Touches (commitParts ++ [.engCs, .engDs]) s (swapReady s d l) := by
  have hstaged := (stagedBoundary_touches s d l).mono (P := commitParts ++ [.engCs, .engDs]) (by decide)
  cases d
  · exact hstaged
  · exact .after (by decide) (lampCommit_touches _) hstaged

theorem Touches.count {P : List Part} {s t : State} (h : Touches P s t) (hP : .now ∉ P ∧ .csOfs ∉ P ∧ .dsOfs ∉ P) (d : Die) :
    count t d = count s d := by
  have hcs : t.csOfs = s.csOfs := h.agree .csOfs hP.2.1
  have hds : t.dsOfs = s.dsOfs := h.agree .dsOfs hP.2.2
  simp only [Machine.count, countAt, h.now hP.1, hcs, hds]

/-- The page of a lane as it turns at a swap. -/
def swapTurned (s : State) (d : Die) (l : Nat) (r : SwapReq) : State :=
  (swapReady s d l).modLane d l fun ln => ln.swapTo r (count s d) s.now

theorem swapTurned_turns (s : State) (d : Die) (l : Nat) (r : SwapReq) :
    TurnsLane swapParts d l (fun ln => ln.swapTo r (count s d) s.now) s (swapTurned s d l r) := by
  have hready : TurnsLane swapParts d l id s _ := ((swapReady_touches s d l).turnsLane (by decide) d l).mono (by decide)
  exact hready.andTurns (by decide) (modLane_turns _ d l fun ln => ln.swapTo r (count s d) s.now)

/-- A swap turns its lane, and then the page may ask for a drain. -/
theorem swapNow_stays (s : State) (d : Die) (l : Nat) (r : SwapReq) : StaysOn d l (swapTurned s d l r) (swapNow s d l r) := by
  have hready := swapReady_touches s d l
  rw [swapTurned, ← hready.count (by decide), ← hready.now (by decide)]
  unfold swapNow
  cases d <;>
  · dsimp only
    split
    · exact .refl _ l _
    · exact pageDrain_stays _ _ l _

/-- A swap turns its lane to the new page, which stays through the drain that the page may ask for. -/
theorem swapNow_turns (s : State) (d : Die) (l : Nat) (r : SwapReq) : ∃ g, (∀ x : Lane, x.SamePage (g x)) ∧
    TurnsLane swapParts d l (g ∘ fun ln => ln.swapTo r (count s d) s.now) s (swapNow s d l r) := by
  obtain ⟨g, hg, hturn⟩ := swapNow_stays s d l r
  exact ⟨g, hg, (swapTurned_turns s d l r).andTurns (by decide) hturn⟩

end Sys2Proof.Machine
end

section
namespace Sys2Proof.Machine

/-! ## Swap requests (R174, R179) -/

/-- What an answered write that turned a lane may touch. -/
def requestParts : List Part := [.acc, .lhCs, .lhDs]

section requests

variable {s : State} {d : Die} {l : Nat}

/-- A lane with a Keeper request held. -/
def Lane.holds (page t : Nat) (ln : Lane) : Lane := { ln with held := some ⟨1, page, t, none⟩, lastRef := 0 }

/-- A lane that refused a request. -/
def Lane.refused (c : Nat) (ln : Lane) : Lane := { ln with lastRef := c }

theorem lhRequest_held {p : Nat} (hl : l < laneCount d) (h : swapRefusal s d l p = 0) :
    lhRequest s d l p = (s.modLane d l (Lane.holds p s.now)).ok [] := by
  rw [lhRequest, if_neg (Nat.not_le.2 hl)]
  exact if_pos h

theorem lhRequest_refused {p : Nat} (hl : l < laneCount d) (h : swapRefusal s d l p ≠ 0) :
    lhRequest s d l p = (s.modLane d l (Lane.refused (swapRefusal s d l p))).refuse (swapRefusal s d l p) := by
  rw [lhRequest, if_neg (Nat.not_le.2 hl)]
  exact if_neg h

/-- An answer after a lane has turned. -/
theorem modLane_answered (s : State) (d : Die) (l : Nat) (f : Lane → Lane) (a : Access) :
    TurnsLane requestParts d l f s { s.modLane d l f with acc := a } :=
  have h : TurnsLane requestParts d l f s (s.modLane d l f) := (modLane_turns s d l f).mono (by decide)
  h.andThen (Q := [.acc]) (by decide) (by decide) (acc_touches _ a)

end requests

/-- The first of the grounds for a refusal stands (R63, R174). -/
theorem swapRefusal_spec (s : State) (d : Die) (l p : Nat) :
    (pageLoading s d l p = true → swapRefusal s d l p = 3)
      ∧ (pageLoading s d l p = false → hasContent s d l p = false → swapRefusal s d l p = 1)
      ∧ (pageLoading s d l p = false → hasContent s d l p = true → (nth (s.lh d).lanes l).run = true →
        (nth (s.lh d).lanes l).page = p → swapRefusal s d l p = 2)
      ∧ (swapRefusal s d l p = 4 →
        (nth (s.lh d).lanes l).prio = true ∨ ∃ r, (nth (s.lh d).lanes l).held = some r ∧ 2 ≤ r.rank) := by
  refine ⟨fun hload => ?_, fun hload hcont => ?_, fun hload hcont hrun hpage => ?_, fun h => ?_⟩
  · simp [swapRefusal, hload]
  · simp [swapRefusal, hload, hcont]
  · simp [swapRefusal, hload, hcont, hrun, hpage]
  · simp only [swapRefusal] at h
    split_ifs at h with hload hcont hactive hprio
    · exact absurd h (by decide)
    · exact absurd h (by decide)
    · exact absurd h (by decide)
    · rw [Bool.or_eq_true] at hprio
      rcases hprio with hp | hheld
      · exact .inl hp
      · split at hheld
        · exact .inr ⟨_, ‹_›, of_decide_eq_true hheld⟩
        · exact absurd hheld (by decide)

/-! ## Settling the swap of pages -/

/-- LH_SWAP_REQUEST turns the lane to hold the page, or to keep the refusal. -/
theorem lhSwapRequest_turns {s : State} {die : Die} {lane page : Nat} (hl : lane < laneCount die) :
    TurnsLane requestParts die lane
        (if swapRefusal s die lane page = 0 then Lane.holds page s.now else Lane.refused (swapRefusal s die lane page)) s
        (lhRequest s die lane page)
      ∧ (swapRefusal s die lane page = 0 → Answered (lhRequest s die lane page) 0 [])
      ∧ (swapRefusal s die lane page ≠ 0 → Refused (lhRequest s die lane page) (swapRefusal s die lane page)) := by
  by_cases h : swapRefusal s die lane page = 0
  · rw [if_pos h, lhRequest_held hl h]
    exact ⟨modLane_answered _ _ _ _ _, fun _ => rfl, fun k => absurd h k⟩
  · rw [if_neg h, lhRequest_refused hl h]
    exact ⟨modLane_answered _ _ _ _ _, fun k => absurd k h, fun _ => rfl⟩

/-- A lane with no request held. -/
def Lane.withdrawn (ln : Lane) : Lane := { ln with held := none }

/-- LH_SWAP_CANCEL answers, and turns a lane that holds a Keeper request. -/
theorem lhCancel_turns {s : State} {d : Die} {l : Nat} (hl : l < laneCount d) : ∃ f, TurnsLane requestParts d l f s (lhCancel s d l)
    ∧ Answered (lhCancel s d l) 0 []
    ∧ (∀ r, (nth (s.lh d).lanes l).held = some r → r.rank = 1 →
        f = if (nth (s.lh d).lanes l).run = true ∧ swapCycle s d l = some s.now then Lane.refused 5 else Lane.withdrawn)
    ∧ ((nth (s.lh d).lanes l).held = none → f = id) := by
  have hsame : TurnsLane requestParts d l id s (s.ok []) :=
    ((acc_touches s _).turnsLane (by decide) d l).mono (by decide)
  unfold lhCancel
  rw [if_neg (Nat.not_le.2 hl)]
  dsimp only
  cases hheld : (nth (s.lh d).lanes l).held with
  | none => exact ⟨id, hsame, rfl, fun r h => by simp at h, fun _ => rfl⟩
  | some r =>
    dsimp only
    by_cases hrank : r.rank = 1
    · rw [if_pos hrank]
      by_cases hnow : (nth (s.lh d).lanes l).run = true ∧ swapCycle s d l = some s.now
      · rw [if_pos (by simpa using hnow)]
        exact ⟨_, modLane_answered _ _ _ _ _, rfl, fun _ _ _ => (if_pos hnow).symm, fun h => by simp at h⟩
      · rw [if_neg (by simpa using hnow)]
        exact ⟨_, modLane_answered _ _ _ _ _, rfl, fun _ _ _ => (if_neg hnow).symm, fun h => by simp at h⟩
    · rw [if_neg hrank]
      refine ⟨id, hsame, rfl, fun q h hq => ?_, fun _ => rfl⟩
      obtain rfl : r = q := Option.some.inj h
      exact absurd hq hrank

/-- Settles O40: what each of the four operations makes of its lane, and of the pairs at the end of a drain. -/
theorem pagesSwapAtTheirCrossing : Obligations.PagesSwapAtTheirCrossing := by
  unfold Obligations.PagesSwapAtTheirCrossing
  intro die lane s hinv hl ln other
  have hlen : lane.val < (s.lh die).lanes.length := hinv.lane_lt hl
  refine ⟨fun page hopen => ?request, fun hopen => ?cancel, fun r tm hheld hcycle hrun hdrain hmerge => ?swap,
    fun hdrain hwaits => ?drain⟩
  case request =>
    obtain ⟨hturn, hheld, hrefused⟩ := lhSwapRequest_turns (s := s) (page := page.val) hl
    obtain ⟨hload, hcont, hactive, hprio⟩ := swapRefusal_spec s die lane.val page.val
    have hown := hturn.own hlen
    have hstep : exec (.lhSwapRequest die lane page) s = .next (lhRequest s die lane.val page.val) :=
      congrArg Host.Outcome.next (writeGate_open hopen _)
    refine ⟨_, hstep, ?_, fun h => ⟨hheld h, ?_⟩, fun h => ⟨hrefused h, ?_⟩, hload, hcont, hactive, hprio, hturn.other,
      hturn.touches.onlyChanges⟩
    · rw [hown]
      split
      · exact (‹swapRefusal s die lane.val page.val = 0›).symm
      · rfl
    · rw [hown, if_pos h]
      rfl
    · rw [hown, if_neg h]
      rfl
  case cancel =>
    obtain ⟨f, hturn, hans, hkeeper, hnone⟩ := lhCancel_turns (s := s) hl
    have hown := hturn.own hlen
    have hstep : exec (.lhSwapCancel die lane) s = .next (lhCancel s die lane.val) :=
      congrArg Host.Outcome.next (writeGate_open hopen _)
    refine ⟨_, hstep, hans, fun r hr hrank h => ?_, fun r hr hrank hrun hcycle => ?_, fun h => ?_, hturn.other,
      hturn.touches.onlyChanges⟩
    · rw [hown, hkeeper r hr hrank, if_neg h]
      rfl
    · rw [hown, hkeeper r hr hrank, if_pos ⟨hrun, hcycle⟩]
      rfl
    · rw [hown, hnone h]
      rfl
  case swap =>
    obtain ⟨g, hg, hturn⟩ := swapNow_turns (s.advanceTo tm) die lane.val r
    have hown := hturn.advanced.own hlen
    obtain ⟨hpage, hprev, hptr, hpasses, hnone, hlast, htime⟩ := hg (ln.swapTo r (count (s.advanceTo tm) die) (s.advanceTo tm).now)
    have hcount : count (swapNow (s.advanceTo tm) die lane.val r) die = count (s.advanceTo tm) die :=
      hturn.touches.count (by decide) die
    have hstep : exec (.pageSwap die lane) s = .next (swapNow (s.advanceTo tm) die lane.val r) := by
      refine congrArg Host.Outcome.next ?_
      simp only [show nth (s.lh die).lanes lane = ln from rfl, hheld, hcycle, hrun, hdrain, hmerge]
      rfl
    exact ⟨_, hstep, hturn.touches.now (by decide), (congrArg Lane.page hown).trans hpage, (congrArg Lane.prev hown).trans hprev,
      (congrArg Lane.ptr hown).trans hptr, (congrArg Lane.passes hown).trans hpasses, (congrArg Lane.held hown).trans (hnone rfl),
      (congrArg Lane.lastRef hown).trans hlast, (congrArg Lane.swTime hown).trans (htime.trans hcount.symm), hturn.advanced.infl,
      hturn.advanced.other, (hturn.advanced.touches.mono (by decide)).onlyChanges⟩
  case drain =>
    have hadv := advanceTo_touches s ln.drainAt
    have hturn := drainEnd_turns (s.advanceTo ln.drainAt) die lane.val
    have hown := hturn.advanced.own hlen
    have hpair {p : Nat} := drainEnd_pair (l := lane.val) (p := p) (hadv.inv hinv) (d := die)
    have hpair' {p : Nat} := drainEnd_pair_other (s := s.advanceTo ln.drainAt) (l := lane.val) (p := p) (d := die)
    rw [drained_advanceTo, hadv.pairs die (by decide)] at hpair hpair'
    rw [advanceTo_lh] at hown hpair
    have hstep : exec (.drainComplete die lane) s = .next (drainEnd (s.advanceTo ln.drainAt) die lane.val) := by
      refine congrArg Host.Outcome.next (if_neg ?_)
      simp [show nth (s.lh die).lanes lane = ln from rfl, hdrain, hwaits]
    refine ⟨_, hstep, hturn.touches.now (by decide), (congrArg Lane.drain hown).trans (Lane.endDrain_drain _ _ _ _),
      (congrArg Lane.page hown).trans (Lane.samePage_endDrain _ _ _ _).page, hturn.advanced.other,
      fun hmerge => ⟨?_, fun p hp => ?_⟩, fun hsplit p hp => ?_, fun p hp => hpair' hp,
      (hturn.advanced.touches.mono (by decide)).onlyChanges⟩
    · rw [hown, show (nth (s.lh die).lanes lane.val).drainMerge = true from hmerge, drained_advanceTo]
      exact decide_eq_true_iff
    · rw [hpair hp, show (nth (s.lh die).lanes lane.val).drainMerge = true from hmerge]
      rfl
    · rw [hpair hp, show (nth (s.lh die).lanes lane.val).drainMerge = false from hsplit]
      exact Pair.splits_mode (drained_split hp)

end Sys2Proof.Machine
end

section
namespace Sys2Proof.Machine

/-! ## Legs and Candles (R283 to R288, R305, R333) -/

theorem modLeg_touches (s : State) (c : Nat) (f : Leg → Leg) : Touches [.legs] s (s.modLeg c f) :=
  .of_update (fun p => by have k := p.agree_refl s; cases p <;> exact k) rfl rfl (by simp [shape, State.modLeg, upd])

/-- What a machine's step state and mode may touch. -/
def candleParts : List Part := [.candle, .legs, .pwmCs] ++ machParts

theorem noteHalf_touches (s : State) (d : Die) (c : Nat) (r : HalfRef) : Touches [.legs, .pwmCs, .pwmDs] s (noteHalf s d c r) := by
  have hchan (t : State) : Touches [.legs, .pwmCs, .pwmDs] t (t.modChan d c fun x => { x with cduty := r.duty }) :=
    (modChan_touches t d c _).mono (by decide)
  cases d
  · exact hchan s
  · exact .trans (.ite_self ((modLeg_touches _ _ _).mono (by decide))) (hchan _)

theorem replanLeg_touches (s : State) (c t : Nat) : Touches [.pwmCs, .pwmDs] s (replanLeg s c t) :=
  modChan_touches _ _ _ _

theorem replanPair_touches (s : State) (c : Nat) : Touches [.legs, .pwmCs, .pwmDs] s (replanPair s c) :=
  .after (by decide) (modChan_touches _ _ _ _) (noteHalf_touches _ _ _ _)

theorem replanLegs_touches (s : State) (l : List Nat) :
    Touches [.pwmCs, .pwmDs] s (l.foldl (fun s c => replanLeg s c (now16 s)) s) :=
  Touches.foldl (fun t c => replanLeg_touches t c _) l s

theorem modLegs_touches (s : State) (l : List Nat) (f : Leg → Leg) :
    Touches [.legs] s (l.foldl (fun s c => s.modLeg c f) s) :=
  Touches.foldl (fun t c => modLeg_touches t c f) l s

theorem applyFloat_touches (s : State) (m : Nat) : Touches [.legs, .pwmCs, .pwmDs] s (applyFloat s m) :=
  Touches.foldl (fun _ _ => .after (by decide) (modChan_touches _ _ _ _) ((modLeg_touches _ _ _).mono (by decide))) _ s

theorem replanSet0_touches (s : State) (m : Nat) : Touches [.pwmCs, .pwmDs] s (replanSet0 s m) := replanLegs_touches s _

theorem chopCheck_touches (s : State) (m : Nat) : Touches [.candle, .legs, .pwmCs, .pwmDs] s (chopCheck s m) :=
  .ite_self <| .after (by decide) (replanSet0_touches _ m) <| .after (by decide) (modLegs_touches _ _ _) <|
    (modCandle_touches s m _).mono (by decide)

theorem chopEnd_touches (s : State) (m : Nat) : Touches [.candle, .legs, .pwmCs, .pwmDs] s (chopEnd s m) :=
  .ite_self <| .after (by decide) (chopCheck_touches _ m) <| .after (by decide) (replanSet0_touches _ m) <|
    .after (by decide) (modLegs_touches _ _ _) <| (modCandle_touches s m _).mono (by decide)

theorem setPattern_touches (s : State) (m p : Nat) : Touches [.candle, .legs, .pwmCs, .pwmDs] s (setPattern s m p) := by
  unfold setPattern
  exact .trans (.after (by decide) (replanSet0_touches _ m) <| .after (by decide) (applyFloat_touches _ m) <|
    .after (by decide) (modLegs_touches _ _ _) <| (modCandle_touches s m _).mono (by decide))
    (.ite_self (chopCheck_touches _ m))

theorem stepPattern_touches (s : State) (m : Nat) : Touches [.candle, .legs, .pwmCs, .pwmDs] s (stepPattern s m) :=
  .ite_self (setPattern_touches _ _ _)

theorem posLoss_touches (s : State) (m : Nat) : Touches machParts s (posLoss s m) := wfEvent_touches _ _ _ _ _

/-- What a machine does as a mode of it begins: it floats and looks for its position, or has a pattern (R283, R284). -/
def modeRuns (s : State) (m mode : Nat) : State :=
  match mode with
  | 1 =>
    if posValid s m then applyFloat s m
    else posLoss (applyFloat (s.modMach m fun x => { x with badEntry := true, posLost := true }) m) m
  | 3 => stepPattern (setPattern s m 7) m
  | _ => setPattern s m 7

theorem modeRuns_touches (s : State) (m mode : Nat) : Touches candleParts s (modeRuns s m mode) := by
  have hpat : Touches candleParts s (setPattern s m 7) := (setPattern_touches s m 7).mono (by decide)
  unfold modeRuns
  split
  · refine .ite (fun _ => (applyFloat_touches s m).mono (by decide)) fun _ => ?_
    exact .after (by decide) (posLoss_touches _ m) <| .after (by decide) (applyFloat_touches _ m) <|
      (modMach_touches s m _).mono (by decide)
  · exact .after (by decide) (stepPattern_touches _ m) hpat
  · exact hpat

/-- The overcurrent code of a machine's comparator follows its mode. -/
theorem gcCode_touches (s : State) (g : Nat) (code : BitVec 10) :
    Touches [.prot] s { s with prot := { s.prot with gc := upd s.prot.gc g fun c => { c with code := code } } } :=
  prot_touches s _ rfl rfl (List.length_modify ..) rfl

theorem replanPairs_touches (s : State) (l : List Nat) : Touches [.legs, .pwmCs, .pwmDs] s (l.foldl replanPair s) :=
  Touches.foldl replanPair_touches l s

theorem enterMode_touches (s : State) (m mode : Nat) : Touches candleParts s (enterMode s m mode) := by
  unfold enterMode
  refine .ite (fun _ => .refl _ s) fun _ => .trans ?_ (modeRuns_touches _ m mode)
  refine .trans ?_ (.ite_self ((replanPairs_touches _ _).mono (by decide)))
  refine .after (by decide) (modCandle_touches _ _ _) <| .after (by decide) (inhNote_touches _) <|
    .after (by decide) (modMach_touches _ _ _) ?_
  exact .ite_self ((gcCode_touches _ _ _).mono (by decide))

theorem machUpdate_touches (s : State) (m : Nat) : Touches candleParts s (machUpdate s m) := by
  have hmode (f : Mach → Mach) (mode : Nat) : Touches candleParts s (enterMode (s.modMach m f) m mode) :=
    .trans ((modMach_touches s m f).mono (by decide)) (enterMode_touches _ m mode)
  have hpairs (t : State) (l : List Nat) : Touches candleParts t (l.foldl replanPair t) :=
    (replanPairs_touches t l).mono (by decide)
  have hlegs (t : State) (l : List Nat) :
      Touches candleParts t (l.foldl (fun s c => if (nth s.legs c).h then replanLeg s c (now16 s) else s) t) :=
    Touches.foldl (fun _ _ => .ite_self ((replanLeg_touches _ _ _).mono (by decide))) l t
  unfold machUpdate
  split
  · exact .refl _ s
  · exact .trans (hmode _ _) (.ite (fun _ => hpairs _ _) fun _ => .ite_self (hlegs _ _))

theorem machBoundary_touches (s : State) (m : Nat) : Touches candleParts s (machBoundary s m) :=
  .after (by decide) (chopEnd_touches _ m) <| .ite_self <| .after (by decide) (applyFloat_touches _ m) <|
    (modMach_touches s m _).mono (by decide)

end Sys2Proof.Machine
end

section
namespace Sys2Proof.Machine

/-! ## Converters at the boundary of their group (R388 to R397) -/

/-- What a converter's evaluation may touch. -/
def convParts : List Part := .conv :: protParts

section conv

variable (s : State) (i : Nat)

theorem modConv_in (f : Conv → Conv) : Touches convParts s (s.modConv i f) := (modConv_touches s i f).mono (by decide)

theorem cvEnter_in (st : Nat) : Touches convParts s (cvEnter s i st) := (cvEnter_touches s i st).mono (by decide)

theorem cvOff_in (seen : Bool) : Touches convParts s (cvOff s i seen) := (cvOff_touches s i seen).mono (by decide)

theorem cvEvent_touches (cause : Nat) (detail : Word) : Touches convParts s (cvEvent s i cause detail) :=
  .after (by decide) (countEvent_touches _ _) (modConv_in s i _)

theorem cvPeriod_touches : Touches convParts s (cvPeriod s i) := modConv_in s i _

theorem cvSoftstart_touches : Touches convParts s (cvSoftstart s i) := (cvEnter_in s i 1).trans (modConv_in _ i _)

theorem cvOnShort_touches : Touches convParts s (cvOnShort s i) := by
  unfold cvOnShort
  extract_lets x v s1
  have hshort : Touches convParts s s1 := cvEvent_touches s i 2 _
  refine hshort.trans (.ite (fun _ => ?_) fun _ => ?_)
  · exact (cvEnter_in s1 i 3).trans (modConv_in _ i _)
  · exact (cvEnter_in s1 i 4).trans (cvLatch_touches _ i 3 _)

theorem cvTransit_touches : Touches convParts s (cvTransit s i) := by
  unfold cvTransit
  extract_lets x en t busy retry0
  have hstart : Touches convParts s t := .ite (fun _ => .refl _ s) fun _ => modConv_in s i _
  have hretry (u : State) : Touches convParts u (retry0 u) := modConv_in u i _
  refine hstart.trans ?_
  clear_value t
  split
  · exact (cvOff_in t i _).trans (cvEvent_touches _ i 4 _)
  refine .ite (fun _ => ?ovp) fun _ => .ite (fun _ => ?off) fun _ => .ite (fun _ => cvOnShort_touches t i) fun _ => ?state
  case ovp => exact .trans (.ite_self (hretry t)) ((cvEnter_in _ i 5).trans (cvLatch_touches _ i 1 _))
  case off => exact (cvOff_in t i true).trans (hretry _)
  case state =>
    split
    · exact .ite_self ((modConv_in t i _).trans (cvSoftstart_touches _ i))
    · exact .ite_self ((cvEnter_in t i 2).trans (modConv_in _ i _))
    · exact .ite_self (cvSoftstart_touches t i)
    · exact .ite (fun _ => .refl _ t) fun _ => (cvOff_in t i _).trans (hretry _)
    · exact .refl _ t

theorem cvEvaluate_touches : Touches convParts s (cvEvaluate s i) := (cvPeriod_touches s i).trans (cvTransit_touches _ i)

end conv

theorem cvBoundary_touches (s : State) (d : Die) (g : Nat) : Touches convParts s (cvBoundary s d g) :=
  Touches.foldl (fun t i => .ite_self (cvEvaluate_touches t i)) _ s

/-! ## A beam's update on its own die (R127, R130, R135) -/

theorem directUpdate_touches (s : State) (b : Nat) : Touches (traced beamParts) s (directUpdate s b) := by
  have hP : beamParts ⊆ traced beamParts := by decide
  have hmod (t : State) (d : Die) (f : Beam → Beam) : Touches (traced beamParts) t (t.modBeam d b f) :=
    (modBeam_touches t d b f).mono (by decide)
  unfold directUpdate
  extract_lets d a u wasStale s1 s2 s3 s4
  have hstale : Touches (traced beamParts) s s2 := .trans (hmod s d _) <|
    .ite (fun _ => (notStale_touches s1 b).mono hP) fun _ => (leaveStale_touches s1 b).mono hP
  have hjump : Touches (traced beamParts) s s3 := hstale.trans (jumpCheck_touches s2 b _ _)
  have hanchor : Touches (traced beamParts) s s4 := hjump.trans <| (hmod s3 d _).trans ((updAnchor_touches _ d b a).mono hP)
  exact hanchor.trans (.ite_self ((stalePolicy_touches s4 d b).mono hP))

/-! ## A carrier group's boundary without a transfer (R240 to R245, R254) -/

theorem modGrp_touches (s : State) (d : Die) (g : Nat) (f : Grp → Grp) : Touches [.pwmCs, .pwmDs] s (s.modGrp d g f) :=
  setPwm_touches s d _ (List.length_modify ..) rfl

/-- What a group's period may touch. -/
def groupParts : List Part := traced [.pwmCs, .pwmDs]

theorem grpEvent_touches (s : State) (d : Die) (g cause : Nat) (detail : Word) :
    Touches groupParts s (grpEvent s d g cause detail) :=
  .after (by decide) (countEvent_touches _ _) ((modGrp_touches s d g _).mono (by decide))

theorem unlock_touches (s : State) (d : Die) (g reason : Nat) : Touches groupParts s (unlock s d g reason) :=
  .trans ((modGrp_touches s d g _).mono (by decide)) (grpEvent_touches _ d g 3 _)

theorem nextPeriod_touches (s : State) (d : Die) (g k u : Nat) (cross : Bool) : Touches groupParts s (nextPeriod s d g k u cross) := by
  have hmod (f : Grp → Grp) : Touches groupParts s (s.modGrp d g f) := (modGrp_touches s d g f).mono (by decide)
  unfold nextPeriod
  split
  · exact .ite (fun _ => hmod _) fun _ => .ite (fun _ => hmod _) fun _ => unlock_touches s d g _
  · exact hmod _
  · exact .refl _ s

theorem pushHalves_touches (s : State) (d : Die) (c b per : Nat) : Touches [.pwmCs, .pwmDs] s (pushHalves s d c b per) :=
  modChan_touches s d c _

theorem gact_touches (s : State) (v : List Act) (h : v.length = s.gact.length) : Touches [.gact] s { s with gact := v } :=
  .of_update (fun p => by have k := p.agree_refl s; cases p <;> exact k) rfl rfl (by simp [shape, h])

theorem gearBoundary_touches (s : State) (g : Nat) : Touches [.gact] s (gearBoundary s g) :=
  gact_touches s _ List.length_mapIdx

/-- What a group's boundary may touch beside the transfer of duties. -/
def turnParts : List Part := [.beamsCs, .beamsDs, .conv, .gact] ++ candleParts

theorem boundaryAt_touches (s : State) (d : Die) (g b : Nat) (cross : Bool) :
    Touches turnParts s (boundaryAt s d g b cross false) := by
  unfold boundaryAt
  extract_lets u bs old s1 s2 s3 per ms s4 s5 s6 s7 s8
  have hpwm {t : State} {f : State → Nat → State} (hf : ∀ t c, Touches [.pwmCs, .pwmDs] t (f t c)) (l : List Nat) :
      Touches turnParts t (l.foldl f t) := (Touches.foldl hf l t).mono (by decide)
  have h1 : Touches turnParts s s1 := .refl _ s
  have h2 : Touches turnParts s s2 := .after (by decide) (nextPeriod_touches s1 d g old.k u cross) h1
  have h3 : Touches turnParts s s3 := .after (by decide) (modGrp_touches s2 d g _) h2
  have h4 : Touches turnParts s s4 := h3.trans (hpwm (fun t c => pushHalves_touches t d c b per) ms)
  have h5 : Touches turnParts s s5 := h4.trans (hpwm (fun t c => .ite_self (modChan_touches t d c _)) ms)
  have h6 : Touches turnParts s s6 := h5.trans (.ite_self ((gearBoundary_touches s5 g).mono (by decide)))
  have h7 : Touches turnParts s s7 := .after (by decide) (Touches.foldl directUpdate_touches bs s6) h6
  have h8 : Touches turnParts s s8 := by
    refine h7.trans ?_
    unfold s8
    split
    · exact .after (by decide) (machBoundary_touches _ _) ((machUpdate_touches s7 _).mono (by decide))
    · exact .refl _ s7
  exact .after (by decide) (cvBoundary_touches s8 d g) h8

end Sys2Proof.Machine
end

section
namespace Sys2Proof.Machine

/-! ## Comparators at the start of page 0 (R321) -/

/-- What a comparator that asserts may touch. -/
def assertParts : List Part := [.conv, .pwmCs, .candle, .legs] ++ protParts

theorem modComp_touches (s : State) (c : Comp) (f : CompSt → CompSt) : Touches [.prot] s (modComp s c f) := by
  cases c with
  | trip n => exact prot_touches s _ (List.length_modify ..) rfl rfl rfl
  | hard n => exact prot_touches s _ rfl (List.length_modify ..) rfl rfl
  | gc n => exact prot_touches s _ rfl rfl (List.length_modify ..) rfl

theorem cpEvtBit_touches (s : State) (c : Comp) (cause : Nat) : Touches [.prot] s (cpEvtBit s c cause) := by
  unfold cpEvtBit
  split <;> exact modComp_touches _ _ _

theorem latchComp_touches (s : State) (src : Nat) (atPage0 : Bool) : Touches protParts s (latchComp s src atPage0) :=
  .ite (fun _ => .refl _ s) fun _ => latchWith_touches (List.Subset.refl _) _ _ _ fun _ => .mono (by decide) (countEvent_touches _ _)

theorem compAsserts_touches (s : State) (c : Comp) : Touches protParts s (compAsserts s c) := by
  unfold compAsserts
  split
  · exact .after (by decide) (countEvent_touches _ _) ((cpEvtBit_touches s c 5).mono (by decide))
  · exact .trans (.ite_self ((cpEvtBit_touches s c _).mono (by decide))) (latchComp_touches _ _ _)

theorem setChop_touches (s : State) : Touches protParts s (setChop s) := by
  unfold setChop
  refine .ite (fun _ => .refl _ s) fun _ => .after (by decide) (applyOverrides_touches _) ?_
  exact .mono (by decide) (prot_touches s _ rfl rfl rfl rfl)

theorem ov1Change_touches (s : State) (g : Nat) (active : Bool) : Touches protParts s (ov1Change s g active) := by
  unfold ov1Change
  refine .ite (fun _ => .refl _ s) fun _ => ?_
  extract_lets code prot s1 s2
  have h1 : Touches protParts s s1 := .mono (by decide) (prot_touches s _ rfl rfl (List.length_modify ..) rfl)
  exact (h1.trans (.ite_self (latchFixed_touches s1 _ _))).trans (setChop_touches s2)

theorem limitHit_touches (s : State) (g : Nat) : Touches assertParts s (limitHit s g) :=
  .ite_self <| .trans ((holdLow_touches _ _ _ _).mono (by decide)) <|
    Touches.foldl (fun _ _ => (modConv_touches _ _ _).mono (by decide)) _ _

theorem liveAsserts_touches (s : State) (c : Comp) : Touches assertParts s (liveAsserts s c) := by
  have hcomp : Touches assertParts s (compAsserts s c) := (compAsserts_touches s c).mono (by decide)
  unfold liveAsserts
  split
  · split
    · exact .ite_self ((ov1Change_touches s _ true).mono (by decide))
    · exact (latchFixed_touches s _ _).mono (by decide)
    · exact .ite_self (.mono (by decide) (prot_touches s _ rfl rfl rfl rfl))
    · exact limitHit_touches s _
    · exact Touches.foldl (fun t m => .ite_self ((chopCheck_touches t m).mono (by decide))) _ s
    · exact hcomp
  · exact hcomp

theorem page0Comp_touches (s : State) (c : Comp) : Touches assertParts s (page0Comp s c) := by
  unfold page0Comp
  extract_lets t source
  have hlive : Touches assertParts s t := (modComp_touches s c _).mono (by decide)
  have hevt (cause : Nat) : Touches assertParts t (cpEvtBit t c cause) := (cpEvtBit_touches t c cause).mono (by decide)
  have hsource : Touches assertParts t (source t) := .ite_self <| (hevt 4).trans ((latchComp_touches _ _ _).mono (by decide))
  refine hlive.trans (.ite (fun _ => .refl _ t) fun _ => ?_)
  split
  · refine .ite (fun _ => hsource) fun _ => .ite (fun _ => ?_) fun _ => liveAsserts_touches t _
    exact latchWith_touches (by decide) _ _ _ fun u =>
      .after (by decide) (countEvent_touches _ _) ((cpEvtBit_touches u _ 4).mono (by decide))
  · exact hsource

theorem page0Prot_touches (s : State) : Touches assertParts s (page0Prot s) := by
  have hplain (t : State) (src : Nat) : Touches assertParts t (latchPlain t src id) :=
    latchPlain_touches (by decide) t src (Touches.refl _)
  have hcomps : Touches assertParts s (allComps.foldl page0Comp (setSeverity s)) :=
    .trans ((setSeverity_touches s).mono (by decide)) (Touches.foldl page0Comp_touches _ _)
  unfold page0Prot
  extract_lets s1 s2 s3
  have h2 : Touches assertParts s s2 := hcomps.trans (.ite_self (hplain s1 _))
  have h3 : Touches assertParts s s3 := h2.trans (.ite_self (hplain s2 _))
  exact h3.trans (.ite_self (hplain s3 _))

/-! ## The Watch Room at the start of page 0 (R353, R358) -/

/-- What a lockout or degraded mode may touch. -/
def roomParts : List Part := [.sysEvt, .nv, .lhCs, .lhDs, .pwmCs, .wr]

theorem applyHolds_touches (s : State) : Touches [.pwmCs] s (applyHolds s) := by
  refine .trans ?_ (applyCsOverrides_touches _)
  exact pwmCs_touches s _ rfl List.length_mapIdx

theorem wrPages_touches (s : State) (p0 p1 : Nat) : Touches [.lhCs, .lhDs] s (wrPages s p0 p1) :=
  .trans (.ite (fun _ => .refl _ s) fun _ => swapRequest_touches s _ _ _ _)
    (.ite (fun _ => .refl _ _) fun _ => swapRequest_touches _ _ _ _ _)

theorem enterDegraded_touches (s : State) (react : Nat) (code : BitVec 16) :
    Touches roomParts s (enterDegraded s react code) :=
  .after (by decide) (wrPages_touches _ _ _) ((modWr_touches s _ rfl).mono (by decide))

/-- The lockout in the event word and in the store. -/
theorem lockNoted_touches (s : State) (e : Word) (b : Bool) :
    Touches [.sysEvt, .nv] s { s with sys := { s.sys with sysEvt := e }, nv := { s.nv with lockRec := b } } :=
  .trans ((sysEvt_touches s e).mono (by decide))
    (.mono (by decide) (nv_touches { s with sys := { s.sys with sysEvt := e } } { s.nv with lockRec := b } rfl))

theorem enterLockout_touches (s : State) (react : Nat) (code : BitVec 16) : Touches roomParts s (enterLockout s react code) := by
  have hwr (f : Wr → Wr) (hf : (f s.wr).inbox = s.wr.inbox) : Touches roomParts s (s.modWr f) := (modWr_touches s f hf).mono (by decide)
  unfold enterLockout
  refine .ite (fun _ => hwr _ rfl) fun _ => .after (by decide) (wrPages_touches _ _ _) ?_
  refine .after (by decide) (applyHolds_touches _) <| .after (by decide) (lockNoted_touches _ _ _) (hwr _ rfl)

theorem wrCommand_touches (s : State) : Touches [.wr] s (wrCommand s) := by
  unfold wrCommand
  extract_lets nt st
  split
  exact modWr_touches s _ rfl

theorem wrPage0_touches (s : State) : Touches roomParts s (wrPage0 s) := by
  have hwr (t : State) (f : Wr → Wr) (hf : (f t.wr).inbox = t.wr.inbox) : Touches roomParts t (t.modWr f) :=
    (modWr_touches t f hf).mono (by decide)
  have hcmd {t : State} (h : Touches roomParts s t) : Touches roomParts s (wrCommand t) := .after (by decide) (wrCommand_touches t) h
  unfold wrPage0
  refine .ite (fun _ => .refl _ s) fun _ => ?_
  extract_lets t u
  have ht : Touches roomParts s t := hwr s _ rfl
  split
  · exact hcmd (ht.trans (enterLockout_touches t _ _))
  · refine .ite (fun _ => hcmd (ht.trans (enterLockout_touches t _ _))) fun _ => ?_
    have hu : Touches roomParts s u := ht.trans (hwr t _ rfl)
    refine hcmd ?_
    split
    · exact hu.trans (enterDegraded_touches u _ _)
    · exact hu

/-! ## The boot area written (R39, R40, R55) -/

/-- What a write of the boot area may touch. -/
def bootParts : List Part := traced [.nv]

theorem nvWritten (s : State) (v : Nv) (h : v.logNext = s.nv.logNext) : Touches bootParts s { s with nv := v } :=
  (nv_touches s v h).mono (by decide)

theorem nvFailed (s : State) (v : Nv) (h : v.logNext = s.nv.logNext) : Touches bootParts s (nvEvent { s with nv := v } 3 1 1) :=
  .after (by decide) (nvEvent_touches _ _ _ _) (nvWritten s v h)

theorem keysWrite_touches (s : State) (keys : List KeyEntry) : Touches bootParts s (keysWrite s keys).1 := by
  unfold keysWrite
  extract_lets c nv t
  have ht : Touches bootParts s t := nvWritten s _ rfl
  split
  · exact nvFailed s _ rfl
  split
  · exact ht.trans (nvFailed t _ rfl)
  · exact ht.trans (nvWritten t _ rfl)

theorem recWrite_touches (s : State) (boot : Boot) : Touches bootParts s (recWrite s boot).1 := by
  unfold recWrite
  extract_lets c nv t
  have ht : Touches bootParts s t := nvWritten s _ rfl
  split
  · exact nvFailed s _ rfl
  split
  · exact ht.trans (nvFailed t _ rfl)
  · exact ht.trans (nvWritten t _ rfl)

theorem bootWrite_touches (s : State) (f : BootArea → BootArea) : Touches bootParts s (bootWrite s f).1 := by
  unfold bootWrite
  split
  · exact (nvEvent_touches s 3 1 1).mono (by decide)
  extract_lets b c
  have hkeys : Touches bootParts s (if c.keys = b.keys then (s, true) else keysWrite s c.keys).1 := by
    split
    · exact .refl _ s
    · exact keysWrite_touches s _
  generalize (if c.keys = b.keys then (s, true) else keysWrite s c.keys) = r at hkeys
  dsimp only
  split
  · exact hkeys
  · exact hkeys.trans (recWrite_touches _ _)

theorem bootReady_touches (s : State) : Touches bootParts s (bootReady s) :=
  .ite (fun _ => .refl _ s) fun _ => bootWrite_touches s _

end Sys2Proof.Machine
end

section
namespace Sys2Proof.Machine

/-! ## The units at the start of page 0 (R173, R186, R200, R226, R245, R254, R305, R490) -/

theorem setCks_touches (s : State) (d : Die) (v : List Ck) (h : v.length = (s.cks d).length) :
    Touches [.ckCs, .ckDs] s (s.setCks d v) := by
  cases d <;>
    exact .of_update (fun p => by have k := p.agree_refl s; cases p <;> exact k) rfl rfl
      (by simp_all [shape, State.cks, State.setCks])

theorem page0Cks_touches (s : State) (d : Die) : Touches [.ckCs, .ckDs] s (page0Cks s d) :=
  setCks_touches s d _ (List.length_map _)

theorem writeCkpt_touches (s : State) (d : Die) (e : Nat) : Touches [.mem, .log, .engCs, .engDs] s (writeCkpt s d e) :=
  .after (by decide) (modEng_touches _ _ _ _) <| .mono (by decide) (mem_touches s _ (Memory.wf_memPutWords _ _))

theorem page0Engs_touches (s : State) (d : Die) : Touches [.mem, .log, .engCs, .engDs] s (page0Engs s d) :=
  .trans (Touches.foldl (fun _ _ => (modEng_touches _ _ _ _).mono (by decide)) _ s)
    (Touches.foldl (fun t e => writeCkpt_touches t d e) _ _)

theorem can_touches (s : State) (v : List Can) (h : v.length = s.can.length) : Touches [.can] s { s with can := v } :=
  .of_update (fun p => by have k := p.agree_refl s; cases p <;> exact k) rfl rfl (by simp [shape, h])

theorem net_touches (s : State) (v : Net) : Touches [.net] s { s with net := v } :=
  .of_update (fun p => by have k := p.agree_refl s; cases p <;> exact k) rfl rfl rfl

theorem page0Can_touches (s : State) : Touches [.can, .net] s (page0Can s) := by
  unfold page0Can
  extract_lets t
  have hcan : Touches [.can, .net] s t := .mono (by decide) (can_touches s _ List.length_mapIdx)
  exact hcan.trans (.ite_self ((net_touches t _).mono (by decide)))

theorem fb_touches (s : State) (v : List Fb) (h : v.length = s.fb.length) : Touches [.fb] s { s with fb := v } :=
  .of_update (fun p => by have k := p.agree_refl s; cases p <;> exact k) rfl rfl (by simp [shape, h])

theorem page0Fbs_touches (s : State) : Touches [.fb] s (page0Fbs s) := by
  unfold page0Fbs
  refine .trans ?_ (Touches.foldl (fun t c => .ite_self (modFb_turns t c _).touches) _ _)
  exact fb_touches s _ List.length_mapIdx

theorem page0Beams_touches (s : State) : Touches (traced beamParts) s (page0Beams s) := by
  refine .trans (Touches.foldl (fun _ _ => .ite_self ((modBeam_touches _ _ _ _).mono (by decide))) _ s)
    (Touches.foldl (fun t b => ?_) _ _)
  refine .ite (fun _ => .refl _ t) fun _ => .ite (fun _ => directUpdate_touches t b) fun _ => ?_
  exact .ite_self ((stalePolicy_touches t _ b).mono (by decide))

theorem page0Pwm_touches (s : State) (d : Die) : Touches turnParts s (page0Pwm s d) := by
  unfold page0Pwm
  refine .trans ?_ (Touches.foldl (fun t g => boundaryAt_touches t d g _ false) _ _)
  exact .mono (by decide) (setPwm_touches s d _ List.length_mapIdx List.length_mapIdx)

/-- The lanes of a die are made anew, as many as the invariant says. -/
theorem setLanes_touches (s : State) (d : Die) (v : Lh) (h : v.lanes.length = 4) :
    Touches [.lhCs, .lhDs] s (s.setLh d v) where
  same p hp := by
    have k := p.agree_refl s
    cases d <;> cases p
    case cs.lhCs => exact absurd hp (by decide)
    case ds.lhDs => exact absurd hp (by decide)
    all_goals exact k
  time := by cases d <;> exact Nat.le_refl _
  mem := by cases d <;> exact id
  size w := by
    have hcs : s.lhCs.lanes.length = 4 := (congrArg (fun l => nth l 4) w :)
    have hds : s.lhDs.lanes.length = 4 := (congrArg (fun l => nth l 5) w :)
    rw [← w]
    cases d <;> simp [shape, State.setLh, h, hcs, hds]

theorem page0Lanes_touches (s : State) (d : Die) : Touches [.lhCs, .lhDs] s (page0Lanes s d) :=
  setLanes_touches s d _ (by rw [List.length_mapIdx, List.length_replicate])

/-! ## Everything that starts in cycle T0 -/

/-- The device and the DS die are ready, the slot check is due, CS and DS background scans are due. -/
def readied (s : State) : State :=
  let u : State := { s with
    sys := { s.sys with ready := true, dsReady := true, sysEvt := orBit s.sys.sysEvt 0, stepT := steptNow s }
    kp := { s.kp with slotDue := true }
    im := { s.im with repeated := false }
    lamp := { s.lamp with freeze := bitOf (laCfg s 0) 31 } }
  page0Cks (page0Cks u .cs) .ds

/-- What becoming ready touches. -/
def readyParts : List Part := [.sys, .sysEvt, .kp, .im, .lamp, .ckCs, .ckDs]

theorem readied_touches (s : State) : Touches readyParts s (readied s) := by
  refine .after (by decide) (page0Cks_touches _ .ds) <| .after (by decide) (page0Cks_touches _ .cs) ?_
  exact .of_update (fun p => by have k := p.agree_refl s; cases p <;> exact k) rfl rfl rfl

/-- What starts after that may touch. -/
def startParts : List Part := [.mem, .fb, .can, .net, .nv, .engCs, .engDs, .wr] ++ turnParts

theorem page0_touches (s : State) : Touches startParts (readied s) (page0 s) := by
  unfold page0
  refine .after (by decide) (bootReady_touches _) <| .after (by decide) (applyHolds_touches _) <|
    .after (by decide) (wrPage0_touches _) <| .after (by decide) (applyCsOverrides_touches _) <|
    .after (by decide) (page0Prot_touches _) ?lanes
  case lanes =>
    refine .after (by decide) (page0Lanes_touches _ .ds) <| .after (by decide) (page0Lanes_touches _ .cs) <|
      .after (by decide) (page0Pwm_touches _ .cs) <| .after (by decide) (page0Pwm_touches _ .ds) <|
      .after (by decide) (page0Beams_touches _) <| .after (by decide) (page0Fbs_touches _) <|
      .after (by decide) (page0Can_touches _) <| .after (by decide) (page0Engs_touches _ .ds) ?_
    exact .mono (by decide) (page0Engs_touches (readied s) .cs)

/-- What was made ready stays so while the rest starts. -/
theorem Touches.ready {s t : State} (h : Touches startParts (readied s) t) :
    t.sys.ready = true ∧ t.sys.dsReady = true ∧ t.sys.stepT = steptNow s ∧ t.kp.slotDue = true ∧ t.im.repeated = false
      ∧ t.ckCs = s.ckCs.map fun x => { x with bgAt := s.now, learnt := false } := by
  have hsys : { t.sys with sysEvt := 0 } = { (readied s).sys with sysEvt := 0 } := h.agree .sys (by decide)
  have hkp : { t.kp with seqNo := 0, early := [] } = { (readied s).kp with seqNo := 0, early := [] } := h.agree .kp (by decide)
  have him : t.im = (readied s).im := h.agree .im (by decide)
  have hcks : t.ckCs = (readied s).ckCs := h.agree .ckCs (by decide)
  exact ⟨congrArg Sys.ready hsys, congrArg Sys.dsReady hsys, congrArg Sys.stepT hsys, congrArg Keeper.slotDue hkp,
    congrArg ImgMgr.repeated him, hcks⟩

/-- The parts that no step of the start of page 0 touches. -/
theorem keptAtPage0 : ∀ p ∈ ([.pending, .csOfs, .dsOfs, .t0, .netZero, .fwRev, .acc, .sup, .clk, .x, .img, .csLoaded, .dsLoaded,
    .buoys, .fbTick, .mains, .pairCs, .pairDs, .cvTick, .ports, .ac, .gd, .bridgeUnres, .bridgeBad, .host] : List Part),
    p ∉ Part.now :: readyParts ++ startParts := by
  decide

/-- Settles O15: the first update makes both dies ready and the scans due, and nothing that starts after it touches the
system unit, the Keeper, the image or the scans of the CS die. -/
theorem pageZeroStartsBothDiesAtTZero : Obligations.PageZeroStartsBothDiesAtTZero := by
  unfold Obligations.PageZeroStartsBothDiesAtTZero
  intro k s ht0 hstep hhalt hready hreset
  have hrest := page0_touches (s.advanceTo k)
  have hrun : exec .page0Start s = .next (page0 (s.advanceTo k)) := by
    refine congrArg Host.Outcome.next ?_
    simp [ht0, hstep, hhalt, hready, hreset]
  have hall : Touches (.now :: readyParts ++ startParts) s (page0 (s.advanceTo k)) :=
    .after (by decide) hrest <| .after (by decide) (readied_touches _) ((advanceTo_touches s k).mono (by decide))
  generalize page0 (s.advanceTo k) = t at hrest hrun hall
  obtain ⟨hready', hdsReady, hstepT, hslot, hrep, hcks⟩ := hrest.ready
  refine ⟨t, hrun, hrest.now (by decide), hready', hdsReady, hslot, hrep, fun c hc => ?_, fun h => ?_,
    fun p hp => hall.agree p (keptAtPage0 p hp)⟩
  · rw [hcks] at hc
    obtain ⟨x, -, rfl⟩ := List.mem_map.1 hc
    rfl
  · exact hstepT.trans (if_neg h)

end Sys2Proof.Machine
end

section
namespace Sys2Proof.Machine

/-! ## The engines at the start of page 0 (R186, R200, R226) -/

/-- What does not touch the engines of either die leaves them. -/
theorem Touches.engs {P : List Part} {s t : State} (h : Touches P s t) (d : Die) (hP : .engCs ∉ P ∧ .engDs ∉ P) :
    t.engs d = s.engs d := by
  cases d
  · exact h.agree .engCs hP.1
  · exact h.agree .engDs hP.2

theorem Die.eq_other {d d' : Die} (h : d ≠ d') : d = d'.other := by
  cases d <;> cases d'
  case cs.cs => exact absurd rfl h
  case ds.ds => exact absurd rfl h
  all_goals rfl

/-- The state of an engine is that of R200: every mantissa, every block exponent and the latch are 0. -/
def Eng.Cleared (x : Eng) : Prop := x.st = List.replicate 22 0 ∧ x.bexp = List.replicate 4 0 ∧ x.latch = 0

/-- A place past the engines of a list reads as an engine whose state is 0. -/
theorem Eng.cleared_default : (default : Eng).Cleared := ⟨rfl, rfl, rfl⟩

/-- Engine e of a die has the state of R200. -/
def EngCleared (s : State) (d : Die) (e : Nat) : Prop := (nth (s.engs d) e).Cleared

section cleared

variable {s : State} {d d' : Die} {e n : Nat} {f : Eng → Eng}

/-- An update of an engine clears it when its function makes a cleared engine of the one that stands there. -/
theorem modEng_clears (hf : (f (nth (s.engs d) e)).Cleared) : EngCleared (s.modEng d e f) d e := by
  rw [EngCleared, (s.modEng_new d e f).1]
  rcases Nat.lt_or_ge e (s.engs d).length with he | he
  · rwa [nth_upd _ he]
  · rw [nth, upd, List.getD_eq_default _ _ ((List.length_modify ..).trans_le he)]
    exact Eng.cleared_default

/-- An update whose function keeps an engine cleared, made at any place of either die, leaves no engine less cleared. -/
theorem EngCleared.after_modEng (h : EngCleared s d e) (hf : ∀ x, x.Cleared → (f x).Cleared) :
    EngCleared (s.modEng d' n f) d e := by
  rcases eq_or_ne d d' with rfl | hd
  · rcases eq_or_ne e n with rfl | he
    · exact modEng_clears (hf _ h)
    · rwa [EngCleared, (s.modEng_new d n f).1, nth_upd_other _ he]
  · rwa [EngCleared, Die.eq_other hd, (s.modEng_new d' n f).2, ← Die.eq_other hd]

theorem page0Eng_clears (s : State) (d : Die) (e : Nat) : EngCleared (page0Eng s d e) d e :=
  modEng_clears ⟨rfl, rfl, rfl⟩

theorem EngCleared.after_page0Eng (h : EngCleared s d e) : EngCleared (page0Eng s d' n) d e :=
  h.after_modEng fun _ _ => ⟨rfl, rfl, rfl⟩

/-- A checkpoint changes nothing of an engine but its age (R226). -/
theorem EngCleared.after_writeCkpt (h : EngCleared s d e) : EngCleared (writeCkpt s d' n) d e :=
  EngCleared.after_modEng (by cases d <;> exact h) fun _ hx => hx

theorem EngCleared.after_foldl_page0Eng (h : EngCleared s d e) (es : List Nat) :
    EngCleared (es.foldl (fun s n => page0Eng s d' n) s) d e :=
  List.foldlRecOn (motive := fun t => EngCleared t d e) es _ h fun _ ht _ _ => ht.after_page0Eng

theorem EngCleared.after_foldl_writeCkpt (h : EngCleared s d e) (es : List Nat) :
    EngCleared (es.foldl (fun s n => writeCkpt s d' n) s) d e :=
  List.foldlRecOn (motive := fun t => EngCleared t d e) es _ h fun _ ht _ _ => ht.after_writeCkpt

/-- Each engine is cleared in its turn, and no engine after it undoes that. -/
theorem foldl_page0Eng_clears (s : State) (d : Die) {es : List Nat} (he : e ∈ es) :
    EngCleared (es.foldl (fun s n => page0Eng s d n) s) d e := by
  obtain ⟨before, after, rfl⟩ := List.append_of_mem he
  rw [List.foldl_append, List.foldl_cons]
  exact (page0Eng_clears _ d e).after_foldl_page0Eng after

/-- The start of a die's engines clears every one of them (R200). -/
theorem page0Engs_clears (s : State) (d : Die) (he : e < engCount d) : EngCleared (page0Engs s d) d e :=
  (foldl_page0Eng_clears s d (List.mem_range.2 he)).after_foldl_writeCkpt _

theorem EngCleared.after_page0Engs (h : EngCleared s d e) : EngCleared (page0Engs s d') d e :=
  (h.after_foldl_page0Eng _).after_foldl_writeCkpt _

end cleared

/-- Both dies' engines started, CS first. -/
def enginesStarted (s : State) : State := page0Engs (page0Engs (readied s) .cs) .ds

theorem enginesStarted_clears (s : State) (d : Die) {e : Nat} (he : e < engCount d) : EngCleared (enginesStarted s) d e := by
  cases d
  · exact (page0Engs_clears _ .cs he).after_page0Engs
  · exact page0Engs_clears _ .ds he

/-- What starts after the engines may touch. -/
def afterEngParts : List Part := [.fb, .can, .net, .nv, .wr] ++ turnParts

theorem page0_touches_after_engines (s : State) : Touches afterEngParts (enginesStarted s) (page0 s) := by
  unfold page0
  refine .after (by decide) (bootReady_touches _) <| .after (by decide) (applyHolds_touches _) <|
    .after (by decide) (wrPage0_touches _) <| .after (by decide) (applyCsOverrides_touches _) <|
    .after (by decide) (page0Prot_touches _) ?lanes
  case lanes =>
    refine .after (by decide) (page0Lanes_touches _ .ds) <| .after (by decide) (page0Lanes_touches _ .cs) <|
      .after (by decide) (page0Pwm_touches _ .cs) <| .after (by decide) (page0Pwm_touches _ .ds) <|
      .after (by decide) (page0Beams_touches _) <| .after (by decide) (page0Fbs_touches _) ?_
    exact .mono (by decide) (page0Can_touches (enginesStarted s))

/-- Every engine is still cleared when all that starts in cycle T0 has started. -/
theorem page0_clears (s : State) (d : Die) {e : Nat} (he : e < engCount d) : EngCleared (page0 s) d e := by
  rw [EngCleared, (page0_touches_after_engines s).engs d (by decide)]
  exact enginesStarted_clears s d he

/-- PAGE0_START under its conditions moves time to T0 and starts page 0 there (R173). -/
theorem exec_page0Start {s : State} {k : Nat} (ht0 : s.t0 = some k) (hstep : s.sys.step = 11) (hhalt : s.sys.halt = false)
    (hready : s.sys.ready = false) (hreset : s.sys.csReset = false) : exec .page0Start s = .next (page0 (s.advanceTo k)) := by
  refine congrArg Host.Outcome.next ?_
  simp [ht0, hstep, hhalt, hready, hreset]

/-- Settles O39: the engines of each die are cleared one by one, a checkpoint takes nothing but their age, and nothing
that starts after them touches an engine. -/
theorem enginesStartClearedAtPageZero : Obligations.EnginesStartClearedAtPageZero := by
  unfold Obligations.EnginesStartClearedAtPageZero
  intro k s ht0 hstep hhalt hready hreset
  exact ⟨_, exec_page0Start ht0 hstep hhalt hready hreset, fun die _ he => page0_clears (s.advanceTo k) die he⟩

end Sys2Proof.Machine
end

section
namespace Sys2Proof.Machine

/-! ## What an operation leaves of the channels and the groups (R240 to R246) -/

/-- From s to t what φ shows of the channels and what γ shows of the carrier groups of both dies stays. -/
structure Retains {α β : Type} (φ : Chan → α) (γ : Grp → β) (s t : State) : Prop where
  chans : ∀ d, (t.pwm d).chans.map φ = (s.pwm d).chans.map φ
  grps : ∀ d, (t.pwm d).grps.map γ = (s.pwm d).grps.map γ

theorem nth_of_map_eq {α β : Type} [Inhabited α] {f : α → β} {l l' : List α} (h : l'.map f = l.map f) (i : Nat) :
    f (nth l' i) = f (nth l i) := by
  have hget (k : List α) : f (nth k i) = (k.map f).getD i (f default) := (List.getD_map k default f).symm
  rw [hget, hget, h]

theorem map_upd {α β : Type} {f : α → β} {g : α → α} (hg : ∀ x, f (g x) = f x) (l : List α) (i : Nat) :
    (upd l i g).map f = l.map f := by
  apply List.ext_getElem
  · simp [upd]
  · intro n _ _
    simp only [upd, List.getElem_map, List.getElem_modify]
    split
    · exact hg _
    · rfl

theorem map_mapIdx_of_shown {α β : Type} {f : α → β} {g : Nat → α → α} (hg : ∀ i x, f (g i x) = f x) (l : List α) :
    (l.mapIdx g).map f = l.map f := by
  apply List.ext_getElem <;> simp [hg]

/-- What touches the PWM unit of neither die leaves both. -/
theorem Touches.pwm {P : List Part} {s t : State} (h : Touches P s t) (d : Die) (hP : .pwmCs ∉ P ∧ .pwmDs ∉ P) :
    t.pwm d = s.pwm d := by
  cases d
  · exact h.agree .pwmCs hP.1
  · exact h.agree .pwmDs hP.2

/-- What touches the PWM unit of neither die retains all that is shown of them. -/
theorem Touches.retains {α β : Type} {φ : Chan → α} {γ : Grp → β} {P : List Part} {s t : State} (h : Touches P s t)
    (hP : .pwmCs ∉ P ∧ .pwmDs ∉ P) : Retains φ γ s t :=
  ⟨fun d => by rw [h.pwm d hP], fun d => by rw [h.pwm d hP]⟩

namespace Retains

variable {α β : Type} {φ : Chan → α} {γ : Grp → β} {s t u : State}

theorem refl (s : State) : Retains φ γ s s := ⟨fun _ => rfl, fun _ => rfl⟩

theorem trans (h : Retains φ γ s t) (k : Retains φ γ t u) : Retains φ γ s u :=
  ⟨fun d => (k.chans d).trans (h.chans d), fun d => (k.grps d).trans (h.grps d)⟩

/-- An operation that touches neither PWM unit, after what came before. -/
theorem touching {P : List Part} (h : Retains φ γ s t) (k : Touches P t u) (hP : .pwmCs ∉ P ∧ .pwmDs ∉ P) : Retains φ γ s u :=
  h.trans (k.retains hP)

theorem ite {c : Prop} [Decidable c] (h : c → Retains φ γ s t) (k : ¬c → Retains φ γ s u) :
    Retains φ γ s (if c then t else u) := by
  split
  · exact h ‹_›
  · exact k ‹_›

/-- An operation that is made only under a condition. -/
theorem ite_self {c : Prop} [Decidable c] (h : Retains φ γ s t) : Retains φ γ s (if c then t else s) :=
  ite (fun _ => h) fun _ => refl s

theorem foldl {ι : Type} {f : State → ι → State} (hf : ∀ t x, Retains φ γ t (f t x)) (l : List ι) (s : State) :
    Retains φ γ s (l.foldl f s) :=
  List.foldlRecOn l f (motive := Retains φ γ s) (refl s) fun t h x _ => h.trans (hf t x)

/-- Less is shown. -/
theorem less {α' β' : Type} {φ' : Chan → α'} {γ' : Grp → β'} (h : Retains φ γ s t) (f : α → α') (g : β → β')
    (hφ : φ' = f ∘ φ) (hγ : γ' = g ∘ γ) : Retains φ' γ' s t := by
  subst hφ hγ
  exact ⟨fun d => by rw [← List.map_map, h.chans d, List.map_map], fun d => by rw [← List.map_map, h.grps d, List.map_map]⟩

theorem chan (h : Retains φ γ s t) (d : Die) (c : Nat) : φ (nth (t.pwm d).chans c) = φ (nth (s.pwm d).chans c) :=
  nth_of_map_eq (h.chans d) c

theorem grp (h : Retains φ γ s t) (d : Die) (g : Nat) : γ (nth (t.pwm d).grps g) = γ (nth (s.pwm d).grps g) :=
  nth_of_map_eq (h.grps d) g

end Retains

section updates

variable {α β : Type} {φ : Chan → α} {γ : Grp → β} (s : State) (d : Die)

theorem setPwm_retains {v : Pwm} (hc : v.chans.map φ = (s.pwm d).chans.map φ) (hg : v.grps.map γ = (s.pwm d).grps.map γ) :
    Retains φ γ s (s.setPwm d v) := by
  have hv : ∀ e, (s.setPwm d v).pwm e = v ∧ e = d ∨ (s.setPwm d v).pwm e = s.pwm e := by
    intro e
    cases d <;> cases e <;> simp [State.setPwm, State.pwm]
  refine ⟨fun e => ?_, fun e => ?_⟩ <;> obtain ⟨h, rfl⟩ | h := hv e <;> rw [h] <;> assumption

theorem modChan_retains (c : Nat) {f : Chan → Chan} (hf : ∀ x, φ (f x) = φ x) : Retains φ γ s (s.modChan d c f) :=
  setPwm_retains s d (map_upd hf _ c) rfl

theorem modGrp_retains (g : Nat) {f : Grp → Grp} (hf : ∀ x, γ (f x) = γ x) : Retains φ γ s (s.modGrp d g f) :=
  setPwm_retains s d rfl (map_upd hf _ g)

end updates

theorem advanceTo_pwm (s : State) (t : Nat) (d : Die) : (s.advanceTo t).pwm d = s.pwm d :=
  (advanceTo_touches s t).pwm d (by decide)

end Sys2Proof.Machine
end

section
namespace Sys2Proof.Machine

/-! ## The pair in force of a channel (R246, R254 to R264, R574) -/

/-- The duties in force of a channel, and whether it drives its outputs (R254). -/
def Chan.drive (x : Chan) : Nat × Nat × Bool := (x.da, x.db, x.active)

section drive

variable (c : Chan) (m : ChanMode)

theorem foldl_drive {ι : Type} {f : Chan → ι → Chan} (hf : ∀ x i, (f x i).drive = x.drive) (l : List ι) :
    (l.foldl f c).drive = c.drive :=
  List.foldlRecOn l f (motive := fun x => x.drive = c.drive) rfl fun x h i _ => (hf x i).trans h

@[simp] theorem mark_drive (t : Nat) : (c.mark m t).drive = c.drive := rfl

@[simp] theorem edgeA_drive (e : SEdge) : (c.edgeA m e).drive = c.drive := by
  unfold Chan.edgeA
  split_ifs <;> rfl

@[simp] theorem edgeB_drive (e : SEdge) : (c.edgeB m e).drive = c.drive := rfl

@[simp] theorem settle_drive (t : Nat) : (c.settle m t).drive = c.drive :=
  (foldl_drive _ (edgeB_drive · m) _).trans (foldl_drive c (edgeA_drive · m) _)

@[simp] theorem setAcc_drive (low : Bool) (acc debt : Nat) : (c.setAcc low acc debt).drive = c.drive := by
  unfold Chan.setAcc
  split_ifs <;> rfl

@[simp] theorem takeBack_drive (e : SEdge) : (c.takeBack e).drive = c.drive := foldl_drive c (fun x _ => setAcc_drive x _ _ _) _

@[simp] theorem addDebt_drive (low : Bool) (n : Nat) : (c.addDebt m low n).drive = c.drive := by
  unfold Chan.addDebt
  split_ifs
  · exact setAcc_drive c _ _ _
  · rfl

/-- A channel with an event noted. -/
theorem evt_drive (w : Word) : { c with evt := w : Chan }.drive = c.drive := rfl

@[simp] theorem judge_drive (lvl sideB atH : Bool) (width room : Nat) : (judge c m lvl sideB atH width room).1.drive = c.drive := by
  unfold judge
  split
  · rfl
  · dsimp only
    split_ifs <;> simp [evt_drive]

theorem beginPulse_drive (p : Plan) (x : Sched) (t tEnd late : Nat) (lvl : Bool) (width : Nat) :
    (beginPulse m p x t tEnd late lvl width).c.drive = x.c.drive := by
  unfold beginPulse
  dsimp only
  rw [judge_drive]
  split_ifs
  · rfl
  · rw [addDebt_drive, evt_drive]

theorem schedEdge_drive (p : Plan) (x : Sched) (t : Nat) (lvl : Bool) (width : Nat) :
    (schedEdge m p x t lvl width).c.drive = x.c.drive := by
  unfold schedEdge
  split_ifs
  · rfl
  · rfl
  · exact beginPulse_drive m p x t _ _ lvl width

@[simp] theorem schedHalf_drive (sh : Shp) (p : Plan) (h : Half) (hEnd : Nat) (span : Nat × Nat) (inv : Bool) :
    (schedHalf c m sh p h hEnd span inv).1.drive = c.drive := by
  unfold schedHalf
  extract_lets lvl width x0 x1 x2 x3
  have h0 : x0.c.drive = c.drive := foldl_drive c takeBack_drive _
  have h1 : x1.c.drive = c.drive := by
    unfold x1
    split_ifs
    · rw [schedEdge_drive, h0]
    · exact h0
  have h2 : x2.c.drive = c.drive := by
    unfold x2
    split
    · split_ifs
      · exact h1
      · rw [beginPulse_drive, h1]
    · rw [schedEdge_drive, h1]
  exact List.foldlRecOn _ _ (motive := fun x : Sched => x.c.drive = c.drive) h2 fun x h e _ => (schedEdge_drive m p x _ _ _).trans h

@[simp] theorem resumeShp_drive (sideB lvl : Bool) (t width : Nat) : (resumeShp c m sideB lvl t width).1.drive = c.drive :=
  judge_drive c m lvl sideB false width 0

@[simp] theorem clear_drive (t : Nat) : (c.clear m t).drive = c.drive := settle_drive c m t

@[simp] theorem setOvr_drive (t v : Nat) : (c.setOvr m t v).drive = c.drive := by
  unfold Chan.setOvr
  split_ifs
  · rfl
  · exact clear_drive c m t
  · extract_lets y z o
    have hz : z.drive = y.drive := by
      unfold z
      split <;> rfl
    exact hz.trans (settle_drive c m t)

@[simp] theorem setFloat_drive (t : Nat) (v : Bool) : (c.setFloat m t v).drive = c.drive := by
  unfold Chan.setFloat
  split_ifs
  · rfl
  · exact settle_drive c m t
  · exact settle_drive c m t

@[simp] theorem replan_drive (t : Nat) (spanA : Nat × Nat) (inv : Bool) : (c.replan m t spanA inv).drive = c.drive := by
  unfold Chan.replan
  split_ifs <;> rfl

@[simp] theorem placeHalf_drive (h : Half) (spanA spanB : Nat × Nat) (inv beam waits wait : Bool) :
    (c.placeHalf m h spanA spanB inv beam waits wait).drive = c.drive := by
  unfold Chan.placeHalf
  extract_lets sa iv p y
  have hb (ya : Chan) (w : Nat) (lvl : Bool) :
      (if m.omode = 1 then resumeShp ya m true lvl h.t w else (ya, {})).1.drive = ya.drive := by
    split
    · exact resumeShp_drive ya m _ _ _ _
    · rfl
  have hy : y.drive = c.drive := by
    unfold y
    cases waits
    · rfl
    · exact (hb _ _ _).trans (resumeShp_drive c m false (rawAt h.c0 sa h.t != iv) h.t (rawWidth h.c0 h.per sa h.t))
  have hA := (schedHalf_drive y m y.shA (p false) h y.hEnd sa iv).trans hy
  clear_value y
  by_cases ho : m.omode = 1
  · simp only [ho, if_true]
    exact (schedHalf_drive _ m _ _ _ _ _ _).trans hA
  · simp only [ho, if_false]
    exact hA

end drive

end Sys2Proof.Machine
end

section
namespace Sys2Proof.Machine

/-! ## What leaves the duties in force and the course of the groups (R245, R254) -/

/-- A carrier group without the crossing of its beam that it waits for (R244). -/
def Grp.unwatched (x : Grp) : Grp := { x with xAt := none, xWatch := 0 }

/-- From s to t no channel's duty in force changes, and no group but for the crossing it waits for. -/
abbrev Steady (s t : State) : Prop := Retains Chan.drive Grp.unwatched s t

theorem Touches.steady {P : List Part} {s t : State} (h : Touches P s t) (hP : .pwmCs ∉ P ∧ .pwmDs ∉ P) : Steady s t :=
  h.retains hP

theorem countEvent_steady (s : State) (e : Ev) : Steady s (countEvent s e) := (countEvent_touches s e).steady (by decide)

/-! ### Protection: a latch and the overrides it brings (R263, R323 to R330) -/

theorem applyOverrides_steady (s : State) : Steady s (applyOverrides s) :=
  .ite_self <| .touching
    (setPwm_retains s .ds (v := { s.pwmDs with chans := s.pwmDs.chans.mapIdx fun c x =>
      if (chanRec s .ds c).isSome then x.setOvr (chanMode s .ds c) (now16 s) (wantOvr s c) else x })
      (map_mapIdx_of_shown (fun _ _ => by split <;> simp) _) rfl)
    (inhNote_touches _) (by decide)

theorem setSeverity_steady (s : State) : Steady s (setSeverity s) := by
  refine .trans (Touches.steady (P := [.lhCs, .lhDs, .prot]) (.trans (.trans ?safe (.ite_self ?pages)) (.ite_self ?prio))
    (by decide)) (applyOverrides_steady _)
  case safe =>
    exact .after (by decide) (applySafe_touches _ _ _) (.mono (by decide) (prot_touches s _ rfl rfl rfl rfl))
  case pages => exact .mono (by decide) (Touches.foldl (fun t l => requestReaction_touches t _ l) _ _)
  case prio => exact .mono (by decide) (setLh_touches _ .ds _ (List.length_map _))

theorem checked_steady {s t : State} (h : Touches [.prot] s t) : Steady s (setSeverity (endConfined t)) :=
  .trans (.touching (h.steady (by decide)) (endConfined_touches t) (by decide)) (setSeverity_steady _)

theorem countFixed_steady (s : State) (src d : Nat) : Steady s (countFixed s src d) :=
  (countFixed_touches s src d).steady (by decide)

theorem latchWith_steady (s : State) (src suspect : Nat) {cnt : State → State} (hc : ∀ t, Steady t (cnt t)) :
    Steady s (latchWith s src suspect cnt) := by
  have hlatch : Touches [.prot] s (if oppDue (addLatch s src suspect) then addLatch (addLatch s src suspect) 0x54 0
      else addLatch s src suspect) :=
    (addLatch_touches s src suspect).trans (.ite_self (addLatch_touches _ 0x54 0))
  exact .trans (.trans (checked_steady hlatch) (hc _)) (.ite_self (countFixed_steady _ _ _))

theorem latchPlain_steady (s : State) (src : Nat) {cnt : State → State} (hc : ∀ t, Steady t (cnt t)) :
    Steady s (latchPlain s src cnt) :=
  .ite (fun _ => latchWith_steady s src 0 hc) fun _ => hc s

/-! ### Beams: a new anchor and the crossings noted before it (R124, R130 to R135, R573) -/

theorem noteGrp_unwatched (s : State) (d : Die) (b g : Nat) (gr : Grp) : (noteGrp s d b g gr).unwatched = gr.unwatched := by
  unfold noteGrp
  split_ifs
  · split
    · split <;> rfl
    · rfl
  · rfl

theorem noteBeam_steady (s : State) (d : Die) (b : Nat) : Steady s (noteBeam s d b) := by
  have hlh : Touches [.lhCs, .lhDs] s (s.setLh d { s.lh d with lanes := (s.lh d).lanes.mapIdx fun l ln => noteLane s d b l ln }) :=
    setLh_touches s d _ List.length_mapIdx
  have hpwm := hlh.pwm d (by decide)
  refine .trans (hlh.steady (by decide)) (setPwm_retains _ d ?_ ?_)
  · rw [hpwm]
  · rw [hpwm]
    exact map_mapIdx_of_shown (noteGrp_unwatched s d b) _

theorem modBeam_steady (s : State) (d : Die) (b : Nat) (f : Beam → Beam) : Steady s (s.modBeam d b f) :=
  (modBeam_touches s d b f).steady (by decide)

theorem setAnchor_steady (s : State) (d : Die) (b : Nat) (a : Anchor) : Steady s (setAnchor s d b a) :=
  (noteBeam_steady s d b).trans (modBeam_steady _ d b _)

theorem setUpd_steady (s : State) (d : Die) (b : Nat) (a : Anchor) : Steady s (setUpd s d b a) :=
  (setAnchor_steady s d b a).trans (modBeam_steady _ d b _)

theorem moveFollowers_steady (s : State) (d : Die) (b : Nat) : Steady s (moveFollowers s d b) :=
  .foldl (fun t b' => setUpd_steady t d b' _) _ s

theorem updAnchor_steady (s : State) (d : Die) (b : Nat) (a : Anchor) : Steady s (updAnchor s d b a) :=
  (setUpd_steady s d b a).trans (moveFollowers_steady _ d b)

theorem stalePolicy_steady (s : State) (d : Die) (b : Nat) : Steady s (stalePolicy s d b) := by
  have hrun (a : Anchor) (f : Beam → Beam) : Steady s (moveFollowers ((setAnchor s d b a).modBeam d b f) d b) :=
    ((setAnchor_steady s d b a).trans (modBeam_steady _ d b f)).trans (moveFollowers_steady _ d b)
  unfold stalePolicy
  split
  · exact hrun _ _
  · refine .ite (fun _ => hrun _ _) fun _ => .ite (fun _ => ?_) fun _ => hrun _ _
    split <;> exact hrun _ _

theorem notStale_steady (s : State) (b : Nat) : Steady s (notStale s b) :=
  (setAnchor_steady s _ b _).trans (modBeam_steady _ _ b _)

theorem bmEvent_steady (s : State) (d : Die) (b cause : Nat) (detail : Word) : Steady s (bmEvent s d b cause detail) :=
  (modBeam_steady s d b _).trans (countEvent_steady _ _)

theorem directUpdate_steady (s : State) (b : Nat) : Steady s (directUpdate s b) := by
  unfold directUpdate
  extract_lets d a u wasStale s1 s2 s3 s4
  have h1 : Steady s s1 := modBeam_steady s d b _
  have h2 : Steady s s2 := h1.trans (.ite (fun _ => notStale_steady s1 b) fun _ => .ite_self (notStale_steady s1 b))
  have h3 : Steady s s3 := h2.trans (.ite_self (bmEvent_steady s2 _ b 2 _))
  have h4 : Steady s s4 := (h3.trans (modBeam_steady s3 d b _)).trans (updAnchor_steady _ d b a)
  exact h4.trans (.ite_self (stalePolicy_steady s4 d b))

end Sys2Proof.Machine
end

section
namespace Sys2Proof.Machine

/-! ### Legs, Candles and modes at an update point (R277 to R282, R289 to R305) -/

theorem noteHalf_retains {β : Type} {γ : Grp → β} (s : State) (d : Die) (c : Nat) (r : HalfRef) :
    Retains Chan.drive γ s (noteHalf s d c r) := by
  unfold noteHalf
  refine .trans ?_ (modChan_retains _ d c fun _ => rfl)
  cases d
  · exact .refl s
  · exact .ite_self ((modLeg_touches s c _).retains (by decide))

theorem replanLeg_steady (s : State) (c t : Nat) : Steady s (replanLeg s c t) :=
  modChan_retains s .ds c fun x => replan_drive x _ _ _ _

theorem replanPair_steady (s : State) (c : Nat) : Steady s (replanPair s c) :=
  (noteHalf_retains s .ds c _).trans (modChan_retains _ .ds c fun x => replan_drive x _ _ _ _)

theorem replanLegs_steady (s : State) (l : List Nat) : Steady s (l.foldl (fun s c => replanLeg s c (now16 s)) s) :=
  .foldl (fun t c => replanLeg_steady t c _) l s

theorem modLegs_steady (s : State) (l : List Nat) (f : Leg → Leg) : Steady s (l.foldl (fun s c => s.modLeg c f) s) :=
  (modLegs_touches s l f).steady (by decide)

theorem applyFloat_steady (s : State) (m : Nat) : Steady s (applyFloat s m) :=
  .foldl (fun t c => ((modLeg_touches t c _).steady (by decide)).trans
    (modChan_retains _ .ds c fun x => setFloat_drive x _ _ _)) _ s

theorem modCandle_steady (s : State) (m : Nat) (f : Candle → Candle) : Steady s (s.modCandle m f) :=
  (modCandle_touches s m f).steady (by decide)

theorem modMach_steady (s : State) (m : Nat) (f : Mach → Mach) : Steady s (s.modMach m f) :=
  (modMach_touches s m f).steady (by decide)

theorem chopCheck_steady (s : State) (m : Nat) : Steady s (chopCheck s m) :=
  .ite_self <| ((modCandle_steady s m _).trans (modLegs_steady _ _ _)).trans (replanLegs_steady _ _)

theorem chopEnd_steady (s : State) (m : Nat) : Steady s (chopEnd s m) :=
  .ite_self <| (((modCandle_steady s m _).trans (modLegs_steady _ _ _)).trans (replanLegs_steady _ _)).trans
    (chopCheck_steady _ m)

theorem setPattern_steady (s : State) (m p : Nat) : Steady s (setPattern s m p) := by
  unfold setPattern
  refine .trans ?_ (.ite_self (chopCheck_steady _ m))
  exact (((modCandle_steady s m _).trans (modLegs_steady _ _ _)).trans (applyFloat_steady _ m)).trans (replanLegs_steady _ _)

theorem stepPattern_steady (s : State) (m : Nat) : Steady s (stepPattern s m) := .ite_self (setPattern_steady s m _)

theorem wfEvent_steady (s : State) (m cause elem : Nat) (detail : Word) : Steady s (wfEvent s m cause elem detail) :=
  (modMach_steady s m _).trans (latchPlain_steady _ _ fun t => countEvent_steady t _)

theorem posLoss_steady (s : State) (m : Nat) : Steady s (posLoss s m) := wfEvent_steady s m 1 0 _

theorem modeRuns_steady (s : State) (m mode : Nat) : Steady s (modeRuns s m mode) := by
  unfold modeRuns
  split
  · exact .ite (fun _ => applyFloat_steady s m) fun _ =>
      ((modMach_steady s m _).trans (applyFloat_steady _ m)).trans (posLoss_steady _ m)
  · exact (setPattern_steady s m 7).trans (stepPattern_steady _ m)
  · exact setPattern_steady s m 7

theorem enterMode_steady (s : State) (m mode : Nat) : Steady s (enterMode s m mode) := by
  unfold enterMode
  refine .ite (fun _ => .refl s) fun _ => .trans ?_ (modeRuns_steady _ m mode)
  refine .trans ?_ (.ite_self (.foldl replanPair_steady _ _))
  refine .trans ?_ (modCandle_steady _ m _)
  refine .touching ?_ (inhNote_touches _) (by decide)
  refine .trans ?_ (modMach_steady _ m _)
  exact .ite_self ((gcCode_touches s _ _).steady (by decide))

theorem machUpdate_steady (s : State) (m : Nat) : Steady s (machUpdate s m) := by
  have hmode (f : Mach → Mach) (mode : Nat) : Steady s (enterMode (s.modMach m f) m mode) :=
    (modMach_steady s m f).trans (enterMode_steady _ m mode)
  have hlegs (t : State) (l : List Nat) :
      Steady t (l.foldl (fun s c => if (nth s.legs c).h then replanLeg s c (now16 s) else s) t) :=
    .foldl (fun t c => .ite_self (replanLeg_steady t c _)) l t
  unfold machUpdate
  split
  · exact .refl s
  · exact .trans (hmode _ _) (.ite (fun _ => .foldl replanPair_steady _ _) fun _ => .ite_self (hlegs _ _))

theorem machBoundary_steady (s : State) (m : Nat) : Steady s (machBoundary s m) :=
  .trans (.ite_self ((modMach_steady s m _).trans (applyFloat_steady _ m))) (chopEnd_steady _ m)

end Sys2Proof.Machine
end

section
namespace Sys2Proof.Machine

/-! ### Converters at the boundary of their group (R384 to R392) -/

section conv

variable (s : State) (i : Nat)

theorem modConv_steady (f : Conv → Conv) : Steady s (s.modConv i f) := (modConv_touches s i f).steady (by decide)

theorem cvEnter_steady (st : Nat) : Steady s (cvEnter s i st) := (modConv_steady s i _).trans (applyOverrides_steady _)

theorem cvOff_steady (seen : Bool) : Steady s (cvOff s i seen) := (cvEnter_steady s i 0).trans (modConv_steady _ i _)

theorem cvEvent_steady (cause : Nat) (detail : Word) : Steady s (cvEvent s i cause detail) :=
  (modConv_steady s i _).trans (countEvent_steady _ _)

theorem cvLatch_steady (cause : Nat) (detail : Word) : Steady s (cvLatch s i cause detail) :=
  (modConv_steady s i _).trans (latchPlain_steady _ _ fun t => countEvent_steady t _)

theorem cvSoftstart_steady : Steady s (cvSoftstart s i) := (cvEnter_steady s i 1).trans (modConv_steady _ i _)

theorem cvOnShort_steady : Steady s (cvOnShort s i) := by
  unfold cvOnShort
  extract_lets x v s1
  have hshort : Steady s s1 := cvEvent_steady s i 2 _
  refine hshort.trans (.ite (fun _ => ?_) fun _ => ?_)
  · exact (cvEnter_steady s1 i 3).trans (modConv_steady _ i _)
  · exact (cvEnter_steady s1 i 4).trans (cvLatch_steady _ i 3 _)

theorem cvTransit_steady : Steady s (cvTransit s i) := by
  unfold cvTransit
  extract_lets x en t busy retry0
  have hstart : Steady s t := .ite (fun _ => .refl s) fun _ => modConv_steady s i _
  have hretry (u : State) : Steady u (retry0 u) := modConv_steady u i _
  refine hstart.trans ?_
  clear_value t
  split
  · exact (cvOff_steady t i _).trans (cvEvent_steady _ i 4 _)
  refine .ite (fun _ => ?ovp) fun _ => .ite (fun _ => ?off) fun _ => .ite (fun _ => cvOnShort_steady t i) fun _ => ?state
  case ovp => exact .trans (.ite_self (hretry t)) ((cvEnter_steady _ i 5).trans (cvLatch_steady _ i 1 _))
  case off => exact (cvOff_steady t i true).trans (hretry _)
  case state =>
    split
    · exact .ite_self ((modConv_steady t i _).trans (cvSoftstart_steady _ i))
    · exact .ite_self ((cvEnter_steady t i 2).trans (modConv_steady _ i _))
    · exact .ite_self (cvSoftstart_steady t i)
    · exact .ite (fun _ => .refl t) fun _ => (cvOff_steady t i _).trans (hretry _)
    · exact .refl t

theorem cvEvaluate_steady : Steady s (cvEvaluate s i) := (modConv_steady s i _).trans (cvTransit_steady _ i)

end conv

theorem cvBoundary_steady (s : State) (d : Die) (g : Nat) : Steady s (cvBoundary s d g) :=
  .foldl (fun t i => .ite_self (cvEvaluate_steady t i)) _ s

end Sys2Proof.Machine
end

section
namespace Sys2Proof.Machine

/-! ## What the records in force decide of a group (R239, R243, R245, R250, R266, R267) -/

section records

variable {s t : State} (h : recsIn t = recsIn s) (d : Die) (g c : Nat)
include h

theorem grpW_congr (i : Nat) : grpW t d g i = grpW s d g i := by simp only [grpW, grpRec, h]

theorem grpPsrc_congr : grpPsrc t d g = grpPsrc s d g := by simp only [grpPsrc, grpW, grpRec, h]

theorem chanUpd_congr : chanUpd t d c = chanUpd s d c := by simp only [chanUpd, chanW, chanRec, h]

theorem ditherPeriod_congr (k : Nat) (l : BitVec 16) : ditherPeriod t d g k l = ditherPeriod s d g k l := by
  unfold ditherPeriod rounds16 cvOfGroup cvPDie cvPGroup cvOStage cvODie cvOGroup cvW cvRec grpW grpRec
  rw [h]

end records

theorem Inv.chans_length {s : State} (h : Inv s) (d : Die) : (s.pwm d).chans.length = chanCount d := by
  cases d
  · exact (congrArg (fun l => nth l 11) h.2 :)
  · exact (congrArg (fun l => nth l 13) h.2 :)

theorem Inv.grps_length {s : State} (h : Inv s) (d : Die) : (s.pwm d).grps.length = grpCount d := by
  cases d
  · exact (congrArg (fun l => nth l 10) h.2 :)
  · exact (congrArg (fun l => nth l 12) h.2 :)

/-- The invariant holds every member of a group. -/
theorem Inv.member_lt {s : State} (h : Inv s) {d : Die} {g c : Nat} (hc : c ∈ members s d g) : c < (s.pwm d).chans.length := by
  rw [h.chans_length d]
  exact List.mem_range.1 (List.mem_of_mem_filter hc)

theorem members_nodup (s : State) (d : Die) (g : Nat) : (members s d g).Nodup := List.nodup_range.filter _

/-- A group that runs is there. -/
theorem grp_lt_of_run {l : List Grp} {g : Nat} (h : (nth l g).run = true) : g < l.length := by
  by_contra hg
  rw [nth, List.getD_eq_default _ _ (Nat.not_lt.1 hg)] at h
  exact absurd h (by decide)

/-! ## One channel, one group changed -/

section changed

variable (s : State) (d : Die)

theorem modChan_own {c : Nat} (hc : c < (s.pwm d).chans.length) (f : Chan → Chan) :
    nth ((s.modChan d c f).pwm d).chans c = f (nth (s.pwm d).chans c) := by
  rw [(s.modChan_new d c f).1, nth_upd _ hc]

theorem modChan_other {c k : Nat} (hk : k ≠ c) (f : Chan → Chan) :
    nth ((s.modChan d c f).pwm d).chans k = nth (s.pwm d).chans k := by
  rw [(s.modChan_new d c f).1, nth_upd_other _ hk]

theorem modGrp_own {g : Nat} (hg : g < (s.pwm d).grps.length) (f : Grp → Grp) :
    nth ((s.modGrp d g f).pwm d).grps g = f (nth (s.pwm d).grps g) := by
  rw [(s.modGrp_new d g f).1, nth_upd _ hg]

theorem modGrp_other {g k : Nat} (hk : k ≠ g) (f : Grp → Grp) :
    nth ((s.modGrp d g f).pwm d).grps k = nth (s.pwm d).grps k := by
  rw [(s.modGrp_new d g f).1, nth_upd_other _ hk]

end changed

/-! ## Members of a group one after another -/

section each

variable {P : List Part} {d : Die} {f : State → Nat → State}
  (ho : ∀ t c k, k ≠ c → nth ((f t c).pwm d).chans k = nth (t.pwm d).chans k)
include ho

theorem foldl_chan_other {l : List Nat} {c : Nat} (hc : c ∉ l) (s : State) :
    nth ((l.foldl f s).pwm d).chans c = nth (s.pwm d).chans c :=
  List.foldlRecOn l f (motive := fun t => nth (t.pwm d).chans c = nth (s.pwm d).chans c) rfl
    fun t h k hk => (ho t k c fun hck => hc (hck ▸ hk)).trans h

/-- A channel comes out of a walk over channels as its own step leaves it; that step finds it as it was before the walk. -/
theorem foldl_chan_own (hf : ∀ t c, Touches P t (f t c)) {l : List Nat} (hl : l.Nodup) {c : Nat} (hc : c ∈ l) (s : State) :
    ∃ t, Touches P s t ∧ nth (t.pwm d).chans c = nth (s.pwm d).chans c
      ∧ nth ((l.foldl f s).pwm d).chans c = nth ((f t c).pwm d).chans c := by
  obtain ⟨l₁, l₂, rfl⟩ := List.append_of_mem hc
  have hfresh := List.nodup_append.1 hl
  have h₁ : c ∉ l₁ := fun h => (hfresh.2.2 c h c (.head _)) rfl
  have h₂ : c ∉ l₂ := (List.nodup_cons.1 hfresh.2.1).1
  refine ⟨l₁.foldl f s, Touches.foldl hf l₁ s, foldl_chan_other ho h₁ s, ?_⟩
  rw [List.foldl_append, List.foldl_cons, foldl_chan_other ho h₂]

end each

end Sys2Proof.Machine
end

section
namespace Sys2Proof.Machine

/-! ## A member takes its duties (R250, R254) -/

/-- From s to t no carrier group of either die changes. -/
abbrev GroupsStay (s t : State) : Prop := Retains (fun _ => ()) id s t

/-- A leg's COMP shadow taken with DUTYA (R283). -/
def compTaken (s : State) (d : Die) (c cut : Nat) (a : Bool) : State :=
  match d with
  | .ds => if a then s.modLeg c fun x => { x with comp := (x.compsh.asOf cut).toNat } else s
  | .cs => s

theorem compTaken_touches (s : State) (d : Die) (c cut : Nat) (a : Bool) : Touches [.legs] s (compTaken s d c cut a) := by
  cases d
  · exact .refl _ s
  · exact .ite_self (modLeg_touches s c _)

/-- A channel that takes its shadows, DUTYA where a, DUTYB where b. -/
def Chan.takes (cut : Nat) (a b : Bool) (x : Chan) : Chan :=
  { x.takeCommit cut with
    da := if a then (x.dash.asOf cut).toNat else x.da
    db := if b then (x.dbsh.asOf cut).toNat else x.db
    phs := if x.phssh.wrAsOf cut then (x.phssh.asOf cut).toNat else x.phs
    dash := x.dash.take cut, dbsh := x.dbsh.take cut, phssh := x.phssh.take cut
    active := x.active || a || b, fresh := x.fresh || (!x.active && (a || b)), took := x.took || a || b }

section takePair

variable (s : State) (d : Die) (c cut : Nat) (a b : Bool)

theorem takePair_eq : takePair s d c cut a b = (compTaken s d c cut a).modChan d c (Chan.takes cut a b) := rfl

theorem takePair_touches : Touches [.legs, .pwmCs, .pwmDs] s (takePair s d c cut a b) :=
  .after (by decide) (modChan_touches _ d c _) ((compTaken_touches s d c cut a).mono (by decide))

theorem takePair_groupsStay : GroupsStay s (takePair s d c cut a b) :=
  ((compTaken_touches s d c cut a).retains (by decide)).trans (modChan_retains _ d c fun _ => rfl)

theorem takePair_own (hc : c < (s.pwm d).chans.length) :
    nth ((takePair s d c cut a b).pwm d).chans c = (nth (s.pwm d).chans c).takes cut a b := by
  have hpwm := (compTaken_touches s d c cut a).pwm d (by decide)
  rw [takePair_eq, modChan_own _ d (hpwm ▸ hc), hpwm]

theorem takePair_other {k : Nat} (hk : k ≠ c) : nth ((takePair s d c cut a b).pwm d).chans k = nth (s.pwm d).chans k := by
  rw [takePair_eq, modChan_other _ d hk, (compTaken_touches s d c cut a).pwm d (by decide)]

end takePair

theorem takes_of_dutyA (cut : Nat) (b : Bool) (x : Chan) :
    (x.takes cut true b).da = (x.dash.asOf cut).toNat ∧ (x.takes cut true b).active = true :=
  ⟨rfl, by simp [Chan.takes]⟩

/-! ### At a boundary outside SHADOW (R251) -/

/-- A member whose COMMIT is pending takes at a boundary what is written of its pair, unless UPD is MID. -/
def boundaryTaken (d : Die) (cut : Nat) (s : State) (c : Nat) : State :=
  let x := nth (s.pwm d).chans c
  if chanUpd s d c = 2 then s
  else takePair s d c cut (x.dash.wrAsOf cut) (x.dbsh.wrAsOf cut && chanOmode s d c == 1)

/-- The members whose COMMIT is pending at the cut-off. -/
def pendingMembers (s : State) (d : Die) (g cut : Nat) : List Nat :=
  (members s d g).filter fun c => (nth (s.pwm d).chans c).commitAsOf cut

section boundary

variable {s : State} {d : Die} {g c cut : Nat}

theorem boundaryTransfer_eq (hsrc : grpPsrc s d g ≠ 1) :
    boundaryTransfer s d g cut = (pendingMembers s d g cut).foldl (boundaryTaken d cut) s := by
  unfold boundaryTransfer
  dsimp only
  rw [if_pos hsrc]
  split
  case isTrue hnone => rw [pendingMembers, List.length_eq_zero_iff.1 hnone, List.foldl_nil]
  case isFalse => rfl

theorem boundaryTaken_touches (t : State) (c : Nat) : Touches [.legs, .pwmCs, .pwmDs] t (boundaryTaken d cut t c) :=
  .ite (fun _ => .refl _ t) fun _ => takePair_touches t d c cut _ _

theorem boundaryTaken_groupsStay (t : State) (c : Nat) : GroupsStay t (boundaryTaken d cut t c) :=
  .ite (fun _ => .refl t) fun _ => takePair_groupsStay t d c cut _ _

theorem boundaryTaken_other (t : State) (c k : Nat) (hk : k ≠ c) :
    nth ((boundaryTaken d cut t c).pwm d).chans k = nth (t.pwm d).chans k := by
  unfold boundaryTaken
  dsimp only
  split
  · rfl
  · exact takePair_other t d c cut _ _ hk

theorem boundaryTransfer_uncommitted (hsrc : grpPsrc s d g ≠ 1) (hcom : (nth (s.pwm d).chans c).commitAsOf cut = false) :
    nth ((boundaryTransfer s d g cut).pwm d).chans c = nth (s.pwm d).chans c := by
  rw [boundaryTransfer_eq hsrc]
  exact foldl_chan_other boundaryTaken_other (fun h => by simp [pendingMembers, hcom] at h) s

theorem boundaryTransfer_committed (hinv : Inv s) (hsrc : grpPsrc s d g ≠ 1) (hc : c ∈ members s d g)
    (hcom : (nth (s.pwm d).chans c).commitAsOf cut = true) (hupd : chanUpd s d c ≠ 2)
    (hwr : (nth (s.pwm d).chans c).dash.wrAsOf cut = true) :
    (nth ((boundaryTransfer s d g cut).pwm d).chans c).da = ((nth (s.pwm d).chans c).dash.asOf cut).toNat
      ∧ (nth ((boundaryTransfer s d g cut).pwm d).chans c).active = true := by
  have hmem : c ∈ pendingMembers s d g cut := List.mem_filter.2 ⟨hc, hcom⟩
  have hnodup : (pendingMembers s d g cut).Nodup := (members_nodup s d g).filter _
  obtain ⟨t, ht, hsame, hown⟩ := foldl_chan_own (boundaryTaken_other (d := d) (cut := cut)) boundaryTaken_touches hnodup hmem s
  have hlen : c < (t.pwm d).chans.length := by
    rw [(ht.inv hinv).chans_length d, ← hinv.chans_length d]
    exact hinv.member_lt hc
  rw [boundaryTransfer_eq hsrc, hown, boundaryTaken, chanUpd_congr (ht.recsIn_eq (by decide)), if_neg hupd,
    takePair_own t d c cut _ _ hlen, hsame, hwr]
  exact takes_of_dutyA cut _ _

end boundary

/-! ### At a boundary of a SHADOW group whose pair is complete (R251) -/

section shadow

variable {s : State} {d : Die} {g c cut : Nat}

theorem takePeriod_touches (s : State) (d : Die) (g cut : Nat) : Touches [.pwmCs, .pwmDs] s (takePeriod s d g cut) :=
  modGrp_touches s d g _

/-- Whether every member has its COMMIT pending and its duties written at the cut-off. -/
def PairComplete (s : State) (d : Die) (g cut : Nat) : Prop :=
  ∀ c ∈ members s d g, (nth (s.pwm d).chans c).commitAsOf cut = true ∧ dutyWritten s d c cut true = true

theorem pendingMembers_of_complete (h : PairComplete s d g cut) : pendingMembers s d g cut = members s d g :=
  List.filter_eq_self.2 fun c hc => (h c hc).1

/-- The members that lack something, as the DETAIL of SPLIT numbers them: none. -/
theorem mask_of_complete (h : PairComplete s d g cut) : (List.range (members s d g).length).foldl (fun a k =>
      if (members s d g).contains ((members s d g).getD k 0) && dutyWritten s d ((members s d g).getD k 0) cut true then a
      else a + 2 ^ k) 0 = 0 :=
  List.foldlRecOn _ _ (motive := (· = 0)) rfl fun a ha k hk => by
    have hlt := List.mem_range.1 hk
    have hmem : (members s d g).getD k 0 ∈ members s d g := by
      rw [List.getD_eq_getElem _ _ hlt]
      exact List.getElem_mem hlt
    rw [if_pos (by rw [List.contains_iff_mem.2 hmem, (h _ hmem).2]; rfl), ha]

theorem boundaryTransfer_complete (hsrc : grpPsrc s d g = 1) (hne : members s d g ≠ [])
    (hwr : (nth (s.pwm d).grps g).persh.wrAsOf cut = true) (hpair : PairComplete s d g cut) :
    boundaryTransfer s d g cut
      = (members s d g).foldl (fun s c => takePair s d c cut true (chanOmode s d c == 1)) (takePeriod s d g cut) := by
  have hcs : ((members s d g).filter fun c => (nth (s.pwm d).chans c).commitAsOf cut) = members s d g :=
    pendingMembers_of_complete hpair
  unfold boundaryTransfer
  simp only [hcs, hsrc, hwr, mask_of_complete hpair, List.length_eq_zero_iff, hne, ne_eq, not_true_eq_false, if_false,
    Bool.true_and, decide_true, if_true]

theorem boundaryTransfer_shadow (hinv : Inv s) (hg : g < (s.pwm d).grps.length) (hsrc : grpPsrc s d g = 1)
    (hne : members s d g ≠ []) (hwr : (nth (s.pwm d).grps g).persh.wrAsOf cut = true) (hpair : PairComplete s d g cut) :
    (nth ((boundaryTransfer s d g cut).pwm d).grps g).per = ((nth (s.pwm d).grps g).persh.asOf cut).toNat
      ∧ ∀ c ∈ members s d g,
        (nth ((boundaryTransfer s d g cut).pwm d).chans c).da = ((nth (s.pwm d).chans c).dash.asOf cut).toNat := by
  have hper : Touches [.pwmCs, .pwmDs] s (takePeriod s d g cut) := takePeriod_touches s d g cut
  rw [boundaryTransfer_complete hsrc hne hwr hpair]
  refine ⟨?_, fun c hc => ?_⟩
  · have hstay : GroupsStay (takePeriod s d g cut) ((members s d g).foldl (fun s c => takePair s d c cut true
        (chanOmode s d c == 1)) (takePeriod s d g cut)) :=
      .foldl (fun t c => takePair_groupsStay t d c cut true _) _ _
    rw [show nth _ g = nth _ g from hstay.grp d g, takePeriod, modGrp_own s d hg]
  · obtain ⟨t, ht, hsame, hown⟩ := foldl_chan_own (f := fun s c => takePair s d c cut true (chanOmode s d c == 1))
      (fun t c k hk => takePair_other t d c cut _ _ hk) (fun t c => takePair_touches t d c cut _ _)
      (members_nodup s d g) hc (takePeriod s d g cut)
    have hlen : c < (t.pwm d).chans.length := by
      rw [(ht.inv (hper.inv hinv)).chans_length d, ← hinv.chans_length d]
      exact hinv.member_lt hc
    have hkept : nth ((takePeriod s d g cut).pwm d).chans c = nth (s.pwm d).chans c := by
      rw [takePeriod, (s.modGrp_new d g _).1]
    rw [hown, takePair_own t d c cut _ _ hlen, hsame, hkept]
    exact (takes_of_dutyA cut _ _).1

end shadow

end Sys2Proof.Machine
end

section
namespace Sys2Proof.Machine

/-! ## What a transfer may touch and what it leaves of the groups (R250 to R254) -/

/-- What a transfer may touch: the duties, a leg's COMP, and the event of an incomplete pair. -/
def transferParts : List Part := .legs :: groupParts

/-- From s to t the boundaries of every carrier group are counted as before. -/
abbrev CountsStay (s t : State) : Prop := Retains (fun _ => ()) Grp.k s t

theorem GroupsStay.countsStay {s t : State} (h : GroupsStay s t) : CountsStay s t := h.less id Grp.k rfl rfl

section split

variable (s : State) (d : Die) (g c cut : Nat)

theorem clearFlags_touches : Touches [.pwmCs, .pwmDs] s (clearFlags s d c cut) := modChan_touches s d c _

theorem splitPolicy_touches (cs : List Nat) (mask : Nat) : Touches transferParts s (splitPolicy s d g cut cs mask) := by
  have hmod {t : State} (f : Grp → Grp) : Touches transferParts t (t.modGrp d g f) := (modGrp_touches t d g f).mono (by decide)
  unfold splitPolicy
  extract_lets ms gr pw pol pOld s1 s2 s3 pNew
  have h2 : Touches transferParts s s2 := .after (by decide) (grpEvent_touches s1 d g 1 _) (hmod _)
  refine .ite (fun _ => ?taken) fun _ => h2.trans (hmod _)
  have h3 : Touches transferParts s s3 :=
    h2.trans (.ite (fun _ => (takePeriod_touches s2 d g cut).mono (by decide)) fun _ => hmod _)
  refine h3.trans (Touches.foldl (fun t c => .after (by decide) (clearFlags_touches _ d c cut) ?member) ms s3)
  have htake (a b : Bool) : Touches transferParts t (takePair t d c cut a b) := (takePair_touches t d c cut a b).mono (by decide)
  exact .ite (fun _ => .ite_self (htake _ _)) fun _ => .ite (fun _ => htake _ _) fun _ =>
    .ite_self ((modChan_touches t d c _).mono (by decide))

theorem takePeriod_countsStay : CountsStay s (takePeriod s d g cut) := modGrp_retains s d g fun _ => rfl

theorem grpEvent_countsStay (cause : Nat) (detail : Word) : CountsStay s (grpEvent s d g cause detail) := by
  have hevt : CountsStay s (s.modGrp d g fun x => { x with evt := orBit x.evt cause }) := modGrp_retains s d g fun _ => rfl
  exact hevt.trans ((countEvent_touches _ _).retains (by decide))

theorem clearFlags_countsStay : CountsStay s (clearFlags s d c cut) := modChan_retains s d c fun _ => rfl

theorem takePair_countsStay (a b : Bool) : CountsStay s (takePair s d c cut a b) :=
  (takePair_groupsStay s d c cut a b).countsStay

theorem splitPolicy_countsStay (cs : List Nat) (mask : Nat) : CountsStay s (splitPolicy s d g cut cs mask) := by
  unfold splitPolicy
  extract_lets ms gr pw pol pOld s1 s2 s3 pNew
  have h1 : CountsStay s s1 := modGrp_retains s d g fun _ => rfl
  have h2 : CountsStay s s2 := h1.trans (grpEvent_countsStay s1 d g 1 _)
  have h3 : CountsStay s s3 :=
    h2.trans (.ite (fun _ => takePeriod_countsStay s2 d g cut) fun _ => modGrp_retains s2 d g fun _ => rfl)
  refine .ite (fun _ => ?taken) fun _ => h2.trans (modGrp_retains s2 d g fun _ => rfl)
  refine h3.trans (.foldl (fun t c => .trans ?member (clearFlags_countsStay _ d c cut)) ms s3)
  exact .ite (fun _ => .ite_self (takePair_countsStay t d c cut _ _)) fun _ =>
    .ite (fun _ => takePair_countsStay t d c cut _ _) fun _ => .ite_self (modChan_retains t d c fun _ => rfl)

theorem boundaryTransfer_touches : Touches transferParts s (boundaryTransfer s d g cut) := by
  have htake (t : State) (c : Nat) (a b : Bool) : Touches transferParts t (takePair t d c cut a b) :=
    (takePair_touches t d c cut a b).mono (by decide)
  unfold boundaryTransfer
  extract_lets ms cs pw mask
  refine .ite (fun _ => .refl _ s) fun _ => .ite (fun _ => ?_) fun _ => .ite (fun _ => ?_) fun _ =>
    splitPolicy_touches s d g cut cs mask
  · exact Touches.foldl (fun t c => .ite (fun _ => .refl _ t) fun _ => htake t c _ _) cs s
  · exact .trans ((takePeriod_touches s d g cut).mono (by decide)) (Touches.foldl (fun t c => htake t c _ _) ms _)

theorem boundaryTransfer_countsStay : CountsStay s (boundaryTransfer s d g cut) := by
  unfold boundaryTransfer
  extract_lets ms cs pw mask
  refine .ite (fun _ => .refl s) fun _ => .ite (fun _ => ?_) fun _ => .ite (fun _ => ?_) fun _ =>
    splitPolicy_countsStay s d g cut cs mask
  · exact .foldl (fun t c => .ite (fun _ => .refl t) fun _ => takePair_countsStay t d c cut _ _) cs s
  · exact .trans (takePeriod_countsStay s d g cut) (.foldl (fun t c => takePair_countsStay t d c cut _ _) ms _)

theorem boundaryTransfer_groupsStay (hsrc : grpPsrc s d g ≠ 1) : GroupsStay s (boundaryTransfer s d g cut) := by
  rw [boundaryTransfer_eq hsrc]
  exact .foldl boundaryTaken_groupsStay _ s

end split

/-! ### A first transfer within a running half (R254) -/

theorem driveFirst_touches (s : State) (d : Die) (c t : Nat) : Touches [.legs, .pwmCs, .pwmDs] s (driveFirst s d c t) :=
  .ite_self (.after (by decide) (modChan_touches _ d c _) (noteHalf_touches s d c _))

/-- A channel that starts to drive does so with the pair in force. -/
theorem driveFirst_retains (s : State) (d : Die) (c t : Nat) : Retains Chan.drive (id : Grp → Grp) s (driveFirst s d c t) :=
  .ite_self ((noteHalf_retains s d c _).trans (modChan_retains _ d c fun x => placeHalf_drive x _ _ _ _ _ _ _ _))

/-- The members' first transfers seen to. -/
def drivenFrom (s : State) (d : Die) (ms : List Nat) (b : Nat) : State := ms.foldl (fun s c => driveFirst s d c b) s

theorem drivenFrom_touches (s : State) (d : Die) (ms : List Nat) (b : Nat) :
    Touches [.legs, .pwmCs, .pwmDs] s (drivenFrom s d ms b) :=
  Touches.foldl (fun t c => driveFirst_touches t d c b) ms s

theorem drivenFrom_retains (s : State) (d : Die) (ms : List Nat) (b : Nat) :
    Retains Chan.drive (id : Grp → Grp) s (drivenFrom s d ms b) :=
  .foldl (fun t c => driveFirst_retains t d c b) ms s

/-! ## A group's boundary with its transfer (R240, R242 to R245, R251) -/

/-- A group whose boundary at b ends a period of the group as it was. -/
def Grp.turned (old : Grp) (bt : Word) (b : Nat) (x : Grp) : Grp :=
  { x with run := true, k := x.k + 1, bt := bt, bAt := b, pbAt := old.bAt, pper := old.per, xAt := none, xWatch := b / 16 + 1 }

/-- The duties and periods transferred at a boundary, as far as they go into the period that starts. -/
def transferred (s : State) (d : Die) (g b : Nat) : State :=
  drivenFrom (boundaryTransfer s d g (b / 16 - 2)) d (members s d g) b

/-- The period that starts at a boundary has been set. -/
def periodSet (s : State) (d : Die) (g b : Nat) (cross : Bool) : State :=
  nextPeriod (transferred s d g b) d g (nth (s.pwm d).grps g).k (b / 16) cross

/-- The group has taken its boundary. -/
def groupTurned (s : State) (d : Die) (g b : Nat) (cross : Bool) : State :=
  (periodSet s d g b cross).modGrp d g
    (Grp.turned (nth (s.pwm d).grps g) (countAt (periodSet s d g b cross) d (b / 16)) b)

/-- The machine whose legs the group carries has its update point and its boundary. -/
def machTurned (s : State) (d : Die) (g : Nat) : State :=
  match grpMach s d g with
  | some m => machBoundary (machUpdate s m) m
  | none => s

/-- A limit that holds a member low ends (R293, R439). -/
def limitEnded (d : Die) (s : State) (c : Nat) : State :=
  if (nth (s.pwm d).chans c).limHold then s.modChan d c fun x => { x with limHold := false } else s

theorem limitEnded_touches (d : Die) (s : State) (c : Nat) : Touches [.pwmCs, .pwmDs] s (limitEnded d s c) :=
  .ite_self (modChan_touches s d c _)

theorem limitEnded_steady (d : Die) (s : State) (c : Nat) : Steady s (limitEnded d s c) :=
  .ite_self (modChan_retains s d c fun _ => rfl)

theorem pushHalves_steady (s : State) (d : Die) (c b per : Nat) : Steady s (pushHalves s d c b per) :=
  modChan_retains s d c fun _ => rfl

/-- What hangs on a boundary: the halves of the members, actuators, the CARRIER beams bs, the machine, converters. -/
def boundaryFollows (s : State) (d : Die) (g b : Nat) (bs : List Nat) : State :=
  let per := (nth (s.pwm d).grps g).per
  let ms := members s d g
  let s := ms.foldl (fun s c => pushHalves s d c b per) s
  let s := ms.foldl (limitEnded d) s
  let s := if d == .cs then gearBoundary s g else s
  let s := bs.foldl directUpdate s
  cvBoundary (machTurned s d g) d g

theorem boundaryAt_eq (s : State) (d : Die) (g b : Nat) (cross : Bool) :
    boundaryAt s d g b cross true = boundaryFollows (groupTurned s d g b cross) d g b (carrierBeams s d g) := rfl

theorem machTurned_touches (s : State) (d : Die) (g : Nat) : Touches candleParts s (machTurned s d g) := by
  unfold machTurned
  split
  · exact (machUpdate_touches s _).trans (machBoundary_touches _ _)
  · exact .refl _ s

theorem machTurned_steady (s : State) (d : Die) (g : Nat) : Steady s (machTurned s d g) := by
  unfold machTurned
  split
  · exact (machUpdate_steady s _).trans (machBoundary_steady _ _)
  · exact .refl s

section follows

variable (s : State) (d : Die) (g b : Nat) (bs : List Nat)

theorem boundaryFollows_touches : Touches turnParts s (boundaryFollows s d g b bs) := by
  unfold boundaryFollows
  extract_lets per ms s1 s2 s3 s4
  have h1 : Touches [.pwmCs, .pwmDs] s s1 := Touches.foldl (fun t c => pushHalves_touches t d c b per) ms s
  have h2 : Touches [.pwmCs, .pwmDs] s s2 := h1.trans (Touches.foldl (limitEnded_touches d) ms s1)
  have h3 : Touches turnParts s s3 :=
    .trans (h2.mono (by decide)) (.ite_self ((gearBoundary_touches s2 g).mono (by decide)))
  have h4 : Touches turnParts s s4 := .after (by decide) (Touches.foldl directUpdate_touches bs s3) h3
  exact .after (by decide) (cvBoundary_touches _ d g) (.after (by decide) (machTurned_touches s4 d g) h4)

theorem boundaryFollows_steady : Steady s (boundaryFollows s d g b bs) := by
  unfold boundaryFollows
  extract_lets per ms s1 s2 s3 s4
  have h1 : Steady s s1 := .foldl (fun t c => pushHalves_steady t d c b per) ms s
  have h2 : Steady s s2 := h1.trans (.foldl (limitEnded_steady d) ms s1)
  have h3 : Steady s s3 := h2.trans (.ite_self ((gearBoundary_touches s2 g).steady (by decide)))
  have h4 : Steady s s4 := h3.trans (.foldl directUpdate_steady bs s3)
  exact (h4.trans (machTurned_steady s4 d g)).trans (cvBoundary_steady _ d g)

end follows

section turn

variable (s : State) (d : Die) (g b : Nat) (cross : Bool)

theorem transferred_touches : Touches transferParts s (transferred s d g b) :=
  .after (by decide) (drivenFrom_touches _ d _ b) (boundaryTransfer_touches s d g _)

theorem periodSet_touches : Touches transferParts s (periodSet s d g b cross) :=
  .after (by decide) (nextPeriod_touches _ d g _ _ cross) (transferred_touches s d g b)

theorem boundaryAt_transfer_touches : Touches (turnParts ++ trace) s (boundaryAt s d g b cross true) := by
  rw [boundaryAt_eq]
  refine .after (by decide) (boundaryFollows_touches _ d g b _) ?_
  exact .after (by decide) (modGrp_touches _ d g _) ((periodSet_touches s d g b cross).mono (by decide))

theorem Touches.countAt {P : List Part} {s t : State} (h : Touches P s t) (hP : .csOfs ∉ P ∧ .dsOfs ∉ P) (d : Die) (u : Nat) :
    Machine.countAt t d u = Machine.countAt s d u := by
  have hcs : t.csOfs = s.csOfs := h.agree .csOfs hP.1
  have hds : t.dsOfs = s.dsOfs := h.agree .dsOfs hP.2
  simp only [Machine.countAt, hcs, hds]

end turn

/-! ### The period that starts (R243, R245) -/

section period

variable {s : State} {d : Die} {g : Nat}

theorem nextPeriod_retains (hsrc : grpPsrc s d g ≠ 2) (k u : Nat) (cross : Bool) :
    Retains Chan.drive Grp.k s (nextPeriod s d g k u cross) := by
  unfold nextPeriod
  split
  · contradiction
  · exact modGrp_retains s d g fun _ => rfl
  · exact .refl s

/-- A FIXED or SHADOW group keeps the period it has. -/
theorem nextPeriod_keeps (hsrc : grpPsrc s d g = 0 ∨ grpPsrc s d g = 1) (k u : Nat) (cross : Bool) :
    nextPeriod s d g k u cross = s := by
  unfold nextPeriod
  rcases hsrc with h | h <;> simp only [h]

/-- A DITHER group takes the period its LFSR gives. -/
theorem nextPeriod_dither (hg : g < (s.pwm d).grps.length) (hsrc : grpPsrc s d g = 3) (k u : Nat) (cross : Bool) :
    (nth ((nextPeriod s d g k u cross).pwm d).grps g).per = (ditherPeriod s d g k (nth (s.pwm d).grps g).lfsr).1 := by
  unfold nextPeriod
  simp only [hsrc]
  rw [modGrp_own s d hg]

end period

end Sys2Proof.Machine
end

section
namespace Sys2Proof.Machine

/-! ## The group and its members after a boundary (R240, R243, R245, R251) -/

section turn

variable {s : State} {d : Die} {g b : Nat}

/-- The group has taken its boundary and keeps it through all that hangs on it. -/
theorem boundaryAt_grp (hinv : Inv s) (hg : g < (s.pwm d).grps.length) (cross : Bool) :
    (nth ((boundaryAt s d g b cross true).pwm d).grps g).unwatched
      = (Grp.turned (nth (s.pwm d).grps g) (countAt s d (b / 16)) b
          (nth ((periodSet s d g b cross).pwm d).grps g)).unwatched := by
  have hset := periodSet_touches s d g b cross
  have hlen : g < ((periodSet s d g b cross).pwm d).grps.length := by
    rwa [(hset.inv hinv).grps_length d, ← hinv.grps_length d]
  rw [boundaryAt_eq, (boundaryFollows_steady _ d g b _).grp d g, groupTurned, modGrp_own _ d hlen,
    hset.countAt (by decide) d]

/-- The period of the group after its boundary is the one that was set. -/
theorem boundaryAt_per (hinv : Inv s) (hg : g < (s.pwm d).grps.length) (cross : Bool) :
    (nth ((boundaryAt s d g b cross true).pwm d).grps g).per = (nth ((periodSet s d g b cross).pwm d).grps g).per :=
  (congrArg Grp.per (boundaryAt_grp hinv hg cross) :)

/-- No duty in force changes after the transfer. -/
theorem boundaryAt_chan (hsrc : grpPsrc s d g ≠ 2) (c : Nat) (cross : Bool) :
    (nth ((boundaryAt s d g b cross true).pwm d).chans c).drive
      = (nth ((boundaryTransfer s d g (b / 16 - 2)).pwm d).chans c).drive := by
  have hsrc' : grpPsrc (transferred s d g b) d g ≠ 2 := by
    rwa [grpPsrc_congr ((transferred_touches s d g b).recsIn_eq (by decide))]
  have hturn : Retains Chan.drive (fun _ => ()) (periodSet s d g b cross) (groupTurned s d g b cross) :=
    modGrp_retains _ d g fun _ => rfl
  rw [boundaryAt_eq, (boundaryFollows_steady _ d g b _).chan d c, hturn.chan d c,
    periodSet, (nextPeriod_retains hsrc' _ _ cross).chan d c, transferred, (drivenFrom_retains _ d _ b).chan d c]

theorem transferred_countsStay (s : State) (d : Die) (g b : Nat) : CountsStay s (transferred s d g b) :=
  (boundaryTransfer_countsStay s d g _).trans ((drivenFrom_retains _ d _ b).less (fun _ => ()) Grp.k rfl rfl)

theorem transferred_grps (s : State) (d : Die) (g b : Nat) :
    nth ((transferred s d g b).pwm d).grps g = nth ((boundaryTransfer s d g (b / 16 - 2)).pwm d).grps g :=
  (drivenFrom_retains _ d _ b).grp d g

theorem periodSet_count (hsrc : grpPsrc s d g ≠ 2) (cross : Bool) :
    (nth ((periodSet s d g b cross).pwm d).grps g).k = (nth (s.pwm d).grps g).k := by
  have hsrc' : grpPsrc (transferred s d g b) d g ≠ 2 := by
    rwa [grpPsrc_congr ((transferred_touches s d g b).recsIn_eq (by decide))]
  rw [periodSet, (nextPeriod_retains hsrc' _ _ cross).grp d g, (transferred_countsStay s d g b).grp d g]

/-- A FIXED or SHADOW group runs on with the period that the transfer leaves. -/
theorem periodSet_eq (hsrc : grpPsrc s d g = 0 ∨ grpPsrc s d g = 1) (cross : Bool) :
    periodSet s d g b cross = transferred s d g b :=
  nextPeriod_keeps (by rwa [grpPsrc_congr ((transferred_touches s d g b).recsIn_eq (by decide))]) _ _ cross

theorem transferred_grp_of_not_shadow (hsrc : grpPsrc s d g ≠ 1) :
    nth ((transferred s d g b).pwm d).grps g = nth (s.pwm d).grps g :=
  (transferred_grps s d g b).trans ((boundaryTransfer_groupsStay s d g _ hsrc).grp d g)

theorem periodSet_fixed (hsrc : grpPsrc s d g = 0) (cross : Bool) :
    nth ((periodSet s d g b cross).pwm d).grps g = nth (s.pwm d).grps g := by
  rw [periodSet_eq (.inl hsrc), transferred_grp_of_not_shadow (by omega)]

theorem periodSet_dither (hinv : Inv s) (hg : g < (s.pwm d).grps.length) (hsrc : grpPsrc s d g = 3) (cross : Bool) :
    (nth ((periodSet s d g b cross).pwm d).grps g).per
      = (ditherPeriod s d g (nth (s.pwm d).grps g).k (nth (s.pwm d).grps g).lfsr).1 := by
  have htouch := transferred_touches s d g b
  have hrecs := htouch.recsIn_eq (by decide)
  have hlen : g < ((transferred s d g b).pwm d).grps.length := by
    rwa [(htouch.inv hinv).grps_length d, ← hinv.grps_length d]
  rw [periodSet, nextPeriod_dither hlen (by rwa [grpPsrc_congr hrecs]), ditherPeriod_congr hrecs,
    transferred_grp_of_not_shadow (by omega)]

/-! ### What a boundary makes of periods and duties -/

theorem boundaryAt_fixed (hinv : Inv s) (hg : g < (s.pwm d).grps.length) (hsrc : grpPsrc s d g = 0) (cross : Bool) :
    (nth ((boundaryAt s d g b cross true).pwm d).grps g).per = (nth (s.pwm d).grps g).per := by
  rw [boundaryAt_per hinv hg, periodSet_fixed hsrc]

theorem boundaryAt_dither (hinv : Inv s) (hg : g < (s.pwm d).grps.length) (hsrc : grpPsrc s d g = 3) (cross : Bool) :
    (nth ((boundaryAt s d g b cross true).pwm d).grps g).per
      = (ditherPeriod s d g (nth (s.pwm d).grps g).k (nth (s.pwm d).grps g).lfsr).1 := by
  rw [boundaryAt_per hinv hg, periodSet_dither hinv hg hsrc]

theorem boundaryAt_count (hinv : Inv s) (hg : g < (s.pwm d).grps.length) (hsrc : grpPsrc s d g ≠ 2) (cross : Bool) :
    (nth ((boundaryAt s d g b cross true).pwm d).grps g).k = (nth (s.pwm d).grps g).k + 1 := by
  rw [← periodSet_count hsrc cross]
  exact (congrArg Grp.k (boundaryAt_grp hinv hg cross) :)

section members

variable {c : Nat}

theorem boundaryAt_uncommitted (hsrc : grpPsrc s d g ≠ 2) (hns : grpPsrc s d g ≠ 1)
    (hcom : (nth (s.pwm d).chans c).commitAsOf (b / 16 - 2) = false) (cross : Bool) :
    (nth ((boundaryAt s d g b cross true).pwm d).chans c).da = (nth (s.pwm d).chans c).da :=
  (congrArg Prod.fst (boundaryAt_chan hsrc c cross)).trans (congrArg Chan.da (boundaryTransfer_uncommitted hns hcom))

theorem boundaryAt_committed (hinv : Inv s) (hsrc : grpPsrc s d g ≠ 2) (hns : grpPsrc s d g ≠ 1) (hc : c ∈ members s d g)
    (hcom : (nth (s.pwm d).chans c).commitAsOf (b / 16 - 2) = true) (hupd : chanUpd s d c ≠ 2)
    (hwr : (nth (s.pwm d).chans c).dash.wrAsOf (b / 16 - 2) = true) (cross : Bool) :
    (nth ((boundaryAt s d g b cross true).pwm d).chans c).da = ((nth (s.pwm d).chans c).dash.asOf (b / 16 - 2)).toNat
      ∧ (nth ((boundaryAt s d g b cross true).pwm d).chans c).active = true := by
  have hdrive := boundaryAt_chan (b := b) hsrc c cross
  obtain ⟨hda, hactive⟩ := boundaryTransfer_committed hinv hns hc hcom hupd hwr
  exact ⟨(congrArg Prod.fst hdrive).trans hda, (congrArg (·.2.2) hdrive).trans hactive⟩

end members

theorem boundaryAt_shadow (hinv : Inv s) (hg : g < (s.pwm d).grps.length) (hsrc : grpPsrc s d g = 1)
    (hne : members s d g ≠ []) (hwr : (nth (s.pwm d).grps g).persh.wrAsOf (b / 16 - 2) = true)
    (hpair : PairComplete s d g (b / 16 - 2)) (cross : Bool) :
    (nth ((boundaryAt s d g b cross true).pwm d).grps g).per = ((nth (s.pwm d).grps g).persh.asOf (b / 16 - 2)).toNat
      ∧ ∀ c ∈ members s d g, (nth ((boundaryAt s d g b cross true).pwm d).chans c).da
          = ((nth (s.pwm d).chans c).dash.asOf (b / 16 - 2)).toNat := by
  obtain ⟨hper, hda⟩ := boundaryTransfer_shadow hinv hg hsrc hne hwr hpair
  refine ⟨?_, fun c hc => (congrArg Prod.fst (boundaryAt_chan (by omega) c cross)).trans (hda c hc)⟩
  rw [boundaryAt_per hinv hg, periodSet_eq (.inr hsrc), transferred_grps, hper]

end turn

/-! ## CARRIER_BOUNDARY -/

/-- A boundary's operations come after the time they are due at. -/
theorem boundary_touches (s : State) (d : Die) (g b : Nat) :
    Touches (.now :: turnParts ++ trace) s (boundaryAt (s.advanceTo (b / 16)) d g b false true) :=
  .after (by decide) (boundaryAt_transfer_touches _ d g b false) ((advanceTo_touches s _).mono (by decide))

/-- CARRIER_BOUNDARY of a running group that follows no beam ends its period at the end of it. -/
theorem exec_carrierBoundary {s : State} {die : Die} {group : Fin 16} (hrec : (grpRec s die group.val).isSome = true)
    (hrun : (nth (s.pwm die).grps group.val).run = true) (hsrc : grpPsrc s die group.val ≠ 2) :
    let gr := nth (s.pwm die).grps group.val
    exec (.carrierBoundary die group) s
      = .next (boundaryAt (s.advanceTo ((gr.bAt + gr.per) / 16)) die group.val (gr.bAt + gr.per) false true) := by
  refine congrArg Host.Outcome.next ?_
  simp [hrec, hrun, unlockLost, boundaryDue, hsrc]

/-! ## CARRIER_MIDPOINT (R253) -/

/-- A member whose COMMIT is pending takes at a mid-point what is written of its pair, with UPD MID or BOTH. -/
def midTaken (d : Die) (cut : Nat) (s : State) (c : Nat) : State :=
  let x := nth (s.pwm d).chans c
  if x.commitAsOf cut && 2 ≤ chanUpd s d c && dutyWritten s d c cut false then
    takePair s d c cut (x.dash.wrAsOf cut) (x.dbsh.wrAsOf cut && chanOmode s d c == 1)
  else s

section midpoint

variable {s : State} {d : Die} {g c cut : Nat}

theorem midTransfer_shadow (hsrc : grpPsrc s d g = 1) : midTransfer s d g cut = s := by rw [midTransfer, if_pos hsrc]

theorem midTransfer_eq (hsrc : grpPsrc s d g ≠ 1) : midTransfer s d g cut = (members s d g).foldl (midTaken d cut) s := by
  rw [midTransfer, if_neg hsrc]
  rfl

theorem midTaken_touches (t : State) (c : Nat) : Touches [.legs, .pwmCs, .pwmDs] t (midTaken d cut t c) :=
  .ite_self (takePair_touches t d c cut _ _)

theorem midTaken_other (t : State) (c k : Nat) (hk : k ≠ c) :
    nth ((midTaken d cut t c).pwm d).chans k = nth (t.pwm d).chans k := by
  unfold midTaken
  dsimp only
  split
  · exact takePair_other t d c cut _ _ hk
  · rfl

theorem midTransfer_touches (s : State) (d : Die) (g cut : Nat) : Touches [.legs, .pwmCs, .pwmDs] s (midTransfer s d g cut) :=
  .ite (fun _ => .refl _ s) fun _ => Touches.foldl midTaken_touches _ s

theorem midTransfer_groupsStay (s : State) (d : Die) (g cut : Nat) : GroupsStay s (midTransfer s d g cut) :=
  .ite (fun _ => .refl s) fun _ => .foldl (fun t c => .ite_self (takePair_groupsStay t d c cut _ _)) _ s

theorem dutyWritten_of_dutyA (hwr : (nth (s.pwm d).chans c).dash.wrAsOf cut = true) : dutyWritten s d c cut false = true := by
  simp [dutyWritten, hwr]

theorem midTransfer_committed (hinv : Inv s) (hsrc : grpPsrc s d g ≠ 1) (hc : c ∈ members s d g)
    (hcom : (nth (s.pwm d).chans c).commitAsOf cut = true) (hupd : 2 ≤ chanUpd s d c)
    (hwr : (nth (s.pwm d).chans c).dash.wrAsOf cut = true) :
    (nth ((midTransfer s d g cut).pwm d).chans c).da = ((nth (s.pwm d).chans c).dash.asOf cut).toNat := by
  obtain ⟨t, ht, hsame, hown⟩ :=
    foldl_chan_own (midTaken_other (d := d) (cut := cut)) midTaken_touches (members_nodup s d g) hc s
  have hlen : c < (t.pwm d).chans.length := by
    rw [(ht.inv hinv).chans_length d, ← hinv.chans_length d]
    exact hinv.member_lt hc
  have hdue : ((nth (t.pwm d).chans c).commitAsOf cut && 2 ≤ chanUpd t d c && dutyWritten t d c cut false) = true := by
    rw [dutyWritten_of_dutyA (hsame ▸ hwr), hsame, hcom, chanUpd_congr (ht.recsIn_eq (by decide))]
    simpa using hupd
  rw [midTransfer_eq hsrc, hown, midTaken, if_pos hdue, takePair_own t d c cut _ _ hlen, hsame, hwr]
  exact (takes_of_dutyA cut _ _).1

end midpoint

/-- The machine whose legs the group carries has its update point. -/
def machUpdated (s : State) (d : Die) (g : Nat) : State :=
  match grpMach s d g with
  | some m => machUpdate s m
  | none => s

/-- What follows a transfer at a mid-point. -/
def midFollows (s : State) (d : Die) (g b : Nat) : State := machUpdated (drivenFrom s d (members s d g) b) d g

theorem machUpdated_touches (s : State) (d : Die) (g : Nat) : Touches candleParts s (machUpdated s d g) := by
  unfold machUpdated
  split
  · exact machUpdate_touches s _
  · exact .refl _ s

theorem machUpdated_steady (s : State) (d : Die) (g : Nat) : Steady s (machUpdated s d g) := by
  unfold machUpdated
  split
  · exact machUpdate_steady s _
  · exact .refl s

theorem midFollows_touches (s : State) (d : Die) (g b : Nat) : Touches candleParts s (midFollows s d g b) :=
  .trans ((drivenFrom_touches s d _ b).mono (by decide)) (machUpdated_touches _ d g)

theorem midFollows_steady (s : State) (d : Die) (g b : Nat) : Steady s (midFollows s d g b) :=
  .trans ((drivenFrom_retains s d _ b).less id Grp.unwatched rfl rfl) (machUpdated_steady _ d g)

/-- What a mid-point may touch beside the time. -/
def midParts : List Part := .pwmDs :: candleParts

section midpoint

variable {s : State} {d : Die} {g c cut b : Nat}

theorem midpoint_touches (s : State) (d : Die) (g cut b : Nat) :
    Touches midParts s (midFollows (midTransfer s d g cut) d g b) :=
  .after (by decide) (midFollows_touches _ d g b) ((midTransfer_touches s d g cut).mono (by decide))

theorem midpoint_grp (s : State) (d : Die) (g cut b : Nat) :
    (nth ((midFollows (midTransfer s d g cut) d g b).pwm d).grps g).unwatched = (nth (s.pwm d).grps g).unwatched :=
  ((midFollows_steady _ d g b).grp d g).trans (congrArg Grp.unwatched ((midTransfer_groupsStay s d g cut).grp d g))

theorem midpoint_committed (hinv : Inv s) (hsrc : grpPsrc s d g ≠ 1) (hc : c ∈ members s d g)
    (hcom : (nth (s.pwm d).chans c).commitAsOf cut = true) (hupd : 2 ≤ chanUpd s d c)
    (hwr : (nth (s.pwm d).chans c).dash.wrAsOf cut = true) :
    (nth ((midFollows (midTransfer s d g cut) d g b).pwm d).chans c).da = ((nth (s.pwm d).chans c).dash.asOf cut).toNat :=
  (congrArg Prod.fst ((midFollows_steady _ d g b).chan d c)).trans (midTransfer_committed hinv hsrc hc hcom hupd hwr)

theorem midpoint_shadow (hsrc : grpPsrc s d g = 1) (c : Nat) :
    (nth ((midFollows (midTransfer s d g cut) d g b).pwm d).chans c).da = (nth (s.pwm d).chans c).da := by
  rw [midTransfer_shadow hsrc]
  exact congrArg Prod.fst ((midFollows_steady s d g b).chan d c)

end midpoint

/-- CARRIER_MIDPOINT of a running group. -/
theorem exec_carrierMidpoint {s : State} {die : Die} {group : Fin 16} (hrec : (grpRec s die group.val).isSome = true)
    (hrun : (nth (s.pwm die).grps group.val).run = true) :
    let gr := nth (s.pwm die).grps group.val
    let b := gr.bAt + gr.per / 2
    exec (.carrierMidpoint die group) s
      = .next (midFollows (midTransfer (s.advanceTo (b / 16)) die group.val (b / 16 - 2)) die group.val b) := by
  refine congrArg Host.Outcome.next ?_
  simp only [hrec, hrun, Bool.and_self, if_true]
  rfl

/-! ## CARRIER_UNLOCK (R244) -/

/-- A group that runs free at PMAX, its event noted. -/
def Grp.unlocks (pmax : Nat) (x : Grp) : Grp := { x with unlock := true, per := pmax, evt := orBit x.evt 3 }

theorem unlock_pwm (s : State) (d : Die) (g reason : Nat) :
    (unlock s d g reason).pwm d = (s.modGrp d g (Grp.unlocks (grpW s d g 3).toNat)).pwm d := by
  rw [unlock, grpEvent, (countEvent_touches _ _).pwm d (by decide), (State.modGrp_new _ d g _).1, (State.modGrp_new s d g _).1,
    (State.modGrp_new s d g _).1, upd, upd, upd, List.modify_modify_eq]
  rfl

/-- From s to t a group unlocks, at a time not before, and no other group of its die changes. -/
structure Unlocks (d : Die) (g : Nat) (s t : State) : Prop where
  touches : Touches (traced [.now, .pwmCs, .pwmDs]) s t
  own : nth (t.pwm d).grps g = (nth (s.pwm d).grps g).unlocks (grpW s d g 3).toNat
  other : ∀ k, k ≠ g → nth (t.pwm d).grps k = nth (s.pwm d).grps k

theorem unlock_unlocks {s : State} {d : Die} {g : Nat} (hg : g < (s.pwm d).grps.length) (reason : Nat) :
    Unlocks d g s (unlock s d g reason) where
  touches := (unlock_touches s d g reason).mono (by decide)
  own := by rw [unlock_pwm, modGrp_own s d hg]
  other k hk := by rw [unlock_pwm, modGrp_other s d hk]

theorem Unlocks.of_advanceTo {s t : State} {d : Die} {g u : Nat} (h : Unlocks d g (s.advanceTo u) t) : Unlocks d g s t where
  touches := .trans ((advanceTo_touches s u).mono (by decide)) h.touches
  own := by rw [h.own, advanceTo_pwm, grpW_congr ((advanceTo_touches s u).recsIn_eq (by decide))]
  other k hk := by rw [h.other k hk, advanceTo_pwm]

section unlock

variable {s : State} {d : Die} {g : Nat}

theorem unlockLost_of_crossing (h : (lockCross s d g).isSome = true) : unlockLost s d g = s := by
  simp [unlockLost, Option.isNone_eq_false_iff.2 h]

theorem unlockLost_of_reason (hsrc : grpPsrc s d g = 2) (hlock : (nth (s.pwm d).grps g).unlock = false)
    (hnone : lockCross s d g = none) {r : Nat} (hr : unlockReason s d g = some r) : unlockLost s d g = unlock s d g r := by
  simp [unlockLost, hsrc, hlock, hnone, hr]

theorem unlockLost_of_no_reason (hsrc : grpPsrc s d g = 2) (hlock : (nth (s.pwm d).grps g).unlock = false)
    (hnone : lockCross s d g = none) (hr : unlockReason s d g = none) :
    unlockLost s d g = unlock (s.advanceTo (((nth (s.pwm d).grps g).bAt + (grpW s d g 3).toNat) / 16)) d g 2 := by
  simp [unlockLost, hsrc, hlock, hnone, hr]

theorem unlockLost_unlocks (hg : g < (s.pwm d).grps.length) (hsrc : grpPsrc s d g = 2)
    (hlock : (nth (s.pwm d).grps g).unlock = false) (hnone : lockCross s d g = none) : Unlocks d g s (unlockLost s d g) := by
  cases hr : unlockReason s d g with
  | some r =>
    rw [unlockLost_of_reason hsrc hlock hnone hr]
    exact unlock_unlocks hg r
  | none =>
    rw [unlockLost_of_no_reason hsrc hlock hnone hr]
    exact (unlock_unlocks (by rwa [advanceTo_pwm]) 2).of_advanceTo

end unlock

theorem exec_carrierUnlock {s : State} {die : Die} {group : Fin 16} (hrec : (grpRec s die group.val).isSome = true)
    (hrun : (nth (s.pwm die).grps group.val).run = true) :
    exec (.carrierUnlock die group) s = .next (unlockLost s die group.val) := by
  refine congrArg Host.Outcome.next ?_
  simp [hrec, hrun]

end Sys2Proof.Machine
end

section
namespace Sys2Proof.Machine

/-! ## Settling the carrier groups -/

/-- Settles O42: the transfer walks over the members one by one, each step finding its channel as it was; the boundary and what
hangs on it then change no duty, and of a group no more than the crossing it waits for. -/
theorem carrierGroupsTurnAndTransfer : Obligations.CarrierGroupsTurnAndTransfer := by
  unfold Obligations.CarrierGroupsTurnAndTransfer
  intro die group s hinv hrec hrun g gr
  have hg : g < (s.pwm die).grps.length := grp_lt_of_run hrun
  refine ⟨fun hsrc => ?boundary, ?midpoint, fun hsrc hlock => ?unlock⟩
  case boundary =>
    intro b cut pair
    let u := s.advanceTo (b / 16)
    have hu : Inv u := (advanceTo_touches s _).inv hinv
    have hgrp : (nth ((boundaryAt u die g b false true).pwm die).grps g).unwatched
        = (Grp.turned gr (countAt s die (b / 16)) b (nth ((periodSet u die g b false).pwm die).grps g)).unwatched :=
      boundaryAt_grp (s := u) hu hg false
    exact ⟨_, exec_carrierBoundary hrec hrun hsrc,
      (boundaryAt_transfer_touches u die g b false).now (by decide), congrArg Grp.run hgrp,
      boundaryAt_count (s := u) hu hg hsrc false, congrArg Grp.bAt hgrp, congrArg Grp.pbAt hgrp,
      congrArg Grp.pper hgrp, congrArg Grp.bt hgrp,
      fun h0 => boundaryAt_fixed (s := u) hu hg h0 false,
      fun h3 => boundaryAt_dither (s := u) hu hg h3 false,
      fun h1 _ hc => ⟨fun hcom => boundaryAt_uncommitted (s := u) hsrc h1 hcom false,
        fun hcom hupd hwr => boundaryAt_committed (s := u) hu hsrc h1 hc hcom hupd hwr false⟩,
      fun h1 hne hwr hpair => boundaryAt_shadow (s := u) hu hg h1 hne hwr hpair false,
      ((boundary_touches s die g b).mono (by decide)).onlyChanges⟩
  case midpoint =>
    intro m
    let u := s.advanceTo m
    have hu : Inv u := (advanceTo_touches s m).inv hinv
    have hmid := midpoint_touches u die g (m - 2) (gr.bAt + gr.per / 2)
    have hgrp := midpoint_grp u die g (m - 2) (gr.bAt + gr.per / 2)
    exact ⟨_, exec_carrierMidpoint hrec hrun, hmid.now (by decide),
      fun _ hc h1 hcom hupd hwr => midpoint_committed (s := u) hu h1 hc hcom hupd hwr,
      fun h1 c => midpoint_shadow (s := u) h1 c, (congrArg Grp.per hgrp :), (congrArg Grp.k hgrp :),
      (Touches.after (by decide) hmid ((advanceTo_touches s m).mono (by decide))).onlyChanges⟩
  case unlock =>
    refine ⟨_, exec_carrierUnlock hrec hrun, unlockLost_of_crossing, ?_⟩
    cases hcross : lockCross s die g with
    | some x =>
      rw [unlockLost_of_crossing (by rw [hcross]; rfl)]
      exact ⟨(nomatch ·), fun _ _ => rfl, (Touches.refl _ s).onlyChanges⟩
    | none =>
      have h := unlockLost_unlocks hg hsrc hlock hcross
      refine ⟨fun _ => ⟨(congrArg Grp.unlock h.own :), (congrArg Grp.per h.own :),
        bitOf_of_eq_orBit (congrArg Grp.evt h.own) (by decide), fun hr => ?_, fun hr => ?_⟩, h.other, h.touches.onlyChanges⟩
      · obtain ⟨r, hr⟩ := Option.isSome_iff_exists.1 hr
        rw [unlockLost_of_reason hsrc hlock hcross hr, (unlock_touches s die g r).now (by decide)]
      · rw [unlockLost_of_no_reason hsrc hlock hcross hr, (unlock_touches _ die g 2).now (by decide)]
        rfl

end Sys2Proof.Machine
end

section
namespace Sys2Proof.Machine

/-! ## Machines, Candles and legs one at a time -/

theorem Inv.mach_length {s : State} (h : Inv s) : s.mach.length = 2 := (congrArg (fun l => nth l 14) h.2 :)

theorem Inv.candle_length {s : State} (h : Inv s) : s.candle.length = 2 := (congrArg (fun l => nth l 15) h.2 :)

theorem Inv.legs_length {s : State} (h : Inv s) : s.legs.length = 48 := (congrArg (fun l => nth l 16) h.2 :)

theorem Inv.mach_lt {s : State} (h : Inv s) (m : Fin 2) : m.val < s.mach.length := h.mach_length.symm ▸ m.isLt

theorem Inv.candle_lt {s : State} (h : Inv s) (m : Fin 2) : m.val < s.candle.length := h.candle_length.symm ▸ m.isLt

theorem Inv.leg_lt {s : State} (h : Inv s) (c : Fin 48) : c.val < s.legs.length := h.legs_length.symm ▸ c.isLt

theorem modMach_own {s : State} {m : Nat} (hm : m < s.mach.length) (f : Mach → Mach) :
    nth (s.modMach m f).mach m = f (nth s.mach m) := nth_upd _ hm f

theorem modCandle_own {s : State} {m : Nat} (hm : m < s.candle.length) (f : Candle → Candle) :
    nth (s.modCandle m f).candle m = f (nth s.candle m) := nth_upd _ hm f

/-- A machine with the event bit of a cause set. -/
def Mach.noted (cause : Nat) (x : Mach) : Mach := { x with evt := orBit x.evt cause }

/-- An event changes nothing of the machines but the event bit of its own. -/
theorem wfEvent_mach (s : State) (m cause elem : Nat) (detail : Word) :
    (wfEvent s m cause elem detail).mach = upd s.mach m (Mach.noted cause) :=
  (latchPlain_touches (P := protParts) (by decide) _ _ fun _ => (countEvent_touches _ _).mono (by decide)).agree .mach (by decide)

theorem wfEvent_own {s : State} {m : Nat} (hm : m < s.mach.length) (cause elem : Nat) (detail : Word) :
    nth (wfEvent s m cause elem detail).mach m = (nth s.mach m).noted cause := by
  rw [wfEvent_mach, nth_upd _ hm]

/-! ## What the records in force decide of the machines and their legs (R46, R273, R274) -/

section records

variable {s t : State} (h : recsIn t = recsIn s)
include h

theorem wfW_congr (m i : Nat) : wfW t m i = wfW s m i := by simp only [wfW, h]

theorem machPhases_congr (m : Nat) : machPhases t m = machPhases s m := by simp only [machPhases, machRec, h]

theorem legPhase_congr (c : Nat) : legPhase t c = legPhase s c := by simp only [legPhase, legRec, h]

theorem phaseMach_congr (p : Nat) : phaseMach t p = phaseMach s p := by simp only [phaseMach, h]

theorem machFirst_congr (m : Nat) : machFirst t m = machFirst s m := by simp only [machFirst, phaseMach, h]

theorem phaseSet_congr (p : Nat) : phaseSet t p = phaseSet s p := by
  simp only [phaseSet, machFirst_congr h, phaseMach_congr h]

theorem phaseIdx_congr (p : Nat) : phaseIdx t p = phaseIdx s p := by
  simp only [phaseIdx, machFirst_congr h, phaseMach_congr h]

theorem chanGrp_congr (d : Die) (c : Nat) : chanGrp t d c = chanGrp s d c := by simp only [chanGrp, chanW, chanRec, h]

theorem fillDuty_congr (m st k : Nat) (v : Limited) (th : Word) (p0 : Nat) :
    fillDuty t m st k v th p0 = fillDuty s m st k v th p0 := by
  simp only [fillDuty, phaseV, angleOff, phaseAlpha, wfW_congr h]

end records

end Sys2Proof.Machine
end

section
namespace Sys2Proof.Machine

/-! ## Fill duties (R277, R283 to R285) -/

/-- A fill duty is no more than the period it is a part of. -/
theorem fillDuty_le (s : State) (m st k : Nat) (v : Limited) (th : Word) (p0 : Nat) : fillDuty s m st k v th p0 ≤ p0 :=
  Int.toNat_le.2 (clampI_bounds (Int.natCast_nonneg p0) _).2

/-- The fill duty of a leg: that of its phase, in P0 of its group. -/
def legDuty (s : State) (m : Nat) (v : Limited) (th : Word) (c : Nat) : Nat :=
  fillDuty s m (phaseSet s (legPhase s c)) (phaseIdx s (legPhase s c)) v th (grpW s .ds (chanGrp s .ds c) 1).toNat

theorem legDuty_congr {s t : State} (h : recsIn t = recsIn s) (m : Nat) (v : Limited) (th : Word) (c : Nat) :
    legDuty t m v th c = legDuty s m v th c := by
  simp only [legDuty, fillDuty_congr h, phaseSet_congr h, phaseIdx_congr h, legPhase_congr h, grpW_congr h, chanGrp_congr h]

/-- A duty weighted by FILLW (R283). -/
def fillWeighted (w duty : Nat) : Nat := (2 * w * duty + 65536) / 131072

section write

variable (s : State) (m : Nat) (v : Limited) (th : Word) (w c : Nat)

theorem writeLeg_touches : Touches [.legs, .pwmCs, .pwmDs] s (writeLeg s m v th w c) :=
  .after (by decide) (modChan_touches _ .ds c _) ((modLeg_touches s c _).mono (by decide))

theorem writeLeg_other (k : Nat) (hk : k ≠ c) :
    nth ((writeLeg s m v th w c).pwm .ds).chans k = nth (s.pwm .ds).chans k := modChan_other _ .ds hk _

theorem writeLeg_dash (hc : c < (s.pwm .ds).chans.length) :
    (nth ((writeLeg s m v th w c).pwm .ds).chans c).dash
      = (nth (s.pwm .ds).chans c).dash.write s.now (wd (fillWeighted w (legDuty s m v th c))) :=
  congrArg Chan.dash (modChan_own _ .ds hc _)

end write

/-- The shadows of legs written one after another. -/
def legsWritten (m : Nat) (v : Limited) (th : Word) (w : Nat) (l : List Nat) (s : State) : State :=
  l.foldl (fun t c => writeLeg t m v th w c) s

section legs

variable {s : State} {m : Nat} {v : Limited} {th : Word} {w : Nat} {l : List Nat}

theorem legsWritten_touches : Touches [.legs, .pwmCs, .pwmDs] s (legsWritten m v th w l s) :=
  Touches.foldl (fun t c => writeLeg_touches t m v th w c) l s

theorem legsWritten_other {c : Nat} (hc : c ∉ l) :
    nth ((legsWritten m v th w l s).pwm .ds).chans c = nth (s.pwm .ds).chans c :=
  foldl_chan_other (fun t c k hk => writeLeg_other t m v th w c k hk) hc s

/-- Each leg's duty shadow is written once, with what the state before all of them gives. -/
theorem legsWritten_dash (hinv : Inv s) (hl : l.Nodup) {c : Nat} (hc : c ∈ l) (hlt : c < 48) :
    (nth ((legsWritten m v th w l s).pwm .ds).chans c).dash
      = (nth (s.pwm .ds).chans c).dash.write s.now (wd (fillWeighted w (legDuty s m v th c))) := by
  obtain ⟨t, ht, hsame, hown⟩ := foldl_chan_own (d := .ds) (fun t c k hk => writeLeg_other t m v th w c k hk)
    (fun t c => writeLeg_touches t m v th w c) hl hc s
  have hct : c < (t.pwm .ds).chans.length := ((ht.inv hinv).chans_length .ds).symm ▸ hlt
  rw [legsWritten, hown, writeLeg_dash t m v th w c hct, hsame, ht.now (by decide), legDuty_congr (ht.recsIn_eq (by decide))]

end legs

/-- A machine with MODE, FILLW and the limited voltages taken for an update point. -/
def Mach.takes (i : WaveIn) (v : Limited) (x : Mach) : Mach :=
  { x with pend := some (i.mode.toNat, i.fillw), vdl := wi (satS 32 (mantOf v.vd (-12))), vql := wi (satS 32 (mantOf v.vq (-12)))
           satDH := v.dH, satDL := v.dL, satQH := v.qH, satQL := v.qL }

/-- The angle a machine's fill duties are made for. -/
def fillAngle (s : State) (m u : Nat) : Word := beamPhase s .ds (machBeam s m) (u + fld (wfW s m 6) 15 0)

/-- The update for the point in cycle u, made now. -/
def dutiesUpdated (s : State) (m u : Nat) : State :=
  legsWritten m (limited s m (waveBefore s m)) (fillAngle s m u) (waveBefore s m).fillw.toNat (machLegs s m)
    (s.modMach m (Mach.takes (waveBefore s m) (limited s m (waveBefore s m))))

theorem exec_waveDutyUpdate {m : Fin 2} {s : State} {p : Nat} (hon : machOn s m.val = true) (hready : s.sys.dsReady = true)
    (hnext : nextUpdate s m.val = some p) :
    exec (.waveDutyUpdate m) s = .next (dutiesUpdated (s.advanceTo (p / 16 - 3)) m.val (p / 16)) := by
  refine congrArg Host.Outcome.next ?_
  simp only [hon, hready, hnext, Bool.not_true, Bool.or_self, Bool.false_eq_true, if_false]
  rfl

section update

variable (s : State) (m u : Nat)

theorem dutiesUpdated_touches : Touches [.pwmCs, .pwmDs, .mach, .legs] s (dutiesUpdated s m u) :=
  .after (by decide) legsWritten_touches ((modMach_touches s m _).mono (by decide))

theorem dutiesUpdated_mach {m : Nat} (hm : m < s.mach.length) :
    nth (dutiesUpdated s m u).mach m = (nth s.mach m).takes (waveBefore s m) (limited s m (waveBefore s m)) := by
  rw [dutiesUpdated, legsWritten_touches.agree .mach (by decide), modMach_own hm]

theorem dutiesUpdated_dash (hinv : Inv s) {c : Nat} (hc : c ∈ machLegs s m) :
    (nth ((dutiesUpdated s m u).pwm .ds).chans c).dash = (nth (s.pwm .ds).chans c).dash.write s.now
      (wd (fillWeighted (waveBefore s m).fillw.toNat (legDuty s m (limited s m (waveBefore s m)) (fillAngle s m u) c))) :=
  legsWritten_dash ((modMach_touches s m _).inv hinv) (List.nodup_range.filter _) hc
    (List.mem_range.1 (List.mem_of_mem_filter hc))

end update

end Sys2Proof.Machine
end

section
namespace Sys2Proof.Machine

/-! ## Step edges (R279, R280) -/

/-- A leg at a step state, stamped. -/
def Leg.stepped (h : Bool) (edgT : Word) (x : Leg) : Leg := { x with h := h, edgT := edgT }

/-- The edge placed on a leg's outputs at an instant. -/
def edgePlaced (s : State) (c at_ : Nat) : State :=
  replanLeg (s.modLeg c fun y => { y with hEdges := y.hEdges.filter (now16 s < ·) ++ [at_] }) c at_

/-- From s to t one leg's step state is set and stamped, and where its edge shows the edge is placed; nothing of another leg or
channel changes. -/
structure StepsLeg (c : Nat) (h : Bool) (edgT : Word) (s t : State) : Prop where
  touches : Touches [.pwmCs, .pwmDs, .legs] s t
  state : (nth t.legs c).h = h
  stamp : (nth t.legs c).edgT = edgT
  legs : ∀ k, k ≠ c → nth t.legs k = nth s.legs k
  chans : ∀ k, k ≠ c → nth t.pwmDs.chans k = nth s.pwmDs.chans k

section step

variable {s : State} {c : Nat} {h : Bool} {edgT : Word}

theorem modLeg_steps (hc : c < s.legs.length) : StepsLeg c h edgT s (s.modLeg c (Leg.stepped h edgT)) where
  touches := (modLeg_touches s c _).mono (by decide)
  state := congrArg Leg.h (nth_upd s.legs hc _)
  stamp := congrArg Leg.edgT (nth_upd s.legs hc _)
  legs _ hk := nth_upd_other s.legs hk _
  chans _ _ := rfl

/-- The edge placed after it. -/
theorem StepsLeg.placed {t : State} (k : StepsLeg c h edgT s t) (hc : c < t.legs.length) (at_ : Nat) :
    StepsLeg c h edgT s (edgePlaced t c at_) where
  touches := .after (by decide) (replanLeg_touches _ c at_) <| .after (by decide) (modLeg_touches t c _) k.touches
  state := (congrArg Leg.h (nth_upd t.legs hc _)).trans k.state
  stamp := (congrArg Leg.edgT (nth_upd t.legs hc _)).trans k.stamp
  legs i hi := (nth_upd_other t.legs hi _).trans (k.legs i hi)
  chans i hi := (modChan_other _ .ds hi _).trans (k.chans i hi)

end step

end Sys2Proof.Machine
end

section
namespace Sys2Proof.Machine

/-- The whole cycles that a leg's negative TRIM places its edges ahead (R280). -/
def stepAhead (s : State) (c : Nat) : Nat := ((-(nth s.pwmDs.chans c).trim).toNat + 15) / 16

/-- LEG_STEP_EDGE where the leg's next edge is known: the step state of its cycle, stamped there. -/
theorem exec_legStepEdge {ch : Fin 48} {s : State} {tm : Int} {f : Nat} (hinv : Inv s) (hleg : isLeg s ch.val = true)
    (hon : machOn s (legMach s ch.val) = true) (hbm : bmOn s (machBeam s (legMach s ch.val)) = true)
    (hready : s.sys.dsReady = true)
    (hnext : nextStep (nth s.legs ch.val).h (legPos s ch.val) (phaseLegs s (legPhase s ch.val))
      (waveBefore s (legMach s ch.val)).grade.toInt
      (fun t => psiAt s (legMach s ch.val) ch.val (waveBefore s (legMach s ch.val)) (t + stepAhead s ch.val)) s.now = some (tm, f)) :
    ∃ t, exec (.legStepEdge ch) s = .next t
      ∧ StepsLeg ch.val (stepState (legPos s ch.val) (phaseLegs s (legPhase s ch.val))
          (waveBefore s (legMach s ch.val)).grade.toInt (psiAt (s.advanceTo tm.toNat) (legMach s ch.val) ch.val
            (waveBefore s (legMach s ch.val)) (tm + stepAhead s ch.val)))
          (count (s.advanceTo tm.toNat) .ds) (s.advanceTo tm.toNat) t := by
  let u := s.advanceTo tm.toNat
  have hu : ch.val < u.legs.length := hinv.leg_lt ch
  have hset {h : Bool} {e : Word} : StepsLeg ch.val h e u (u.modLeg ch.val (Leg.stepped h e)) := modLeg_steps hu
  refine ⟨_, rfl, ?_⟩
  simp only [hleg, hon, hbm, hready, Bool.not_true, Bool.or_self, Bool.false_eq_true, if_false]
  unfold stepAhead at hnext
  rw [hnext]
  dsimp only
  split
  · exact hset
  · exact hset.placed (((modLeg_touches u ch.val _).inv ((advanceTo_touches s _).inv hinv)).leg_lt ch) _

end Sys2Proof.Machine
end

section
namespace Sys2Proof.Machine

/-! ## Electrical turns (R288, R301) -/

theorem confine_touches (s : State) (m st : Nat) : Touches [.prot] s (confine s m st) :=
  .ite (fun _ => .refl _ s) fun _ => prot_touches s _ rfl rfl rfl (List.length_modify ..)

theorem openPhase_touches (s : State) (m p : Nat) : Touches machParts s (openPhase s m p) :=
  .after (by decide) (wfEvent_touches _ m 4 p _) <| .after (by decide) (confine_touches _ m _) <|
    (modMach_touches s m _).mono (by decide)

/-- A machine with one more phase open, and degraded where it may run with one set and one is healthy. -/
def Mach.opened (mayDegrade : Bool) (p : Nat) (x : Mach) : Mach :=
  let o := x.openPh ||| BitVec.ofNat 6 (2 ^ p)
  { x with openPh := o, degraded := mayDegrade && (o.toNat % 8 = 0 || o.toNat / 8 = 0) }

theorem openPhase_eq (s : State) (m p : Nat) :
    openPhase s m p = wfEvent (confine (s.modMach m (Mach.opened (bitOf (wfW s m 0) 12 && machPhases s m == 6) p)) m (p / 3)) m 4 p
      (wd p) := rfl

/-- An open phase is noted beside those that are open. -/
theorem openPhase_openPh {s : State} {m : Nat} (hm : m < s.mach.length) (p : Nat) :
    (nth (openPhase s m p).mach m).openPh = (nth s.mach m).openPh ||| BitVec.ofNat 6 (2 ^ p) := by
  rw [openPhase_eq]
  have hconf (u : State) : (confine u m (p / 3)).mach = u.mach := (confine_touches u m _).agree .mach (by decide)
  have hlen (f : Mach → Mach) : m < (s.modMach m f).mach.length := hm.trans_eq (List.length_modify ..).symm
  rw [wfEvent_own ((hlen _).trans_eq (congrArg List.length (hconf _)).symm), hconf, modMach_own hm]
  rfl

/-- The peak of a phase of set p / 3, k places from its first. -/
def peakAt (x : Mach) (p k : Nat) : Nat := x.peaks.getD (3 * (p / 3) + k % 3) 0

/-- Whether a phase's peak over a turn is below the share of the other two of its set, where these are large enough to tell. -/
def peakLow (s : State) (m : Nat) (x : Mach) (p : Nat) : Bool :=
  p < machPhases s m && 2 * 256 * peakAt x p (p % 3) < fld (wfW s m 10) 23 16 * (peakAt x p (p % 3 + 1) + peakAt x p (p % 3 + 2))
    && fld (wfW s m 10) 15 0 * 65536 * 2 ≤ peakAt x p (p % 3 + 1) + peakAt x p (p % 3 + 2)

theorem peakLow_congr {s t : State} (h : recsIn t = recsIn s) (m : Nat) (x : Mach) (p : Nat) : peakLow t m x p = peakLow s m x p := by
  simp only [peakLow, machPhases_congr h, wfW_congr h]

/-- A phase judged by the peaks of a turn. -/
def phaseJudged (m : Nat) (x : Mach) (s : State) (p : Nat) : State := if peakLow s m x p then openPhase s m p else s

/-- The phases judged at the end of a turn, in MODE RUN with the position valid. -/
def turnJudged (s : State) (m : Nat) : State :=
  if (nth s.mach m).mode = 1 && posValid s m then (List.range 6).foldl (phaseJudged m (nth s.mach m)) s else s

theorem turnEnd_eq (s : State) (m : Nat) :
    turnEnd s m = (turnJudged s m).modMach m fun x => { x with peaks := List.replicate 6 0 } := rfl

theorem phaseJudged_touches (m : Nat) (x : Mach) (s : State) (p : Nat) : Touches machParts s (phaseJudged m x s p) :=
  .ite_self (openPhase_touches s m p)

theorem turnJudged_touches (s : State) (m : Nat) : Touches machParts s (turnJudged s m) :=
  .ite_self (Touches.foldl (phaseJudged_touches m _) _ s)

theorem turnEnd_touches (s : State) (m : Nat) : Touches machParts s (turnEnd s m) :=
  .after (by decide) (modMach_touches _ m _) (turnJudged_touches s m)

section judge

variable {s : State} {m p : Nat} {x : Mach}

/-- A phase that is open stays so while the others are judged. -/
theorem phaseJudged_keeps_open {q : Nat} (hm : m < s.mach.length) (h : (nth s.mach m).openPh.getLsbD p = true) :
    (nth (phaseJudged m x s q).mach m).openPh.getLsbD p = true := by
  unfold phaseJudged
  split
  · rw [openPhase_openPh hm, BitVec.getLsbD_or, h, Bool.true_or]
  · exact h

theorem phaseJudged_opens (hm : m < s.mach.length) (hp : p < 6) (h : peakLow s m x p = true) :
    (nth (phaseJudged m x s p).mach m).openPh.getLsbD p = true := by
  rw [phaseJudged, if_pos h, openPhase_openPh hm, BitVec.getLsbD_or, BitVec.getLsbD_ofNat, Nat.testBit_two_pow_self,
    decide_eq_true hp, Bool.and_true, Bool.or_true]

theorem turnJudged_opens (hinv : Inv s) {m : Fin 2} (hmode : (nth s.mach m.val).mode = 1) (hpos : posValid s m.val = true)
    (hp : p < 6) (hlow : peakLow s m.val (nth s.mach m.val) p = true) :
    (nth (turnJudged s m.val).mach m.val).openPh.getLsbD p = true := by
  obtain ⟨l₁, l₂, hl⟩ := List.append_of_mem (List.mem_range.2 hp)
  have hbefore := Touches.foldl (phaseJudged_touches m.val (nth s.mach m.val)) l₁ s
  rw [turnJudged, if_pos (by rw [hmode, hpos]; rfl), hl, List.foldl_append, List.foldl_cons]
  have hopens := phaseJudged_opens ((hbefore.inv hinv).mach_lt m) hp ((peakLow_congr (hbefore.recsIn_eq (by decide)) ..).trans hlow)
  refine (List.foldlRecOn l₂ _ (motive := fun t => Inv t ∧ (nth t.mach m.val).openPh.getLsbD p = true)
    ⟨(hbefore.trans (phaseJudged_touches ..)).inv hinv, hopens⟩ fun t ht q _ => ?_).2
  exact ⟨(phaseJudged_touches ..).inv ht.1, phaseJudged_keeps_open (ht.1.mach_lt m) ht.2⟩

end judge

/-- The turn of a machine that ends now: its peaks are judged, its cycle count is noted. -/
def turnNoted (s : State) (m : Nat) : State :=
  (turnEnd s m).modMach m fun x => { x with turnCyc := beamCyc s .ds (machBeam s m) s.now }

theorem exec_electricalTurnEnd {m : Fin 2} {s : State} (hon : machOn s m.val = true) (hbm : bmOn s (machBeam s m.val) = true)
    (hready : s.sys.dsReady = true) (hcyc : beamCyc s .ds (machBeam s m.val) s.now ≠ (nth s.mach m.val).turnCyc) :
    exec (.electricalTurnEnd m) s = .next (turnNoted s m.val) := by
  refine congrArg Host.Outcome.next ?_
  simp only [hon, hbm, hready, hcyc, Bool.not_true, Bool.or_self, Bool.false_eq_true, if_false, ne_eq, not_false_eq_true,
    if_true, Int.toNat_natCast, advanceTo_of_le (Nat.le_refl s.now)]
  rfl

theorem turnNoted_touches (s : State) (m : Nat) : Touches machParts s (turnNoted s m) :=
  .after (by decide) (modMach_touches _ m _) (turnEnd_touches s m)

/-- A machine whose turn has ended. -/
def Mach.turned (cyc : BitVec 16) (x : Mach) : Mach := { x with peaks := List.replicate 6 0, turnCyc := cyc }

theorem turnNoted_mach {s : State} (hinv : Inv s) (m : Fin 2) :
    nth (turnNoted s m.val).mach m.val
      = (nth (turnJudged s m.val).mach m.val).turned (beamCyc s .ds (machBeam s m.val) s.now) := by
  have hjudged := ((turnJudged_touches s m.val).inv hinv).mach_lt m
  have hend := ((turnEnd_touches s m.val).inv hinv).mach_lt m
  rw [turnNoted, modMach_own hend, turnEnd_eq, modMach_own hjudged]
  rfl

/-! ## Settling the traction waveforms -/

/-- Settles O44: the legs' shadows are written one by one from what stood before them all; a leg's step state is set before its
edge is placed; and a phase found open stays so while the others of the turn are judged. -/
theorem waveformUnitDrivesItsLegs : Obligations.WaveformUnitDrivesItsLegs := by
  unfold Obligations.WaveformUnitDrivesItsLegs
  refine ⟨?duties, ?step, ?turn⟩
  case duties =>
    intro m s p hinv hon hready hnext u s1 i th duty
    have hadv := advanceTo_touches s (u - 3)
    have hupd := dutiesUpdated_touches s1 m.val u
    have hmach : nth (dutiesUpdated s1 m.val u).mach m.val = (nth s.mach m.val).takes i (limited s1 m.val i) :=
      dutiesUpdated_mach (s := s1) u ((hadv.inv hinv).mach_lt m)
    refine ⟨_, exec_waveDutyUpdate hon hready hnext, hupd.now (by decide), congrArg Mach.pend hmach, (congrArg Mach.mode hmach :),
      fun c hc => ⟨fillDuty_le .., ?_⟩, fun c hc => legsWritten_other hc,
      (Touches.after (by decide) hupd (hadv.mono (by decide))).onlyChanges⟩
    rw [hupd.now (by decide)]
    exact dutiesUpdated_dash s1 m.val u (hadv.inv hinv) hc
  case step =>
    intro ch s tm f hinv hleg hon hbm hready m i ahead n j hnext
    obtain ⟨t, hrun, hstep⟩ := exec_legStepEdge hinv hleg hon hbm hready hnext
    exact ⟨t, hrun, hstep.touches.now (by decide), hstep.state,
      hstep.stamp.trans (hstep.touches.count (by decide) .ds).symm, hstep.legs, hstep.chans,
      (Touches.after (by decide) hstep.touches ((advanceTo_touches s _).mono (by decide))).onlyChanges⟩
  case turn =>
    intro m s hinv hon hbm hready x hcyc
    have hturn := turnNoted_touches s m.val
    have hmach := turnNoted_mach hinv m
    refine ⟨_, exec_electricalTurnEnd hon hbm hready hcyc, hturn.now (by decide), congrArg Mach.turnCyc hmach,
      congrArg Mach.peaks hmach, fun hmode hpos p hp => ?_, (hturn.mono (by decide)).onlyChanges⟩
    intro pk sum hshare hlarge
    have hlow : peakLow s m.val x p.val = true := by
      simp only [peakLow, Bool.and_eq_true, decide_eq_true_eq]
      exact ⟨⟨hp, hshare⟩, hlarge⟩
    exact (congrArg (fun y => y.openPh.getLsbD p.val) hmach :).trans (turnJudged_opens hinv hmode hpos p.isLt hlow)

end Sys2Proof.Machine
end

section
namespace Sys2Proof.Machine

/-! ## Candle patterns (R290, R293) -/

/-- A Candle but for its chop. -/
def Candle.unchopped (k : Candle) : Candle := { k with chopped := false }

/-- A Candle with a pattern applied: the drive timer has run while one was. -/
def Candle.applies (now p : Nat) (k : Candle) : Candle :=
  { k with driveT := k.driveT + (if k.pattern ≤ 5 then now - k.driveAt else 0), driveAt := now, pattern := p, chopped := false }

/-- The chop follows the comparator and changes nothing else of a Candle. -/
theorem chopCheck_candle (s : State) (m : Nat) :
    (chopCheck s m).candle.map Candle.unchopped = s.candle.map Candle.unchopped := by
  unfold chopCheck
  extract_lets mode k t hi u
  have hu : u.candle = t.candle := (modLegs_touches t hi _).agree .candle (by decide)
  split
  · rw [(replanSet0_touches u m).agree .candle (by decide), hu]
    exact map_upd (g := fun x : Candle => { x with chopped := true }) (fun _ => rfl) s.candle m
  · rfl

/-- A pattern is applied; what the chop makes of it aside, nothing else of a Candle changes. -/
theorem setPattern_candle (s : State) (m p : Nat) : (setPattern s m p).candle.map Candle.unchopped
    = (upd s.candle m (Candle.applies s.now p)).map Candle.unchopped := by
  unfold setPattern
  extract_lets old t u v
  have hu : u.candle = t.candle := (modLegs_touches t _ _).agree .candle (by decide)
  have hv : v.candle = u.candle := ((replanSet0_touches _ m).agree .candle (by decide)).trans
    ((applyFloat_touches u m).agree .candle (by decide))
  have hset : v.candle = upd s.candle m (Candle.applies s.now p) := hv.trans hu
  split
  · rw [chopCheck_candle, hset]
  · rw [hset]

/-- A pattern applied, and its Candle changed after it. -/
def patternThen (s : State) (m p : Nat) (f : Candle → Candle) : State := (setPattern s m p).modCandle m f

section apply

variable (s : State) (m p : Nat) (f : Candle → Candle)

theorem patternThen_touches : Touches [.candle, .legs, .pwmCs, .pwmDs] s (patternThen s m p f) :=
  .after (by decide) (modCandle_touches _ m f) (setPattern_touches s m p)

/-- What a change made after a pattern finds: its Candle with the pattern applied, chopped or not. -/
theorem patternThen_candle {m : Nat} (hm : m < s.candle.length) :
    ∃ b, nth (patternThen s m p f).candle m = f { (nth s.candle m).applies s.now p with chopped := b } := by
  have hset := nth_of_map_eq (setPattern_candle s m p) m
  rw [nth_upd _ hm] at hset
  have hlen : (setPattern s m p).candle.length = s.candle.length := by
    simpa [upd] using congrArg List.length (setPattern_candle s m p)
  let k := nth (setPattern s m p).candle m
  have hk : k = { (nth s.candle m).applies s.now p with chopped := k.chopped } :=
    congrArg (fun y : Candle => { y with chopped := k.chopped }) hset
  exact ⟨k.chopped, (modCandle_own (hlen ▸ hm) f).trans (congrArg f hk)⟩

end apply

/-- A remainder by six as a pattern's number. -/
theorem toNat_emod_six (x : Int) : ((x % 6).toNat : Int) = x % 6 := Int.toNat_of_nonneg (Int.emod_nonneg x (by decide))

/-! ## What the commands make of a Candle (R291 to R293) -/

/-- The crossing pattern moved on in the sense of rotation, three further for a negative CDIR (R292). -/
def nextPattern (s : State) (m : Nat) : Int :=
  ((nth s.candle m).lastM.getD 0 : Nat) + (nth s.candle m).dir + (if (nth s.mach m).inp.cdir.toInt < 0 then 3 else 0)

/-- A Candle that has commutated, caught once it has done so often enough. -/
def Candle.commutated (now need : Nat) (k : Candle) : Candle :=
  { k with pend := none, driving := true, commuteAt := now, commutes := k.commutes + 1, caught := k.caught || need ≤ k.commutes }

/-- One step in the sense of CDIR. -/
def cdirStep (s : State) (m : Nat) : Int :=
  if 0 < (nth s.mach m).inp.cdir.toInt then 1 else if (nth s.mach m).inp.cdir.toInt < 0 then -1 else 0

/-- A Candle whose estimate is 0. -/
def Candle.stopped (k : Candle) : Candle := { k with cspd := 0, cvalid := true }

/-- A Candle that starts to drive. -/
def Candle.started (now : Nat) (k : Candle) : Candle := { k with driving := true, commuteAt := now, commutes := 1 }

/-- A Candle whose drive has timed out. -/
def Candle.ended (k : Candle) : Candle := { k with timedOut := true, driving := false, pend := none }

/-- A Candle whose pattern its timer moves on. -/
def Candle.movedOn (now : Nat) (k : Candle) : Candle := { k with commuteAt := now }

section exec

variable {m : Fin 2} {s : State}

theorem exec_candleCommutate {tm : Nat} (hpend : (nth s.candle m.val).pend = some tm) (hmode : (nth s.mach m.val).mode = 2)
    (htimed : (nth s.candle m.val).timedOut = false) :
    exec (.candleCommutate m) s = .next (patternThen (s.advanceTo tm) m.val (nextPattern s m.val % 6).toNat
      (Candle.commutated (s.advanceTo tm).now (fld (wfW s m.val 8) 31 24))) := by
  have hset := setPattern_touches (s.advanceTo tm) m.val (nextPattern s m.val % 6).toNat
  have hneed : wfW (setPattern (s.advanceTo tm) m.val (nextPattern s m.val % 6).toNat) m.val 8 = wfW s m.val 8 :=
    wfW_congr (hset.recsIn_eq (by decide)) m.val 8
  rw [← hset.now (by decide), ← hneed]
  refine congrArg Host.Outcome.next ?_
  simp only [hpend, State.advanceTo_rest, hmode, htimed, ne_eq, not_true_eq_false, decide_false, Bool.or_self,
    Bool.false_eq_true, if_false]
  rfl

/-- CATCH_TIMEOUT under drive, with no crossing since the last commutation. -/
theorem exec_catchTimeout_driving (hon : machOn s m.val = true) (hready : s.sys.dsReady = true)
    (hmode : (nth s.mach m.val).mode = 2) (hdrive : (nth s.candle m.val).driving = true)
    (htimed : (nth s.candle m.val).timedOut = false) (hlast : (nth s.candle m.val).lastX ≤ (nth s.candle m.val).commuteAt) :
    exec (.catchTimeout m) s = .next (
      let u := s.advanceTo ((nth s.candle m.val).commuteAt + catchTmo s m.val)
      patternThen u m.val (((nth s.candle m.val).pattern + cdirStep s m.val) % 6).toNat (Candle.movedOn u.now)) := by
  refine congrArg Host.Outcome.next ?_
  simp only [hon, hready, hmode, hdrive, htimed, Nat.not_lt.2 hlast, Bool.not_true, Bool.not_false, Bool.or_self, Bool.and_self,
    Bool.false_eq_true, decide_true, if_false, if_true]
  rfl

/-- A machine whose catch may start to drive (R292). -/
def catchStarts (s : State) (m : Nat) : Bool :=
  (nth s.mach m).mode = 2 && (nth s.candle m).catching && !(nth s.candle m).timedOut

theorem catchStarts_iff {s : State} {m : Nat} : catchStarts s m = true
    ↔ (nth s.mach m).mode = 2 ∧ (nth s.candle m).catching = true ∧ (nth s.candle m).timedOut = false := by
  simp [catchStarts, and_assoc]

/-- A machine's estimate is 0 when no crossing has come for CATCHTMO (R291). -/
def catchStopped (s : State) (m : Nat) : State :=
  (s.advanceTo (max (max (nth s.candle m).lastX (nth s.candle m).modeAt) (s.t0.getD 0) + catchTmo s m)).modCandle m Candle.stopped

theorem catchStopped_touches (s : State) (m : Nat) : Touches [.now, .candle] s (catchStopped s m) :=
  .after (by decide) (modCandle_touches _ m _) ((advanceTo_touches s _).mono (by decide))

/-- CATCH_TIMEOUT while set 0 floats with its voltages valid. -/
theorem exec_catchTimeout_floating (hon : machOn s m.val = true) (hready : s.sys.dsReady = true)
    (hidle : ¬((nth s.mach m.val).mode = 2 ∧ (nth s.candle m.val).driving = true ∧ (nth s.candle m.val).timedOut = false))
    (hfloat : setFloats s m.val 0 = true) (hvalid : ∀ i ∈ [0, 1, 2], (nth s.buoys (vBuoy s m.val i)).state = 0) :
    exec (.catchTimeout m) s = .next (if catchStarts s m.val then
      patternThen (catchStopped s m.val) m.val ((nth s.mach m.val).inp.csect.toNat % 6)
        (Candle.started (catchStopped s m.val).now) else catchStopped s m.val) := by
  have hall : ([0, 1, 2].all fun i => (nth s.buoys (vBuoy s m.val i)).state == 0) = true :=
    List.all_eq_true.2 fun i hi => beq_iff_eq.2 (hvalid i hi)
  have hnot : ((nth s.mach m.val).mode = 2 && (nth s.candle m.val).driving && !(nth s.candle m.val).timedOut) ≠ true := by
    simpa [and_assoc] using hidle
  refine congrArg Host.Outcome.next ?_
  simp only [hon, hready, Bool.not_true, Bool.or_self, Bool.false_eq_true, if_false, if_neg hnot, hfloat, hall, Bool.and_self,
    if_true]
  rfl

theorem exec_candto (hon : machOn s m.val = true) (hready : s.sys.dsReady = true)
    (hmode : (nth s.mach m.val).mode = 2 ∨ (nth s.mach m.val).mode = 3) (hpat : (nth s.candle m.val).pattern ≤ 5) :
    exec (.candto m) s = .next (patternThen (wfEvent (s.advanceTo (s.now + (fld (wfW s m.val 7) 15 4 * msec - driveTime s m.val)))
      m.val 6 0 (wd (nth s.candle m.val).pattern)) m.val 7 Candle.ended) := by
  refine congrArg Host.Outcome.next (if_neg ?_)
  simpa [hon, hready, hpat] using or_iff_not_imp_left.1 hmode

/-- SUBTIME of a machine in ms (R300). -/
def subLimit (s : State) (m : Nat) : Nat := if fld (wfW s m 9) 15 0 = 0 then 500 else fld (wfW s m 9) 15 0

/-- A machine whose substitution time is counted. -/
def Mach.substituted (x : Mach) : Mach := { x with subDone := true }

theorem exec_subexp (hon : machOn s m.val = true) (hready : s.sys.dsReady = true) (hact : (nth s.mach m.val).subAct = true)
    (hdone : (nth s.mach m.val).subDone = false) :
    ∃ detail, exec (.subexp m) s = .next (wfEvent
      ((s.advanceTo (s.now + (subLimit s m.val * msec - subTime s m.val))).modMach m.val Mach.substituted) m.val 3 0 detail) := by
  refine ⟨_, congrArg Host.Outcome.next (if_neg ?_)⟩
  simp [hon, hready, hact, hdone]

end exec

/-! ## Settling the Candle drive -/

/-- Time moved on by so much. -/
theorem advanceTo_add_now (s : State) (d : Nat) : (s.advanceTo (s.now + d)).now = s.now + d :=
  Nat.max_eq_right (Nat.le_add_right ..)

/-- Settles O45: a pattern applied changes its Candle as it says but for the chop, which no clause asks for, and neither the
machine nor its event bits. -/
theorem candleDriveCommutatesAndTimesOut : Obligations.CandleDriveCommutatesAndTimesOut := by
  unfold Obligations.CandleDriveCommutatesAndTimesOut
  intro m s hinv k x
  have hk : m.val < s.candle.length := hinv.candle_lt m
  have hx : m.val < s.mach.length := hinv.mach_lt m
  refine ⟨fun tm hpend hmode htimed => ?commutate, fun hon hready htimed hmode hdrive hlast => ?driving,
    fun hon hready hidle hfloat hvalid => ?floating, fun hon hready hmode hpat => ?timeout,
    fun hon hready hact hdone => ?substitution⟩
  case commutate =>
    let u := s.advanceTo tm
    let p := (nextPattern s m.val % 6).toNat
    let f := Candle.commutated u.now (fld (wfW s m.val 8) 31 24)
    have hset := patternThen_touches u m.val p f
    obtain ⟨_, hown⟩ := patternThen_candle u p f hk
    exact ⟨_, exec_candleCommutate hpend hmode htimed, hset.now (by decide),
      (congrArg (fun y : Candle => (y.pattern : Int)) hown).trans (toNat_emod_six _), congrArg Candle.pend hown,
      congrArg Candle.driving hown, (congrArg Candle.commuteAt hown).trans (hset.now (by decide)).symm,
      congrArg Candle.commutes hown, (Touches.after (by decide) hset ((advanceTo_touches s tm).mono (by decide))).onlyChanges⟩
  case driving =>
    let u := s.advanceTo (k.commuteAt + catchTmo s m.val)
    let p := (((k.pattern : Int) + cdirStep s m.val) % 6).toNat
    have hset := patternThen_touches u m.val p (Candle.movedOn u.now)
    obtain ⟨_, hown⟩ := patternThen_candle u p (Candle.movedOn u.now) hk
    exact ⟨_, exec_catchTimeout_driving hon hready hmode hdrive htimed hlast, hset.now (by decide),
      (congrArg (fun y : Candle => (y.pattern : Int)) hown).trans (toNat_emod_six _),
      (congrArg Candle.commuteAt hown).trans (hset.now (by decide)).symm, (congrArg Candle.driving hown).trans hdrive,
      (Touches.after (by decide) hset ((advanceTo_touches s _).mono (by decide))).onlyChanges⟩
  case floating =>
    let u := catchStopped s m.val
    have hstop : Touches [.now, .candle] s u := catchStopped_touches s m.val
    have hrest : nth u.candle m.val = k.stopped := modCandle_own hk _
    rw [Runs, exec_catchTimeout_floating hon hready hidle hfloat hvalid]
    cases hstarts : catchStarts s m.val with
    | true =>
      have hset := patternThen_touches u m.val (x.inp.csect.toNat % 6) (Candle.started u.now)
      obtain ⟨_, hown⟩ := patternThen_candle u (x.inp.csect.toNat % 6) (Candle.started u.now) ((hstop.inv hinv).candle_lt m)
      rw [hrest] at hown
      exact ⟨_, rfl, hset.now (by decide), congrArg Candle.cspd hown, congrArg Candle.cvalid hown,
        fun _ _ _ => ⟨congrArg Candle.pattern hown, congrArg Candle.driving hown,
          (congrArg Candle.commuteAt hown).trans (hset.now (by decide)).symm, congrArg Candle.commutes hown⟩,
        fun hno => absurd hno (by simpa using catchStarts_iff.1 hstarts),
        (Touches.after (by decide) hset (hstop.mono (by decide))).onlyChanges⟩
    | false =>
      exact ⟨_, rfl, rfl, congrArg Candle.cspd hrest, congrArg Candle.cvalid hrest,
        fun hmode hcatch htimed => absurd (catchStarts_iff.2 ⟨hmode, hcatch, htimed⟩) (hstarts ▸ Bool.false_ne_true),
        fun _ => hrest, (hstop.mono (by decide)).onlyChanges⟩
  case timeout =>
    let u := s.advanceTo (s.now + (fld (wfW s m.val 7) 15 4 * msec - driveTime s m.val))
    let e := wfEvent u m.val 6 0 (wd k.pattern)
    have hevt : Touches machParts u e := wfEvent_touches u m.val 6 0 _
    have hset := patternThen_touches e m.val 7 Candle.ended
    obtain ⟨_, hown⟩ := patternThen_candle e 7 Candle.ended ((hevt.agree .candle (by decide) : e.candle = s.candle) ▸ hk)
    have hmach : nth (patternThen e m.val 7 Candle.ended).mach m.val = (nth u.mach m.val).noted 6 := by
      rw [hset.agree .mach (by decide), wfEvent_own (s := u) hx]
    exact ⟨_, exec_candto hon hready hmode hpat,
      (hset.now (by decide)).trans ((hevt.now (by decide)).trans (advanceTo_add_now s _)), congrArg Candle.pattern hown,
      congrArg Candle.timedOut hown, congrArg Candle.driving hown, congrArg Candle.pend hown,
      bitOf_of_eq_orBit (congrArg Mach.evt hmach) (by decide),
      (Touches.after (by decide) hset <| .after (by decide) hevt ((advanceTo_touches s _).mono (by decide))).onlyChanges⟩
  case substitution =>
    intro lim
    obtain ⟨detail, hrun⟩ := exec_subexp hon hready hact hdone
    let u := s.advanceTo (s.now + (lim * msec - subTime s m.val))
    have hevt := wfEvent_touches (u.modMach m.val Mach.substituted) m.val 3 0 detail
    have hmach : nth (wfEvent (u.modMach m.val Mach.substituted) m.val 3 0 detail).mach m.val
        = (nth s.mach m.val).substituted.noted 3 := by
      rw [wfEvent_own (hx.trans_eq (List.length_modify ..).symm), modMach_own (s := u) hx]
      rfl
    exact ⟨_, hrun, (hevt.now (by decide)).trans (advanceTo_add_now s _), congrArg Mach.subDone hmach,
      bitOf_of_eq_orBit (congrArg Mach.evt hmach) (by decide),
      (Touches.after (by decide) hevt <| .after (by decide) (modMach_touches u m.val _)
      ((advanceTo_touches s _).mono (by decide))).onlyChanges⟩

end Sys2Proof.Machine
end

section
namespace Sys2Proof.Machine

/-! ## What latches and overrides leave of the comparators (R312, R323 to R332) -/

/-- A comparator without its threshold in force and its event bits. -/
def CompSt.levels (x : CompSt) : CompSt := { x with code := 0, slope := 0, evt := 0 }

/-- The comparators of the protection unit, without thresholds and event bits. -/
def Prot.levels (p : Prot) : List CompSt × List CompSt × List CompSt :=
  (p.trip.map CompSt.levels, p.hard.map CompSt.levels, p.gc.map CompSt.levels)

theorem compSt_levels {s t : State} (h : t.prot.levels = s.prot.levels) (c : Comp) :
    (compSt t c).levels = (compSt s c).levels := by
  cases c with
  | trip n => exact nth_of_map_eq (congrArg (·.1) h) n.val
  | hard n => exact nth_of_map_eq (congrArg (·.2.1) h) n.val
  | gc n => exact nth_of_map_eq (congrArg (·.2.2) h) n.val

/-- An operation that does not touch the protection unit leaves it. -/
theorem Touches.prot_eq {P : List Part} {s t : State} (h : Touches P s t) (hP : .prot ∉ P) : t.prot = s.prot :=
  h.agree .prot hP

theorem Touches.dsReady_eq {P : List Part} {s t : State} (h : Touches P s t) (hP : .sys ∉ P) :
    t.sys.dsReady = s.sys.dsReady := by
  have hsys : { t.sys with sysEvt := 0 } = { s.sys with sysEvt := 0 } := h.agree .sys hP
  exact (congrArg Sys.dsReady hsys :)

theorem countEvent_prot (s : State) (e : Ev) : (countEvent s e).prot = s.prot := (countEvent_touches s e).prot_eq (by decide)

theorem applyOverrides_prot (s : State) : (applyOverrides s).prot = s.prot := (applyOverrides_touches s).prot_eq (by decide)

/-- A severity change sets the severity and the machines' safe states, asks for reaction pages, and ends in the overrides. -/
theorem setSeverity_overrides (s : State) : ∃ u, setSeverity s = applyOverrides u ∧ Touches [.lhCs, .lhDs, .prot] s u
    ∧ ∃ m, u.prot = { s.prot with severity := severityOf s, msafe := m } := by
  unfold setSeverity
  extract_lets old new prot s1 s2 s3 lh s4
  have h2 : Touches [.prot] s s2 := .after (by decide) (applySafe_touches s1 new _) (prot_touches s _ rfl rfl rfl rfl)
  have h3 : Touches [.lhCs, .lhDs] s2 s3 := .ite_self (Touches.foldl (fun t l => requestReaction_touches t new l) _ s2)
  have h4 : Touches [.lhCs, .lhDs] s2 s4 := h3.trans (.ite_self (setLh_touches s3 .ds _ (List.length_map _)))
  exact ⟨s4, rfl, .after (by decide) h4 (h2.mono (by decide)), _, h4.prot_eq (by decide)⟩

theorem setSeverity_prot (s : State) : ∃ m, (setSeverity s).prot = { s.prot with severity := severityOf s, msafe := m } := by
  obtain ⟨u, hu, -, m, hprot⟩ := setSeverity_overrides s
  exact ⟨m, by rw [hu, applyOverrides_prot, hprot]⟩

theorem setSeverity_latches (s : State) : (setSeverity s).prot.latches = s.prot.latches := by
  obtain ⟨m, h⟩ := setSeverity_prot s
  rw [h]

theorem setSeverity_severity (s : State) : (setSeverity s).prot.severity = severityOf s := by
  obtain ⟨m, h⟩ := setSeverity_prot s
  rw [h]

theorem setSeverity_levels (s : State) : (setSeverity s).prot.levels = s.prot.levels := by
  obtain ⟨m, h⟩ := setSeverity_prot s
  rw [h]
  rfl

theorem endConfined_levels (s : State) : (endConfined s).prot.levels = s.prot.levels := by
  unfold endConfined
  split <;> rfl

theorem endConfined_latches (s : State) : (endConfined s).prot.latches = s.prot.latches := by
  unfold endConfined
  split <;> rfl

theorem logLatch_levels (s : State) (l : Latch) : (logLatch s l).prot.levels = s.prot.levels := by
  unfold logLatch
  split <;> rfl

theorem logLatch_latches (s : State) (l : Latch) : (logLatch s l).prot.latches = s.prot.latches := by
  unfold logLatch
  split <;> rfl

theorem addLatch_levels (s : State) (src suspect : Nat) : (addLatch s src suspect).prot.levels = s.prot.levels := by
  unfold addLatch
  split
  · rfl
  · split
    · rfl
    · exact logLatch_levels _ _

/-- The latches with the one of a source and, where it is due, that of OPPGRP (R323, R329). -/
def latchesAdded (s : State) (src suspect : Nat) : State :=
  let s1 := addLatch s src suspect
  endConfined (if oppDue s1 then addLatch s1 0x54 0 else s1)

theorem latchesAdded_levels (s : State) (src suspect : Nat) : (latchesAdded s src suspect).prot.levels = s.prot.levels := by
  refine (endConfined_levels _).trans ?_
  split
  · exact (addLatch_levels _ _ _).trans (addLatch_levels _ _ _)
  · exact addLatch_levels _ _ _

theorem latchesAdded_touches (s : State) (src suspect : Nat) : Touches [.prot] s (latchesAdded s src suspect) :=
  .trans (.trans (addLatch_touches s src suspect) (.ite_self (addLatch_touches _ _ _))) (endConfined_touches _)

/-- A source that latches leaves the latches and the severity that follows them, whatever is counted after. -/
theorem latchWith_counts (s : State) (src suspect : Nat) {cnt : State → State} (hc : ∀ t, Touches trace t (cnt t)) :
    Touches trace (setSeverity (latchesAdded s src suspect)) (latchWith s src suspect cnt) :=
  .trans (hc _) (.ite_self (countFixed_touches _ _ _))

theorem latchWith_levels (s : State) (src suspect : Nat) {cnt : State → State} (hc : ∀ t, Touches trace t (cnt t)) :
    (latchWith s src suspect cnt).prot.levels = s.prot.levels := by
  rw [(latchWith_counts s src suspect hc).prot_eq (by decide), setSeverity_levels, latchesAdded_levels]

theorem latchFixed_levels (s : State) (src detail : Nat) : (latchFixed s src detail).prot.levels = s.prot.levels := by
  unfold latchFixed
  split
  · exact latchWith_levels s src 0 fun t => countFixed_touches t src detail
  · rfl

theorem latchComp_levels (s : State) (src : Nat) (atPage0 : Bool) :
    (latchComp s src atPage0).prot.levels = s.prot.levels := by
  unfold latchComp
  split
  · rfl
  · exact latchWith_levels s src _ fun t => countEvent_touches t _

theorem setChop_prot (s : State) :
    ∃ a b c d, (setChop s).prot = { s.prot with chopOn := a, chopAt := b, chopCur := c, chopCnt := d } := by
  unfold setChop
  extract_lets on
  by_cases h : on = s.prot.chopOn
  · rw [if_pos h]
    exact ⟨_, _, _, _, rfl⟩
  · rw [if_neg h, applyOverrides_prot]
    exact ⟨_, _, _, _, rfl⟩

theorem setChop_latches (s : State) : (setChop s).prot.latches = s.prot.latches := by
  obtain ⟨a, b, c, d, h⟩ := setChop_prot s
  rw [h]

theorem setChop_levels (s : State) : (setChop s).prot.levels = s.prot.levels := by
  obtain ⟨a, b, c, d, h⟩ := setChop_prot s
  rw [h]
  rfl

theorem modComp_levels (s : State) (c : Comp) {f : CompSt → CompSt} (hf : ∀ x, (f x).levels = x.levels) :
    (modComp s c f).prot.levels = s.prot.levels := by
  cases c <;> simp only [modComp, Prot.levels, map_upd hf]

theorem cpEvtBit_levels (s : State) (c : Comp) (cause : Nat) : (cpEvtBit s c cause).prot.levels = s.prot.levels := by
  unfold cpEvtBit
  split <;> exact modComp_levels s _ fun _ => rfl

theorem compAsserts_levels (s : State) (c : Comp) : (compAsserts s c).prot.levels = s.prot.levels := by
  unfold compAsserts
  split
  · rw [countEvent_prot, cpEvtBit_levels]
  · rw [latchComp_levels]
    split
    · exact cpEvtBit_levels s c _
    · rfl

theorem ov1Change_levels (s : State) (g : Nat) (active : Bool) : (ov1Change s g active).prot.levels = s.prot.levels := by
  unfold ov1Change
  split
  · rfl
  · extract_lets code prot s1 s2
    have h1 : s1.prot.levels = s.prot.levels :=
      congrArg (fun l => (s.prot.trip.map CompSt.levels, s.prot.hard.map CompSt.levels, l))
        (map_upd (g := fun x : CompSt => { x with code := BitVec.ofNat 10 code }) (fun _ => rfl) s.prot.gc g)
    rw [setChop_levels]
    unfold s2
    split
    · rw [latchFixed_levels, h1]
    · exact h1

/-- OV1 that becomes inactive latches nothing (R332). -/
theorem ov1Change_false_latches (s : State) (g : Nat) : (ov1Change s g false).prot.latches = s.prot.latches := by
  unfold ov1Change
  split
  · rfl
  · exact setChop_latches _

theorem limitHit_prot (s : State) (g : Nat) : (limitHit s g).prot = s.prot :=
  Touches.prot_eq (P := [.pwmCs, .pwmDs, .conv]) (.ite_self <| .trans ((holdLow_touches _ _ _ _).mono (by decide)) <|
    Touches.foldl (fun _ _ => (modConv_touches _ _ _).mono (by decide)) _ _) (by decide)

theorem liveAsserts_levels (s : State) (c : Comp) : (liveAsserts s c).prot.levels = s.prot.levels := by
  unfold liveAsserts
  split
  · split
    · split
      · exact ov1Change_levels s _ true
      · rfl
    · exact latchFixed_levels s _ _
    · split <;> rfl
    · rw [limitHit_prot]
    · rw [Touches.prot_eq (Touches.foldl (fun t m => .ite_self (chopCheck_touches t m)) _ s) (by decide)]
    · exact compAsserts_levels s _
  · exact compAsserts_levels s c

/-- What follows when a live level deasserts is nothing, or that OV1 becomes inactive (R312, R323, R332). -/
theorem liveDeasserts_cases (s : State) (c : Comp) : liveDeasserts s c = s ∨ ∃ g, liveDeasserts s c = ov1Change s g false := by
  unfold liveDeasserts
  split
  · split
    · exact .inr ⟨_, rfl⟩
    · exact .inl rfl
  · exact .inl rfl

theorem liveDeasserts_levels (s : State) (c : Comp) : (liveDeasserts s c).prot.levels = s.prot.levels := by
  obtain h | ⟨g, h⟩ := liveDeasserts_cases s c <;> rw [h]
  exact ov1Change_levels s g false

theorem liveDeasserts_latches (s : State) (c : Comp) : (liveDeasserts s c).prot.latches = s.prot.latches := by
  obtain h | ⟨g, h⟩ := liveDeasserts_cases s c <;> rw [h]
  exact ov1Change_false_latches s g

theorem liveDeasserts_touches (s : State) (c : Comp) : Touches protParts s (liveDeasserts s c) := by
  obtain h | ⟨g, h⟩ := liveDeasserts_cases s c <;> rw [h]
  · exact .refl _ s
  · exact ov1Change_touches s g false

end Sys2Proof.Machine
end

section
namespace Sys2Proof.Machine

/-! ## A latch and the overrides it brings (R323 to R326) -/

/-- A source is latched at a level. -/
def LatchedAt (s : State) (src lvl : Nat) : Prop := ∃ l ∈ s.prot.latches, l.src = src ∧ l.level = lvl

theorem LatchedAt.of_eq {s t : State} {src lvl : Nat} (h : LatchedAt s src lvl) (k : t.prot.latches = s.prot.latches) :
    LatchedAt t src lvl := by
  rw [LatchedAt, k]
  exact h

theorem isLatched_iff {s : State} {src : Nat} : isLatched s src = true ↔ ∃ lvl, LatchedAt s src lvl := by
  simp [isLatched, LatchedAt]

theorem isLatched_congr {s t : State} (h : t.prot.latches = s.prot.latches) (src : Nat) : isLatched t src = isLatched s src := by
  rw [isLatched, h, isLatched]

/-- What is latched stays when another source latches. -/
theorem LatchedAt.addLatch {s : State} {src lvl : Nat} (h : LatchedAt s src lvl) (src' suspect : Nat) :
    LatchedAt (addLatch s src' suspect) src lvl := by
  obtain ⟨l, hl, hsrc⟩ := h
  unfold Machine.addLatch
  split
  · exact ⟨l, hl, hsrc⟩
  · split
    · exact ⟨l, hl, hsrc⟩
    · exact ⟨l, by rw [logLatch_latches]; exact List.mem_append_left _ hl, hsrc⟩

/-- A source with a level latches at it while the die runs. -/
theorem addLatch_latches {s : State} {src lvl : Nat} (hlvl : srcLevel s src = some lvl) (hrun : s.sys.dsReady = true)
    (hfree : isLatched s src = false) (suspect : Nat) : LatchedAt (addLatch s src suspect) src lvl := by
  simp only [addLatch, hlvl, hfree, hrun, Bool.not_true, Bool.or_self, Bool.false_eq_true, if_false]
  exact ⟨_, by rw [logLatch_latches]; exact List.mem_append_right _ List.mem_cons_self, rfl, rfl⟩

theorem LatchedAt.latchesAdded {s : State} {src lvl src' suspect : Nat} (h : LatchedAt (Machine.addLatch s src' suspect) src lvl) :
    LatchedAt (latchesAdded s src' suspect) src lvl := by
  refine LatchedAt.of_eq ?_ (endConfined_latches _)
  split
  · exact h.addLatch _ _
  · exact h

/-- The level of a latch in a list of them, not confined, is at most their highest. -/
theorem le_latLevel {s : State} {l : Latch} (hl : l ∈ s.prot.latches) (hc : isConfined s l = false) : l.level ≤ latLevel s := by
  have hmono (ls : List Latch) (a : Nat) : a ≤ ls.foldl (fun a l => max a (if isConfined s l then 2 else l.level)) a :=
    List.foldlRecOn ls _ (motive := (a ≤ ·)) le_rfl fun b hb l _ => hb.trans (le_max_left _ _)
  obtain ⟨front, back, hsplit⟩ := List.append_of_mem hl
  rw [latLevel, hsplit, List.foldl_append, List.foldl_cons, hc]
  exact (le_max_right _ _).trans (hmono back _)

/-- The latch of a comparator is confined by no reaction. -/
theorem isConfined_comp (s : State) {l : Latch} (h : isCompSrc l.src = true) : isConfined s l = false := by
  have hlt : l.src < 0x48 := of_decide_eq_true h
  have h1 : (l.src == 0x63) = false := beq_false_of_ne (by omega)
  have h2 : (l.src == 0x73) = false := beq_false_of_ne (by omega)
  simp only [isConfined, h1, h2, Bool.or_self, Bool.false_and]

theorem le_severityOf {s : State} {src lvl : Nat} (h : LatchedAt s src lvl) (hcomp : isCompSrc src = true) : lvl ≤ severityOf s := by
  obtain ⟨l, hl, rfl, rfl⟩ := h
  exact (le_latLevel hl (isConfined_comp s hcomp)).trans (le_max_left _ _)

theorem scopeInhibit_of_latched {s : State} {src lvl c : Nat} (h : LatchedAt s src lvl) (hcomp : isCompSrc src = true)
    (hc : c ∈ srcScope s src) : scopeInhibit s c = true := by
  obtain ⟨l, hl, rfl, rfl⟩ := h
  exact List.any_eq_true.2 ⟨l, hl, by simp [hcomp, hc]⟩

theorem else_one_ne_zero (n : Nat) : (if n ≠ 0 then n else 1) ≠ 0 := by
  split
  · assumption
  · decide

/-- A channel in the scope of a latch that inhibits it is overridden. -/
theorem wantOvr_ne_zero {s : State} {c : Nat} (h : scopeInhibit s c = true) : wantOvr s c ≠ 0 := by
  simp only [wantOvr, h, if_true]
  split
  · split <;> decide
  · split
    · decide
    · split
      · split <;> decide
      · exact else_one_ne_zero _

theorem setOvr_ovr (x : Chan) (m : ChanMode) (t v : Nat) : (x.setOvr m t v).ovr = v := by
  unfold Chan.setOvr
  split
  · assumption
  · split
    · exact Eq.symm ‹_›
    · rfl

/-- Every configured channel takes the override it is to have. -/
theorem applyOverrides_ovr {s : State} {c : Nat} (hrun : s.sys.dsReady = true) (hc : c < s.pwmDs.chans.length)
    (hrec : (chanRec s .ds c).isSome = true) : (nth (applyOverrides s).pwmDs.chans c).ovr = wantOvr s c := by
  let p : Pwm := { s.pwmDs with chans := s.pwmDs.chans.mapIdx fun c x =>
    if (chanRec s .ds c).isSome then x.setOvr (chanMode s .ds c) (now16 s) (wantOvr s c) else x }
  have happly : applyOverrides s = inhNote { s with pwmDs := p } := if_pos hrun
  have hpwm : (inhNote { s with pwmDs := p }).pwmDs = p := (inhNote_touches _).agree .pwmDs (by decide)
  rw [happly, hpwm]
  simp [p, nth, hc, hrec, setOvr_ovr]

/-- What the latch of a comparator brings: it is latched, the severity is at least its level where it is new, and every
configured channel in its scope is overridden. -/
theorem latchComp_brings {s : State} {src lvl : Nat} (hinv : Inv s) (hrun : s.sys.dsReady = true)
    (hlvl : srcLevel s src = some lvl) (hcomp : isCompSrc src = true) :
    let t := latchComp s src false
    isLatched t src = true ∧ (isLatched s src = false → lvl ≤ t.prot.severity)
      ∧ ∀ c ∈ srcScope s src, c < 48 → (chanRec s .ds c).isSome = true → (nth t.pwmDs.chans c).ovr ≠ 0 := by
  intro t
  let u := latchesAdded s src (compSuspects s src)
  have hu : Touches [.prot] s u := latchesAdded_touches s src _
  have ht : Touches trace (setSeverity u) t := by
    have heq : t = latchWith s src (compSuspects s src) fun s => countComp s src (compCause src) := by
      simp [t, latchComp, hlvl, hrun]
    exact heq ▸ latchWith_counts s src _ fun t => countEvent_touches t _
  obtain ⟨v, hv, hvt, m, hvprot⟩ := setSeverity_overrides u
  have hlatches : t.prot.latches = u.prot.latches := by rw [ht.prot_eq (by decide), setSeverity_latches]
  have hheld : ∃ l, LatchedAt u src l ∧ (isLatched s src = false → l = lvl) := by
    cases hfree : isLatched s src with
    | false => exact ⟨lvl, (addLatch_latches hlvl hrun hfree _).latchesAdded, fun _ => rfl⟩
    | true =>
      obtain ⟨l, hl⟩ := isLatched_iff.1 hfree
      exact ⟨l, (hl.addLatch _ _).latchesAdded, nofun⟩
  obtain ⟨l, hl, hnew⟩ := hheld
  refine ⟨?_, fun hfree => ?_, fun c hc hlt hrec => ?_⟩
  · rw [isLatched_congr hlatches]
    exact isLatched_iff.2 ⟨l, hl⟩
  · rw [ht.prot_eq (by decide), setSeverity_severity, ← hnew hfree]
    exact le_severityOf hl hcomp
  · have hsv : Touches [.lhCs, .lhDs, .prot] s v := .after (by decide) hvt (hu.mono (by decide))
    have hrecs : recsIn v = recsIn s := hsv.recsIn_eq (by decide)
    have hpwm : t.pwmDs = (applyOverrides v).pwmDs := by rw [← hv]; exact ht.agree .pwmDs (by decide)
    have hvl : LatchedAt v src l := hl.of_eq (by rw [hvprot])
    have hscope : srcScope v src = srcScope s src := by
      have hlt : src < 0x48 := of_decide_eq_true hcomp
      simp only [srcScope, hlt, if_true, guarded, hrecs]
    have hchan : chanRec v .ds c = chanRec s .ds c := by rw [chanRec, hrecs, chanRec]
    have hlen : c < v.pwmDs.chans.length := hlt.trans_eq ((hsv.inv hinv).chans_length .ds).symm
    have hrunv : v.sys.dsReady = true := (hsv.dsReady_eq (by decide)).trans hrun
    rw [hpwm, applyOverrides_ovr hrunv hlen (hchan ▸ hrec)]
    exact wantOvr_ne_zero (scopeInhibit_of_latched hvl hcomp (hscope ▸ hc))

end Sys2Proof.Machine
end

section
namespace Sys2Proof.Machine

/-! ## The live level of a comparator (R312, R313, R320) -/

/-- The live level of a comparator that VDS_ANA forces or its blanking holds off. -/
def CompSt.liveWith (x : CompSt) (forced blanked : Bool) : Bool :=
  if !x.enabled then false else if x.unres || forced then true else x.raw && !blanked

theorem liveNow_eq (s : State) (c : Comp) : liveNow s c = (compSt s c).liveWith (anaForced s) (blanked s c) := rfl

theorem liveWith_of_disabled {x : CompSt} (h : x.enabled = false) (forced blanked : Bool) : x.liveWith forced blanked = false := by
  simp [CompSt.liveWith, h]

/-- Enabled and not blanked, a comparator that reads asserted is live. -/
theorem liveWith_of_raw {x : CompSt} (he : x.enabled = true) (hr : x.raw = true) (forced : Bool) : x.liveWith forced false = true := by
  simp [CompSt.liveWith, he, hr]

/-- Resolved and not forced, a comparator that reads deasserted is not live. -/
theorem liveWith_of_not_raw {x : CompSt} (hu : x.unres = false) (hr : x.raw = false) (blanked : Bool) :
    x.liveWith false blanked = false := by
  simp [CompSt.liveWith, hu, hr]

theorem Inv.trip_length {s : State} (h : Inv s) : s.prot.trip.length = 32 := (congrArg (fun l => nth l 17) h.2 :)

theorem Inv.hard_length {s : State} (h : Inv s) : s.prot.hard.length = 32 := (congrArg (fun l => nth l 18) h.2 :)

theorem Inv.gc_length {s : State} (h : Inv s) : s.prot.gc.length = 8 := (congrArg (fun l => nth l 19) h.2 :)

theorem compSt_modComp {s : State} (h : Inv s) (c : Comp) (f : CompSt → CompSt) : compSt (modComp s c f) c = f (compSt s c) := by
  cases c with
  | trip n => exact nth_upd _ (n.isLt.trans_eq h.trip_length.symm) f
  | hard n => exact nth_upd _ (n.isLt.trans_eq h.hard_length.symm) f
  | gc n => exact nth_upd _ (n.isLt.trans_eq h.gc_length.symm) f

theorem modComp_latches (s : State) (c : Comp) (f : CompSt → CompSt) : (modComp s c f).prot.latches = s.prot.latches := by
  cases c <;> rfl

theorem modComp_severity (s : State) (c : Comp) (f : CompSt → CompSt) : (modComp s c f).prot.severity = s.prot.severity := by
  cases c <;> rfl

theorem ascTripLeg_modComp (s : State) (c c' : Comp) (f : CompSt → CompSt) : ascTripLeg (modComp s c f) c' = ascTripLeg s c' := by
  cases c <;> rfl

theorem cpDef_modComp (s : State) (c : Comp) (f : CompSt → CompSt) (kind n : Nat) :
    cpDef (modComp s c f) kind n = cpDef s kind n := by
  cases c <;> rfl

/-- What is noted of a comparator, its blanking time aside, does not bear on its blanking. -/
theorem blanked_modComp {s : State} (h : Inv s) {c : Comp} {f : CompSt → CompSt}
    (hf : (f (compSt s c)).blank = (compSt s c).blank) : blanked (modComp s c f) c = blanked s c := by
  have hstart : blankStart (modComp s c f) c = blankStart s c := by cases c <;> rfl
  have hnow : now16 (modComp s c f) = now16 s := by cases c <;> rfl
  rw [blanked, hstart, hnow, compSt_modComp h, hf, blanked]

theorem liveNow_modComp {s : State} (h : Inv s) {c : Comp} {f : CompSt → CompSt}
    (hf : (f (compSt s c)).blank = (compSt s c).blank) :
    liveNow (modComp s c f) c = (f (compSt s c)).liveWith (anaForced s) (blanked s c) := by
  have hana : anaForced (modComp s c f) = anaForced s := by cases c <;> rfl
  rw [liveNow_eq, compSt_modComp h, hana, blanked_modComp h hf]

/-- A comparator with its live level noted. -/
def liveNoted (s : State) (c : Comp) : State := modComp s c fun x => { x with live := liveNow s c }

theorem liveUpdate_touches (s : State) (c : Comp) : Touches assertParts s (liveUpdate s c) := by
  unfold liveUpdate
  extract_lets was is t
  refine .trans ((modComp_touches s c _).mono (by decide)) (.ite (fun _ => .refl _ t) fun _ => .ite (fun _ => ?_) fun _ => ?_)
  · exact liveAsserts_touches t c
  · exact .ite_self ((liveDeasserts_touches t c).mono (by decide))

theorem liveUpdate_levels (s : State) (c : Comp) : (liveUpdate s c).prot.levels = (liveNoted s c).prot.levels := by
  unfold liveUpdate
  extract_lets was is t
  split
  · rfl
  · split
    · exact liveAsserts_levels t c
    · split
      · exact liveDeasserts_levels t c
      · rfl

/-- A comparator that is not live latches nothing. -/
theorem liveUpdate_latches {s : State} {c : Comp} (h : liveNow s c = false) : (liveUpdate s c).prot.latches = s.prot.latches := by
  unfold liveUpdate
  extract_lets was is t
  have ht : t.prot.latches = s.prot.latches := modComp_latches s c _
  have his : ¬(is && !was) = true := by simp [is, h]
  rw [if_neg his]
  split
  · exact ht
  · split
    · exact (liveDeasserts_latches t c).trans ht
    · exact ht

/-- A defined comparator that becomes live asserts. -/
theorem liveUpdate_asserts {s : State} {c : Comp} (hdef : (cpDef s (compPlace c).1 (compPlace c).2).isSome = true)
    (hwas : (compSt s c).live = false) (hlive : liveNow s c = true) : liveUpdate s c = liveAsserts (liveNoted s c) c := by
  unfold liveUpdate
  extract_lets was is t
  have hsome : (cpDef t (compPlace c).1 (compPlace c).2).isSome = true := (cpDef_modComp s c _ _ _).symm ▸ hdef
  rw [if_neg (by simpa [Option.isSome_iff_ne_none] using hsome), if_pos (by simp [was, is, hwas, hlive])]
  rfl

/-! ## Something noted of a comparator, and its live level taken afresh -/

section noted

variable {s : State} {c : Comp} {f : CompSt → CompSt}

theorem noted_touches (s : State) (c : Comp) (f : CompSt → CompSt) : Touches assertParts s (liveUpdate (modComp s c f) c) :=
  .trans ((modComp_touches s c f).mono (by decide)) (liveUpdate_touches _ c)

theorem noted_levels (h : Inv s) (hf : (f (compSt s c)).blank = (compSt s c).blank) :
    (compSt (liveUpdate (modComp s c f) c) c).levels
      = { f (compSt s c) with live := (f (compSt s c)).liveWith (anaForced s) (blanked s c) : CompSt }.levels := by
  have hnoted : Inv (modComp s c f) := (modComp_touches s c f).inv h
  rw [compSt_levels (liveUpdate_levels _ c), liveNoted, compSt_modComp hnoted, compSt_modComp h, liveNow_modComp h hf]

theorem noted_latches (h : Inv s) (hf : (f (compSt s c)).blank = (compSt s c).blank)
    (hlive : (f (compSt s c)).liveWith (anaForced s) (blanked s c) = false) :
    (liveUpdate (modComp s c f) c).prot.latches = s.prot.latches :=
  (liveUpdate_latches ((liveNow_modComp h hf).trans hlive)).trans (modComp_latches s c f)

end noted

/-- The input of a comparator as it is noted: its level, and whether it stays UNRESOLVED (R320). -/
def inputOf (s : State) (asserted : Bool) (x : CompSt) : CompSt :=
  { x with raw := asserted, unres := x.unres && (asserted || !(9 ≤ s.sys.step || s.sys.dsReady)) }

theorem exec_comparatorLevelChange (c : Comp) (asserted : Bool) (s : State) :
    exec (.comparatorLevelChange c asserted) s = .next (liveUpdate (modComp s c (inputOf s asserted)) c) := rfl

/-- A comparator whose blanking window is over; an assertion inside the window was none. -/
def CompSt.blankOver (b : Nat) (inside : Bool) (x : CompSt) : CompSt := { x with blankUntil := b, live := x.live && !inside }

/-- The cycle in which the blanking window of a comparator that was opened last is over. -/
def windowEnd (s : State) (c : Comp) : Nat := (10 * blankStart s c + blank64 (compSt s c).blank + 159) / 160

/-- BLANKING_END of a window that is not counted yet (R313). -/
theorem exec_blankingEnd {c : Comp} {s : State} (hnew : (compSt s c).blankUntil < blankStart s c) (hblank : (compSt s c).blank ≠ 0)
    (hres : (compSt s c).unres = false) (hana : anaForced s = false) (hover : blanked (s.advanceTo (windowEnd s c)) c = false) :
    exec (.blankingEnd c) s = .next (liveUpdate (modComp (s.advanceTo (windowEnd s c)) c
      (CompSt.blankOver (blankStart s c) (s.now ≤ windowEnd s c))) c) := by
  have hbar : ¬(blankStart s c ≤ (compSt s c).blankUntil || (compSt s c).blank = 0 || (compSt s c).unres || anaForced s) = true := by
    simp [hnew, hblank, hres, hana]
  exact congrArg Host.Outcome.next ((if_neg hbar).trans (if_neg (ne_true_of_eq_false hover)))

/-! ## A comparator that guards legs asserts (R323, R331) -/

/-- Guarding legs, a comparator is a TRIP or a HARD one. -/
theorem srcScope_of_shunt {c : Comp} {n : Fin 32} (hc : c = .trip n ∨ c = .hard n) (s : State) :
    srcScope s (compSrc c) = guarded s 0 n.val := by
  have hn := n.isLt
  obtain rfl | rfl := hc
  · simp [srcScope, compSrc, show n.val < 0x20 by omega]
  · simp [srcScope, compSrc, show ¬(0x20 + n.val < 0x20) by omega, show 0x20 + n.val < 0x40 by omega]

theorem isCompSrc_of_shunt {c : Comp} {n : Fin 32} (hc : c = .trip n ∨ c = .hard n) : isCompSrc (compSrc c) = true := by
  have hn := n.isLt
  obtain rfl | rfl := hc
  · exact decide_eq_true (show n.val < 0x48 by omega)
  · exact decide_eq_true (show 0x20 + n.val < 0x48 by omega)

theorem compPlace_of_shunt {c : Comp} {n : Fin 32} (hc : c = .trip n ∨ c = .hard n) : compPlace c = (0, n.val) := by
  obtain rfl | rfl := hc <;> rfl

theorem liveAsserts_of_shunt {c : Comp} {n : Fin 32} (hc : c = .trip n ∨ c = .hard n) (s : State) :
    liveAsserts s c = compAsserts s c := by
  obtain rfl | rfl := hc <;> rfl

theorem srcLevel_congr {s t : State} (h : recsIn t = recsIn s) (src : Nat) : srcLevel t src = srcLevel s src := by
  rw [srcLevel, reactRow, h, srcLevel, reactRow]

theorem chanRec_congr {s t : State} (h : recsIn t = recsIn s) (d : Die) (c : Nat) : chanRec t d c = chanRec s d c := by
  rw [chanRec, h, chanRec]

theorem srcScope_congr {s t : State} {src : Nat} (h : recsIn t = recsIn s) (hsrc : isCompSrc src = true) :
    srcScope t src = srcScope s src := by
  have hlt : src < 0x48 := of_decide_eq_true hsrc
  simp only [srcScope, hlt, if_true, guarded, h]

theorem cpEvtBit_latches (s : State) (c : Comp) (cause : Nat) : (cpEvtBit s c cause).prot.latches = s.prot.latches := by
  unfold cpEvtBit
  split <;> exact modComp_latches s _ _

/-- No ASC holds its legs: the comparator's source latches, with what that brings. -/
theorem compAsserts_brings {s : State} {c : Comp} {lvl : Nat} (hinv : Inv s) (hrun : s.sys.dsReady = true)
    (hlvl : srcLevel s (compSrc c) = some lvl) (hcomp : isCompSrc (compSrc c) = true) (hasc : ascTripLeg s c = none) :
    let t := compAsserts s c
    isLatched t (compSrc c) = true ∧ (isLatched s (compSrc c) = false → lvl ≤ t.prot.severity)
      ∧ ∀ ch ∈ srcScope s (compSrc c), ch < 48 → (chanRec s .ds ch).isSome = true → (nth t.pwmDs.chans ch).ovr ≠ 0 := by
  let u := cpEvtBit s c (compCause (compSrc c))
  have hu : Touches [.prot] s u := cpEvtBit_touches s c _
  have hrecs : recsIn u = recsIn s := hu.recsIn_eq (by decide)
  have heq : compAsserts s c = latchComp u (compSrc c) false := by simp [compAsserts, hasc, hrun, hlvl, u]
  have hbrings := latchComp_brings (hu.inv hinv) ((hu.dsReady_eq (by decide)).trans hrun)
    ((srcLevel_congr hrecs _).trans hlvl) hcomp
  rw [isLatched_congr (cpEvtBit_latches s c _), srcScope_congr hrecs hcomp] at hbrings
  simp only [chanRec_congr hrecs] at hbrings
  rw [heq]
  exact hbrings

/-- An ASC holds a leg on: TRIP is noted in its event bit and latches nothing (R331). -/
theorem compAsserts_held {s : State} {n : Fin 32} {ch : Nat} (hinv : Inv s) (hasc : ascTripLeg s (.trip n) = some ch) :
    let t := compAsserts s (.trip n)
    t.prot.latches = s.prot.latches ∧ t.prot.severity = s.prot.severity ∧ bitOf (compSt t (.trip n)).evt 5 = true := by
  let u := modComp s (.trip n) fun x => { x with evt := orBit x.evt 5 }
  have hprot : (compAsserts s (.trip n)).prot = u.prot := by
    simp only [compAsserts, hasc]
    exact countEvent_prot u _
  refine ⟨(congrArg Prot.latches hprot :), (congrArg Prot.severity hprot :),
    bitOf_of_eq_orBit (w := (compSt s (.trip n)).evt) ?_ (by decide)⟩
  rw [compSt, hprot]
  exact congrArg CompSt.evt (compSt_modComp hinv (.trip n) _)

/-! ## Settling the comparators -/

/-- An enabled comparator that is neither live nor blanked becomes live when its input asserts. -/
theorem level_asserts {s : State} {c : Comp} (hinv : Inv s) (hdef : (cpDef s (compPlace c).1 (compPlace c).2).isSome = true)
    (hen : (compSt s c).enabled = true) (hwas : (compSt s c).live = false) (hblank : blanked s c = false) :
    ∃ u, liveUpdate (modComp s c (inputOf s true)) c = liveAsserts u c ∧ Touches [.prot] s u ∧ u.prot.latches = s.prot.latches
      ∧ u.prot.severity = s.prot.severity ∧ ascTripLeg u c = ascTripLeg s c := by
  have ht := modComp_touches s c (inputOf s true)
  have hcomp := compSt_modComp hinv c (inputOf s true)
  have hlive : liveNow (modComp s c (inputOf s true)) c = true := by
    rw [liveNow_modComp hinv rfl, hblank]
    exact liveWith_of_raw (x := inputOf s true (compSt s c)) hen rfl _
  refine ⟨_, liveUpdate_asserts ((cpDef_modComp s c _ _ _).symm ▸ hdef) (hcomp ▸ hwas) hlive, ht.trans (modComp_touches _ c _), ?_⟩
  exact ⟨(modComp_latches _ c _).trans (modComp_latches s c _), (modComp_severity _ c _).trans (modComp_severity s c _),
    (ascTripLeg_modComp _ c c _).trans (ascTripLeg_modComp s c c _)⟩

/-- Settles O46: what is noted of a comparator outlives what its live level brings, which latches only where it asserts. -/
theorem comparatorsLatchAndInhibitTheirLegs : Obligations.ComparatorsLatchAndInhibitTheirLegs := by
  unfold Obligations.ComparatorsLatchAndInhibitTheirLegs
  intro c s hinv
  refine ⟨fun asserted => ?level, fun n lvl hc hrun hdef hlvl hen hwas hblank hasc => ?latches,
    fun n ch hc hdef hen hwas hblank hasc => ?held, ?blanking⟩
  case level =>
    have hlevels := noted_levels (c := c) (f := inputOf s asserted) hinv rfl
    refine ⟨_, exec_comparatorLevelChange c asserted s, congrArg CompSt.raw hlevels, fun hoff => ?_,
      ((noted_touches s c _).mono (by decide)).onlyChanges⟩
    have hlive : (inputOf s asserted (compSt s c)).liveWith (anaForced s) (blanked s c) = false :=
      liveWith_of_disabled (x := inputOf s asserted (compSt s c)) hoff _ _
    exact ⟨noted_latches hinv rfl hlive, (congrArg CompSt.live hlevels).trans hlive⟩
  case latches =>
    have hcomp := isCompSrc_of_shunt hc
    have hlevels := noted_levels (c := c) (f := inputOf s true) hinv rfl
    obtain ⟨u, hu, ht, hlatches, -, hleg⟩ := level_asserts hinv ((compPlace_of_shunt hc).symm ▸ hdef) hen hwas hblank
    have hrecs : recsIn u = recsIn s := ht.recsIn_eq (by decide)
    obtain ⟨hlatched, hsev, hovr⟩ := compAsserts_brings (ht.inv hinv) ((ht.dsReady_eq (by decide)).trans hrun)
      ((srcLevel_congr hrecs _).trans hlvl) hcomp (hleg.trans hasc)
    rw [srcScope_congr hrecs hcomp, srcScope_of_shunt hc] at hovr
    simp only [chanRec_congr hrecs] at hovr
    rw [isLatched_congr hlatches] at hsev
    rw [← liveAsserts_of_shunt hc, ← hu] at hlatched hsev hovr
    refine ⟨_, exec_comparatorLevelChange c true s, (congrArg CompSt.live hlevels).trans ?_, hlatched, hsev, hovr⟩
    rw [hblank]
    exact liveWith_of_raw (x := inputOf s true (compSt s c)) hen rfl _
  case held =>
    subst hc
    obtain ⟨u, hu, ht, hlatches, hsev, hleg⟩ := level_asserts (c := .trip n) hinv hdef hen hwas hblank
    obtain ⟨hlatches', hsev', hbit⟩ := compAsserts_held (ht.inv hinv) (hleg.trans hasc)
    rw [Runs, exec_comparatorLevelChange, hu]
    exact ⟨_, rfl, hlatches'.trans hlatches, hsev'.trans hsev, hbit⟩
  case blanking =>
    intro b fin hnew hblank hres hana hanaEnd hover
    let u := s.advanceTo fin
    let f := CompSt.blankOver b (s.now ≤ fin)
    have hcomp : compSt u c = compSt s c := by cases c <;> rfl
    have huinv : Inv u := (advanceTo_touches s fin).inv hinv
    have hlevels := noted_levels (c := c) (f := f) huinv rfl
    have ht := noted_touches u c f
    rw [hanaEnd, hover, hcomp] at hlevels
    refine ⟨_, exec_blankingEnd hnew hblank hres hana hover, ht.now (by decide), (congrArg CompSt.blankUntil hlevels :),
      (congrArg CompSt.raw hlevels :), fun hlow => ?_,
      fun hhigh hen => (congrArg CompSt.live hlevels).trans (liveWith_of_raw (x := f (compSt s c)) hen hhigh _),
      (Touches.after (by decide) ht ((advanceTo_touches s fin).mono (by decide))).onlyChanges⟩
    have hlive : (f (compSt s c)).liveWith false false = false := liveWith_of_not_raw (x := f (compSt s c)) hres hlow _
    have hnoted : (f (compSt u c)).liveWith (anaForced u) (blanked u c) = false := by rw [hanaEnd, hover, hcomp, hlive]
    exact ⟨noted_latches huinv rfl hnoted, (congrArg CompSt.live hlevels).trans hlive⟩

end Sys2Proof.Machine
end

section
namespace Sys2Proof.Machine

/-! ## Three statements that fail -/

/-- RESET_N has risen after power-on and WAKE, which reads high until it is resolved, has not been resolved. -/
def wakeUnresolved : State :=
  { State.reset with sys := { State.reset.sys with csReset := false, resetLow := false, resetUnres := false } }

/-- WAKE resolves low, and its change is noted in SYS_EVT (R540, R548). -/
theorem wakeUnresolved_notes :
    Runs (.inputResolved .wake false) wakeUnresolved fun t => t.sys.sysEvt ≠ wakeUnresolved.sys.sysEvt :=
  ⟨_, rfl, by decide⟩

/-- Refutes O26: the first resolution of WAKE after a power-on is a change of its level, which SYS_EVT notes, and the frame
of that clause leaves SYS_EVT out. -/
theorem not_inputsLeaveTheirUnresolvedState : ¬ Obligations.InputsLeaveTheirUnresolvedState := by
  unfold Obligations.InputsLeaveTheirUnresolvedState
  intro h
  obtain ⟨-, -, -, -, -, -, -, -, hwake⟩ := h
  obtain ⟨t, ht, -, -, hframe⟩ := (hwake wakeUnresolved).1 rfl rfl
  obtain ⟨u, hu, hnoted⟩ := wakeUnresolved_notes
  obtain rfl : t = u := Host.Outcome.next.inj (ht.symm.trans hu)
  exact hnoted (hframe .sysEvt (by decide))

/-- The chopper is on and its current comparator, number 3, asserted; its blanking is over and BLANKING_END has not come, so
that the live level it keeps is the old one. -/
def chopperCarriesCurrent : State :=
  { State.reset with
    sys := { State.reset.sys with dsReady := true }
    sup := { State.reset.sup with dsOk := 0xF00 }
    img := { State.reset.img with recs := [⟨sGUARD, 2, [0x30000103]⟩, ⟨sREACT, 3, [0x80000000]⟩] }
    dsLoaded := true
    prot := { State.reset.prot with
      chopOn := true
      gc := upd State.reset.prot.gc 3 fun x => { x with raw := true, live := false, unres := false, enabled := true } } }

/-- The comparator shows current, so CHOPF does not come about (R333). -/
theorem chopperCarriesCurrent_holds : Runs .chopf chopperCarriesCurrent fun t => isLatched t 0x52 = false :=
  ⟨_, rfl, by decide +kernel⟩

theorem chopperCarriesCurrent_live :
    ∀ g, gcOf chopperCarriesCurrent 3 = some g → (nth chopperCarriesCurrent.prot.gc g).live = false := by
  intro g hg
  obtain rfl : g = 3 := Option.some.inj (hg.symm.trans (by decide +kernel))
  rfl

/-- Refutes O47: what tells CHOPF of the chopper's current is the level of its comparator at that moment, not the live level
kept from its last change, which the statement asks for. -/
theorem not_speedRuleChoosesTheSafeState : ¬ Obligations.SpeedRuleChoosesTheSafeState := by
  unfold Obligations.SpeedRuleChoosesTheSafeState
  intro h
  obtain ⟨-, -, hchopf⟩ := h
  obtain ⟨t, ht, -, hlatched, -⟩ := hchopf chopperCarriesCurrent (by decide +kernel) rfl rfl rfl rfl chopperCarriesCurrent_live
  obtain ⟨u, hu, hno⟩ := chopperCarriesCurrent_holds
  obtain rfl : t = u := Host.Outcome.next.inj (ht.symm.trans hu)
  exact absurd (hlatched.symm.trans hno) (by decide)

/-- Writes to the DS die are served, and the one latch held is of a source beyond the 256 that a byte names. -/
def latchOfNoSource : State :=
  { State.reset with
    now := 1
    sys := { State.reset.sys with keeperUp := true, dsBoot := false }
    x := { State.reset.x with trained := true }
    im := { State.reset.im with noImage := false }
    prot := { State.reset.prot with latches := [⟨256, 1, 0, 0, false, 0⟩] } }

theorem latchOfNoSource_writeOpen : WriteOpen latchOfNoSource .ds :=
  ⟨⟨rfl, rfl, rfl, fun _ => rfl⟩, by decide +kernel⟩

/-- PT_CLR ALL goes through the sources of a byte and does not come to the latch. -/
theorem latchOfNoSource_stays : Runs .ptClrAll latchOfNoSource fun t => t.prot.latches ≠ [] :=
  ⟨_, rfl, by decide +kernel⟩

/-- Refutes O48: the clause on a single latch, unlike the one on refusals, does not bound its source, and PT_CLR ALL goes
through the 256 sources of R322 alone. -/
theorem not_clearsObeyTheirConditions : ¬ Obligations.ClearsObeyTheirConditions := by
  unfold Obligations.ClearsObeyTheirConditions
  intro h
  obtain ⟨t, ht, -, hsingle, -⟩ := (h latchOfNoSource).2.1 latchOfNoSource_writeOpen
  obtain ⟨u, hu, hstays⟩ := latchOfNoSource_stays
  obtain rfl : t = u := Host.Outcome.next.inj (ht.symm.trans hu)
  exact hstays (hsingle ⟨256, 1, 0, 0, false, 0⟩ rfl (by decide +kernel)).2

end Sys2Proof.Machine
end

section
namespace Sys2Proof.Machine

/-! ## What an operation leaves of the Watch Room -/

/-- An operation touches the parts P alone, leaves what k shows of the Watch Room, and clears no bit of WR_EVT. -/
structure RoomStays {α : Type} (P : List Part) (k : Wr → α) (s t : State) : Prop where
  touches : Touches P s t
  keeps : k t.wr = k s.wr
  events : ∀ i, bitOf s.wr.evt i = true → bitOf t.wr.evt i = true

/-- Where the Watch Room is not touched it is the same but for its reports. -/
theorem Touches.wr_eq {P : List Part} {s t : State} (h : Touches P s t) (hP : .wr ∉ P) :
    { t.wr with inbox := [] } = { s.wr with inbox := [] } := h.agree .wr hP

theorem Touches.acc_eq {P : List Part} {s t : State} (h : Touches P s t) (hP : .acc ∉ P) : t.acc = s.acc := h.agree .acc hP

namespace RoomStays

variable {α : Type} {P Q : List Part} {k : Wr → α} {s t u : State}

theorem refl (P : List Part) (k : Wr → α) (s : State) : RoomStays P k s s := ⟨.refl P s, rfl, fun _ h => h⟩

theorem mono (hQ : Q ⊆ P) (h : RoomStays Q k s t) : RoomStays P k s t := ⟨h.touches.mono hQ, h.keeps, h.events⟩

theorem trans (h : RoomStays P k s t) (h' : RoomStays P k t u) : RoomStays P k s u :=
  ⟨h.touches.trans h'.touches, h'.keeps.trans h.keeps, fun i hi => h'.events i (h.events i hi)⟩

/-- One operation, that touches no more, after what came before. -/
theorem after (hQ : Q ⊆ P) (h' : RoomStays Q k t u) (h : RoomStays P k s t) : RoomStays P k s u := h.trans (mono hQ h')

theorem ite {c : Prop} [Decidable c] (h : c → RoomStays P k s t) (h' : ¬c → RoomStays P k s u) :
    RoomStays P k s (if c then t else u) := by
  split
  · exact h ‹_›
  · exact h' ‹_›

theorem ite_self {c : Prop} [Decidable c] (h : c → RoomStays P k s t) : RoomStays P k s (if c then t else s) :=
  ite h fun _ => refl P k s

theorem foldl {β : Type} {f : State → β → State} (hf : ∀ t x, RoomStays P k t (f t x)) (l : List β) (s : State) :
    RoomStays P k s (l.foldl f s) := by
  induction l generalizing s with
  | nil => exact refl P k s
  | cons x l ih => exact (hf s x).trans (ih _)

/-- What shows less of the Watch Room stays too. -/
theorem shows {β : Type} {g : Wr → β} (h : RoomStays P k s t) (hg : ∀ v w : Wr, k v = k w → g v = g w) :
    RoomStays P g s t := ⟨h.touches, hg _ _ h.keeps, h.events⟩

/-- An operation outside the Watch Room, which may report to it. -/
theorem of_touches (h : Touches P s t) (hP : .wr ∉ P) (hk : ∀ w : Wr, k { w with inbox := [] } = k w) :
    RoomStays P k s t := by
  have hwr := h.wr_eq hP
  refine ⟨h, (hk t.wr).symm.trans ((congrArg k hwr).trans (hk s.wr)), fun i hi => ?_⟩
  exact (congrArg (bitOf · i) (congrArg Wr.evt hwr)).trans hi

end RoomStays

/-- An update of the Watch Room beside its reports, its events and what k shows. -/
theorem modWr_stays {α : Type} {k : Wr → α} {s : State} {f : Wr → Wr}
    
    (h : (f s.wr).inbox = s.wr.inbox ∧ k (f s.wr) = k s.wr ∧ (f s.wr).evt = s.wr.evt) : RoomStays [.wr] k s (s.modWr f) := by
  obtain ⟨hinbox, hk, hevt⟩ := h
  exact ⟨modWr_touches s f hinbox, hk, fun i hi => (congrArg (bitOf · i) hevt).trans hi⟩

/-! ## Events of subsystem 15 (R379) -/

section counted

variable (s : State) (inst unit elem grp cause w n : Nat) (detail : Word) (early : Bool)

theorem wrCount_touches : Touches (traced [.wr]) s (wrCount s inst unit elem grp cause w n detail early) :=
  .after (by decide) (countEvent_touches _ _) ((modWr_touches s _ rfl).mono (by decide))

/-- A counted event sets its bit of WR_EVT and leaves the rest of the Watch Room but its reports. -/
theorem wrCount_wr : { (wrCount s inst unit elem grp cause w n detail early).wr with inbox := [] }
    = { s.wr with evt := orBit s.wr.evt cause, inbox := [] } :=
  (countEvent_touches (s.modWr fun x => { x with evt := orBit x.evt cause }) _).wr_eq (by decide)

theorem wrCount_evt : (wrCount s inst unit elem grp cause w n detail early).wr.evt = orBit s.wr.evt cause :=
  congrArg Wr.evt (wrCount_wr s inst unit elem grp cause w n detail early)

theorem wrCount_sets (h : cause < 32) : bitOf (wrCount s inst unit elem grp cause w n detail early).wr.evt cause = true :=
  bitOf_of_eq_orBit (wrCount_evt ..) h

/-- The Watch Room but for what a counted event makes of it. -/
def Wr.uncounted (x : Wr) : Wr := { x with evt := 0, inbox := [] }

theorem wrCount_stays : RoomStays (traced [.wr]) Wr.uncounted s (wrCount s inst unit elem grp cause w n detail early) :=
  ⟨wrCount_touches .., congrArg (fun x : Wr => { x with evt := 0 }) (wrCount_wr ..), fun i h => by
    rw [wrCount_evt]; exact bitOf_orBit h cause⟩

theorem wrFixed_stays : RoomStays (traced [.wr]) Wr.uncounted s (wrFixed s inst unit elem cause detail) := wrCount_stays ..

theorem wrFixed_sets (h : cause < 32) : bitOf (wrFixed s inst unit elem cause detail).wr.evt cause = true :=
  wrCount_sets s inst unit elem cause cause 1 1 detail true h

theorem monEvent_stays : RoomStays (traced [.wr]) Wr.uncounted s (monEvent s unit inst cause detail) := wrCount_stays ..

end counted

end Sys2Proof.Machine
end

section
namespace Sys2Proof.Machine

/-! ## What an operation makes of one contactor -/

/-- What an operation on a contactor may touch: a first closed reading goes to the lamp-hours unit (R366, R459). -/
def ctParts : List Part := traced [.wr, .lamp]

/-- The Watch Room but for its contactors and what a counted event makes of it. -/
def Wr.besidesCt (x : Wr) : Wr := { x with ct := [], evt := 0, inbox := [] }

/-- An operation changes contactor n by f, and beside it what an operation on a contactor may touch. -/
structure TurnsCt (n : Nat) (f : Contactor → Contactor) (s t : State) : Prop where
  stays : RoomStays ctParts Wr.besidesCt s t
  ct : t.wr.ct = upd s.wr.ct n f

/-- The record of a contactor is the one it has, or that of a contactor nothing has happened to. -/
theorem ctAt_turned {s t : State} {n : Nat} {f : Contactor → Contactor} (h : t.wr.ct = upd s.wr.ct n f)
    (hn : n < s.wr.ct.length) : ctAt t n = f (ctAt s n) := by
  simp [ctAt, h, upd, hn]

theorem ctAt_other {s t : State} {n m : Nat} {f : Contactor → Contactor} (h : t.wr.ct = upd s.wr.ct n f) (hm : m ≠ n) :
    ctAt t m = ctAt s m := by
  simp [ctAt, h, upd, hm.symm]

namespace TurnsCt

variable {n : Nat} {f g : Contactor → Contactor} {s t u : State}

theorem refl (n : Nat) (s : State) : TurnsCt n id s s := ⟨.refl _ _ s, (List.modify_id ..).symm⟩

theorem trans (h : TurnsCt n f s t) (k : TurnsCt n g t u) : TurnsCt n (g ∘ f) s u :=
  ⟨h.stays.trans k.stays, by rw [k.ct, h.ct, upd, upd, upd, List.modify_modify_eq]⟩

/-- An operation that leaves the contactors, after one that changes one. -/
theorem andThen (h : TurnsCt n f s t) {P : List Part} (hP : P ⊆ ctParts) (k : RoomStays P Wr.uncounted t u) : TurnsCt n f s u :=
  ⟨h.stays.trans ((k.mono hP).shows fun _ _ e => (congrArg Wr.besidesCt e :)), (congrArg Wr.ct k.keeps).trans h.ct⟩

/-- An operation that changes a contactor, after one that leaves them. -/
theorem ofThen {P : List Part} (hP : P ⊆ ctParts) (k : RoomStays P Wr.uncounted s t) (h : TurnsCt n f t u) : TurnsCt n f s u :=
  ⟨.trans ((k.mono hP).shows fun _ _ e => (congrArg Wr.besidesCt e :)) h.stays,
    h.ct.trans (congrArg (fun x : Wr => upd x.ct n f) k.keeps :)⟩

theorem own (h : TurnsCt n f s t) (hn : n < s.wr.ct.length) : ctAt t n = f (ctAt s n) := ctAt_turned h.ct hn

theorem other (h : TurnsCt n f s t) (m : Nat) (hm : m ≠ n) : ctAt t m = ctAt s m := ctAt_other h.ct hm

theorem length_eq (h : TurnsCt n f s t) : t.wr.ct.length = s.wr.ct.length := by rw [h.ct, upd, List.length_modify]

theorem par_eq (h : TurnsCt n f s t) : t.wr.par = s.wr.par := (congrArg Wr.par h.stays.keeps :)

theorem checks_eq (h : TurnsCt n f s t) : t.wr.checks = s.wr.checks := (congrArg Wr.checks h.stays.keeps :)

theorem now_eq (h : TurnsCt n f s t) : t.now = s.now := h.stays.touches.now (by decide)

end TurnsCt

theorem modCt_turns (s : State) (n : Nat) (f : Contactor → Contactor) : TurnsCt n f s (s.modCt n f) :=
  ⟨(modWr_stays (k := Wr.besidesCt) ⟨rfl, rfl, rfl⟩).mono (by decide), rfl⟩

theorem modCt_evt (s : State) (n : Nat) (f : Contactor → Contactor) : (s.modCt n f).wr.evt = s.wr.evt := rfl

section params

variable {s t : State} (h : t.wr.par = s.wr.par)

include h

theorem wrPar_congr (off : Nat) : wrPar t off = wrPar s off := by rw [wrPar, wrPar, h]

theorem ctCf_congr (n : Nat) : ctCf t n = ctCf s n := by rw [ctCf, ctCf, ctW, ctW, wrPar_congr h]

/-- A reading depends on the parameters and on the input it is taken from. -/
theorem ctReads_congr (n : Nat) (hlevel : (ctAt t (ctCf s n)).level = (ctAt s (ctCf s n)).level)
    (hunres : (ctAt t (ctCf s n)).unres = (ctAt s (ctCf s n)).unres) : ctReads t n = ctReads s n := by
  simp only [ctAt] at hlevel hunres
  simp only [ctReads, ctCf_congr h, hlevel, hunres, ctW, wrPar_congr h]

end params

/-- Readings stay where the change leaves the input of the contactor. -/
theorem TurnsCt.reads_eq {n : Nat} {f : Contactor → Contactor} {s t : State} (h : TurnsCt n f s t)
    (hf : ∀ x, (f x).level = x.level ∧ (f x).unres = x.unres) (m : Nat) : ctReads t m = ctReads s m := by
  have hinput : (ctAt t (ctCf s m)).level = (ctAt s (ctCf s m)).level ∧ (ctAt t (ctCf s m)).unres = (ctAt s (ctCf s m)).unres := by
    by_cases hn : ctCf s m = n
    · by_cases hlt : n < s.wr.ct.length
      · rw [hn, h.own hlt]
        exact hf _
      · simp [ctAt, h.ct, upd, hn, hlt]
    · rw [h.other _ hn]
      exact ⟨rfl, rfl⟩
  exact ctReads_congr h.par_eq m hinput.1 hinput.2

/-! ## A reading, a check, a dropout (R366) -/

/-- A contactor at a reading at the time `now`; a first closed reading brings its closing time. -/
def Contactor.watched (now : Nat) (closing : Option (BitVec 16)) (r : Option Bool) (x : Contactor) : Contactor :=
  match r with
  | some true =>
    { x with seen := x.seen || x.ctc, closedAt := if x.ctc then some (x.closedAt.getD now) else none, openAt := none
             time := closing.getD x.time }
  | some false => { x with closedAt := none, openAt := if x.ctc && x.seen then some (x.openAt.getD now) else none }
  | none => { x with closedAt := none, openAt := none }

/-- A reading leaves the command, its settling, what was found so far and the input. -/
theorem watched_rest (now : Nat) (closing : Option (BitVec 16)) (r : Option Bool) (x : Contactor) :
    let y := x.watched now closing r
    y.ctc = x.ctc ∧ y.settle = x.settle ∧ y.changed = x.changed ∧ y.weld = x.weld ∧ y.noclose = x.noclose
      ∧ y.level = x.level ∧ y.unres = x.unres := by
  rcases r with _ | _ | _ <;> exact ⟨rfl, rfl, rfl, rfl, rfl, rfl, rfl⟩

theorem watched_input (now : Nat) (closing : Option (BitVec 16)) (r : Option Bool) (x : Contactor) :
    (x.watched now closing r).level = x.level ∧ (x.watched now closing r).unres = x.unres :=
  (watched_rest now closing r x).2.2.2.2.2

theorem lampContactor_touches (s : State) (n tenth : Nat) : Touches (traced [.lamp]) s (lampContactor s n tenth) :=
  .trans ((lamp_touches s _).mono (by decide)) (.ite_self (laEvent_touches _ _ _ _ _ _))

theorem lampContactor_stays (s : State) (n tenth : Nat) :
    RoomStays (traced [.lamp]) Wr.uncounted s (lampContactor s n tenth) :=
  .of_touches (lampContactor_touches s n tenth) (by decide) fun _ => rfl

theorem ctWatch_turns (s : State) (n : Nat) :
    ∃ closing, TurnsCt n (Contactor.watched s.now closing (ctReads s n)) s (ctWatch s n) := by
  unfold ctWatch
  rcases ctReads s n with _ | _ | _
  · exact ⟨none, modCt_turns s n _⟩
  · exact ⟨none, modCt_turns s n _⟩
  · dsimp only
    cases (ctAt s n).ctc && !(ctAt s n).seen
    · exact ⟨none, modCt_turns s n _⟩
    · exact ⟨some _, (modCt_turns s n _).andThen (by decide) (lampContactor_stays _ _ _)⟩

/-- Whether a contactor's feedback is judged: the checks run, or a command change has settled. -/
def ctJudged (s : State) (n : Nat) : Bool := (s.wr.checks || (ctAt s n).changed) && ctSettled s n

/-- Commanded open, and reads closed. -/
def ctWelded (s : State) (n : Nat) : Bool := ctJudged s n && !(ctAt s n).ctc && ctReads s n == some true

/-- Commanded closed, reads open, and has not been seen closed. -/
def ctNotClosed (s : State) (n : Nat) : Bool :=
  ctJudged s n && (ctAt s n).ctc && ctReads s n == some false && !(ctAt s n).seen

/-- What a check finds of a contactor. -/
def Contactor.checked (weld noclose : Bool) (r : Option Bool) (x : Contactor) : Contactor :=
  { x with weld := weld, noclose := noclose || (x.noclose && x.seen && r == some false) }

/-- The events of a check. -/
def ctCounted (s : State) (n : Nat) : State :=
  let t := if ctWelded s n && !(ctAt s n).weld then wrFixed s n 3 n 0x0A (wd (ctCf s n)) else s
  if ctNotClosed s n && !(ctAt s n).noclose then wrFixed t n 3 n 0x0B (wd (ctCf t n)) else t

theorem ctCheck_eq (s : State) (n : Nat) :
    ctCheck s n = (ctCounted s n).modCt n (Contactor.checked (ctWelded s n) (ctNotClosed s n) (ctReads s n)) := rfl

theorem ctCounted_stays (s : State) (n : Nat) : RoomStays (traced [.wr]) Wr.uncounted s (ctCounted s n) :=
  .trans (.ite_self fun _ => wrFixed_stays ..) (.ite_self fun _ => wrFixed_stays ..)

theorem ctCheck_turns (s : State) (n : Nat) :
    TurnsCt n (Contactor.checked (ctWelded s n) (ctNotClosed s n) (ctReads s n)) s (ctCheck s n) := by
  rw [ctCheck_eq]
  exact .ofThen (by decide) (ctCounted_stays s n) (modCt_turns _ n _)

theorem ctCheck_evt (s : State) (n : Nat) : (ctCheck s n).wr.evt = (ctCounted s n).wr.evt := by
  rw [ctCheck_eq]
  rfl

theorem ctCheck_weld {s : State} {n : Nat} (h : ctWelded s n = true) (hx : (ctAt s n).weld = false) :
    bitOf (ctCheck s n).wr.evt 0x0A = true := by
  have hnew : (ctWelded s n && !(ctAt s n).weld) = true := by rw [h, hx]; rfl
  rw [ctCheck_evt, ctCounted]
  refine RoomStays.events (P := traced [.wr]) (k := Wr.uncounted) (.ite_self fun _ => wrFixed_stays ..) _ ?_
  rw [if_pos hnew]
  exact wrFixed_sets _ n 3 n _ _ (by decide)

theorem ctCheck_noclose {s : State} {n : Nat} (h : ctNotClosed s n = true) (hx : (ctAt s n).noclose = false) :
    bitOf (ctCheck s n).wr.evt 0x0B = true := by
  have hnew : (ctNotClosed s n && !(ctAt s n).noclose) = true := by rw [h, hx]; rfl
  rw [ctCheck_evt, ctCounted, if_pos hnew]
  exact wrFixed_sets _ n 3 n _ _ (by decide)

/-- A contactor of which NOCLOSE was found. -/
def Contactor.droppedOut (x : Contactor) : Contactor := { x with noclose := true }

theorem ctDropout_turns (s : State) (n : Nat) : ∃ f, TurnsCt n f s (ctDropout s n) := by
  unfold ctDropout
  split
  · split
    · exact ⟨Contactor.droppedOut, .ofThen (by decide) (wrFixed_stays ..) (modCt_turns _ n _)⟩
    · exact ⟨id, .refl n s⟩
  · exact ⟨id, .refl n s⟩

/-- A contactor that has read open for 10 ms is NOCLOSE, whose event is counted where it is new. -/
theorem ctDropout_due {s : State} {n tm : Nat} (hopen : (ctAt s n).openAt = some tm) (hdue : tm + 10 * msec ≤ s.now)
    (hn : n < s.wr.ct.length) :
    (ctAt (ctDropout s n) n).noclose = true
      ∧ ((ctAt s n).noclose = false → bitOf (ctDropout s n).wr.evt 0x0B = true) := by
  unfold ctDropout
  rw [hopen]
  dsimp only
  cases hx : (ctAt s n).noclose
  · rw [if_pos (by simp [hdue])]
    have hturn : TurnsCt n Contactor.droppedOut s _ :=
      .ofThen (by decide) (wrFixed_stays s n 3 n 0x0B (wd (256 + ctCf s n))) (modCt_turns _ n _)
    exact ⟨congrArg Contactor.noclose (hturn.own hn), fun _ => by rw [modCt_evt]; exact wrFixed_sets s n 3 n 0x0B _ (by decide)⟩
  · rw [if_neg (by simp)]
    exact ⟨hx, nofun⟩

end Sys2Proof.Machine
end

section
namespace Sys2Proof.Machine

/-! ## CONTACTOR_SETTLE_END (R365, R366) -/

/-- A contactor no settle time of which runs. -/
def Contactor.settled (x : Contactor) : Contactor := { x with settle := none }

/-- The end of a contactor's settle time. -/
def settleEnded (s : State) (n tm : Nat) : State := (s.advanceTo tm).modCt n Contactor.settled

/-- The reading that the end of a settle time takes. -/
def settleRead (s : State) (n tm : Nat) : State := ctWatch (settleEnded s n tm) n

theorem exec_contactorSettleEnd {s : State} {n : Fin 6} {tm : Nat} (h : (ctAt s n.val).settle = some tm) :
    exec (.contactorSettleEnd n) s = .next (if ctEn s n.val then ctCheck (settleRead s n.val tm) n.val else settleEnded s n.val tm) := by
  change execContactorSettleEnd n s = _
  unfold execContactorSettleEnd
  rw [h]
  rfl

section settleEnd

variable {s : State} {n tm : Nat}

theorem settleRead_turns (s : State) (n tm : Nat) :
    ∃ closing, TurnsCt n (Contactor.watched (s.advanceTo tm).now closing (ctReads s n) ∘ Contactor.settled) (s.advanceTo tm)
      (settleRead s n tm) := by
  have hended := modCt_turns (s.advanceTo tm) n Contactor.settled
  obtain ⟨closing, hread⟩ := ctWatch_turns (settleEnded s n tm) n
  rw [show ctReads (settleEnded s n tm) n = ctReads s n from hended.reads_eq (fun _ => ⟨rfl, rfl⟩) n] at hread
  exact ⟨closing, hended.trans hread⟩

/-- After the settle time the feedback is judged where the checks run or the command has changed, by the reading it had. -/
theorem settleRead_rest (hn : n < s.wr.ct.length) :
    ctJudged (settleRead s n tm) n = (s.wr.checks || (ctAt s n).changed)
      ∧ ctReads (settleRead s n tm) n = ctReads s n
      ∧ (ctAt (settleRead s n tm) n).ctc = (ctAt s n).ctc
      ∧ (ctAt (settleRead s n tm) n).weld = (ctAt s n).weld
      ∧ (ctAt (settleRead s n tm) n).noclose = (ctAt s n).noclose := by
  obtain ⟨closing, hturn⟩ := settleRead_turns s n tm
  have hinput := hturn.reads_eq (fun x => watched_input _ _ _ _) n
  obtain ⟨hctc, hsettle, hchanged, hweld, hnoclose, -⟩ :=
    watched_rest (s.advanceTo tm).now closing (ctReads s n) (ctAt s n).settled
  have hown : ctAt (settleRead s n tm) n = _ := hturn.own hn
  refine ⟨?_, hinput, ?_, ?_, ?_⟩
  · simp only [ctJudged, ctSettled, hown, hturn.checks_eq]
    simp only [Function.comp_apply]
    rw [show ctAt (s.advanceTo tm) n = ctAt s n from rfl, hsettle, hchanged]
    simp [Contactor.settled]
  all_goals rw [hown]; assumption

/-- A contactor commanded closed that has not been seen closed is not seen closed by an open reading. -/
theorem settleRead_seen (hn : n < s.wr.ct.length) (hr : ctReads s n = some false) :
    (ctAt (settleRead s n tm) n).seen = (ctAt s n).seen := by
  obtain ⟨closing, hturn⟩ := settleRead_turns s n tm
  rw [hturn.own hn, hr]
  rfl

theorem settleRead_welded (hn : n < s.wr.ct.length) (hlive : s.wr.checks = true ∨ (ctAt s n).changed = true)
    (hctc : (ctAt s n).ctc = false) (hr : ctReads s n = some true) : ctWelded (settleRead s n tm) n = true := by
  obtain ⟨hjudged, hreads, hcmd, -⟩ := settleRead_rest (tm := tm) hn
  rw [ctWelded, hjudged, hreads, hcmd, hctc, hr, Bool.or_eq_true_iff.2 hlive]
  rfl

theorem settleRead_notClosed (hn : n < s.wr.ct.length) (hlive : s.wr.checks = true ∨ (ctAt s n).changed = true)
    (hctc : (ctAt s n).ctc = true) (hseen : (ctAt s n).seen = false) (hr : ctReads s n = some false) :
    ctNotClosed (settleRead s n tm) n = true := by
  obtain ⟨hjudged, hreads, hcmd, -⟩ := settleRead_rest (tm := tm) hn
  rw [ctNotClosed, hjudged, hreads, hcmd, settleRead_seen hn hr, hctc, hseen, hr, Bool.or_eq_true_iff.2 hlive]
  rfl

theorem settleRead_openReading (hn : n < s.wr.ct.length) (hr : ctReads s n = some false) :
    ctWelded (settleRead s n tm) n = false := by
  obtain ⟨-, hreads, -⟩ := settleRead_rest (tm := tm) hn
  rw [ctWelded, hreads, hr]
  exact Bool.and_false _

/-- The end of a settle time, with the check it brings. -/
def settleChecked (s : State) (n tm : Nat) : State :=
  if ctEn s n then ctCheck (settleRead s n tm) n else settleEnded s n tm

theorem settleChecked_turns (s : State) (n tm : Nat) :
    ∃ f, TurnsCt n f (s.advanceTo tm) (settleChecked s n tm) ∧ ∀ x, (f x).settle = none ∧ (f x).ctc = x.ctc := by
  unfold settleChecked
  split
  · obtain ⟨closing, hread⟩ := settleRead_turns s n tm
    refine ⟨_, hread.trans (ctCheck_turns _ n), fun x => ?_⟩
    obtain ⟨hctc, hsettle, -⟩ := watched_rest (s.advanceTo tm).now closing (ctReads s n) x.settled
    exact ⟨hsettle, hctc⟩
  · exact ⟨_, modCt_turns _ n Contactor.settled, fun _ => ⟨rfl, rfl⟩⟩

/-- What the check at the end of a settle time finds of an enabled contactor. -/
theorem settleChecked_own (hn : n < s.wr.ct.length) (hen : ctEn s n = true) :
    ctAt (settleChecked s n tm) n = (ctAt (settleRead s n tm) n).checked (ctWelded (settleRead s n tm) n)
      (ctNotClosed (settleRead s n tm) n) (ctReads (settleRead s n tm) n) := by
  obtain ⟨closing, hread⟩ := settleRead_turns s n tm
  rw [settleChecked, if_pos hen]
  exact (ctCheck_turns _ n).own (hread.length_eq.symm ▸ hn)

end settleEnd

/-! ## CONTACTOR_CHECK_START (R366) -/

/-- One contactor when the checks begin. -/
def ctFirstCheck (s : State) (n : Nat) : State :=
  let t := if (ctReads s n).isNone then wrFixed s n 3 n 0x0C (wd (ctCf s n)) else s
  ctCheck (ctWatch t n) n

/-- The Watch Room but for what a check may change: what is commanded stays. -/
def Wr.commands (x : Wr) : Wr × List Bool := (x.besidesCt, x.ct.map Contactor.ctc)

/-- A change of a contactor that leaves its command. -/
theorem TurnsCt.commands {n : Nat} {f : Contactor → Contactor} {s t : State} (h : TurnsCt n f s t) (hf : ∀ x, (f x).ctc = x.ctc) :
    RoomStays ctParts Wr.commands s t := by
  refine ⟨h.stays.touches, Prod.ext h.stays.keeps ?_, h.stays.events⟩
  change t.wr.ct.map Contactor.ctc = s.wr.ct.map Contactor.ctc
  rw [h.ct]
  refine List.ext_getElem (by simp [upd]) fun i _ _ => ?_
  by_cases hi : n = i <;> simp [upd, hi, hf]

theorem ctWatch_commands (s : State) (n : Nat) : RoomStays ctParts Wr.commands s (ctWatch s n) := by
  obtain ⟨closing, h⟩ := ctWatch_turns s n
  exact h.commands fun x => (watched_rest _ _ _ x).1

theorem ctCheck_commands (s : State) (n : Nat) : RoomStays ctParts Wr.commands s (ctCheck s n) :=
  (ctCheck_turns s n).commands fun _ => rfl

theorem Wr.uncounted_commands {v w : Wr} (h : v.uncounted = w.uncounted) : v.commands = w.commands :=
  (congrArg (fun x : Wr => (x.besidesCt, x.ct.map Contactor.ctc)) h :)

theorem ctFirstCheck_commands (s : State) (n : Nat) : RoomStays ctParts Wr.commands s (ctFirstCheck s n) :=
  .trans (.trans (.ite_self fun _ => ((wrFixed_stays ..).shows fun _ _ => Wr.uncounted_commands).mono (by decide))
    (ctWatch_commands _ n)) (ctCheck_commands _ n)

theorem ctAt_ctc {s t : State} (h : t.wr.ct.map Contactor.ctc = s.wr.ct.map Contactor.ctc) (k : Nat) :
    (ctAt t k).ctc = (ctAt s k).ctc := by
  have hmap (u : State) : (ctAt u k).ctc = (u.wr.ct.map Contactor.ctc).getD k false := by
    simp only [ctAt, List.getD_eq_getElem?_getD, List.getElem?_map]
    cases u.wr.ct[k]? <;> rfl
  rw [hmap, hmap, h]

/-- The checks begin. -/
def checksBegun (s : State) (tz : Nat) : State := (s.advanceTo (tz + wrCfTime s * msec)).modWr fun x => { x with checks := true }

theorem exec_contactorCheckStart {s : State} {tz : Nat} (h0 : s.t0 = some tz) (h : s.wr.checks = false) :
    exec .contactorCheckStart s =
      .next (((List.range 6).filter fun n => ctEn (checksBegun s tz) n).foldl ctFirstCheck (checksBegun s tz)) := by
  change execContactorCheckStart s = _
  unfold execContactorCheckStart
  rw [h0]
  dsimp only
  rw [if_neg (by simp [h])]
  rfl

theorem checksBegun_touches (s : State) (tz : Nat) : Touches [.now, .wr] s (checksBegun s tz) :=
  .trans ((advanceTo_touches s _).mono (by decide)) ((modWr_touches _ _ rfl).mono (by decide))

/-! ## CONTACTOR_DROPOUT (R366) -/

theorem exec_contactorDropout {s : State} {n : Fin 6} {tm : Nat} (hen : ctEn s n.val = true)
    (h : (ctAt (ctWatch s n.val) n.val).openAt = some tm) :
    exec (.contactorDropout n) s = .next (ctDropout ((ctWatch s n.val).advanceTo (tm + 10 * msec)) n.val) := by
  change execContactorDropout n s = _
  unfold execContactorDropout
  rw [if_neg (by simp [hen])]
  dsimp only
  rw [h]

/-! ## LOCKOUT_CONTACTOR_OPEN (R358) -/

/-- A contactor of which another command is given. -/
def Contactor.commanded (v : Bool) (now settle : Nat) (x : Contactor) : Contactor :=
  { x with ctc := v, settle := some settle, changed := true, cmdAt := now, seen := false, openAt := none, closedAt := none
           weld := false, noclose := false }

/-- A command of a contactor changes nothing, or the contactor alone. -/
theorem setCt_cases (s : State) (n : Nat) (v : Bool) :
    ((ctAt s n).ctc = v ∧ setCt s n v = s) ∨ ∃ at_, setCt s n v = s.modCt n (Contactor.commanded v s.now at_) := by
  unfold setCt
  split
  · exact .inl ⟨‹_›, rfl⟩
  · exact .inr ⟨_, rfl⟩

/-- A contactor that is commanded open, or stays so, is. -/
theorem setCt_opens (s : State) (n k : Nat) (h : k = n ∨ (ctAt s k).ctc = false) : (ctAt (setCt s n false) k).ctc = false := by
  rcases setCt_cases s n false with ⟨hv, heq⟩ | ⟨at_, heq⟩ <;> rw [heq]
  · exact h.elim (fun hk => hk ▸ hv) id
  · by_cases hk : k = n
    · by_cases hlt : n < s.wr.ct.length
      · rw [hk, (modCt_turns s n _).own hlt]
        rfl
      · simp [ctAt, State.modCt, State.modWr, upd, hk, hlt]
    · rw [(modCt_turns s n _).other k hk]
      exact h.resolve_left hk

theorem setCt_ctcmd (s : State) (n : Nat) (v : Bool) :
    (setCt s n v).wr.ctcmd = s.wr.ctcmd ∧ (setCt s n v).wr.lockOpen = s.wr.lockOpen := by
  rcases setCt_cases s n v with ⟨-, heq⟩ | ⟨at_, heq⟩ <;> rw [heq] <;> exact ⟨rfl, rfl⟩

/-- Contactors commanded open one after another are open. -/
theorem setCt_all (l : List Nat) (s : State) {k : Nat} (h : k ∈ l ∨ (ctAt s k).ctc = false) :
    (ctAt (l.foldl (fun s n => setCt s n false) s) k).ctc = false := by
  induction l generalizing s with
  | nil => exact h.resolve_left List.not_mem_nil
  | cons n l ih =>
    refine ih _ ?_
    rcases h with h | h
    · exact (List.mem_cons.1 h).elim (fun hk => .inr (setCt_opens s n k (.inl hk))) .inl
    · exact .inr (setCt_opens s n k (.inr h))

theorem ctOpenAll_opens (s : State) {k : Nat} (hk : k < 6) : (ctAt (ctOpenAll s) k).ctc = false :=
  setCt_all _ _ (.inl (List.mem_range.2 hk))

theorem ctOpenAll_ctcmd (s : State) : (ctOpenAll s).wr.ctcmd = 0 ∧ (ctOpenAll s).wr.lockOpen = s.wr.lockOpen :=
  List.foldlRecOn (motive := fun t : State => t.wr.ctcmd = 0 ∧ t.wr.lockOpen = s.wr.lockOpen) _ _ ⟨rfl, rfl⟩ fun t ht n _ =>
    ⟨(setCt_ctcmd t n false).1.trans ht.1, (setCt_ctcmd t n false).2.trans ht.2⟩

/-- The time of the opening in LOCKOUT. -/
def lockOpening (s : State) : State := (s.advanceTo (s.wr.lockAt + 2 * msec)).modWr fun x => { x with lockOpen := true }

theorem exec_lockoutContactorOpen {s : State} (h : s.wr.state = 3) (hopen : s.wr.lockOpen = false) :
    exec .lockoutContactorOpen s = .next (ctOpenAll (lockOpening s)) := by
  change execLockoutContactorOpen s = _
  unfold execLockoutContactorOpen
  rw [if_neg (by simp [h, hopen])]
  rfl

theorem lockOpening_touches (s : State) : Touches [.now, .wr] s (lockOpening s) :=
  .trans ((advanceTo_touches s _).mono (by decide)) ((modWr_touches _ _ rfl).mono (by decide))

/-! ## The contactors settled -/

/-- Settles O50: the end of a settle time, a dropout and the start of the checks each turn one contactor after another by what
a reading and a check make of it; LOCKOUT opens them all. -/
theorem contactorsAreCheckedAndOpened : Obligations.ContactorsAreCheckedAndOpened := by
  unfold Obligations.ContactorsAreCheckedAndOpened
  refine ⟨fun n tm s hn hsettle => ?settle, fun n tm s hn hen hr => ?dropout, fun tz s h0 hchecks => ?start, fun s hst hopen => ?lock⟩
  case settle =>
    obtain ⟨f, hturn, hf⟩ := settleChecked_turns s n.val tm
    have hctAt : ctAt (settleChecked s n.val tm) n.val = f (ctAt s n.val) := hturn.own hn
    obtain ⟨-, -, -, hweld, hnoclose⟩ := settleRead_rest (tm := tm) hn
    refine ⟨settleChecked s n.val tm, exec_contactorSettleEnd hsettle, hturn.now_eq, hctAt ▸ (hf _).1, hctAt ▸ (hf _).2, ?_, ?_, ?_, hturn.other,
      Touches.onlyChanges <| .after (by decide) hturn.stays.touches ((advanceTo_touches s _).mono (by decide))⟩
    · intro hen hlive hctc hr
      have hfound := settleRead_welded (tm := tm) hn hlive hctc hr
      refine ⟨by rw [settleChecked_own hn hen, hfound]; rfl, fun hx => ?_⟩
      rw [settleChecked, if_pos hen]
      exact ctCheck_weld hfound (hweld.trans hx)
    · intro hen hlive hctc hseen hr
      have hfound := settleRead_notClosed (tm := tm) hn hlive hctc hseen hr
      refine ⟨by rw [settleChecked_own hn hen, hfound]; rfl, fun hx => ?_⟩
      rw [settleChecked, if_pos hen]
      exact ctCheck_noclose hfound (hnoclose.trans hx)
    · intro hen hr
      rw [settleChecked_own hn hen, settleRead_openReading hn hr]
      rfl
  case dropout =>
    intro x hctc hseen hopen
    obtain ⟨closing, hwatch⟩ := ctWatch_turns s n.val
    have hown : ctAt (ctWatch s n.val) n.val = _ := hwatch.own hn
    have hopen' : (ctAt (ctWatch s n.val) n.val).openAt = some tm := by
      rw [hown, hr]
      simp [Contactor.watched, show (ctAt s n.val).ctc = true from hctc, show (ctAt s n.val).seen = true from hseen,
        show (ctAt s n.val).openAt = some tm from hopen]
    have hnoclose : (ctAt (ctWatch s n.val) n.val).noclose = x.noclose := by rw [hown, (watched_rest _ _ _ _).2.2.2.2.1]
    obtain ⟨hfound, hevt⟩ := ctDropout_due (s := (ctWatch s n.val).advanceTo (tm + 10 * msec)) hopen' (le_max_right _ _)
      (hwatch.length_eq.symm ▸ hn)
    obtain ⟨f, hdrop⟩ := ctDropout_turns ((ctWatch s n.val).advanceTo (tm + 10 * msec)) n.val
    refine ⟨_, exec_contactorDropout hen hopen', ?_, hfound, fun hx => hevt (hnoclose.trans hx), fun k hk => ?_, ?_⟩
    · exact hdrop.now_eq.trans (congrArg (max · _) hwatch.now_eq)
    · exact (hdrop.other k hk).trans (hwatch.other k hk)
    · refine Touches.onlyChanges <| .after (by decide) hdrop.stays.touches <| .after (by decide) (advanceTo_touches _ _) ?_
      exact hwatch.stays.touches.mono (by decide)
  case start =>
    have hstays : RoomStays ctParts Wr.commands (checksBegun s tz) (List.foldl ctFirstCheck _ _) :=
      .foldl ctFirstCheck_commands ((List.range 6).filter fun n => ctEn (checksBegun s tz) n) (checksBegun s tz)
    refine ⟨_, exec_contactorCheckStart h0 hchecks, hstays.touches.now (by decide), ?_, fun k => ?_, ?_⟩
    · exact (congrArg (fun c : Wr × List Bool => c.1.checks) hstays.keeps :)
    · exact (ctAt_ctc (congrArg Prod.snd hstays.keeps) k).trans rfl
    · exact Touches.onlyChanges <| .after (by decide) hstays.touches ((checksBegun_touches s tz).mono (by decide))
  case lock =>
    have htouches := ctOpenAll_touches (lockOpening s)
    obtain ⟨hctcmd, hlock⟩ := ctOpenAll_ctcmd (lockOpening s)
    refine ⟨_, exec_lockoutContactorOpen hst hopen, htouches.now (by decide), hlock, hctcmd, fun k hk => ctOpenAll_opens _ hk, ?_⟩
    exact Touches.onlyChanges <| .after (by decide) htouches ((lockOpening_touches s).mono (by decide))

end Sys2Proof.Machine
end

section
namespace Sys2Proof.Machine

/-! ## Reports classified: step 1 of an evaluation (R347 to R357) -/

/-- What step 1 may touch: a report may bring LOCKOUT or DEGRADED, and may be counted. -/
def reportParts : List Part := traced [.nv, .lhCs, .lhDs, .pwmCs, .wr]

/-- The Watch Room's safety frames and what was accepted of them, and the time of its evaluation. -/
def Wr.desk (x : Wr) : Wr :=
  { frames := x.frames, writes := x.writes, confirm := x.confirm, armed := x.armed, evalAt := x.evalAt }

theorem wrPages_stays (s : State) (p0 p1 : Nat) : RoomStays reportParts Wr.desk s (wrPages s p0 p1) :=
  .mono (by decide) (.of_touches (wrPages_touches s p0 p1) (by decide) fun _ => rfl)

theorem enterLockout_stays (s : State) (react : Nat) (code : BitVec 16) :
    RoomStays reportParts Wr.desk s (enterLockout s react code) := by
  unfold enterLockout
  refine .ite (fun _ => .mono (by decide) (modWr_stays ⟨rfl, rfl, rfl⟩)) fun _ => .trans ?_ (wrPages_stays _ _ _)
  refine .after (by decide) (.of_touches (applyHolds_touches _) (by decide) fun _ => rfl) ?_
  refine .after (by decide) (.of_touches (lockNoted_touches _ _ _) (by decide) fun _ => rfl) ?_
  exact .mono (by decide) (modWr_stays ⟨rfl, rfl, rfl⟩)

theorem enterDegraded_stays (s : State) (react : Nat) (code : BitVec 16) :
    RoomStays reportParts Wr.desk s (enterDegraded s react code) :=
  .trans (.mono (by decide) (modWr_stays ⟨rfl, rfl, rfl⟩)) (wrPages_stays _ _ _)

theorem openFault_stays (s : State) (key : CtrKey) (code : BitVec 16) (cls react : Nat) (detail : Word) :
    RoomStays reportParts Wr.desk s (openFault s key code cls react detail) := by
  refine .trans (.mono (by decide) (modWr_stays ⟨rfl, rfl, rfl⟩)) (.ite (fun _ => .ite (fun _ => .refl ..) fun _ => ?classA) fun _ =>
    .ite (fun _ => ?inLockout) fun _ => .ite_self fun _ => ?degrades)
  case classA => exact enterLockout_stays _ _ _
  case inLockout => exact enterLockout_stays _ _ _
  case degrades => exact enterDegraded_stays _ _ _

theorem classCCount_touches (s : State) (code : BitVec 16) : Touches trace s (classCCount s code).1 := by
  unfold classCCount
  split
  dsimp only
  split
  · exact .refl ..
  · exact .trans (.ite_self (release_touches _ _)) ((ctrs_touches _ _).mono (by decide))

theorem raiseCesc_stays (s : State) (code : BitVec 16) : RoomStays reportParts Wr.desk s (raiseCesc s code) := by
  unfold raiseCesc
  refine .trans (.mono (by decide) ((wrFixed_stays s 0 0 0 0x0E (wd code.toNat)).shows fun _ _ h => (congrArg Wr.desk h :))) ?_
  exact openFault_stays ..

/-- A report of a counter's release. -/
def Wr.released (k : CtrKey) (x : Wr) : Wr :=
  { x with opened := x.opened.map fun f => if f.key == k then { f with released := true } else f }

/-- A report of OV3 is kept for the contactors (R359). -/
def ov3Noted (s : State) (code : BitVec 16) : State := if code = ov3Code then s.modWr fun x => { x with ov3Rx := true } else s

theorem ov3Noted_stays (s : State) (code : BitVec 16) : RoomStays reportParts Wr.desk s (ov3Noted s code) :=
  .ite_self fun _ => .mono (by decide) (modWr_stays ⟨rfl, rfl, rfl⟩)

theorem wrClassify_stays (s : State) (m : WrMsg) : RoomStays reportParts Wr.desk s (wrClassify s m) := by
  cases m with
  | release k => exact .mono (by decide) (modWr_stays (f := Wr.released k) ⟨rfl, rfl, rfl⟩)
  | declare key code unit elem detail =>
    refine (ov3Noted_stays s code).trans ?_
    have hcount (t : State) : RoomStays reportParts Wr.desk t (classCCount t code).1 :=
      .mono (by decide) (.of_touches (classCCount_touches t code) (by decide) fun _ => rfl)
    refine .ite (fun _ => .refl ..) fun _ => .ite (fun _ => openFault_stays ..) fun _ => .ite_self fun _ => ?_
    exact .trans (hcount _) (.ite_self fun _ => raiseCesc_stays ..)

/-- What reports to the Watch Room is replaced. -/
theorem inbox_stays (s : State) (f : List WrMsg → List WrMsg) :
    RoomStays reportParts Wr.desk s (s.modWr fun x => { x with inbox := f x.inbox }) :=
  .mono (by decide) (.of_touches (inbox_touches s (f s.wr.inbox)) (by decide) fun _ => rfl)

theorem wrDrain_stays (n : Nat) (s : State) (ms : List WrMsg) : RoomStays reportParts Wr.desk s (wrDrain n s ms) := by
  induction n generalizing s ms with
  | zero => exact inbox_stays s (· ++ ms)
  | succ n ih => exact .foldl (fun t m => .trans (.trans (wrClassify_stays t m) (inbox_stays _ fun _ => [])) (ih _ _)) _ _

/-- Step 1 leaves the safety frames and what was accepted of them. -/
theorem wrStep1_stays (s : State) : RoomStays reportParts Wr.desk s (wrStep1 s) :=
  .trans (inbox_stays s fun _ => []) (wrDrain_stays 4 _ _)

/-! ## Monitors, contactors, command: steps 3 to 5 (R347, R352 to R367) -/

/-- What steps 3 to 5 may touch. -/
def actionParts : List Part := traced [.pwmCs, .wr, .lamp]

/-- What the Watch Room holds of the frames it has judged, and what they brought about. -/
def Wr.judged (x : Wr) : Wr :=
  { sfstat := x.sfstat, fresh := x.fresh, sfcnt := x.sfcnt, key := x.key, keyset := x.keyset, lab := x.lab, armed := x.armed
    confirm := x.confirm, writes := x.writes, frames := x.frames, evalAt := x.evalAt }

namespace RoomStays

variable {P : List Part} {s t : State} (h : RoomStays P Wr.judged s t)

include h

theorem sfstat_eq : t.wr.sfstat = s.wr.sfstat := (congrArg Wr.sfstat h.keeps :)

theorem fresh_eq : t.wr.fresh = s.wr.fresh := (congrArg Wr.fresh h.keeps :)

theorem sfcnt_eq : t.wr.sfcnt = s.wr.sfcnt := (congrArg Wr.sfcnt h.keeps :)

theorem key_eq : t.wr.key = s.wr.key := (congrArg Wr.key h.keeps :)

theorem keyset_eq : t.wr.keyset = s.wr.keyset := (congrArg Wr.keyset h.keeps :)

theorem lab_eq : t.wr.lab = s.wr.lab := (congrArg Wr.lab h.keeps :)

theorem armed_eq : t.wr.armed = s.wr.armed := (congrArg Wr.armed h.keeps :)

theorem confirm_eq : t.wr.confirm = s.wr.confirm := (congrArg Wr.confirm h.keeps :)

theorem writes_eq : t.wr.writes = s.wr.writes := (congrArg Wr.writes h.keeps :)

theorem frames_eq : t.wr.frames = s.wr.frames := (congrArg Wr.frames h.keeps :)

theorem evalAt_eq : t.wr.evalAt = s.wr.evalAt := (congrArg Wr.evalAt h.keeps :)

end RoomStays

/-- An update of the Watch Room beside its frames. -/
theorem modWr_judged {s : State} {f : Wr → Wr}
    (h : (f s.wr).inbox = s.wr.inbox ∧ (f s.wr).judged = s.wr.judged ∧ (f s.wr).evt = s.wr.evt) :
    RoomStays actionParts Wr.judged s (s.modWr f) := .mono (by decide) (modWr_stays h)

theorem applyHolds_judged (s : State) : RoomStays actionParts Wr.judged s (applyHolds s) :=
  .mono (by decide) (.of_touches (applyHolds_touches s) (by decide) fun _ => rfl)

/-- An event of a monitor where it is new, after what came before. -/
theorem RoomStays.thenMonEvent {c : Prop} [Decidable c] {s t : State} {unit k cause : Nat} {detail : Word}
    (h : RoomStays actionParts Wr.judged s t) :
    RoomStays actionParts Wr.judged s (if c then monEvent t unit k cause detail else t) :=
  h.trans (.ite_self fun _ => ((monEvent_stays t k unit cause detail).shows fun _ _ e => (congrArg Wr.judged e :)).mono (by decide))

theorem modSls_judged (s : State) (k : Nat) (f : Monitor → Monitor) : RoomStays actionParts Wr.judged s (s.modSls k f) :=
  modWr_judged ⟨rfl, rfl, rfl⟩

theorem modSlp_judged (s : State) (k : Nat) (f : Monitor → Monitor) : RoomStays actionParts Wr.judged s (s.modSlp k f) :=
  modWr_judged ⟨rfl, rfl, rfl⟩

theorem modSdi_judged (s : State) (k : Nat) (f : Monitor → Monitor) : RoomStays actionParts Wr.judged s (s.modSdi k f) :=
  modWr_judged ⟨rfl, rfl, rfl⟩

theorem slsEval_judged (s : State) (k : Nat) : RoomStays actionParts Wr.judged s (slsEval s k) := by
  refine .ite (fun _ => .refl ..) fun _ => ?_
  dsimp only
  refine .trans ?_ (modSls_judged _ k _)
  exact .thenMonEvent (.thenMonEvent (.thenMonEvent (.refl _ _ s)))

theorem slpEval_judged (s : State) (k : Nat) : RoomStays actionParts Wr.judged s (slpEval s k) := by
  refine .ite (fun _ => .refl ..) fun _ => ?_
  dsimp only
  refine .trans ?_ (modSlp_judged _ k _)
  exact .thenMonEvent (.thenMonEvent (.thenMonEvent (.refl _ _ s)))

theorem sdiEval_judged (s : State) (k : Nat) : RoomStays actionParts Wr.judged s (sdiEval s k) := by
  refine .ite (fun _ => .refl ..) fun _ => .ite (fun _ => modSdi_judged s k _) fun _ => ?_
  dsimp only
  refine .trans ?_ (modSdi_judged _ k _)
  exact .thenMonEvent (.refl _ _ s)

/-- Step 3 leaves what the frames brought about. -/
theorem wrMonitors_judged (s : State) : RoomStays actionParts Wr.judged s (wrMonitors s) := by
  unfold wrMonitors
  refine .trans ?_ (modWr_judged ⟨rfl, rfl, rfl⟩)
  exact .trans (.trans (.foldl slsEval_judged (List.range 4) s) (.foldl slpEval_judged (List.range 4) _))
    (.foldl sdiEval_judged (List.range 2) _)

theorem TurnsCt.judged {n : Nat} {f : Contactor → Contactor} {s t : State} (h : TurnsCt n f s t) :
    RoomStays actionParts Wr.judged s t :=
  (h.stays.shows fun _ _ e => (congrArg Wr.judged e :)).mono (by decide)

/-- What step 4 makes of one contactor's feedback. -/
theorem ctFeedback_judged (s : State) (n : Nat) : RoomStays actionParts Wr.judged s (ctDropout (ctCheck (ctWatch s n) n) n) := by
  obtain ⟨closing, hwatch⟩ := ctWatch_turns s n
  obtain ⟨f, hdrop⟩ := ctDropout_turns (ctCheck (ctWatch s n) n) n
  exact ((hwatch.trans (ctCheck_turns _ n)).trans hdrop).judged

theorem setCt_judged (s : State) (n : Nat) (v : Bool) : RoomStays actionParts Wr.judged s (setCt s n v) :=
  .ite (fun _ => .refl ..) fun _ => (modCt_turns s n _).judged

theorem ctOpenAll_judged (s : State) : RoomStays actionParts Wr.judged s (ctOpenAll s) :=
  .trans (modWr_judged ⟨rfl, rfl, rfl⟩) (.foldl (fun t n => setCt_judged t n false) _ _)

/-- Step 4 leaves what the frames brought about. -/
theorem wrContactors_judged (s : State) : RoomStays actionParts Wr.judged s (wrContactors s) := by
  unfold wrContactors
  refine .trans ?_ (modWr_judged ⟨rfl, rfl, rfl⟩)
  refine .trans ?_ (.ite (fun _ => .refl ..) fun _ => .foldl (fun t n => setCt_judged t n _) _ _)
  refine .trans ?_ (.ite_self fun _ => ctOpenAll_judged _)
  exact .foldl ctFeedback_judged _ s

theorem wrCommand_judged (s : State) : RoomStays actionParts Wr.judged s (wrCommand s) := by
  unfold wrCommand
  extract_lets nt st
  split
  exact modWr_judged ⟨rfl, rfl, rfl⟩

theorem closeFaults_judged (s : State) : RoomStays actionParts Wr.judged s (closeFaults s) := modWr_judged ⟨rfl, rfl, rfl⟩

/-- Step 5 leaves what the frames brought about. -/
theorem wrStep5_judged (s : State) : RoomStays actionParts Wr.judged s (wrStep5 s) := by
  unfold wrStep5
  refine .trans (.trans ?_ (applyHolds_judged _)) (wrCommand_judged _)
  refine .trans ?_ (.ite_self fun _ => modWr_judged ⟨rfl, rfl, rfl⟩)
  exact closeFaults_judged s

end Sys2Proof.Machine
end

section
namespace Sys2Proof.Machine

/-! ## Lockout and command (R353, R357) -/

/-- Entry to LOCKOUT takes the reaction and the time, and the contactors are to be opened. -/
theorem enterLockout_enters {s : State} (h : s.wr.state ≠ 3) (react : Nat) (code : BitVec 16) :
    let t := enterLockout s react code
    t.wr.state = 3 ∧ t.wr.lreact = react ∧ t.wr.lockAt = s.now ∧ t.wr.lockOpen = false := by
  intro t
  let u := s.modWr fun x =>
    { x with state := 3, lreact := react, lockCode := code, lockAt := s.now, lockOpen := false, lab := false }
  have hstep : Touches [.sysEvt, .nv, .lhCs, .lhDs, .pwmCs] u (enterLockout s react code) := by
    unfold enterLockout
    rw [if_neg h]
    refine .after (by decide) (wrPages_touches _ _ _) ?_
    exact .after (by decide) (applyHolds_touches _) ((lockNoted_touches u _ _).mono (by decide))
  have hwr : { t.wr with inbox := [] } = { u.wr with inbox := [] } := hstep.wr_eq (by decide)
  exact ⟨congrArg Wr.state hwr, congrArg Wr.lreact hwr, congrArg Wr.lockAt hwr, congrArg Wr.lockOpen hwr⟩

/-- The command leaves the state of the Watch Room. -/
theorem wrCommand_state (s : State) :
    (wrCommand s).wr.state = s.wr.state ∧ (wrCommand s).wr.degAt = s.wr.degAt ∧ (wrCommand s).wr.lreact = s.wr.lreact
      ∧ (wrCommand s).wr.lockAt = s.wr.lockAt ∧ (wrCommand s).wr.lockOpen = s.wr.lockOpen := by
  unfold wrCommand
  extract_lets nt st
  split
  exact ⟨rfl, rfl, rfl, rfl, rfl⟩

/-! ## DEGEXP (R355, R356) -/

/-- The expiry of the degraded timer, with what has been reported by then. -/
def degDue (s : State) (tz : Nat) : State := closeFaults (wrStep1 (s.advanceTo (tz + wrDegTime s * 1000 * msec)))

/-- LOCKOUT with the reaction of the fault that degraded the Watch Room. -/
def degLocked (s : State) : State :=
  enterLockout (wrFixed s 0 0 0 0x0D (wd s.wr.degCode.toNat)) (wrFixed s 0 0 0 0x0D (wd s.wr.degCode.toNat)).wr.degReact
    (faultCode .cs 15 0 0x0D)

/-- The return to NORMAL. -/
def degReturned (s : State) : State := s.modWr fun x => { x with state := 1, degAt := none }

theorem exec_degexp {s : State} {tz : Nat} (hst : s.wr.state = 2) (hdeg : s.wr.degAt = some tz) :
    exec .degexp s = .next (
      if (degDue s tz).wr.state ≠ 2 then degDue s tz
      else if (degDue s tz).wr.opened = [] then wrCommand (degReturned (degDue s tz))
      else wrCommand (degLocked (degDue s tz))) := by
  change execDegexp s = _
  unfold execDegexp
  rw [hdeg]
  dsimp only
  rw [if_neg (by simp [hst])]
  rfl

/-- What the expiry of the degraded timer may touch. -/
def degParts : List Part := traced [.now, .nv, .lhCs, .lhDs, .pwmCs, .wr]

theorem closeFaults_touches (s : State) : Touches [.wr] s (closeFaults s) := modWr_touches _ _ rfl

theorem degDue_touches (s : State) (tz : Nat) : Touches reportParts (s.advanceTo (tz + wrDegTime s * 1000 * msec)) (degDue s tz) :=
  .after (by decide) (closeFaults_touches _) (wrStep1_stays _).touches

theorem degLocked_touches (s : State) : Touches reportParts s (degLocked s) :=
  .after (by decide) (enterLockout_stays _ _ _).touches (.mono (by decide) (wrFixed_stays s 0 0 0 0x0D (wd s.wr.degCode.toNat)).touches)

/-- The lockout that ends DEGRADED has the reaction of the fault that brought it. -/
theorem degLocked_enters {s : State} (h : s.wr.state = 2) :
    (degLocked s).wr.state = 3 ∧ (degLocked s).wr.lreact = s.wr.degReact ∧ (degLocked s).wr.lockAt = s.now
      ∧ (degLocked s).wr.lockOpen = false := by
  have hcounted := wrFixed_stays s 0 0 0 0x0D (wd s.wr.degCode.toNat)
  unfold degLocked
  generalize wrFixed s 0 0 0 0x0D (wd s.wr.degCode.toNat) = u at hcounted ⊢
  have hstate : u.wr.state = 2 := (congrArg Wr.state hcounted.keeps).trans h
  have hreact : u.wr.degReact = s.wr.degReact := (congrArg Wr.degReact hcounted.keeps :)
  have hnow : u.now = s.now := hcounted.touches.now (by decide)
  rw [← hreact, ← hnow]
  exact enterLockout_enters (by rw [hstate]; decide) _ _

theorem degexp_settles {s : State} {tz : Nat} (hst : s.wr.state = 2) (hdeg : s.wr.degAt = some tz) :
    Runs .degexp s fun t =>
      t.now = max s.now (tz + wrDegTime s * 1000 * msec) ∧ ((degDue s tz).wr.state ≠ 2 → t = degDue s tz)
        ∧ ((degDue s tz).wr.state = 2 → (degDue s tz).wr.opened = [] → t.wr.state = 1 ∧ t.wr.degAt = none)
        ∧ ((degDue s tz).wr.state = 2 → (degDue s tz).wr.opened ≠ [] →
            t.wr.state = 3 ∧ t.wr.lreact = (degDue s tz).wr.degReact ∧ t.wr.lockAt = t.now ∧ t.wr.lockOpen = false)
        ∧ OnlyChanges degParts s t := by
  have hdue := degDue_touches s tz
  have hnow {t : State} (h : Touches reportParts (degDue s tz) t) : t.now = max s.now (tz + wrDegTime s * 1000 * msec) :=
    (h.now (by decide)).trans (hdue.now (by decide))
  have hframe {t : State} (h : Touches reportParts (degDue s tz) t) : OnlyChanges degParts s t :=
    Touches.onlyChanges <| .after (by decide) (hdue.trans h) ((advanceTo_touches s _).mono (by decide))
  have hexec := exec_degexp hst hdeg
  by_cases h2 : (degDue s tz).wr.state = 2
  · rw [if_neg (not_not.2 h2)] at hexec
    by_cases hclosed : (degDue s tz).wr.opened = []
    · rw [if_pos hclosed] at hexec
      obtain ⟨hstate, hdegAt, -⟩ := wrCommand_state (degReturned (degDue s tz))
      have htouches : Touches reportParts (degDue s tz) (wrCommand (degReturned (degDue s tz))) :=
        .after (by decide) (wrCommand_touches _) ((modWr_touches _ _ rfl).mono (by decide))
      exact ⟨_, hexec, hnow htouches, fun h => absurd h2 h, fun _ _ => ⟨hstate, hdegAt⟩,
        fun _ h => absurd hclosed h, hframe htouches⟩
    · rw [if_neg hclosed] at hexec
      obtain ⟨hstate', -, hreact', hat', hopen'⟩ := wrCommand_state (degLocked (degDue s tz))
      have htouches : Touches reportParts (degDue s tz) (wrCommand (degLocked (degDue s tz))) :=
        .after (by decide) (wrCommand_touches _) (degLocked_touches _)
      obtain ⟨hstate, hreact, hat, hopen⟩ := degLocked_enters h2
      refine ⟨_, hexec, hnow htouches, fun h => absurd h2 h, fun _ h => absurd h hclosed, fun _ _ => ?_, hframe htouches⟩
      exact ⟨hstate'.trans hstate, hreact'.trans hreact, hat'.trans (hat.trans (htouches.now (by decide)).symm), hopen'.trans hopen⟩
  · rw [if_pos h2] at hexec
    have hstays : Touches reportParts (degDue s tz) (degDue s tz) := .refl _ _
    exact ⟨degDue s tz, hexec, hnow hstays, fun _ => rfl, fun h => absurd h h2, fun h => absurd h h2, hframe hstays⟩

/-! ## RESET_ARM_LAPSE (R372) -/

theorem exec_resetArmLapse {s : State} {tz : Nat} (h : s.wr.armed = some tz) :
    exec .resetArmLapse s = .next ((s.advanceTo (tz + wrRstMax s * msec)).modWr fun x => { x with armed := none }) := by
  change execResetArmLapse s = _
  unfold execResetArmLapse
  rw [h]

/-! ## SBCRC_CHECK (R349) -/

/-- The parameter copy checked: its CRC-32, and whether it is another than the image's. -/
def sbChecked (s : State) : State :=
  (s.advanceTo (s.wr.sbAt + 10 * msec)).modWr fun x =>
    { x with sbAt := max s.now (s.wr.sbAt + 10 * msec), parCrc := crc32 s.wr.par, sbBad := crc32 s.wr.par != s.img.sbcrc }

theorem exec_sbcrcCheck {s : State} (h : s.wr.loaded = true) :
    exec .sbcrcCheck s =
      .next (if (crc32 s.wr.par != s.img.sbcrc) = true then wrFixed (sbChecked s) 0 0 0 1 (crc32 s.wr.par) else sbChecked s) := by
  change execSbcrcCheck s = _
  unfold execSbcrcCheck
  rw [if_neg (by simp [h])]
  rfl

theorem sbChecked_touches (s : State) : Touches [.now, .wr] s (sbChecked s) :=
  .trans ((advanceTo_touches s _).mono (by decide)) ((modWr_touches _ _ rfl).mono (by decide))

theorem sbChecked_sbBad (s : State) : (sbChecked s).wr.sbBad = true ↔ crc32 s.wr.par ≠ s.img.sbcrc := bne_iff_ne

theorem sbcrcCheck_settles {s : State} (h : s.wr.loaded = true) :
    Runs .sbcrcCheck s fun t =>
      t.now = max s.now (s.wr.sbAt + 10 * msec) ∧ t.wr.sbAt = t.now ∧ t.wr.parCrc = crc32 s.wr.par
        ∧ (t.wr.sbBad = true ↔ crc32 s.wr.par ≠ s.img.sbcrc) ∧ (crc32 s.wr.par ≠ s.img.sbcrc → bitOf t.wr.evt 1 = true)
        ∧ (crc32 s.wr.par = s.img.sbcrc → t.wr.evt = s.wr.evt) ∧ OnlyChanges (traced [.now, .wr]) s t := by
  have hbad := sbChecked_sbBad s
  have hchecked := sbChecked_touches s
  refine ⟨_, exec_sbcrcCheck h, ?_⟩
  by_cases hsame : crc32 s.wr.par = s.img.sbcrc
  · rw [if_neg (by simp [hsame])]
    exact ⟨rfl, rfl, rfl, hbad, fun hne => absurd hsame hne, fun _ => rfl, (hchecked.mono (by decide)).onlyChanges⟩
  · rw [if_pos (bne_iff_ne.2 hsame)]
    have hcounted := wrFixed_stays (sbChecked s) 0 0 0 1 (crc32 s.wr.par)
    have hevt := wrFixed_sets (sbChecked s) 0 0 0 (cause := 1) (crc32 s.wr.par) (by decide)
    generalize wrFixed (sbChecked s) 0 0 0 1 (crc32 s.wr.par) = t at hcounted hevt ⊢
    have hnow : t.now = (sbChecked s).now := hcounted.touches.now (by decide)
    have hat : t.wr.sbAt = (sbChecked s).now := (congrArg Wr.sbAt hcounted.keeps :)
    have hcrc : t.wr.parCrc = (sbChecked s).wr.parCrc := (congrArg Wr.parCrc hcounted.keeps :)
    have hsb : t.wr.sbBad = (sbChecked s).wr.sbBad := (congrArg Wr.sbBad hcounted.keeps :)
    exact ⟨hnow, hat.trans hnow.symm, hcrc, hsb.symm ▸ hbad, fun _ => hevt, fun heq => absurd heq hsame,
      Touches.onlyChanges <| .after (by decide) hcounted.touches (hchecked.mono (by decide))⟩

/-! ## The Keeper watchdog and RWSDENY (R371, R375) -/

theorem wdEvent_stays (s : State) (why : Nat) : RoomStays (traced [.wr]) Wr.uncounted s (wdEvent s why) := wrCount_stays ..

theorem wdEvent_sets (s : State) (why : Nat) : bitOf (wdEvent s why).wr.evt 4 = true :=
  wrCount_sets s 0 0 0 4 4 _ _ (wd why) false (by decide)

theorem wdRestart_touches (s : State) (next : Byte) : Touches [.wr] s (wdRestart s next) := modWr_touches _ _ rfl

/-- A service too early, or with a wrong answer to the challenge. -/
def kickEarly (s : State) : Bool := s.sys.ready && decide (s.now < s.wr.wdAt + wrWdMin s * msec)

def kickWrong (s : State) (value : Word) : Bool := s.sys.ready && crc8 [s.wr.chal] != value.truncate 8

/-- The events of a service. -/
def kickCounted (s : State) (value : Word) : State :=
  let t := if kickEarly s then wdEvent s 0 else s
  if kickWrong s value then wdEvent t 2 else t

theorem wdKick_eq (s : State) (value : Word) (next : Byte) : wdKick s value next = wdRestart (kickCounted s value) next := rfl

theorem kickCounted_stays (s : State) (value : Word) : RoomStays (traced [.wr]) Wr.uncounted s (kickCounted s value) :=
  .trans (.ite_self fun _ => wdEvent_stays s 0) (.ite_self fun _ => wdEvent_stays _ 2)

theorem kickCounted_sets {s : State} {value : Word} (h : kickEarly s = true ∨ kickWrong s value = true) :
    bitOf (kickCounted s value).wr.evt 4 = true := by
  unfold kickCounted
  by_cases hwrong : kickWrong s value = true
  · rw [if_pos hwrong]
    exact wdEvent_sets _ 2
  · rw [if_neg hwrong, if_pos (h.resolve_right hwrong)]
    exact wdEvent_sets s 0

theorem kickCounted_fine {s : State} {value : Word} (h : ¬(kickEarly s = true ∨ kickWrong s value = true)) :
    kickCounted s value = s := by
  unfold kickCounted
  rw [if_neg fun k => h (.inr k), if_neg fun k => h (.inl k)]

/-- A service counts where it is too early or wrong, once page 0 has started. -/
theorem kickBad_iff (s : State) (value : Word) : kickEarly s = true ∨ kickWrong s value = true ↔
    s.sys.ready = true ∧ (s.now < s.wr.wdAt + wrWdMin s * msec ∨ crc8 [s.wr.chal] ≠ value.truncate 8) := by
  simp only [kickEarly, kickWrong, Bool.and_eq_true, decide_eq_true_eq, bne_iff_ne, and_or_left]

theorem sfEvent_stays (s : State) (cause : Nat) (detail : Word) :
    RoomStays (traced [.wr]) Wr.uncounted (s.modWr fun x => { x with sfcnt := satInc x.sfcnt }) (sfEvent s cause detail) := wrCount_stays ..

theorem sfEvent_sets (s : State) {cause : Nat} (h : cause < 32) (detail : Word) : bitOf (sfEvent s cause detail).wr.evt cause = true :=
  wrCount_sets _ 0 0 0 2 cause _ _ detail false h

theorem sfEvent_touches (s : State) (cause : Nat) (detail : Word) : Touches (traced [.wr]) s (sfEvent s cause detail) :=
  .trans ((modWr_touches s _ rfl).mono (by decide)) (sfEvent_stays s cause detail).touches

theorem wrWdkickWrite_settles {s : State} (h : WriteOpen s .cs) (value : Word) (next : Byte) :
    Runs (.wrWdkickWrite value next) s fun t =>
      let bad := s.sys.ready = true ∧ (s.now < s.wr.wdAt + wrWdMin s * msec ∨ crc8 [s.wr.chal] ≠ value.truncate 8)
      Answered t 0 [] ∧ t.wr.chal = next ∧ t.wr.wdAt = s.now ∧ (bad → bitOf t.wr.evt 4 = true) ∧ (¬ bad → t.wr.evt = s.wr.evt)
        ∧ OnlyChanges (traced [.acc, .wr]) s t := by
  have hcounted := kickCounted_stays s value
  refine ⟨(wdKick s value next).ok [], congrArg Host.Outcome.next (writeGate_open h _), rfl, rfl, hcounted.touches.now (by decide), fun hbad => ?_,
    fun hfine => ?_, ?_⟩
  · exact kickCounted_sets ((kickBad_iff s value).2 hbad)
  · exact (congrArg (fun u : State => u.wr.evt) (kickCounted_fine (mt (kickBad_iff s value).1 hfine)) :)
  · refine Touches.onlyChanges <| .after (by decide) (acc_touches _ _) ?_
    rw [wdKick_eq]
    exact .after (by decide) (wdRestart_touches _ next) (hcounted.touches.mono (by decide))

theorem exec_wdogTimeout {s : State} (h : s.sys.ready = true) (next : Byte) :
    exec (.wdogTimeout next) s = .next (wdRestart (wdEvent (s.advanceTo (s.wr.wdAt + wrWdMax s * msec)) 1) next) :=
  congrArg Host.Outcome.next (if_neg (by simp [h]))

/-- Settles O51: each timer's end is the state it brings time to, with the events it counts. -/
theorem watchRoomTimersAndKeeperWatchdog : Obligations.WatchRoomTimersAndKeeperWatchdog := by
  unfold Obligations.WatchRoomTimersAndKeeperWatchdog
  refine ⟨fun tz s hst hdeg => degexp_settles hst hdeg, fun tz s harm => ?lapse, fun s h => sbcrcCheck_settles h,
    fun value next s h => wrWdkickWrite_settles h value next, fun next s hready => ?late, fun offset s hopen => ?deny⟩
  case lapse =>
    refine ⟨_, exec_resetArmLapse harm, rfl, rfl, Touches.onlyChanges ?_⟩
    exact .after (by decide) (modWr_touches _ _ rfl) ((advanceTo_touches s _).mono (by decide))
  case late =>
    have hcounted := wdEvent_stays (s.advanceTo (s.wr.wdAt + wrWdMax s * msec)) 1
    refine ⟨_, exec_wdogTimeout hready next, hcounted.touches.now (by decide), wdEvent_sets _ 1, rfl, rfl, Touches.onlyChanges ?_⟩
    exact .after (by decide) (wdRestart_touches _ next) <| .after (by decide) hcounted.touches ((advanceTo_touches s _).mono (by decide))
  case deny =>
    have hcounted := (sfEvent_stays s 3 (wd offset.toNat)).keeps
    refine ⟨(sfEvent s 3 (wd offset.toNat)).refuse 7, congrArg Host.Outcome.next (writeGate_open hopen _), rfl, (congrArg Wr.sfcnt hcounted :),
      sfEvent_sets s (by decide) _, (congrArg Wr.ctcmd hcounted :), (congrArg Wr.writes hcounted :), Touches.onlyChanges ?_⟩
    exact .after (by decide) (acc_touches _ _) ((sfEvent_touches s 3 _).mono (by decide))

end Sys2Proof.Machine
end

section
namespace Sys2Proof.Machine

/-! ## What was accepted takes effect (R347, R371 to R373) -/

theorem wrWrites_stays (s : State) :
    RoomStays [.wr] Wr.desk (s.modWr fun x => { x with writes := [] }) (wrWrites s) :=
  .foldl (fun _ _ => .ite (fun _ => modWr_stays ⟨rfl, rfl, rfl⟩) fun _ => .ite (fun _ => modWr_stays ⟨rfl, rfl, rfl⟩) fun _ =>
    .ite (fun _ => modWr_stays ⟨rfl, rfl, rfl⟩) fun _ => modWr_stays ⟨rfl, rfl, rfl⟩) _ _

/-- What a confirmed reset makes of the Watch Room. -/
def Wr.resetDone (x : Wr) : Wr :=
  { x with confirm := false, opened := [], degAt := none, armed := none, state := 1, lreact := 0, resetWait := true }

theorem wrReset_eq (s : State) : wrReset s = s ∧ s.wr.confirm = false
    ∨ wrReset s = applyHolds { s.modWr Wr.resetDone with nv := { s.nv with lockRec := false } } := by
  unfold wrReset
  cases h : s.wr.confirm
  · exact .inl ⟨rfl, rfl⟩
  · exact .inr rfl

theorem resetDone_touches (s : State) :
    Touches [.nv, .pwmCs, .wr] s (applyHolds { s.modWr Wr.resetDone with nv := { s.nv with lockRec := false } }) :=
  .after (by decide) (applyHolds_touches _) <| .after (by decide) (nv_touches (s.modWr Wr.resetDone) { s.nv with lockRec := false } rfl) <|
    .mono (by decide) (modWr_touches s Wr.resetDone rfl)

theorem wrReset_touches (s : State) : Touches [.nv, .pwmCs, .wr] s (wrReset s) := by
  rcases wrReset_eq s with ⟨h, -⟩ | h <;> rw [h]
  · exact .refl _ s
  · exact resetDone_touches s

/-- A confirmed reset is used up; the frames, the writes and the time of the evaluation stay. -/
theorem wrReset_desk (s : State) :
    (wrReset s).wr.frames = s.wr.frames ∧ (wrReset s).wr.writes = s.wr.writes ∧ (wrReset s).wr.evalAt = s.wr.evalAt
      ∧ (wrReset s).wr.confirm = false ∧ (s.wr.armed = none → (wrReset s).wr.armed = none) := by
  rcases wrReset_eq s with ⟨h, hno⟩ | h <;> rw [h]
  · exact ⟨rfl, rfl, rfl, hno, id⟩
  · have hwr := (applyHolds_touches { s.modWr Wr.resetDone with nv := { s.nv with lockRec := false } }).wr_eq (by decide)
    exact ⟨(congrArg Wr.frames hwr :), (congrArg Wr.writes hwr :), (congrArg Wr.evalAt hwr :), (congrArg Wr.confirm hwr :),
      fun _ => (congrArg Wr.armed hwr :)⟩

theorem armLapse_eq (s : State) : armLapse s = s ∨ armLapse s = s.modWr fun x => { x with armed := none } := by
  unfold armLapse
  split
  · split
    · exact .inr rfl
    · exact .inl rfl
  · exact .inl rfl

/-! ## The evaluation opens: step 1 with what comes before it (R347) -/

/-- When the next evaluation comes. -/
def evalDue (s : State) : Nat := if s.wr.evalAt = 0 then s.now else s.wr.evalAt + 10 * usec

/-- The evaluation at its time. -/
def evalBegun (s : State) : State := (s.advanceTo (evalDue s)).modWr fun x => { x with evalAt := max s.now (evalDue s) }

/-- What was accepted before the evaluation has taken effect. -/
def acceptedTaken (s : State) : State := wrReset (wrWrites (evalBegun s))

theorem wrOpen_eq (s : State) : wrOpen s = (armLapse (wrStep1 (acceptedTaken s)),
    (armLapse (wrStep1 (acceptedTaken s))).wr.opened.any fun g => !(acceptedTaken s).wr.opened.any fun h => h == g) := rfl

theorem wrOpen_fst (s : State) : (wrOpen s).1 = armLapse (wrStep1 (acceptedTaken s)) := rfl

/-- What the evaluation up to the end of step 1 may touch. -/
def openParts : List Part := traced [.now, .nv, .lhCs, .lhDs, .pwmCs, .wr]

theorem evalBegun_touches (s : State) : Touches [.now, .wr] s (evalBegun s) :=
  .trans ((advanceTo_touches s _).mono (by decide)) ((modWr_touches _ _ rfl).mono (by decide))

theorem wrWrites_touches (s : State) : Touches [.wr] s (wrWrites s) :=
  .trans (modWr_touches s _ rfl) (wrWrites_stays s).touches

theorem armLapse_touches (s : State) : Touches [.wr] s (armLapse s) := by
  rcases armLapse_eq s with h | h <;> rw [h]
  · exact .refl _ s
  · exact modWr_touches s _ rfl

theorem acceptedTaken_touches (s : State) : Touches reportParts (evalBegun s) (acceptedTaken s) :=
  .after (by decide) (wrReset_touches _) ((wrWrites_touches _).mono (by decide))

theorem wrOpen_begun (s : State) : Touches reportParts (evalBegun s) (wrOpen s).1 := by
  rw [wrOpen_fst]
  exact .after (by decide) (armLapse_touches _) ((acceptedTaken_touches s).trans (wrStep1_stays _).touches)

theorem wrOpen_touches (s : State) : Touches openParts s (wrOpen s).1 :=
  .after (by decide) (wrOpen_begun s) ((evalBegun_touches s).mono (by decide))

theorem wrOpen_now (s : State) : (wrOpen s).1.now = max s.now (evalDue s) := (wrOpen_begun s).now (by decide)

/-- What the evaluation up to the end of step 1 leaves: the frames received before still wait, and what was accepted before is
used up. -/
structure Opens (s u : State) : Prop where
  frames : u.wr.frames = s.wr.frames
  writes : u.wr.writes = []
  confirm : u.wr.confirm = false
  armed : s.wr.armed = none → u.wr.armed = none
  at_ : u.wr.evalAt = max s.now (evalDue s)

theorem acceptedTaken_opens (s : State) : Opens s (acceptedTaken s) := by
  have hwrites : (wrWrites (evalBegun s)).wr.desk = { (evalBegun s).wr with writes := [] }.desk := (wrWrites_stays _).keeps
  obtain ⟨hframes, htaken, hat, hconfirm, harmed⟩ := wrReset_desk (wrWrites (evalBegun s))
  exact ⟨hframes.trans ((congrArg Wr.frames hwrites :)), htaken.trans ((congrArg Wr.writes hwrites :)), hconfirm,
    fun h => harmed ((congrArg Wr.armed hwrites :).trans h), hat.trans ((congrArg Wr.evalAt hwrites :))⟩

theorem Opens.of_desk {s t u : State} (h : Opens s t) (hdesk : u.wr.desk = t.wr.desk) : Opens s u :=
  ⟨(congrArg Wr.frames hdesk :).trans h.frames, (congrArg Wr.writes hdesk :).trans h.writes, (congrArg Wr.confirm hdesk :).trans h.confirm,
    fun hno => (congrArg Wr.armed hdesk :).trans (h.armed hno), (congrArg Wr.evalAt hdesk :).trans h.at_⟩

theorem Opens.lapse {s t : State} (h : Opens s t) : Opens s (armLapse t) := by
  rcases armLapse_eq t with heq | heq <;> rw [heq]
  · exact h
  · exact ⟨h.frames, h.writes, h.confirm, fun _ => rfl, h.at_⟩

theorem wrOpen_opens (s : State) : Opens s (wrOpen s).1 :=
  ((acceptedTaken_opens s).of_desk (wrStep1_stays _).keeps).lapse

/-! ## Frames judged: step 2 (R347, R369 to R374) -/

/-- What the Watch Room's list of frames and the time of its evaluation are. -/
def Wr.waiting (x : Wr) : Wr := { frames := x.frames, evalAt := x.evalAt }

theorem RoomStays.ite_fst {α β : Type} {P : List Part} {k : Wr → α} {s : State} {x y : State × β} {c : Prop} [Decidable c]
    (h : c → RoomStays P k s x.1) (h' : ¬c → RoomStays P k s y.1) : RoomStays P k s (if c then x else y).1 := by
  split
  · exact h ‹_›
  · exact h' ‹_›

/-- An effect of a frame, with its status. -/
theorem frameEffect_stays {s : State} {f : Wr → Wr} {st : Nat}
    (h : (f s.wr).inbox = s.wr.inbox ∧ (f s.wr).waiting = s.wr.waiting ∧ (f s.wr).evt = s.wr.evt) :
    RoomStays [.wr] Wr.waiting s (s.modWr f, st).1 := modWr_stays h

theorem frameByType_stays (s : State) (f : List Byte) (new : Bool) : RoomStays [.wr] Wr.waiting s (frameByType s f new).1 := by
  have hnone (st : Nat) : RoomStays [.wr] Wr.waiting s (s, st).1 := .refl _ _ s
  unfold frameByType
  split
  case h_1 =>
    extract_lets off v
    split
    · exact hnone _
    · exact .ite_fst (fun _ => hnone _) fun _ => frameEffect_stays ⟨rfl, rfl, rfl⟩
  case h_2 => exact .ite_fst (fun _ => hnone _) fun _ => .ite_fst (fun _ => hnone _) fun _ => frameEffect_stays ⟨rfl, rfl, rfl⟩
  case h_3 =>
    split
    · exact hnone _
    · exact .ite_fst (fun _ => frameEffect_stays ⟨rfl, rfl, rfl⟩) fun _ =>
        .ite_fst (fun _ => frameEffect_stays ⟨rfl, rfl, rfl⟩) fun _ => frameEffect_stays ⟨rfl, rfl, rfl⟩
  case h_4 => exact .ite_fst (fun _ => hnone _) fun _ => .ite_fst (fun _ => hnone _) fun _ => frameEffect_stays ⟨rfl, rfl, rfl⟩
  case h_5 => exact frameEffect_stays ⟨rfl, rfl, rfl⟩
  case h_6 => exact .ite_fst (fun _ => hnone _) fun _ => .ite_fst (fun _ => hnone _) fun _ => frameEffect_stays ⟨rfl, rfl, rfl⟩
  case h_7 => exact hnone _

theorem sfEvent_waiting (s : State) (cause : Nat) (detail : Word) :
    RoomStays (traced [.wr]) Wr.waiting s (sfEvent s cause detail) :=
  .trans (.mono (by decide) (modWr_stays ⟨rfl, rfl, rfl⟩)) ((sfEvent_stays s cause detail).shows fun _ _ h => (congrArg Wr.waiting h :))

theorem frameCheck_stays (s : State) (f : List Byte) (new : Bool) : RoomStays (traced [.wr]) Wr.waiting s (frameCheck s f new).1 := by
  unfold frameCheck
  refine .ite_fst (fun _ => .refl ..) fun _ => .ite_fst (fun _ => .refl ..) fun _ => .ite_fst (fun _ => sfEvent_waiting ..) fun _ => ?_
  exact .mono (by decide) (.trans (modWr_stays ⟨rfl, rfl, rfl⟩) (frameByType_stays _ _ _))

/-- The status of a frame with its type. -/
def statWord (st : Nat) (f : List Byte) : Word := wd (st * 2 ^ 24 + frField f 0 2)

/-- What WR_SFSTAT shows. -/
def Wr.stated (v : Word) (x : Wr) : Wr := { x with sfstat := v }

theorem stated_stays (s : State) (v : Word) : RoomStays [.wr] Wr.waiting s (s.modWr (Wr.stated v)) :=
  modWr_stays ⟨rfl, rfl, rfl⟩

theorem judgeFrame_eq (s : State) (f : List Byte) (new : Bool) :
    judgeFrame s f new = ((frameCheck s f new).1.modWr (Wr.stated (statWord (frameCheck s f new).2 f)), (frameCheck s f new).2) := by
  obtain ⟨u, st, h⟩ : ∃ u st, frameCheck s f new = (u, st) := ⟨_, _, rfl⟩
  rw [judgeFrame, h]
  rfl

theorem judgeFrame_sfstat (s : State) (f : List Byte) (new : Bool) :
    (judgeFrame s f new).1.wr.sfstat = statWord (judgeFrame s f new).2 f := by
  rw [judgeFrame_eq]
  rfl

/-- A frame judged leaves the frames that wait. -/
theorem judgeFrame_stays (s : State) (f : List Byte) (new : Bool) : RoomStays (traced [.wr]) Wr.waiting s (judgeFrame s f new).1 := by
  rw [judgeFrame_eq]
  exact .after (by decide) (stated_stays _ _) (frameCheck_stays s f new)

/-- What the answer to a frame may touch: an access, a request's answer, or a message on a bus. -/
def replyParts : List Part := [.freeCtr, .acc, .can, .net, .host]

theorem modCan_touches (s : State) (n : Nat) (f : Can → Can) : Touches [.can] s (s.modCan n f) :=
  can_touches s _ (List.length_modify ..)

theorem modTx_touches (s : State) (n b : Nat) (f : TxBuf → TxBuf) : Touches [.can] s (s.modTx n b f) := modCan_touches s n _

theorem refFrame_touches (s : State) (n q : Nat) : Touches [.freeCtr, .net] s (refFrame s n q).1 :=
  .of_update (fun p => by have k := p.agree_refl s; cases p <;> exact k) rfl rfl rfl

/-- A reference message or a response takes the device buffer. -/
theorem devLoad_touches (s : State) (n : Nat) : Touches [.freeCtr, .can, .net] s (devLoad s n) := by
  refine .ite (fun _ => .refl ..) fun _ => ?_
  split
  next => exact .refl ..
  next isRef bs rest _ =>
    have hpop := modCan_touches s n fun x => { x with devq := rest, devRef := isRef }
    refine .trans (hpop.mono (by decide)) (.ite (fun _ => ?_) fun _ => ?_)
    · refine .after (Q := [.can]) (by decide) (modTx_touches _ n 2 _) ?_
      exact .mono (by decide) (refFrame_touches _ n (ofLe bs))
    · refine .after (Q := [.can]) (by decide) (modTx_touches _ n 2 _) ?_
      exact .mono (by decide) (useFree_touches _)

theorem queueResponse_touches (s : State) (n : Nat) (bs : List Byte) : Touches [.freeCtr, .can, .net] s (queueResponse s n bs) :=
  .ite (fun _ => .refl ..) fun _ => .trans (.mono (by decide) (modCan_touches s n _)) (devLoad_touches _ n)

theorem respond_touches (s : State) (q : Req) (ty : Nat) (a : Ans) : Touches [.acc, .host] s (respond s q ty a) :=
  (respond_answered s q ty a).touches

theorem frameAnswer_touches (s : State) (f : SafeFrame) (st : Nat) : Touches replyParts s (frameAnswer s f st) := by
  unfold frameAnswer
  split
  · exact .ite (fun _ => .mono (by decide) (acc_touches s _)) fun _ => .mono (by decide) (acc_touches s _)
  · exact .ite_self (.mono (by decide) (respond_touches s _ _ _))
  · exact .ite_self (.mono (by decide) (queueResponse_touches s _ _))

/-- What step 2 may touch. -/
def frameParts : List Part := traced [.acc, .wr, .can, .net, .host]

/-- One frame judged and answered. -/
def frameStep (new : Bool) (s : State) (f : SafeFrame) : State :=
  frameAnswer (judgeFrame s f.bytes new).1 f (judgeFrame s f.bytes new).2

theorem frameStep_stays (new : Bool) (s : State) (f : SafeFrame) : RoomStays frameParts Wr.waiting s (frameStep new s f) :=
  .trans ((judgeFrame_stays s f.bytes new).mono (by decide)) <|
    .mono (by decide) (.of_touches (frameAnswer_touches _ f _) (by decide) fun _ => rfl)

/-- The frames are taken off the list. -/
def framesTaken (s : State) : State := s.modWr fun x => { x with frames := [] }

theorem wrStep2_eq (s : State) (new : Bool) : wrStep2 s new = s.wr.frames.foldl (frameStep new) (framesTaken s) := by
  unfold wrStep2 framesTaken
  refine List.foldl_ext _ _ _ fun t f _ => ?_
  obtain ⟨u, st, h⟩ : ∃ u st, judgeFrame t f.bytes new = (u, st) := ⟨_, _, rfl⟩
  rw [frameStep, h]

theorem wrStep2_stays (s : State) (new : Bool) : RoomStays frameParts Wr.waiting (framesTaken s) (wrStep2 s new) := by
  rw [wrStep2_eq]
  exact .foldl (frameStep_stays new) _ _

theorem wrStep2_touches (s : State) (new : Bool) : Touches frameParts s (wrStep2 s new) :=
  .trans (.mono (by decide) (modWr_touches s _ rfl)) (wrStep2_stays s new).touches

theorem wrStep2_frames (s : State) (new : Bool) : (wrStep2 s new).wr.frames = [] :=
  (congrArg Wr.frames (wrStep2_stays s new).keeps :)

theorem wrStep2_evalAt (s : State) (new : Bool) : (wrStep2 s new).wr.evalAt = s.wr.evalAt :=
  (congrArg Wr.evalAt (wrStep2_stays s new).keeps :)

/-! ## The evaluation (R347, R353) -/

/-- What an evaluation may touch. -/
def evalParts : List Part := traced [.now, .acc, .nv, .lhCs, .lhDs, .pwmCs, .wr, .lamp, .can, .net, .host]

theorem frameTaken_fst (s : State) : (frameTaken s).1 = wrStep2 (wrOpen s).1 (wrOpen s).2 := rfl

theorem frameTaken_touches (s : State) : Touches evalParts s (frameTaken s).1 :=
  .after (by decide) (wrStep2_touches _ _) ((wrOpen_touches s).mono (by decide))

theorem frameTaken_now (s : State) : (frameTaken s).1.now = max s.now (evalDue s) :=
  ((wrStep2_touches _ _).now (by decide)).trans (wrOpen_now s)

/-- Steps 3 to 5 of an evaluation. -/
def wrActs (s : State) : State := wrStep5 (wrContactors (wrMonitors s))

theorem wrActs_judged (s : State) : RoomStays actionParts Wr.judged s (wrActs s) :=
  .trans (.trans (wrMonitors_judged s) (wrContactors_judged _)) (wrStep5_judged _)

theorem wrEvaluate_eq {s : State} (h : wrRuns s = true) : wrEvaluate s = wrActs (frameTaken s).1 := if_pos h

/-- The command by the state, the reaction and whether torque is kept off (R353). -/
def commandOf (st lreact : Nat) (nt : Bool) (deg : Byte) : Byte × BitVec 4 × Byte :=
  if st = 3 then
    (if lreact = 0 then (0xC3, 0, 0) else if lreact = 3 then (0x69, 0, 0) else (0x3C, BitVec.ofNat 4 lreact, 0))
  else if st = 0 || nt then (0xC3, 0, 0)
  else if st = 1 then (0x96, 0, 0)
  else (0xA5, 0, deg)

section command

variable {st lreact : Nat} {nt : Bool} {deg : Byte}

theorem commandOf_normal (h : st = 1) (hnt : nt = false) : commandOf st lreact nt deg = (0x96, 0, 0) := by
  simp [commandOf, h, hnt]

theorem commandOf_degraded (h : st = 2) (hnt : nt = false) : commandOf st lreact nt deg = (0xA5, 0, deg) := by
  simp [commandOf, h, hnt]

theorem commandOf_noTorque (h : st ≠ 3) (hnt : nt = true) : commandOf st lreact nt deg = (0xC3, 0, 0) := by
  simp [commandOf, h, hnt]

theorem commandOf_start (h : st = 0) : commandOf st lreact nt deg = (0xC3, 0, 0) := by simp [commandOf, h]

theorem commandOf_safe (h : st = 3) (hr : lreact = 0) : commandOf st lreact nt deg = (0xC3, 0, 0) := by simp [commandOf, h, hr]

theorem commandOf_group (h : st = 3) (hr : lreact = 1 ∨ lreact = 2) :
    commandOf st lreact nt deg = (0x3C, BitVec.ofNat 4 lreact, 0) := by
  rcases hr with hr | hr <;> simp [commandOf, h, hr]

theorem commandOf_full (h : st = 3) (hr : lreact = 3) : commandOf st lreact nt deg = (0x69, 0, 0) := by simp [commandOf, h, hr]

end command

/-- A command taken. -/
def Wr.commanded (nt : Bool) (c : Byte × BitVec 4 × Byte) (x : Wr) : Wr :=
  { x with noTorq := nt, cmd := c.1, cmdArg := c.2.1, cmdFrac := c.2.2 }

theorem wrCommand_eq (s : State) : ∃ nt, wrCommand s =
    s.modWr (Wr.commanded nt (commandOf s.wr.state s.wr.lreact nt (BitVec.ofNat 8 (wrDegTq s)))) := ⟨_, rfl⟩

/-- The command is the one of the state, the reaction and whether torque is kept off (R353). -/
def CommandFits (t : State) : Prop :=
  (t.wr.state = 1 → t.wr.noTorq = false → t.wr.cmd = 0x96)
    ∧ (t.wr.state = 2 → t.wr.noTorq = false → t.wr.cmd = 0xA5 ∧ t.wr.cmdFrac = BitVec.ofNat 8 (wrDegTq t))
    ∧ (t.wr.state ≠ 3 → t.wr.noTorq = true → t.wr.cmd = 0xC3) ∧ (t.wr.state = 0 → t.wr.cmd = 0xC3)
    ∧ (t.wr.state = 3 → t.wr.lreact = 0 → t.wr.cmd = 0xC3)
    ∧ (t.wr.state = 3 → t.wr.lreact = 1 ∨ t.wr.lreact = 2 → t.wr.cmd = 0x3C ∧ t.wr.cmdArg.toNat = t.wr.lreact)
    ∧ (t.wr.state = 3 → t.wr.lreact = 3 → t.wr.cmd = 0x69)

theorem wrCommand_fits (s : State) : CommandFits (wrCommand s) := by
  obtain ⟨nt, heq⟩ := wrCommand_eq s
  rw [heq]
  refine ⟨fun h hnt => congrArg Prod.fst (commandOf_normal h hnt), fun h hnt => ?degraded,
    fun h hnt => congrArg Prod.fst (commandOf_noTorque h hnt), fun h => congrArg Prod.fst (commandOf_start h),
    fun h hr => congrArg Prod.fst (commandOf_safe h hr), fun h hr => ?group, fun h hr => congrArg Prod.fst (commandOf_full h hr)⟩
  case degraded =>
    have hcmd := commandOf_degraded (lreact := s.wr.lreact) (deg := BitVec.ofNat 8 (wrDegTq s)) h hnt
    exact ⟨congrArg Prod.fst hcmd, congrArg (fun c => c.2.2) hcmd⟩
  case group =>
    have hcmd := commandOf_group (nt := nt) (deg := BitVec.ofNat 8 (wrDegTq s)) h hr
    refine ⟨congrArg Prod.fst hcmd, (congrArg (fun c => c.2.1.toNat) hcmd).trans ?_⟩
    rcases hr with hr | hr <;> exact (congrArg (fun n => (BitVec.ofNat 4 n).toNat) hr).trans hr.symm

theorem wrActs_fits (s : State) : CommandFits (wrActs s) := wrCommand_fits _

/-! ## WATCH_ROOM_EVALUATION settled -/

/-- The request of a lone host frame is answered with the status it was judged to have (R369). -/
theorem frameTaken_host {s : State} {f : List Byte} {q : Req} (hframes : s.wr.frames = [⟨f, .host q⟩])
    (hup : s.sys.keeperUp = true) (hrun : s.kp.restarting = false) :
    let j := judgeFrame (framesTaken (wrOpen s).1) f (wrOpen s).2
    (frameTaken s).1.wr.sfstat = statWord j.2 f ∧ Replied (frameTaken s).1 (if j.2 = 0 then okAns else refuseAns j.2) := by
  intro j
  have hwait : (wrOpen s).1.wr.frames = [⟨f, .host q⟩] := (wrOpen_opens s).frames.trans hframes
  have htouches : Touches evalParts s j.1 :=
    .after (by decide) (judgeFrame_stays _ f _).touches <| .after (by decide) (modWr_touches _ _ rfl) ((wrOpen_touches s).mono (by decide))
  have hup' : j.1.sys.keeperUp = true := (congrArg Sys.keeperUp (htouches.agree .sys (by decide)) :).trans hup
  have hrun' : j.1.kp.restarting = false := (congrArg Keeper.restarting (htouches.agree .kp (by decide)) :).trans hrun
  have hanswer : (frameTaken s).1 = respond j.1 q tCMD (if j.2 = 0 then okAns else refuseAns j.2) := by
    rw [frameTaken_fst, wrStep2_eq, hwait]
    exact if_pos (by rw [hup', hrun']; rfl)
  have hreply := respond_answered j.1 q tCMD (if j.2 = 0 then okAns else refuseAns j.2)
  rw [← hanswer] at hreply
  exact ⟨(congrArg Wr.sfstat (hreply.touches.wr_eq (by decide)) :).trans (judgeFrame_sfstat _ f _), hreply.replied⟩

/-- Settles O49: steps 3 to 5 leave what was judged, and the command is the last thing an evaluation makes. -/
theorem watchRoomEvaluatesAndCommands : Obligations.WatchRoomEvaluatesAndCommands := by
  unfold Obligations.WatchRoomEvaluatesAndCommands
  intro s hruns
  have hacts := wrActs_judged (frameTaken s).1
  have hopens := wrOpen_opens s
  have hnow : (wrActs (frameTaken s).1).now = max s.now (evalDue s) := (hacts.touches.now (by decide)).trans (frameTaken_now s)
  obtain ⟨hnormal, hdegraded, hnoTorque, hstart, hsafe, hgroup, hfull⟩ := wrActs_fits (frameTaken s).1
  refine ⟨wrActs (frameTaken s).1, congrArg Host.Outcome.next (wrEvaluate_eq hruns), hnow, ?at_, ?frames, ?quiet, ?host,
    hnormal, hdegraded, hnoTorque, hstart, hsafe, hgroup, hfull, ?frame⟩
  case at_ =>
    refine hacts.evalAt_eq.trans (Eq.trans ?_ hnow.symm)
    exact (wrStep2_evalAt _ _).trans hopens.at_
  case frames => exact hacts.frames_eq.trans (wrStep2_frames _ _)
  case quiet =>
    intro hnone
    have htaken : (frameTaken s).1 = framesTaken (wrOpen s).1 := by
      rw [frameTaken_fst, wrStep2_eq, hopens.frames.trans hnone]
      rfl
    rw [htaken] at hacts ⊢
    exact ⟨hacts.writes_eq.trans hopens.writes, hacts.confirm_eq.trans hopens.confirm,
      fun hno => hacts.armed_eq.trans (hopens.armed hno)⟩
  case host =>
    intro f q hframes hup hrun
    obtain ⟨hstat, hreply⟩ := frameTaken_host hframes hup hrun
    exact ⟨hacts.sfstat_eq.trans hstat, (hacts.touches.acc_eq (by decide)).trans hreply⟩
  case frame => exact Touches.onlyChanges (.after (by decide) hacts.touches (frameTaken_touches s))

end Sys2Proof.Machine
end

section
namespace Sys2Proof.Machine

/-! ## A frame that waits changes nothing before it is judged (R347) -/

/-- The list of the safety frames that wait replaced. -/
def State.withFrames (s : State) (fs : List SafeFrame) : State := s.modWr fun x => { x with frames := fs }

theorem withFrames_ite {c : Prop} [Decidable c] (s t : State) (fs : List SafeFrame) :
    (if c then s else t).withFrames fs = if c then s.withFrames fs else t.withFrames fs := apply_ite (State.withFrames · fs) c s t

theorem withFrames_foldl {α : Type} {f : State → α → State} {fs : List SafeFrame}
    (hf : ∀ t x, f (t.withFrames fs) x = (f t x).withFrames fs) (l : List α) (s : State) :
    l.foldl f (s.withFrames fs) = (l.foldl f s).withFrames fs := by
  induction l generalizing s with
  | nil => rfl
  | cons x l ih => rw [List.foldl_cons, hf, ih, List.foldl_cons]

section counted

variable (s : State) (fs : List SafeFrame)

theorem dsEvent_withFrames (code : BitVec 16) (elem wc unit mac kind : Nat) (detail : Word) :
    dsEvent (s.withFrames fs) code elem wc unit mac kind detail = (dsEvent s code elem wc unit mac kind detail).withFrames fs := by
  unfold dsEvent
  rw [withFrames_ite]
  rfl

theorem release_withFrames (c : Ctr) : release (s.withFrames fs) c = (release s c).withFrames fs := by
  unfold release
  cases c.key.die
  · rfl
  · exact dsEvent_withFrames ..

theorem logAppend_withFrames (w : List Word) : logAppend (s.withFrames fs) w = (logAppend s w).withFrames fs := by
  unfold logAppend
  dsimp only
  rw [withFrames_ite, withFrames_ite]
  rfl

/-- The record a CS declaration writes, and its number. -/
def csRecorded (s : State) (e : Ev) (wc : Nat) : State :=
  logAppend { s with kp := { s.kp with seqNo := s.kp.seqNo + 1 } }
    (faultWords s.kp.seqNo e.code e.key.unit e.macroN e.elem wc (count s .cs) (netNs s s.now)
      (recWord5 (csSeverity s) (classOf s e.code e.elem) true false) e.detail)

theorem csDeclare_eq (e : Ev) (wc : Nat) : csDeclare s e wc =
    (csRecorded s e wc).modWr fun x => { x with inbox := x.inbox ++ [.declare e.key e.code e.key.unit e.elem e.detail] } := rfl

theorem csDeclare_withFrames (e : Ev) (wc : Nat) : csDeclare (s.withFrames fs) e wc = (csDeclare s e wc).withFrames fs := by
  have hrec : csRecorded (s.withFrames fs) e wc = (csRecorded s e wc).withFrames fs :=
    logAppend_withFrames { s with kp := { s.kp with seqNo := s.kp.seqNo + 1 } } fs _
  rw [csDeclare_eq, csDeclare_eq, hrec]
  rfl

theorem declare_withFrames (e : Ev) (wc : Nat) : declare (s.withFrames fs) e wc = (declare s e wc).withFrames fs := by
  unfold declare
  cases e.key.die
  · exact csDeclare_withFrames ..
  · exact dsEvent_withFrames ..

/-- The counter of an event as it counts now. -/
def ctrNow (s : State) (e : Ev) : Ctr := (((ctrOf s e.key).getD (freshCtr s e)).roll s.now).retime s.now e.w e.n

/-- The counter released where its bins have emptied. -/
def ctrReleased (s : State) (e : Ev) : State := if (ctrNow s e).releases then release s (ctrNow s e) else s

/-- The counter with the event in its bin. -/
def ctrWith (s : State) (e : Ev) : Ctr :=
  { ctrNow s e with declared := (ctrNow s e).declared && !(ctrNow s e).releases
                    bins := ((ctrNow s e).bins.headD 0 + 1) :: (ctrNow s e).bins.tail }

/-- Whether the event declares. -/
def ctrHit (s : State) (e : Ev) : Bool := !(ctrWith s e).declared && e.n ≤ (ctrWith s e).count

/-- The event counted. -/
def ctrPlaced (s : State) (e : Ev) : State :=
  let c : Ctr := { ctrWith s e with declared := (ctrWith s e).declared || ctrHit s e, code := e.code }
  { ctrReleased s e with ctrs := putCtr (ctrReleased s e).ctrs c }

theorem countOnce_eq (e : Ev) : countOnce s e =
    if (e.early || s.runs e.key.die) = true then
      (if ctrHit s e = true then declare (ctrPlaced s e) e (ctrWith s e).count else ctrPlaced s e)
    else s := rfl

theorem ctrReleased_withFrames (e : Ev) : ctrReleased (s.withFrames fs) e = (ctrReleased s e).withFrames fs := by
  unfold ctrReleased
  rw [withFrames_ite, ← release_withFrames]
  rfl

theorem ctrPlaced_withFrames (e : Ev) : ctrPlaced (s.withFrames fs) e = (ctrPlaced s e).withFrames fs := by
  rw [ctrPlaced, ctrReleased_withFrames]
  rfl

theorem countOnce_withFrames (e : Ev) : countOnce (s.withFrames fs) e = (countOnce s e).withFrames fs := by
  rw [countOnce_eq, countOnce_eq, withFrames_ite, withFrames_ite, ctrPlaced_withFrames, ← declare_withFrames]
  rfl

theorem logWatch_withFrames (s' : State) : logWatch (s.withFrames fs) (s'.withFrames fs) = (logWatch s s').withFrames fs := by
  unfold logWatch
  rw [withFrames_ite, withFrames_ite, ← countOnce_withFrames, ← countOnce_withFrames]
  rfl

/-- Counting an event does not look at the frames that wait. -/
theorem countEvent_withFrames (e : Ev) : countEvent (s.withFrames fs) e = (countEvent s e).withFrames fs := by
  rw [countEvent, countOnce_withFrames, logWatch_withFrames, ← countEvent]

theorem wrFixed_withFrames (inst unit elem cause : Nat) (detail : Word) :
    wrFixed (s.withFrames fs) inst unit elem cause detail = (wrFixed s inst unit elem cause detail).withFrames fs :=
  countEvent_withFrames (s.modWr fun x => { x with evt := orBit x.evt cause }) fs _

end counted

section reports

variable (s : State) (fs : List SafeFrame)

theorem applyCsOverrides_withFrames : applyCsOverrides (s.withFrames fs) = (applyCsOverrides s).withFrames fs := by
  unfold applyCsOverrides
  rw [withFrames_ite]
  rfl

theorem applyHolds_withFrames : applyHolds (s.withFrames fs) = (applyHolds s).withFrames fs :=
  applyCsOverrides_withFrames { s with pwmCs := { s.pwmCs with chans := s.pwmCs.chans.mapIdx fun c x => { x with wrHold := wrHeld s c } } } fs

theorem swapRequest_withFrames (l rank page : Nat) :
    swapRequest (s.withFrames fs) .cs l rank page = (swapRequest s .cs l rank page).withFrames fs := by
  unfold swapRequest
  dsimp only
  rw [withFrames_ite]
  rfl

theorem wrPages_withFrames (p0 p1 : Nat) : wrPages (s.withFrames fs) p0 p1 = (wrPages s p0 p1).withFrames fs := by
  have hlane (t : State) (p l : Nat) : (if p = 15 then t.withFrames fs else swapRequest (t.withFrames fs) .cs l 7 p)
      = (if p = 15 then t else swapRequest t .cs l 7 p).withFrames fs := by
    rw [withFrames_ite, swapRequest_withFrames]
  unfold wrPages
  dsimp only
  rw [hlane, hlane]

/-- The lockout noted in SYS_EVT and, where it persists, in the store. -/
def lockNoted (s : State) (react : Nat) (code : BitVec 16) : State :=
  let s := s.modWr fun x =>
    { x with state := 3, lreact := react, lockCode := code, lockAt := s.now, lockOpen := false, lab := false }
  { s with sys := { s.sys with sysEvt := orBit s.sys.sysEvt 2 }
           nv := { s.nv with lockRec := s.nv.lockRec || (wrLockPersist s && !(s.sys.sleepAcc && s.sys.sleepStep = 1)) } }

theorem enterLockout_eq (react : Nat) (code : BitVec 16) : enterLockout s react code =
    if s.wr.state = 3 then s.modWr fun x => { x with lreact := reactJoin x.lreact react }
    else wrPages (applyHolds (lockNoted s react code)) (fld (wrPar (lockNoted s react code) 0x78) 7 4)
      (fld (wrPar (lockNoted s react code) 0x78) 15 12) := rfl

theorem enterLockout_withFrames (react : Nat) (code : BitVec 16) :
    enterLockout (s.withFrames fs) react code = (enterLockout s react code).withFrames fs := by
  rw [enterLockout_eq, enterLockout_eq, withFrames_ite, ← wrPages_withFrames, ← applyHolds_withFrames]
  rfl

theorem enterDegraded_withFrames (react : Nat) (code : BitVec 16) :
    enterDegraded (s.withFrames fs) react code = (enterDegraded s react code).withFrames fs :=
  wrPages_withFrames (s.modWr fun x => { x with state := 2, degAt := some s.now, degCode := code, degReact := react }) fs _ _

/-- The open fault on the list. -/
def faultListed (s : State) (key : CtrKey) (code : BitVec 16) (cls react : Nat) (detail : Word) : State :=
  s.modWr fun x => { x with opened := (x.opened.filter fun g => !(g.key == key && g.code == code))
    ++ [{ key := key, code := code, cls := cls, react := react, released := false, detail := detail }] }

theorem openFault_eq (key : CtrKey) (code : BitVec 16) (cls react : Nat) (detail : Word) :
    openFault s key code cls react detail =
      let t := faultListed s key code cls react detail
      if cls = 1 then (if t.wr.state = 0 then t else enterLockout t react code)
      else if t.wr.state = 3 then enterLockout t react code
      else if t.wr.state = 1 then enterDegraded t react code
      else t := rfl

theorem openFault_withFrames (key : CtrKey) (code : BitVec 16) (cls react : Nat) (detail : Word) :
    openFault (s.withFrames fs) key code cls react detail = (openFault s key code cls react detail).withFrames fs := by
  rw [openFault_eq, openFault_eq]
  dsimp only
  rw [withFrames_ite, withFrames_ite, withFrames_ite, withFrames_ite, ← enterLockout_withFrames, ← enterDegraded_withFrames]
  rfl

/-- The event of class C that a declared code is counted as (R351). -/
def classCEv (s : State) (code : BitVec 16) : Ev :=
  match classEntry s code with
  | some i => { key := classCKey s code, cause := 0x0E, w := fld (wrPar s (clsOff i + 4)) 15 0, n := fld (wrPar s (clsOff i + 4)) 23 16
                early := false }
  | none => { key := classCKey s code, cause := 0x0E, w := 60000, n := 3, early := false }

theorem classCCount_eq (code : BitVec 16) : classCCount s code =
    if (!s.sys.ready) = true then (s, false) else (ctrPlaced s (classCEv s code), ctrHit s (classCEv s code)) := by
  unfold classCCount classCEv
  cases classEntry s code <;> rfl

theorem classCCount_withFrames (code : BitVec 16) :
    classCCount (s.withFrames fs) code = ((classCCount s code).1.withFrames fs, (classCCount s code).2) := by
  rw [classCCount_eq, classCCount_eq, show classCEv (s.withFrames fs) code = classCEv s code from rfl, ctrPlaced_withFrames]
  rw [show (s.withFrames fs).sys = s.sys from rfl]
  split <;> rfl

theorem raiseCesc_withFrames (code : BitVec 16) : raiseCesc (s.withFrames fs) code = (raiseCesc s code).withFrames fs := by
  unfold raiseCesc
  dsimp only
  rw [wrFixed_withFrames, openFault_withFrames]
  rfl

theorem ov3Noted_withFrames (code : BitVec 16) : ov3Noted (s.withFrames fs) code = (ov3Noted s code).withFrames fs := by
  unfold ov3Noted
  rw [withFrames_ite]
  rfl

theorem wrClassify_declare (key : CtrKey) (code : BitVec 16) (unit elem : Nat) (detail : Word) :
    wrClassify s (.declare key code unit elem detail) =
      let t := ov3Noted s code
      if (codeSub code = 15 && codeCause code = 0x0E) = true then t
      else if (classOf t code elem = 1 || classOf t code elem = 2) = true then
        openFault t key code (classOf t code elem) (reactOf t code elem) detail
      else if classOf t code elem = 3 then
        (if (classCCount t code).2 = true then raiseCesc (classCCount t code).1 code else (classCCount t code).1)
      else t := rfl

/-- Taking a report does not look at the frames that wait. -/
theorem wrClassify_withFrames (m : WrMsg) : wrClassify (s.withFrames fs) m = (wrClassify s m).withFrames fs := by
  cases m with
  | release k => rfl
  | declare key code unit elem detail =>
    rw [wrClassify_declare, wrClassify_declare, ov3Noted_withFrames]
    generalize ov3Noted s code = t
    dsimp only
    rw [withFrames_ite, withFrames_ite, withFrames_ite, withFrames_ite, classCCount_withFrames, raiseCesc_withFrames, ← openFault_withFrames]
    rfl

theorem wrDrain_withFrames (n : Nat) (ms : List WrMsg) : wrDrain n (s.withFrames fs) ms = (wrDrain n s ms).withFrames fs := by
  induction n generalizing s ms with
  | zero => rfl
  | succ n ih =>
    refine withFrames_foldl (fun t m => ?_) ms s
    dsimp only
    rw [wrClassify_withFrames]
    exact ih ((wrClassify t m).modWr fun x => { x with inbox := [] }) (wrClassify t m).wr.inbox

theorem wrStep1_withFrames : wrStep1 (s.withFrames fs) = (wrStep1 s).withFrames fs :=
  wrDrain_withFrames (s.modWr fun x => { x with inbox := [] }) fs 4 s.wr.inbox

theorem wrWrites_withFrames : wrWrites (s.withFrames fs) = (wrWrites s).withFrames fs := by
  refine withFrames_foldl (fun t w => ?_) s.wr.writes (s.modWr fun x => { x with writes := [] })
  rw [withFrames_ite, withFrames_ite, withFrames_ite]
  rfl

theorem wrReset_withFrames : wrReset (s.withFrames fs) = (wrReset s).withFrames fs := by
  unfold wrReset
  rw [withFrames_ite]
  refine if_congr Iff.rfl rfl ?_
  exact applyHolds_withFrames { s.modWr Wr.resetDone with nv := { s.nv with lockRec := false } } fs

theorem armLapse_withFrames : armLapse (s.withFrames fs) = (armLapse s).withFrames fs := by
  unfold armLapse
  rw [show (s.withFrames fs).wr.armed = s.wr.armed from rfl]
  cases s.wr.armed
  · rfl
  · dsimp only
    rw [withFrames_ite]
    rfl

theorem acceptedTaken_withFrames : acceptedTaken (s.withFrames fs) = (acceptedTaken s).withFrames fs := by
  unfold acceptedTaken
  rw [show evalBegun (s.withFrames fs) = (evalBegun s).withFrames fs from rfl, wrWrites_withFrames, wrReset_withFrames]

/-- The evaluation up to the end of step 1 does not look at the frames that wait. -/
theorem wrOpen_withFrames : wrOpen (s.withFrames fs) = ((wrOpen s).1.withFrames fs, (wrOpen s).2) := by
  rw [wrOpen_eq, wrOpen_eq, acceptedTaken_withFrames, wrStep1_withFrames, armLapse_withFrames]
  rfl

end reports

end Sys2Proof.Machine
end

section
namespace Sys2Proof.Machine

/-! ## The frame a row brings is judged after those already received (R347) -/

/-- The evaluation that judges a frame as the last one received before it. -/
def frameDone (s : State) (f : List Byte) : State := wrActs (frameStep (frameTaken s).2 (frameTaken s).1 ⟨f, .keeper⟩)

/-- A frame at the end of the list is judged last. -/
theorem wrStep2_joined {u : State} {fs : List SafeFrame} (h : u.wr.frames = fs) (x : SafeFrame) (new : Bool) :
    wrStep2 (u.withFrames (fs ++ [x])) new = frameStep new (wrStep2 u new) x := by
  rw [wrStep2_eq, wrStep2_eq, h]
  change (fs ++ [x]).foldl (frameStep new) (framesTaken u) = _
  rw [List.foldl_append]
  rfl

/-- A frame that comes after those already received is judged in the state they leave. -/
theorem frameTaken_wrFrameIn (s : State) (f : List Byte) :
    (frameTaken (wrFrameIn s f .keeper)).1 = frameStep (frameTaken s).2 (frameTaken s).1 ⟨f, .keeper⟩ := by
  have hopen : wrOpen (wrFrameIn s f .keeper) = ((wrOpen s).1.withFrames (s.wr.frames ++ [⟨f, .keeper⟩]), (wrOpen s).2) :=
    wrOpen_withFrames s _
  rw [frameTaken_fst, hopen]
  exact wrStep2_joined (wrOpen_opens s).frames _ _

theorem frameOfType_eq {s : State} {f : List Byte} {ty : Nat} (hruns : wrRuns s = true) (hty : frField f 0 2 = ty) :
    frameOfType s ty f = frameDone s f := by
  have hruns' : wrRuns (wrFrameIn s f .keeper) = true := hruns
  unfold frameOfType
  rw [if_neg (by simp [hty, hruns]), wrEvaluate_eq hruns', frameTaken_wrFrameIn]
  rfl

theorem frameDone_touches (s : State) (f : List Byte) : Touches evalParts s (frameDone s f) :=
  .after (by decide) (wrActs_judged _).touches <| .after (by decide) (frameStep_stays _ _ _).touches (frameTaken_touches s)

/-- The evaluation of a frame that came to `v` with a status: the status is answered and shown, and what the frame brought about
stays to the end of the evaluation. -/
structure Settles (u v : State) (f : List Byte) (st : Nat) (t : State) : Prop where
  now : t.now = u.now
  acc : t.acc = if st = 0 then (u.ok []).acc else (u.refuse st).acc
  sfstat : t.wr.sfstat = statWord st f
  fresh : t.wr.fresh = v.wr.fresh
  sfcnt : t.wr.sfcnt = v.wr.sfcnt
  key : t.wr.key = v.wr.key
  keyset : t.wr.keyset = v.wr.keyset
  lab : t.wr.lab = v.wr.lab
  armed : t.wr.armed = v.wr.armed
  confirm : t.wr.confirm = v.wr.confirm
  writes : t.wr.writes = v.wr.writes
  events : ∀ i, bitOf v.wr.evt i = true → bitOf t.wr.evt i = true

theorem Settles.answered {u v t : State} {f : List Byte} (h : Settles u v f 0 t) : Answered t 0 [] := h.acc

theorem Settles.refused {u v t : State} {f : List Byte} {st : Nat} (h : Settles u v f st t) (hst : st ≠ 0) : Refused t st :=
  h.acc.trans (if_neg hst)

theorem frameAnswer_keeper (s : State) (f : List Byte) (st : Nat) :
    frameAnswer s ⟨f, .keeper⟩ st = if st = 0 then s.ok [] else s.refuse st := rfl

/-- The answer to a frame through the Keeper. -/
theorem frameStep_keeper {u v : State} {f : List Byte} {new : Bool} {st : Nat} (h : frameCheck u f new = (v, st)) :
    frameStep new u ⟨f, .keeper⟩ = if st = 0 then (v.modWr (Wr.stated (statWord st f))).ok []
      else (v.modWr (Wr.stated (statWord st f))).refuse st := by
  have hv : (frameCheck u f new).1 = v := congrArg Prod.fst h
  have hst : (frameCheck u f new).2 = st := congrArg Prod.snd h
  rw [frameStep, judgeFrame_eq, frameAnswer_keeper, hv, hst]

theorem stated_answered_settles {u v : State} {f : List Byte} {st : Nat} {w : Word} (hw : w = statWord st f) (hnow : v.now = u.now) :
    Settles u v f st (if st = 0 then (v.modWr (Wr.stated w)).ok [] else (v.modWr (Wr.stated w)).refuse st) := by
  split
  · exact ⟨hnow, (if_pos ‹_›).symm, hw, rfl, rfl, rfl, rfl, rfl, rfl, rfl, rfl, fun _ h => h⟩
  · exact ⟨hnow, (if_neg ‹_›).symm, hw, rfl, rfl, rfl, rfl, rfl, rfl, rfl, rfl, fun _ h => h⟩

/-- Steps 3 to 5 leave what a frame came to. -/
theorem Settles.acts {u v w t : State} {f : List Byte} {st : Nat} (h : Settles u v f st w) (k : RoomStays actionParts Wr.judged w t) :
    Settles u v f st t where
  now := (k.touches.now (by decide)).trans h.now
  acc := (k.touches.acc_eq (by decide)).trans h.acc
  sfstat := k.sfstat_eq.trans h.sfstat
  fresh := k.fresh_eq.trans h.fresh
  sfcnt := k.sfcnt_eq.trans h.sfcnt
  key := k.key_eq.trans h.key
  keyset := k.keyset_eq.trans h.keyset
  lab := k.lab_eq.trans h.lab
  armed := k.armed_eq.trans h.armed
  confirm := k.confirm_eq.trans h.confirm
  writes := k.writes_eq.trans h.writes
  events i hi := k.events i (h.events i hi)

theorem frameDone_settles {s v : State} {f : List Byte} {st : Nat} (h : frameCheck (frameTaken s).1 f (frameTaken s).2 = (v, st)) :
    Settles (frameTaken s).1 v f st (frameDone s f) := by
  have hcheck := (frameCheck_stays (frameTaken s).1 f (frameTaken s).2).touches.now (by decide)
  rw [h] at hcheck
  have hstep := stated_answered_settles (v := v) (f := f) (st := st) rfl hcheck
  rw [← frameStep_keeper h] at hstep
  exact hstep.acts (wrActs_judged _)

/-! ## The checks of a frame (R369) -/

/-- A frame of 52 bytes that names this device and the nonce, where a key is held or the frame brings one. -/
structure FrameFits (u : State) (f : List Byte) : Prop where
  length : f.length = 52
  key : u.wr.key.isSome = true ∨ frField f 0 2 = 6
  uid0 : frField f 4 4 = u.wr.uid0.toNat
  uid1 : frField f 8 4 = u.wr.uid1.toNat
  nonce : frField f 12 4 = u.wr.nonce.toNat

/-- The key a frame is checked with: 16 zero bytes where none is held. -/
def keyNow (u : State) : List Byte := u.wr.key.getD (List.replicate 16 0)

/-- The counter of a frame taken. -/
def counterTaken (u : State) (f : List Byte) : State := u.modWr fun x => { x with fresh := wd (frField f 16 4) }

/-- The order in which a fitting frame's CMAC and counter are judged. -/
theorem frameCheck_fits {u : State} {f : List Byte} (h : FrameFits u f) (new : Bool) :
    frameCheck u f new =
      let bad := if aesCmac (keyNow u) (f.take 36) ≠ f.drop 36 then 5 else if frField f 16 4 ≤ u.wr.fresh.toNat then 6 else 0
      if bad ≠ 0 then (sfEvent u 2 (wd bad), bad) else frameByType (counterTaken u f) f new := by
  obtain ⟨hlen, hkey, huid0, huid1, hnonce⟩ := h
  have hheld : ¬(u.wr.key.isNone && decide (frField f 0 2 ≠ 6)) = true := by
    rcases hkey with hkey | hkey
    · rw [Option.isNone_eq_false_iff.2 hkey]
      exact Bool.false_ne_true
    · simp [hkey]
  have hdevice : ¬(decide (frField f 4 4 ≠ u.wr.uid0.toNat) || decide (frField f 8 4 ≠ u.wr.uid1.toNat)) = true := by
    simp [huid0, huid1]
  unfold frameCheck
  rw [if_neg (not_not.2 hlen), if_neg hheld, if_neg hdevice, if_neg (not_not.2 hnonce)]
  rfl

section checks

variable {u : State} {f : List Byte} (h : FrameFits u f) (new : Bool)

include h

theorem frameCheck_passes (hmac : aesCmac (keyNow u) (f.take 36) = f.drop 36) (hnew : u.wr.fresh.toNat < frField f 16 4) :
    frameCheck u f new = frameByType (counterTaken u f) f new := by
  rw [frameCheck_fits h]
  dsimp only
  rw [if_neg (not_not.2 hmac), if_neg (Nat.not_le.2 hnew)]
  rfl

theorem frameCheck_wrongMac (hmac : aesCmac (keyNow u) (f.take 36) ≠ f.drop 36) : frameCheck u f new = (sfEvent u 2 (wd 5), 5) := by
  rw [frameCheck_fits h]
  dsimp only
  rw [if_pos hmac]
  rfl

theorem frameCheck_oldCounter (hmac : aesCmac (keyNow u) (f.take 36) = f.drop 36) (hold : frField f 16 4 ≤ u.wr.fresh.toNat) :
    frameCheck u f new = (sfEvent u 2 (wd 6), 6) := by
  rw [frameCheck_fits h]
  dsimp only
  rw [if_neg (not_not.2 hmac), if_pos hold]
  rfl

end checks

/-! ## Frames by their type (R370 to R374) -/

section types

variable {s : State} {f : List Byte} {new : Bool}

theorem frameByType_write {m : Nat} (hty : frField f 0 2 = 1) (hm : rwsMask (frField f 20 4) = some m)
    (hbits : Nat.land (frField f 24 4) m = frField f 24 4) :
    frameByType s f new = (s.modWr fun x => { x with writes := x.writes ++ [(frField f 20 4, wd (frField f 24 4))] }, 0) := by
  simp only [frameByType, hty, hm]
  exact if_neg (not_not.2 hbits)

theorem frameByType_arm (hty : frField f 0 2 = 2) (hst : s.wr.state = 3) (hok : resetOk s = true) :
    frameByType s f new = (s.modWr fun x => { x with armed := some s.now }, 0) := by
  simp only [frameByType, hty]
  rw [if_neg (not_not.2 hst), if_neg (by rw [hok]; exact Bool.false_ne_true)]

theorem frameByType_confirm {ta : Nat} (hty : frField f 0 2 = 3) (harmed : s.wr.armed = some ta) (hst : s.wr.state = 3)
    (hok : resetOk s = true) (hmin : ta + wrRstMin s * msec ≤ s.now) (hmax : s.now ≤ ta + wrRstMax s * msec) :
    frameByType s f false = (s.modWr fun x => { x with confirm := true }, 0) := by
  simp only [frameByType, hty, harmed]
  rw [if_neg (by simp [hmin, hmax]), if_neg (by simp [hst, hok])]

theorem frameByType_early {ta : Nat} (hty : frField f 0 2 = 3) (harmed : s.wr.armed = some ta)
    (hearly : s.now < ta + wrRstMin s * msec) :
    frameByType s f new = (s.modWr fun x => { x with armed := none }, 11) := by
  simp only [frameByType, hty, harmed]
  rw [if_pos (by simp [hearly])]

theorem frameByType_labEnter (hty : frField f 0 2 = 4) (hst : s.wr.state = 1) (hlab : wrLabAllow s = true) (hstill : wrStill s = true) :
    frameByType s f new = (s.modWr fun x => { x with lab := true }, 0) := by
  simp only [frameByType, hty]
  rw [if_neg (by simp [hst, hlab]), if_neg (by simp [hstill])]

theorem frameByType_labExit (hty : frField f 0 2 = 5) : frameByType s f new = (s.modWr fun x => { x with lab := false }, 0) := by
  simp only [frameByType, hty]

/-- The key a frame brings in place of the held one. -/
def Wr.keyed (f : List Byte) (x : Wr) : Wr :=
  { x with key := some (aesDec (x.key.getD (List.replicate 16 0)) ((f.drop 20).take 16)), keyset := true }

theorem frameByType_sfkey (hty : frField f 0 2 = 6) (hst : s.wr.state = 0 ∨ s.wr.state = 3 ∧ wrStill s = true) :
    frameByType s f new = (s.modWr (Wr.keyed f), 0) := by
  simp only [frameByType, hty]
  rcases hst with h0 | ⟨h3, hstill⟩
  · rw [if_neg (by simp [h0]), if_neg (by simp [h0])]
    rfl
  · rw [if_neg (by simp [h3]), if_neg (by simp [hstill])]
    rfl

end types

/-! ## Frames that pass the checks (R369 to R374) -/

/-- A fitting frame with the right CMAC and a counter above the last. -/
structure FramePasses (u : State) (f : List Byte) : Prop where
  fits : FrameFits u f
  mac : aesCmac (keyNow u) (f.take 36) = f.drop 36
  counter : u.wr.fresh.toNat < frField f 16 4

/-- However the evaluation of the frame ends after its checks, Q holds then. -/
def FrameEnds (u : State) (f : List Byte) (new : Bool) (Q : State → Prop) : Prop :=
  ∃ v st, frameCheck u f new = (v, st) ∧ ∀ t, Settles u v f st t → Q t

/-- An accepted frame is answered and shown, and its counter is taken (R369). -/
def Took (u : State) (f : List Byte) (t : State) : Prop :=
  Answered t 0 [] ∧ (t.now = u.now ∧ t.wr.sfstat = statWord 0 f) ∧ t.wr.fresh = wd (frField f 16 4)

/-- What a refused frame answers and shows. -/
def Declined (u : State) (f : List Byte) (st : Nat) (t : State) : Prop :=
  Refused t st ∧ t.now = u.now ∧ t.wr.sfstat = statWord st f

theorem Settles.took {u v t : State} {f : List Byte} (h : Settles u v f 0 t) (hv : v.wr.fresh = wd (frField f 16 4)) : Took u f t :=
  ⟨h.answered, ⟨h.now, h.sfstat⟩, h.fresh.trans hv⟩

theorem Settles.declined {u v t : State} {f : List Byte} {st : Nat} (h : Settles u v f st t) (hst : st ≠ 0) : Declined u f st t :=
  ⟨h.refused hst, h.now, h.sfstat⟩

section passes

variable {u : State} {f : List Byte} {new : Bool} (h : FramePasses u f)

include h

theorem FramePasses.eq (new : Bool) : frameCheck u f new = frameByType (counterTaken u f) f new :=
  frameCheck_passes h.fits new h.mac h.counter

theorem write_ends {m : Nat} (hty : frField f 0 2 = 1) (hm : rwsMask (frField f 20 4) = some m)
    (hbits : Nat.land (frField f 24 4) m = frField f 24 4) :
    FrameEnds u f new fun t => Took u f t ∧ t.wr.writes = u.wr.writes ++ [(frField f 20 4, wd (frField f 24 4))] :=
  ⟨_, _, (h.eq new).trans (frameByType_write hty hm hbits), fun _ k => ⟨k.took rfl, k.writes⟩⟩

theorem arm_ends (hty : frField f 0 2 = 2) (hst : u.wr.state = 3) (hok : resetOk u = true) :
    FrameEnds u f new fun t => Took u f t ∧ t.wr.armed = some u.now ∧ t.wr.writes = u.wr.writes :=
  ⟨_, _, (h.eq new).trans (frameByType_arm hty hst hok), fun _ k => ⟨k.took rfl, k.armed, k.writes⟩⟩

theorem confirm_ends {ta : Nat} (hty : frField f 0 2 = 3) (harmed : u.wr.armed = some ta) (hnone : new = false)
    (hst : u.wr.state = 3) (hok : resetOk u = true) (hmin : ta + wrRstMin u * msec ≤ u.now) (hmax : u.now ≤ ta + wrRstMax u * msec) :
    FrameEnds u f new fun t => Took u f t ∧ t.wr.confirm = true := by
  rw [hnone]
  exact ⟨_, _, (h.eq false).trans (frameByType_confirm hty harmed hst hok hmin hmax), fun _ k => ⟨k.took rfl, k.confirm⟩⟩

theorem early_ends {ta : Nat} (hty : frField f 0 2 = 3) (harmed : u.wr.armed = some ta) (hearly : u.now < ta + wrRstMin u * msec) :
    FrameEnds u f new fun t => Declined u f 11 t ∧ t.wr.armed = none ∧ t.wr.confirm = u.wr.confirm :=
  ⟨_, _, (h.eq new).trans (frameByType_early hty harmed hearly), fun _ k => ⟨k.declined (by decide), k.armed, k.confirm⟩⟩

theorem labEnter_ends (hty : frField f 0 2 = 4) (hst : u.wr.state = 1) (hlab : wrLabAllow u = true) (hstill : wrStill u = true) :
    FrameEnds u f new fun t => Took u f t ∧ t.wr.lab = true :=
  ⟨_, _, (h.eq new).trans (frameByType_labEnter hty hst hlab hstill), fun _ k => ⟨k.took rfl, k.lab⟩⟩

theorem labExit_ends (hty : frField f 0 2 = 5) : FrameEnds u f new fun t => Took u f t ∧ t.wr.lab = false :=
  ⟨_, _, (h.eq new).trans (frameByType_labExit hty), fun _ k => ⟨k.took rfl, k.lab⟩⟩

theorem sfkey_ends (hty : frField f 0 2 = 6) (hst : u.wr.state = 0 ∨ u.wr.state = 3 ∧ wrStill u = true) :
    FrameEnds u f new fun t => Took u f t ∧ t.wr.key = some (aesDec (keyNow u) ((f.drop 20).take 16)) ∧ t.wr.keyset = true :=
  ⟨_, _, (h.eq new).trans (frameByType_sfkey hty hst), fun _ k => ⟨k.took rfl, k.key, k.keyset⟩⟩

end passes

/-! ## Frames that do not pass (R369) -/

theorem sfEvent_uncounted (s : State) (detail : Word) :
    (sfEvent s 2 detail).wr.uncounted = { s.wr with sfcnt := satInc s.wr.sfcnt }.uncounted := (sfEvent_stays s 2 detail).keeps

/-- A refused frame leaves the counter, what was accepted, the key and the lab state, and is counted. -/
def Discarded (u t : State) : Prop :=
  t.wr.fresh = u.wr.fresh ∧ t.wr.sfcnt = satInc u.wr.sfcnt ∧ bitOf t.wr.evt 2 = true ∧ t.wr.writes = u.wr.writes
    ∧ t.wr.key = u.wr.key ∧ t.wr.lab = u.wr.lab ∧ t.wr.confirm = u.wr.confirm

theorem Settles.discarded {u t : State} {f : List Byte} {st : Nat} {detail : Word} (h : Settles u (sfEvent u 2 detail) f st t) :
    Discarded u t := by
  have hevt := h.events 2 (sfEvent_sets u (by decide) detail)
  have hkeeps := sfEvent_uncounted u detail
  generalize sfEvent u 2 detail = v at h hkeeps
  exact ⟨h.fresh.trans (congrArg Wr.fresh hkeeps :), h.sfcnt.trans (congrArg Wr.sfcnt hkeeps :), hevt,
    h.writes.trans (congrArg Wr.writes hkeeps :), h.key.trans (congrArg Wr.key hkeeps :), h.lab.trans (congrArg Wr.lab hkeeps :),
    h.confirm.trans (congrArg Wr.confirm hkeeps :)⟩

theorem refused_ends {u : State} {f : List Byte} {new : Bool} {st : Nat} (h : FrameFits u f)
    (hbad : st = 5 ∧ aesCmac (keyNow u) (f.take 36) ≠ f.drop 36
      ∨ st = 6 ∧ aesCmac (keyNow u) (f.take 36) = f.drop 36 ∧ frField f 16 4 ≤ u.wr.fresh.toNat) :
    FrameEnds u f new fun t => Declined u f st t ∧ Discarded u t := by
  rcases hbad with ⟨rfl, hmac⟩ | ⟨rfl, hmac, hold⟩
  · exact ⟨_, _, frameCheck_wrongMac h new hmac, fun _ k => ⟨k.declined (by decide), k.discarded⟩⟩
  · exact ⟨_, _, frameCheck_oldCounter h new hmac hold, fun _ k => ⟨k.declined (by decide), k.discarded⟩⟩

/-! ## The six frame rows settled -/

section rows

variable {s : State} {f : List Byte} {ty : Nat} {c : Instr}

/-- A row whose frame is of its type is the evaluation that judges it, and ends as the frame came out. -/
theorem frameRow_runs {P Q : State → Prop} (hc : exec c s = .next (frameOfType s ty f)) (hruns : wrRuns s = true)
    (hty : frField f 0 2 = ty) (hends : FrameEnds (frameTaken s).1 f (frameTaken s).2 Q)
    (hP : ∀ t, Q t → OnlyChanges evalParts s t → P t) : Runs c s P := by
  obtain ⟨v, st, hcheck, hQ⟩ := hends
  exact ⟨frameDone s f, hc.trans (congrArg Host.Outcome.next (frameOfType_eq hruns hty)), hP _ (hQ _ (frameDone_settles hcheck))
    (frameDone_touches s f).onlyChanges⟩

/-- Each of the six rows takes frames of its type. -/
theorem frameRow_exec (h : (c, ty) ∈ [(Instr.safetyFrameWrite f, 1), (.resetArm f, 2), (.resetConfirm f, 3), (.labEnter f, 4),
      (.labExit f, 5), (.sfkey f, 6)])
    (s : State) : exec c s = .next (frameOfType s ty f) := by
  simp only [List.mem_cons, Prod.mk.injEq, List.not_mem_nil, or_false] at h
  rcases h with ⟨rfl, rfl⟩ | ⟨rfl, rfl⟩ | ⟨rfl, rfl⟩ | ⟨rfl, rfl⟩ | ⟨rfl, rfl⟩ | ⟨rfl, rfl⟩ <;> rfl

end rows

/-- Settles O52: a row's frame is judged in the state that step 1 and the frames before it left, and steps 3 to 5 leave what it
came to. -/
theorem safetyFramesActOnceAndInOrder : Obligations.SafetyFramesActOnceAndInOrder := by
  unfold Obligations.SafetyFramesActOnceAndInOrder
  intro f s hruns u key ty hlen hkey huid0 huid1 hnonce stat
  have hfits : FrameFits u f := ⟨hlen, hkey, huid0, huid1, hnonce⟩
  refine ⟨fun hmac hnew => ?passes, fun c hrow st hbad => ?refused⟩
  case passes =>
    have hpass : FramePasses u f := ⟨hfits, hmac, hnew⟩
    refine ⟨fun m hty hm hbits => ?write, fun hty hst hok => ?arm,
      fun ta hty harmed => ⟨fun hnone hst hok hmin hmax => ?confirm, fun hearly => ?early⟩,
      fun hty hst hlab hstill => ?labEnter, fun hty => ?labExit, fun hty hst => ?sfkey⟩
    case write =>
      exact frameRow_runs rfl hruns hty (write_ends hpass hty hm hbits) fun t ⟨htook, hwrites⟩ ht => ⟨htook, hwrites, ht⟩
    case arm =>
      exact frameRow_runs rfl hruns hty (arm_ends hpass hty hst hok) fun t ⟨htook, harm, hwrites⟩ ht => ⟨htook, harm, hwrites, ht⟩
    case confirm =>
      exact frameRow_runs rfl hruns hty (confirm_ends hpass hty harmed hnone hst hok hmin hmax)
        fun t ⟨htook, hconfirm⟩ ht => ⟨htook, hconfirm, ht⟩
    case early =>
      exact frameRow_runs rfl hruns hty (early_ends hpass hty harmed hearly)
        fun t ⟨⟨hrefused, hstat⟩, harm, hconfirm⟩ ht => ⟨hrefused, hstat, harm, hconfirm, ht⟩
    case labEnter =>
      exact frameRow_runs rfl hruns hty (labEnter_ends hpass hty hst hlab hstill) fun t ⟨htook, hin⟩ ht => ⟨htook, hin, ht⟩
    case labExit => exact frameRow_runs rfl hruns hty (labExit_ends hpass hty) fun t ⟨htook, hout⟩ ht => ⟨htook, hout, ht⟩
    case sfkey =>
      exact frameRow_runs rfl hruns hty (sfkey_ends hpass hty hst) fun t ⟨htook, hnewKey, hset⟩ ht => ⟨htook, hnewKey, hset, ht⟩
  case refused =>
    exact frameRow_runs (frameRow_exec hrow s) hruns rfl (refused_ends hfits hbad)
      fun t ⟨⟨hrefused, hstat⟩, hdiscarded⟩ _ => ⟨hrefused, hstat, hdiscarded⟩

end Sys2Proof.Machine
end

section
namespace Sys2Proof.Machine

/-! ## A step, and the state after reset -/

/-- Settles O1: both are the two branches of `step`. -/
theorem stepTakesTheFrontOrIdles : Obligations.StepTakesTheFrontOrIdles := by
  refine ⟨fun c rest s => rfl, fun s h => ?idles⟩
  case idles =>
    show step s = .next (idle s)
    unfold step
    rw [h]

/-- Settles O2: memory at reset lists nothing. -/
theorem resetKeepsTheInvariant : Obligations.ResetKeepsTheInvariant := ⟨rfl, rfl⟩

/-! ## What an operation makes of one unit among its kind -/

/-- From s to t unit n of a kind turns by f, every other unit of that kind stays, and nothing but the named parts differs. -/
structure Turns {α : Type} (kind : State → List α) (P : List Part) (n : Nat) (f : α → α) (s t : State) : Prop where
  touches : Touches P s t
  units : kind t = upd (kind s) n f

namespace Turns

variable {α : Type} {kind : State → List α} {P Q : List Part} {n : Nat} {f g : α → α} {s t u : State}

theorem refl (kind : State → List α) (P : List Part) (n : Nat) (s : State) : Turns kind P n id s s :=
  ⟨.refl P s, (List.modify_id n (kind s)).symm⟩

theorem mono (hQ : Q ⊆ P) (h : Turns kind Q n f s t) : Turns kind P n f s t := ⟨h.touches.mono hQ, h.units⟩

/-- One turn after another. -/
theorem andTurns (h : Turns kind P n f s t) (hQ : Q ⊆ P) (k : Turns kind Q n g t u) : Turns kind P n (g ∘ f) s u :=
  ⟨.after hQ k.touches h.touches, by rw [k.units, h.units, upd, upd, upd, List.modify_modify_eq]⟩

/-- An operation that leaves the kind, after the turn. -/
theorem andThen (h : Turns kind P n f s t) (hQ : Q ⊆ P) (k : Touches Q t u) (hk : kind u = kind t) : Turns kind P n f s u :=
  ⟨.after hQ k h.touches, hk.trans h.units⟩

/-- An operation that leaves the kind, before the turn. -/
theorem ofThen (k : Touches P s t) (hk : kind t = kind s) (hQ : Q ⊆ P) (h : Turns kind Q n f t u) : Turns kind P n f s u :=
  ⟨.after hQ h.touches k, by rw [h.units, hk]⟩

theorem own (h : Turns kind P n f s t) (hn : n < (kind s).length) (d : α) : (kind t).getD n d = f ((kind s).getD n d) := by
  rw [h.units]
  simp [upd, hn]

theorem other (h : Turns kind P n f s t) {k : Nat} (hk : k ≠ n) (d : α) : (kind t).getD k d = (kind s).getD k d := by
  rw [h.units]
  simp [upd, hk.symm]

theorem length_eq (h : Turns kind P n f s t) : (kind t).length = (kind s).length := by
  rw [h.units, upd, List.length_modify]

end Turns

/-- What leaves a kind of units turns none of them. -/
theorem Touches.turns {α : Type} {kind : State → List α} {P : List Part} {s t : State} (h : Touches P s t) (hk : kind t = kind s)
    (n : Nat) : Turns kind P n id s t := (Turns.refl kind P n s).andThen (List.Subset.refl P) h hk

/-- The frame of a command that brings the time forward and then touches no more than the parts named. -/
theorem Touches.afterTime {P Q : List Part} {s t : State} {n : Nat} (hnow : .now ∈ Q) (hP : P ⊆ Q) (h : Touches P (s.advanceTo n) t) :
    Touches Q s t := .after hP h (.mono (by simpa using hnow) (advanceTo_touches s n))

end Sys2Proof.Machine
end

section
namespace Sys2Proof.Machine

/-! ## What an operation makes of one charge port -/

/-- What the operations of a charge port touch beside the time and the answer: the ports, and what an offered value touches. -/
def chargeParts : List Part := .ports :: offerParts

theorem Inv.ports_length {s : State} (h : Inv s) : s.ports.length = 2 := (congrArg (fun l => nth l 22) h.2 :)

/-- Port p turns by f, and beside it nothing but the named parts. -/
abbrev TurnsPort (P : List Part) (p : Nat) (f : Port_ → Port_) (s t : State) : Prop := Turns State.ports P p f s t

theorem Turns.portAt_eq {P : List Part} {p : Nat} {f : Port_ → Port_} {s t : State} (h : TurnsPort P p f s t)
    (hp : p < s.ports.length) : portAt t p = f (portAt s p) := h.own hp _

theorem Turns.portAt_other {P : List Part} {p : Nat} {f : Port_ → Port_} {s t : State} (h : TurnsPort P p f s t) {k : Nat}
    (hk : k ≠ p) : portAt t k = portAt s k := h.other hk _

theorem modPort_turns (s : State) (p : Nat) (f : Port_ → Port_) : TurnsPort [.ports] p f s (s.modPort p f) :=
  ⟨modPort_touches s p f, rfl⟩

/-- A port but for the outputs it offers. -/
def Port_.course (x : Port_) : Port_ := { x with en := false, iset := 0, vset := 0 }

theorem Port_.course_phase {x y : Port_} (h : x.course = y.course) : x.phase = y.phase := (congrArg Port_.phase h :)

theorem offerInt_touches (s : State) (n : Nat) (m : Int) : Touches offerParts s (offerInt s n m) := offer_touches s n m _

/-- What an offered output makes of its port: the output is noted, the course stays. -/
theorem offered_turns (s : State) (p n : Nat) (m : Int) (f : Port_ → Port_) :
    TurnsPort chargeParts p f s (offerInt (s.modPort p f) n m) :=
  ((modPort_turns s p f).mono (by decide)).andThen (by decide) (offerInt_touches _ n m)
    ((offerInt_touches (s.modPort p f) n m).agree .ports (by decide))

theorem chOfferEn_turns (s : State) (p : Nat) (en : Bool) :
    TurnsPort chargeParts p (fun x => { x with en := en }) s (chOfferEn s p en) := offered_turns s p _ _ _

/-- The three outputs offered leave the port's course, and every other port (R406, R407). -/
theorem chOffer_turns (s : State) (p : Nat) :
    ∃ f, TurnsPort chargeParts p f s (chOffer s p) ∧ ∀ x, (f x).course = x.course := by
  by_cases h : ((chRec s p).isNone || !s.sys.ready) = true
  · rw [chOffer, if_pos h]
    exact ⟨id, .refl _ _ p s, fun _ => rfl⟩
  · rw [chOffer, if_neg h]
    exact ⟨_, ((chOfferEn_turns s p _).andTurns (List.Subset.refl _) (offered_turns _ p _ _ _)).andTurns
      (List.Subset.refl _) (offered_turns _ p _ _ _), fun _ => rfl⟩

/-- ENBUOY dropped leaves the port's course, and every other port (R406). -/
theorem chDrop_turns (s : State) (p : Nat) :
    ∃ f, TurnsPort chargeParts p f s (chDrop s p) ∧ ∀ x, (f x).course = x.course := by
  unfold chDrop
  split
  · exact ⟨_, chOfferEn_turns s p false, fun _ => rfl⟩
  · exact ⟨id, .refl _ _ p s, fun _ => rfl⟩

/-- A port on which a cause has been noted. -/
def Port_.noted (cause : Nat) (x : Port_) : Port_ := { x with evt := orBit x.evt cause }

/-- An event of a port sets its bit and touches what counting it does. -/
theorem portCounted_turns (s : State) (p cause : Nat) (e : Ev) :
    TurnsPort (traced [.ports]) p (Port_.noted cause) s (countEvent (s.modPort p (Port_.noted cause)) e) :=
  ((modPort_turns s p _).mono (by decide)).andThen (by decide) (countEvent_touches _ e) ((countEvent_touches _ e).agree .ports (by decide))

theorem chEvent_turns (s : State) (p cause : Nat) (detail : Word) :
    TurnsPort (traced [.ports]) p (Port_.noted cause) s (chEvent s p cause detail) := portCounted_turns s p cause _

theorem chInlost_turns (s : State) (p buoy : Nat) : TurnsPort (traced [.ports]) p (Port_.noted 4) s (chInlost s p buoy) :=
  portCounted_turns s p 4 _

/-- A port as it enters FAULT (R412, R414). -/
def Port_.faulted (cause : Nat) (x : Port_) : Port_ :=
  Port_.noted cause { x with heldPh := if x.phase = 7 then x.heldPh else x.phase, phase := 9, lastEnd := 3 }

theorem chFault_turns (s : State) (p cause : Nat) (detail : Word) :
    ∃ f, TurnsPort chargeParts p f s (chFault s p cause detail) ∧ ∀ x, (f x).course = (x.faulted cause).course := by
  obtain ⟨f, hf, hcourse⟩ := chDrop_turns (chEvent (s.modPort p fun x =>
    { x with heldPh := if x.phase = 7 then x.heldPh else x.phase, phase := 9, lastEnd := 3 }) p cause detail) p
  exact ⟨_, (((modPort_turns s p _).mono (by decide)).andTurns (by decide) (chEvent_turns _ p cause detail)).andTurns
    (List.Subset.refl _) hf, fun x => hcourse _⟩

/-! ## The evaluation of a port (R409, R410, R413) -/

/-- Whether a port is in a session: TRICKLE to TAPER, or HOLD. -/
def Port_.session (x : Port_) : Prop := (1 ≤ x.phase ∧ x.phase ≤ 5) ∨ x.phase = 7

/-- What the timers of an evaluation make of a port: it keeps its phase, and a session's real timer is 1 ms further unless a
hand-over stops it. -/
structure Timed (stopped : Prop) (x y : Port_) : Prop where
  phase : y.phase = x.phase
  heldPh : y.heldPh = x.heldPh
  evalAt : y.evalAt = x.evalAt
  fact : y.fact = x.fact
  treal : x.session → ¬stopped → y.treal = x.treal + 1

theorem chTimers_timed (s : State) (p : Nat) :
    ∃ f, chTimers s p = s.modPort p f ∧ Timed (p = 1 ∧ s.ac.handover = true) (portAt s p) (f (portAt s p)) := by
  by_cases h : (!((decide (1 ≤ (portAt s p).phase) && decide ((portAt s p).phase ≤ 5)) || decide ((portAt s p).phase = 7))
      || (decide (p = 1) && s.ac.handover)) = true
  · refine ⟨id, (if_pos h).trans (congrArg (fun v => { s with ports := v }) (List.modify_id p s.ports).symm), rfl, rfl, rfl, rfl, fun hin hrun => ?_⟩
    simp only [Bool.or_eq_true, Bool.and_eq_true, Bool.not_eq_true', Bool.or_eq_false_iff, decide_eq_true_eq] at h
    rcases h with ⟨hout, h7⟩ | hstop
    · simp at hout h7
      rcases hin with hin | hin <;> omega
    · exact absurd hstop hrun
  · exact ⟨_, if_neg h, rfl, rfl, rfl, rfl, fun _ _ => rfl⟩

/-- What the transitions of an evaluation make of a port whose first unusable input buoy, voltage and level of regulation are
given (R409, R410). -/
structure Transits (bad : Option Nat) (v vreg : Rat) (x y : Port_) : Prop where
  evalAt : y.evalAt = x.evalAt
  fact : y.fact = x.fact
  treal : x.session → y.treal = x.treal
  rests : x.phase = 0 ∨ x.phase = 9 → y.phase = x.phase
  holds : ∀ b, 1 ≤ x.phase → x.phase ≤ 5 → bad = some b → y.phase = 7 ∧ y.heldPh = x.phase ∧ bitOf y.evt 4 = true
  regulates : x.phase = 3 → bad = none → vreg ≤ v → y.phase = 4
  charges : x.phase = 3 → bad = none → v < vreg → y.phase = 3
  resumes : x.phase = 7 → bad = none → y.phase = x.heldPh
  keepsHold : x.phase = 7 → bad ≠ none → y.phase = 7

/-- A port that takes no transition. -/
theorem Transits.refl {bad : Option Nat} {v vreg : Rat} {x : Port_} (h1 : ¬(1 ≤ x.phase ∧ x.phase ≤ 5 ∧ bad.isSome))
    (h3 : x.phase = 3 → v < vreg) (h7 : x.phase = 7 → bad ≠ none) : Transits bad v vreg x x where
  evalAt := rfl
  fact := rfl
  treal _ := rfl
  rests _ := rfl
  holds _ h h' hb := absurd ⟨h, h', hb ▸ rfl⟩ h1
  regulates h _ hv := absurd hv (not_le.2 (h3 h))
  charges h _ _ := h
  resumes h hb := absurd hb (h7 h)
  keepsHold h _ := h

/-- A port that leaves its phase on another ground than a bad input. -/
theorem Transits.moved {bad : Option Nat} {v vreg : Rat} {x y : Port_} (hat : y.evalAt = x.evalAt ∧ y.fact = x.fact)
    (htreal : x.session → y.treal = x.treal) (hrest : x.phase ≠ 0 ∧ x.phase ≠ 9)
    (hgood : ¬(1 ≤ x.phase ∧ x.phase ≤ 5 ∧ bad.isSome)) (h3 : x.phase = 3 → vreg ≤ v ∧ y.phase = 4)
    (h7 : x.phase = 7 → bad = none ∧ y.phase = x.heldPh) : Transits bad v vreg x y where
  evalAt := hat.1
  fact := hat.2
  treal := htreal
  rests h := absurd h (by omega)
  holds _ h h' hb := absurd ⟨h, h', hb ▸ rfl⟩ hgood
  regulates h _ _ := (h3 h).2
  charges h _ hv := absurd hv (not_lt.2 (h3 h).1)
  resumes h _ := (h7 h).2
  keepsHold h hb := absurd (h7 h).1 hb

/-- A port whose input has become unusable goes on HOLD (R410). -/
theorem chTransit_hold {s : State} {p : Nat}
    (h : (decide (1 ≤ (portAt s p).phase) && decide ((portAt s p).phase ≤ 5) && (chBad s p).isSome) = true) :
    ∃ f, TurnsPort (traced [.ports]) p f s (chTransit s p)
      ∧ Transits (chBad s p) (chV s p) (chVreg s p) (portAt s p) (f (portAt s p)) := by
  have hph : 1 ≤ (portAt s p).phase ∧ (portAt s p).phase ≤ 5 := by simpa [and_assoc] using (Bool.and_eq_true_iff.1 h).1
  have hsome : (chBad s p).isSome = true := (Bool.and_eq_true_iff.1 h).2
  refine ⟨_, (congrArg (TurnsPort _ p _ s) (if_pos h)).mpr <|
    ((modPort_turns s p _).mono (by decide)).andTurns (List.Subset.refl _) (chInlost_turns _ p _), ?_⟩
  exact
    { evalAt := rfl, fact := rfl, treal := fun _ => rfl
      rests := fun k => absurd k (by omega)
      holds := fun _ _ _ _ => ⟨rfl, rfl, bitOf_of_eq_orBit rfl (by decide)⟩
      regulates := fun _ hb => absurd hsome (by simp [hb])
      charges := fun _ hb => absurd hsome (by simp [hb])
      resumes := fun k => absurd k (by omega)
      keepsHold := fun _ _ => rfl }

/-- What the transitions of an evaluation make of their port (R409, R410, R414). -/
theorem chTransit_turns (s : State) (p : Nat) :
    ∃ f, TurnsPort (traced [.ports]) p f s (chTransit s p)
      ∧ Transits (chBad s p) (chV s p) (chVreg s p) (portAt s p) (f (portAt s p)) := by
  by_cases h : (decide (1 ≤ (portAt s p).phase) && decide ((portAt s p).phase ≤ 5) && (chBad s p).isSome) = true
  · exact chTransit_hold h
  have hgood : ¬(1 ≤ (portAt s p).phase ∧ (portAt s p).phase ≤ 5 ∧ (chBad s p).isSome) := by simpa [and_assoc] using h
  have turn (f : Port_ → Port_) : TurnsPort (traced [.ports]) p f s (s.modPort p f) := (modPort_turns s p f).mono (by decide)
  have stay : TurnsPort (traced [.ports]) p id s s := .refl _ _ p s
  have moved {y : Port_} := @Transits.moved (chBad s p) (chV s p) (chVreg s p) (portAt s p) y
  have notSession (k : (portAt s p).phase = 6 ∨ (portAt s p).phase = 8) : ¬(portAt s p).session := by
    unfold Port_.session
    omega
  have stayed (h3 : (portAt s p).phase = 3 → chV s p < chVreg s p) (h7 : (portAt s p).phase = 7 → chBad s p ≠ none) :
      ∃ f, TurnsPort (traced [.ports]) p f s s ∧ Transits (chBad s p) (chV s p) (chVreg s p) (portAt s p) (f (portAt s p)) :=
    ⟨id, stay, .refl hgood h3 h7⟩
  unfold chTransit
  rw [if_neg h]
  dsimp only
  split
  case h_1 k => exact ⟨_, turn _, moved ⟨rfl, rfl⟩ (fun _ => rfl) (by omega) hgood (by omega) (by omega)⟩
  case h_2 k => exact ⟨_, turn _, moved ⟨rfl, rfl⟩ (fun _ => rfl) (by omega) hgood (by omega) (by omega)⟩
  case h_3 k =>
    split
    · exact ⟨_, turn _, moved ⟨rfl, rfl⟩ (fun _ => rfl) (by omega) hgood (fun _ => ⟨‹_›, rfl⟩) (by omega)⟩
    · exact stayed (fun _ => not_le.1 ‹_›) (by omega)
  case h_4 k =>
    split
    · exact ⟨_, turn _, moved ⟨rfl, rfl⟩ (fun _ => rfl) (by omega) hgood (by omega) (by omega)⟩
    · exact stayed (by omega) (by omega)
  case h_5 k =>
    split
    · exact ⟨_, turn _, moved ⟨rfl, rfl⟩ (fun _ => rfl) (by omega) hgood (by omega) (by omega)⟩
    · exact stayed (by omega) (by omega)
  case h_6 k =>
    split
    · exact ⟨_, turn _, moved ⟨rfl, rfl⟩ (fun g => absurd g (notSession (.inl k))) (by omega) hgood (by omega) (by omega)⟩
    · exact stayed (by omega) (by omega)
  case h_7 k =>
    split
    · exact ⟨_, turn _, moved ⟨rfl, rfl⟩ (fun _ => rfl) (by omega) hgood (by omega) fun _ => ⟨Option.isNone_iff_eq_none.1 ‹_›, rfl⟩⟩
    · exact stayed (by omega) fun _ hb => absurd (Option.isNone_iff_eq_none.2 hb) ‹_›
  case h_8 k =>
    split
    · exact ⟨_, turn _, moved ⟨rfl, rfl⟩ (fun g => absurd g (notSession (.inr k))) (by omega) hgood (by omega) (by omega)⟩
    · exact stayed (by omega) (by omega)
  case h_9 => exact stayed (fun k => absurd k ‹_›) fun k => absurd k ‹_›

end Sys2Proof.Machine
end

section
namespace Sys2Proof.Machine

/-! ## CHARGE_EVALUATION -/

/-- The cycle of a port's next evaluation (R406). -/
def chDue (s : State) (p : Nat) : Nat := (if (portAt s p).evalAt = 0 then s.t0.getD 0 else (portAt s p).evalAt) + msec

/-- A port as an evaluation at a cycle finds it: that cycle and the throttling noted. -/
def Port_.evaluatedAt (s : State) (x : Port_) : Port_ := { x with evalAt := s.now, fact := s.lamp.fCs, limch := s.lamp.limch }

/-- What an evaluation makes of its port: noted, timed, in the phase its transition gives, outputs offered. -/
structure Evaluated (s1 : State) (p : Nat) (x y : Port_) : Prop where
  evalAt : y.evalAt = s1.now
  fact : y.fact = s1.lamp.fCs
  treal : x.session → ¬(p = 1 ∧ s1.ac.handover = true) → y.treal = x.treal + 1
  transits : ∃ x', x'.phase = x.phase ∧ x'.heldPh = x.heldPh ∧ Transits (chBad s1 p) (chV s1 p) (chVreg s1 p) x' y

theorem Port_.session.of_phase {x y : Port_} (hx : x.session) (h : y.phase = x.phase) : y.session := by
  rwa [Port_.session, h]

/-- Outputs offered change nothing of a transition. -/
theorem Transits.of_course {bad : Option Nat} {v vreg : Rat} {x y z : Port_} (h : Transits bad v vreg x y) (hz : z.course = y.course) :
    Transits bad v vreg x z := by
  have hphase : z.phase = y.phase := (congrArg Port_.phase hz :)
  have hheld : z.heldPh = y.heldPh := (congrArg Port_.heldPh hz :)
  have hevt : z.evt = y.evt := (congrArg Port_.evt hz :)
  obtain ⟨h1, h2, h3, h4, h5, h6, h7, h8, h9⟩ := h
  rw [← hphase] at h4 h5 h6 h7 h8 h9
  rw [← hheld, ← hevt] at h5
  exact ⟨(congrArg Port_.evalAt hz :).trans h1, (congrArg Port_.fact hz :).trans h2,
    fun k => (congrArg Port_.treal hz :).trans (h3 k), h4, h5, h6, h7, h8, h9⟩

theorem chargeEvaluation_turns {s : State} {p : Fin 2} (hinv : Inv s) (hready : s.sys.ready = true)
    (hrec : (chRec s p.val).isSome = true) :
    ∃ t f, exec (.chargeEvaluation p) s = .next t ∧ TurnsPort chargeParts p.val f (s.advanceTo (chDue s p.val)) t
      ∧ Evaluated (s.advanceTo (chDue s p.val)) p.val (portAt s p.val) (f (portAt s p.val)) := by
  let s1 := s.advanceTo (chDue s p.val)
  let s2 := s1.modPort p.val (Port_.evaluatedAt s1)
  have hbar : ¬(!s.sys.ready || (chRec s p.val).isNone) = true := by
    rw [hready, Option.isNone_eq_false_iff.2 hrec]
    decide
  have hexec : exec (.chargeEvaluation p) s = .next (chOffer (chTransit (chTimers s2 p.val) p.val) p.val) :=
    congrArg Host.Outcome.next (if_neg hbar)
  have hat : portAt s2 p.val = (portAt s p.val).evaluatedAt s1 :=
    (modPort_turns s1 p.val _).portAt_eq (p.isLt.trans_eq hinv.ports_length.symm)
  obtain ⟨f, hf, hfphase, hfheld, hfat, hffact, hftreal⟩ := chTimers_timed s2 p.val
  rw [hf] at hexec
  obtain ⟨g, hg, hmove⟩ := chTransit_turns (s2.modPort p.val f) p.val
  obtain ⟨k, hk, hcourse⟩ := chOffer_turns (chTransit (s2.modPort p.val f) p.val) p.val
  have hat' : portAt (s2.modPort p.val f) p.val = f (portAt s2 p.val) :=
    (modPort_turns s2 p.val f).portAt_eq (by simpa [s2, s1, upd] using p.isLt.trans_eq hinv.ports_length.symm)
  rw [hat', hat] at hmove
  rw [hat] at hfphase hfheld hfat hffact hftreal
  have hoffered := hmove.of_course (hcourse _)
  refine ⟨_, _, hexec, (((modPort_turns s1 p.val _).mono (by decide)).andTurns
      (by decide) (modPort_turns s2 p.val f)).andTurns (by decide) hg |>.andTurns (List.Subset.refl _) hk, ?_⟩
  exact
    { evalAt := hoffered.evalAt.trans hfat
      fact := hoffered.fact.trans hffact
      treal := fun hin hrun => (hoffered.treal (hin.of_phase hfphase)).trans (hftreal hin hrun)
      transits := ⟨_, hfphase, hfheld, hoffered⟩ }

/-! ## Timers that run out (R409, R412 to R414) -/

/-- The pre-charge timer of a port in TRICKLE, PRE or HOLD from either runs out: FAULT (R412). -/
theorem pretmo_turns {s : State} {p : Fin 2} (hrec : (chRec s p.val).isSome = true) (hrun : ¬(p.val = 1 ∧ s.ac.handover = true))
    (hph : (portAt s p.val).phase = 1 ∨ (portAt s p.val).phase = 2
      ∨ ((portAt s p.val).phase = 7 ∧ ((portAt s p.val).heldPh = 1 ∨ (portAt s p.val).heldPh = 2))) :
    ∃ t f, exec (.pretmo p) s = .next t
      ∧ TurnsPort chargeParts p.val f (s.advanceTo ((portAt s p.val).evalAt + (fld (chW s p.val 12) 31 16 * 60000 - (portAt s p.val).tpre) * msec)) t
      ∧ ∀ x, ∃ x', (f x).course = (Port_.faulted 1 x').course := by
  have hbar : ¬((chRec s p.val).isNone
      || !(decide ((if (portAt s p.val).phase = 7 then (portAt s p.val).heldPh else (portAt s p.val).phase) = 1)
        || decide ((if (portAt s p.val).phase = 7 then (portAt s p.val).heldPh else (portAt s p.val).phase) = 2))
      || (decide (p.val = 1) && s.ac.handover)) = true := by
    have hnone : (chRec s p.val).isNone = false := Option.isNone_eq_false_iff.2 hrec
    have hpre : (if (portAt s p.val).phase = 7 then (portAt s p.val).heldPh else (portAt s p.val).phase) = 1
        ∨ (if (portAt s p.val).phase = 7 then (portAt s p.val).heldPh else (portAt s p.val).phase) = 2 := by
      rcases hph with h | h | ⟨h, h' | h'⟩ <;> simp [*]
    simpa [hnone, or_iff_not_imp_left] using ⟨or_iff_not_imp_left.1 hpre, fun h1 => by simpa [h1] using hrun⟩
  obtain ⟨f, hf, hcourse⟩ := chFault_turns ((s.advanceTo ((portAt s p.val).evalAt
    + (fld (chW s p.val 12) 31 16 * 60000 - (portAt s p.val).tpre) * msec)).modPort p.val
      fun x => { x with tpre := max x.tpre (fld (chW s p.val 12) 31 16 * 60000) }) p.val 1 (wd (portAt s p.val).phase)
  exact ⟨_, _, congrArg Host.Outcome.next (if_neg hbar),
    ((modPort_turns _ p.val _).mono (by decide)).andTurns (List.Subset.refl _) hf, fun x => ⟨_, hcourse _⟩⟩

/-- A port without a charge left to give, or too long in its session: what its course says of it (R413, R414). -/
structure Expired (full : Prop) (x y : Port_) : Prop where
  faults : full → y.phase = 9 ∧ y.lastEnd = 3 ∧ bitOf y.evt 2 = true
  secondTime : ¬full → x.retried = true → y.phase = 9 ∧ y.lastEnd = 3 ∧ bitOf y.evt 3 = true
  firstTime : ¬full → x.retried = false → y.phase = 8 ∧ y.coolCh = x.limch ∧ bitOf y.evt 3 = true

/-- What a FAULT shows of its port. -/
theorem Port_.faulted_shows {x y : Port_} {cause : Nat} (h : y.course = (x.faulted cause).course) (hc : cause < 32) :
    y.phase = 9 ∧ y.lastEnd = 3 ∧ bitOf y.evt cause = true :=
  ⟨(congrArg Port_.phase h :), (congrArg Port_.lastEnd h :), bitOf_of_eq_orBit (congrArg Port_.evt h :) hc⟩

theorem totalTimerExpiry_turns {s : State} {p : Fin 2} (hrec : (chRec s p.val).isSome = true)
    (hrun : ¬(p.val = 1 ∧ s.ac.handover = true)) (hin : (portAt s p.val).session) (hexp : chExpired s p.val = true)
    (hdone : chTermDone s p.val = false) :
    ∃ t f, exec (.totalTimerExpiry p) s = .next t ∧ TurnsPort chargeParts p.val f s t
      ∧ Expired (65536 ≤ (portAt s p.val).fact) (portAt s p.val) (f (portAt s p.val)) := by
  have hbar : ¬((chRec s p.val).isNone
      || !((decide (1 ≤ (portAt s p.val).phase) && decide ((portAt s p.val).phase ≤ 5)) || decide ((portAt s p.val).phase = 7))
      || !chExpired s p.val || (decide (p.val = 1) && s.ac.handover)) = true := by
    have hnone : (chRec s p.val).isNone = false := Option.isNone_eq_false_iff.2 hrec
    have hph : ((decide (1 ≤ (portAt s p.val).phase) && decide ((portAt s p.val).phase ≤ 5)) || decide ((portAt s p.val).phase = 7)) = true := by
      simpa [Port_.session] using hin
    have hhand : (decide (p.val = 1) && s.ac.handover) = false := by simpa using hrun
    rw [hnone, hph, hexp, hhand]
    decide
  have hgo : exec (.totalTimerExpiry p) s = _ := congrArg Host.Outcome.next ((if_neg hbar).trans (if_neg (by simp [hdone])))
  by_cases hfull : 65536 ≤ (portAt s p.val).fact
  · obtain ⟨f, hf, hcourse⟩ := chFault_turns s p.val 2 (wd (min 65535 ((portAt s p.val).treal / 60000) * 65536
      + min 65535 ((portAt s p.val).tcred / 60000).floor.toNat))
    exact ⟨_, f, hgo.trans (congrArg Host.Outcome.next (if_pos hfull)), hf, fun _ => Port_.faulted_shows (hcourse _) (by decide),
      fun k => absurd hfull k, fun k => absurd hfull k⟩
  · by_cases hretried : (portAt s p.val).retried = true
    · obtain ⟨f, hf, hcourse⟩ := chFault_turns s p.val 3 (wd (256 + (portAt s p.val).limch))
      exact ⟨_, f, hgo.trans (congrArg Host.Outcome.next ((if_neg hfull).trans (if_pos hretried))), hf, fun k => absurd k hfull,
        fun _ _ => Port_.faulted_shows (hcourse _) (by decide), fun _ k => absurd hretried (by simp [k])⟩
    · obtain ⟨f, hf, hcourse⟩ := chDrop_turns (chEvent (s.modPort p.val fun x => { x with phase := 8, coolCh := x.limch }) p.val 3
        (wd (portAt s p.val).limch)) p.val
      refine ⟨_, _, hgo.trans (congrArg Host.Outcome.next ((if_neg hfull).trans (if_neg hretried))),
        (((modPort_turns s p.val _).mono (by decide)).andTurns (by decide) (chEvent_turns _ p.val 3 _)).andTurns
          (List.Subset.refl _) hf, fun k => absurd k hfull, fun _ k => absurd k hretried, fun _ _ => ?_⟩
      have hz := hcourse (Port_.noted 3 { portAt s p.val with phase := 8, coolCh := (portAt s p.val).limch })
      exact ⟨(congrArg Port_.phase hz :), (congrArg Port_.coolCh hz :), bitOf_of_eq_orBit (congrArg Port_.evt hz :) (by decide)⟩

/-- The termination timer ends a session in DONE (R409). -/
theorem chDone_turns (s : State) (p : Nat) :
    ∃ f, TurnsPort chargeParts p f s (chDone s p) ∧ ∀ x, (f x).phase = 6 := by
  obtain ⟨f, hf, hcourse⟩ := chDrop_turns (s.modPort p fun x => { x with phase := 6 }) p
  exact ⟨_, ((modPort_turns s p _).mono (by decide)).andTurns (List.Subset.refl _) hf,
    fun x => Port_.course_phase (hcourse { x with phase := 6 })⟩

/-! ## Commands (R422) -/

/-- The answer to a command of a port or of the AC port. -/
structure ChAnswered (st port : Nat) (t : State) : Prop where
  stat : t.ac.cmdStat = wd (st * 2 ^ 24 + port)
  ok : st = 0 → Answered t 0 []
  refused : st ≠ 0 → Refused t st

theorem chAnswer_answers (s : State) (port st : Nat) : ChAnswered st port (chAnswer s port st) := by
  unfold chAnswer
  split
  · exact ⟨rfl, fun _ => rfl, fun h => absurd ‹_› h⟩
  · exact ⟨rfl, fun h => absurd h ‹_›, fun _ => rfl⟩

theorem chAnswer_touches (s : State) (port st : Nat) : Touches [.acc, .ac] s (chAnswer s port st) := by
  have hnoted : Touches [.acc, .ac] s (s.modAc fun x => { x with cmdStat := wd (st * 2 ^ 24 + port) }) :=
    (ac_touches s _).mono (by decide)
  exact .ite (fun _ => .after (by decide) (acc_touches _ _) hnoted) fun _ => .after (by decide) (acc_touches _ _) hnoted

/-- An answered command leaves the ports as what it did before left them. -/
theorem chAnswer_turns {P : List Part} {p : Nat} {f : Port_ → Port_} {s t : State} (hP : [.acc, .ac] ⊆ P) (h : TurnsPort P p f s t)
    (port st : Nat) : TurnsPort P p f s (chAnswer t port st) :=
  h.andThen hP (chAnswer_touches t port st) ((chAnswer_touches t port st).agree .ports (by decide))

end Sys2Proof.Machine
end

section
namespace Sys2Proof.Machine

/-- START begins a session where its status is 0, and leaves the ports where it is refused (R409, R422). -/
theorem chStart_turns (s : State) (p : Nat) :
    ∃ f, TurnsPort [.acc, .ports, .ac] p f s (chStart s p) ∧ ChAnswered (chStartStatus s p) p (chStart s p)
      ∧ (chStartStatus s p = 0 → ∀ x, (f x).phase = chStartPhase s p ∧ (f x).tcred = 0 ∧ (f x).treal = 0 ∧ (f x).tpre = 0
        ∧ (f x).retried = false)
      ∧ (chStartStatus s p ≠ 0 → (chStart s p).ports = s.ports) := by
  by_cases h : chStartStatus s p = 0
  · have heq : chStart s p = chAnswer (chBegin s p false) p (chStartStatus s p) := congrArg (chAnswer · p _) (if_pos h)
    rw [heq]
    exact ⟨_, chAnswer_turns (by decide) ((modPort_turns s p _).mono (by decide)) _ _, chAnswer_answers _ _ _,
      fun _ x => ⟨rfl, rfl, rfl, rfl, rfl⟩, fun k => absurd h k⟩
  · have heq : chStart s p = chAnswer s p (chStartStatus s p) := congrArg (chAnswer · p _) (if_neg h)
    rw [heq]
    exact ⟨id, chAnswer_turns (by decide) (.refl _ _ p s) _ _, chAnswer_answers _ _ _, fun k => absurd k h,
      fun _ => (chAnswer_touches _ _ _).agree .ports (by decide)⟩

theorem modAc_touches (s : State) (f : Ac → Ac) : Touches [.ac] s (s.modAc f) := ac_touches s _

/-- Whether STOP meets the hand-over ramp in the evaluation of the source loss (R418, R423). -/
def stopsRamp (s : State) (p : Nat) : Prop :=
  p = 1 ∧ s.ac.handover = true ∧ s.ac.ramping = true ∧ (portAt s p).evalAt ≤ s.ac.lossAt

/-- What STOP makes of its port (R422). -/
structure Stopped (ramp : Prop) (x y : Port_) : Prop where
  ends : x.phase ≠ 9 → x.phase ≠ 0 → ¬ramp → y.phase = 0 ∧ y.lastEnd = 1
  idles : x.phase = 0 → ¬ramp → y.phase = 0 ∧ y.lastEnd = x.lastEnd

/-- A port that STOP takes to IDLE. -/
def Port_.stopped (x : Port_) : Port_ := { x with phase := 0, lastEnd := if x.phase = 0 then x.lastEnd else 1 }

theorem Port_.stopped_spec (ramp : Prop) {x y : Port_} (h : y.course = x.stopped.course) : Stopped ramp x y where
  ends _ h0 _ := ⟨(congrArg Port_.phase h :), (congrArg Port_.lastEnd h :).trans (if_neg h0)⟩
  idles h0 _ := ⟨(congrArg Port_.phase h :), (congrArg Port_.lastEnd h :).trans (if_pos h0)⟩

/-- ENBUOY offered where the port is in use. -/
theorem offeredEn_turns (s : State) (p : Nat) (c : Bool) (en : Bool) :
    ∃ f, TurnsPort chargeParts p f s (if c then chOfferEn s p en else s) ∧ ∀ x, (f x).course = x.course := by
  split
  · exact ⟨_, chOfferEn_turns s p en, fun _ => rfl⟩
  · exact ⟨id, .refl _ _ p s, fun _ => rfl⟩

theorem chStop_turns (s : State) (p : Nat) :
    ∃ f st, TurnsPort (.acc :: chargeParts) p f s (chStop s p) ∧ ChAnswered st p (chStop s p)
      ∧ ((portAt s p).phase = 9 → st = 1 ∧ (chStop s p).ports = s.ports) ∧ ((portAt s p).phase ≠ 9 → st = 0)
      ∧ Stopped (stopsRamp s p) (portAt s p) (f (portAt s p)) := by
  have hac (t : State) (f : Ac → Ac) : Touches (.acc :: chargeParts) t (t.modAc f) := (modAc_touches t f).mono (by decide)
  by_cases hfault : (portAt s p).phase = 9
  · rw [show chStop s p = chAnswer s p 1 from if_pos hfault]
    exact ⟨id, 1, chAnswer_turns (by decide) (.refl _ _ p s) _ _, chAnswer_answers _ _ _,
      fun _ => ⟨rfl, (chAnswer_touches _ _ _).agree .ports (by decide)⟩, fun k => absurd hfault k,
      fun k => absurd hfault k, fun k => absurd (hfault.symm.trans k) (by decide)⟩
  by_cases hr : (decide (p = 1) && s.ac.handover && s.ac.ramping && decide ((portAt s p).evalAt ≤ s.ac.lossAt)) = true
  · have hramp : stopsRamp s p := by simpa [stopsRamp, and_assoc] using hr
    obtain rfl : p = 1 := hramp.1
    let u := s.modAc fun a => { a with rampFrom := 0 }
    rw [show chStop s 1 = chAnswer (if (chRec u 1).isSome && u.sys.ready then chOfferEn u 1 false else u) 1 0 from
      (if_neg hfault).trans (if_pos hr)]
    obtain ⟨f, hf, -⟩ := offeredEn_turns u 1 ((chRec u 1).isSome && u.sys.ready) false
    exact ⟨f, 0, chAnswer_turns (by decide) (Turns.ofThen (Q := chargeParts) (hac s _) rfl (by decide) hf) _ _, chAnswer_answers _ _ _,
      fun k => absurd k hfault, fun _ => rfl, fun _ _ k => absurd hramp k, fun _ k => absurd hramp k⟩
  · let u := s.modPort p Port_.stopped
    let v := if p = 1 then u.modAc fun a => { a with ramping := false } else u
    rw [show chStop s p = chAnswer (if (chRec v p).isSome && v.sys.ready then chOfferEn v p (chOutputs v p).1 else v) p 0 from
      (if_neg hfault).trans (if_neg hr)]
    have hv : TurnsPort (.acc :: chargeParts) p Port_.stopped s v := by
      have hu : TurnsPort (.acc :: chargeParts) p Port_.stopped s u := (modPort_turns s p _).mono (by decide)
      exact hu.andThen (List.Subset.refl _) (.ite_self (hac u _)) ((apply_ite State.ports _ _ _).trans (ite_self _))
    obtain ⟨f, hf, hcourse⟩ := offeredEn_turns v p ((chRec v p).isSome && v.sys.ready) (chOutputs v p).1
    exact ⟨f ∘ Port_.stopped, 0, chAnswer_turns (by decide) (hv.andTurns (by decide) hf) _ _, chAnswer_answers _ _ _,
      fun k => absurd k hfault, fun _ => rfl, Port_.stopped_spec _ (hcourse _)⟩

/-- CLEAR takes a port in FAULT to IDLE, and is refused elsewhere (R422). -/
theorem chClear_turns (s : State) (p : Nat) :
    ∃ f st, TurnsPort [.acc, .ports, .ac] p f s (chClear s p) ∧ ChAnswered st p (chClear s p)
      ∧ ((portAt s p).phase = 9 → st = 0 ∧ ∀ x, (f x).phase = 0)
      ∧ ((portAt s p).phase ≠ 9 → st = 1 ∧ (chClear s p).ports = s.ports) := by
  unfold chClear
  split
  · exact ⟨_, 0, chAnswer_turns (by decide) ((modPort_turns s p _).mono (by decide)) _ _, chAnswer_answers _ _ _,
      fun _ => ⟨rfl, fun _ => rfl⟩, fun k => absurd ‹_› k⟩
  · exact ⟨id, 1, chAnswer_turns (by decide) (.refl _ _ p s) _ _, chAnswer_answers _ _ _, fun k => absurd k ‹_›,
      fun _ => ⟨rfl, (chAnswer_touches _ _ _).agree .ports (by decide)⟩⟩

/-- Settles O54: each row turns its port alone. -/
theorem chargePortsRunTheirSessions : Obligations.ChargePortsRunTheirSessions := by
  unfold Obligations.ChargePortsRunTheirSessions
  intro p s hinv
  have hp : p.val < s.ports.length := p.isLt.trans_eq hinv.ports_length.symm
  refine ⟨fun hready hrec => ?evaluation, fun hrec hrun => ⟨fun hph => ?pretmo, fun hin hexp hdone => ?total⟩,
    fun hrec hdone => ?termination, fun hw => ⟨?start, ?stop, ?clear⟩⟩
  case evaluation =>
    obtain ⟨t, f, hexec, ht, hev⟩ := chargeEvaluation_turns hinv hready hrec
    have hown : portAt t p.val = f (portAt s p.val) := ht.portAt_eq hp
    rw [← hown] at hev
    obtain ⟨hat, hfact, htreal, x, hphase, hheld, hmove⟩ := hev
    have hnow : t.now = (s.advanceTo (chDue s p.val)).now := ht.touches.now (by decide)
    obtain ⟨-, -, -, hrests, hholds, hreg, hchg, hres, hkeep⟩ := hmove
    rw [hphase] at hrests hholds hreg hchg hres hkeep
    rw [hheld] at hres
    exact ⟨t, hexec, hnow, hat.trans hnow.symm, hfact, hrests, htreal, hholds, hreg, hchg, hres, hkeep,
      fun k hk => congrArg Port_.phase (ht.portAt_other hk), (ht.touches.afterTime (by decide) (by decide)).onlyChanges⟩
  case pretmo =>
    obtain ⟨t, f, hexec, ht, hfault⟩ := pretmo_turns hrec hrun hph
    obtain ⟨x, hx⟩ := hfault (portAt s p.val)
    have hown : portAt t p.val = f (portAt s p.val) := ht.portAt_eq hp
    rw [← hown] at hx
    obtain ⟨hphase, hend, hevt⟩ := Port_.faulted_shows hx (by decide)
    exact ⟨t, hexec, ht.touches.now (by decide), hphase, hend, hevt, fun k hk => congrArg Port_.phase (ht.portAt_other hk),
      (ht.touches.afterTime (by decide) (by decide)).onlyChanges⟩
  case total =>
    obtain ⟨t, f, hexec, ht, hshow⟩ := totalTimerExpiry_turns hrec hrun hin hexp hdone
    rw [← ht.portAt_eq hp] at hshow
    exact ⟨t, hexec, hshow.faults, fun h => hshow.secondTime (Nat.not_le.2 h), fun h => hshow.firstTime (Nat.not_le.2 h),
      fun k hk => congrArg Port_.phase (ht.portAt_other hk), (ht.touches.mono (by decide)).onlyChanges⟩
  case termination =>
    obtain ⟨f, ht, hdonePhase⟩ := chDone_turns s p.val
    exact ⟨_, congrArg Host.Outcome.next (if_pos (by simp [hrec, hdone])),
      (congrArg Port_.phase (ht.portAt_eq hp)).trans (hdonePhase _), fun k hk => congrArg Port_.phase (ht.portAt_other hk),
      (ht.touches.mono (by decide)).onlyChanges⟩
  case start =>
    obtain ⟨f, ht, hans, hbegun, hleft⟩ := chStart_turns s p.val
    refine ⟨_, congrArg Host.Outcome.next (writeGate_open hw _), hans.stat, fun h => ?_, fun h => ⟨hans.refused h, hleft h⟩,
      fun k hk => congrArg Port_.phase (ht.portAt_other hk), ht.touches.onlyChanges⟩
    rw [ht.portAt_eq hp]
    exact ⟨hans.ok h, hbegun h _⟩
  case stop =>
    obtain ⟨f, st, ht, hans, hfault, hother, hstop⟩ := chStop_turns s p.val
    rw [← ht.portAt_eq hp] at hstop
    exact ⟨_, congrArg Host.Outcome.next (writeGate_open hw _),
      fun h => ⟨(hfault h).1 ▸ hans.refused ((hfault h).1 ▸ Nat.one_ne_zero), (hfault h).2⟩, fun h => hans.ok (hother h),
      hstop.ends, hstop.idles, fun k hk => congrArg Port_.phase (ht.portAt_other hk), (ht.touches.mono (by decide)).onlyChanges⟩
  case clear =>
    obtain ⟨f, st, ht, hans, hfault, hother⟩ := chClear_turns s p.val
    refine ⟨_, congrArg Host.Outcome.next (writeGate_open hw _), fun h => ?_, fun h => ?_,
      fun k hk => congrArg Port_.phase (ht.portAt_other hk), ht.touches.onlyChanges⟩
    · obtain ⟨rfl, hidle⟩ := hfault h
      exact ⟨hans.ok rfl, (congrArg Port_.phase (ht.portAt_eq hp)).trans (hidle _), hans.stat⟩
    · obtain ⟨rfl, hports⟩ := hother h
      exact ⟨hans.refused Nat.one_ne_zero, hans.stat, hports⟩

end Sys2Proof.Machine
end

section
namespace Sys2Proof.Machine

/-! ## What an offered value leaves of the AC port (R415 to R421) -/

/-- The AC port but for SUPP, which follows a buoy (R416). -/
def Ac.course (x : Ac) : Ac := { x with supp := false, suppCnt := 0 }

/-- What a value's arrival touches before the units that watch the buoys follow. -/
def takenParts : List Part := .buoys :: receivedParts

/-- A value offered is passed over, or the units that watch the buoys follow it (R69 to R74). -/
theorem offer_follows (s : State) (n : Nat) (m e : Int) :
    offer s n m e = s ∨ ∃ u, offer s n m e = byFollow u ∧ Touches takenParts s u := by
  obtain ⟨_, harr, _⟩ := arrived_turns s n
  have hmet : Touches takenParts s (arrived s n) := harr.touches.mono (by decide)
  have hwith (viol : Nat) (x : Word) : ∃ u, withheld (arrived s n) n viol x = byFollow u ∧ Touches takenParts s u := by
    obtain ⟨_, h, _⟩ := byEvent_turns (arrived s n) n viol x
    exact ⟨_, rfl, .trans (.after (by decide) h.touches hmet) (.ite_self (.mono (by decide) (modBuoy_touches _ n _)))⟩
  unfold offer
  split
  · exact .inl rfl
  · refine .inr ?_
    dsimp only
    split
    · exact hwith _ _
    · split
      · exact hwith _ _
      · exact ⟨_, rfl, .after (by decide) (byReceived_touches _ _ n) (.after (by decide) (modBuoy_touches _ n _) hmet)⟩

theorem suppCheck_course (s : State) : (suppCheck s).ac.course = s.ac.course := by
  unfold suppCheck
  dsimp only
  split <;> rfl

theorem byFollow_course (s : State) : (byFollow s).ac.course = s.ac.course := by
  have hstale := (staleCheck_touches (suppCheck (subCheck s))).agree .ac (by decide)
  have hsub := (subCheck_touches s).agree .ac (by decide)
  exact (congrArg Ac.course hstale).trans <| (suppCheck_course _).trans (congrArg Ac.course hsub)

theorem offer_course (s : State) (n : Nat) (m e : Int) : (offer s n m e).ac.course = s.ac.course := by
  rcases offer_follows s n m e with h | ⟨u, h, hu⟩
  · rw [h]
  · rw [h, byFollow_course]
    exact congrArg Ac.course (hu.agree .ac (by decide))

theorem offerInt_course (s : State) (n : Nat) (m : Int) : (offerInt s n m).ac.course = s.ac.course := offer_course s n m _

theorem chOfferEn_course (s : State) (p : Nat) (en : Bool) : (chOfferEn s p en).ac.course = s.ac.course := offerInt_course _ _ _

theorem chOffer_course (s : State) (p : Nat) : (chOffer s p).ac.course = s.ac.course := by
  unfold chOffer
  split
  · rfl
  · exact (offerInt_course _ _ _).trans <| (offerInt_course _ _ _).trans (chOfferEn_course s p _)

theorem offeredEn_course (s : State) (p : Nat) (c en : Bool) : (if c then chOfferEn s p en else s).ac.course = s.ac.course := by
  split
  · exact chOfferEn_course s p en
  · rfl

/-! ## The AC port's rows (R417 to R422) -/

/-- An event of the AC port sets its bit beside what counting it does. -/
theorem acEvent_ac (s : State) (cause : Nat) (detail : Word) : (acEvent s cause detail).ac = { s.ac with evt := orBit s.ac.evt cause } :=
  (countEvent_touches _ _).agree .ac (by decide)

theorem acEvent_touches (s : State) (cause : Nat) (detail : Word) : Touches (traced [.ac]) s (acEvent s cause detail) :=
  .after (by decide) (countEvent_touches _ _) ((modAc_touches s _).mono (by decide))

/-- A mains loop that is not locked does not qualify the port (R417). -/
theorem acGood_of_unlocked {s : State} (h : s.mains.locked = false) : acGood s = false := by
  simp [acGood, h]

/-- A hand-over runs with its ramp from the time it started (R418). -/
structure HandsOver (s t : State) : Prop where
  handover : t.ac.handover = true
  ramping : t.ac.ramping = true
  acqual : t.ac.acqual = false
  lossAt : t.ac.lossAt = t.now
  evt : bitOf t.ac.evt 5 = true
  rampFrom : t.ac.rampFrom = (portAt s 1).iset

theorem handoverStart_touches (s : State) (byLock : Bool) : Touches (traced [.ac]) s (handoverStart s byLock) :=
  .after (by decide) (acEvent_touches _ 5 _) ((modAc_touches s _).mono (by decide))

theorem handoverStart_starts (s : State) (byLock : Bool) : HandsOver s (handoverStart s byLock) := by
  have hac := acEvent_ac (s.modAc fun x => { x with handover := true, acqual := false, qualAt := none, lossAt := s.now,
                                                    rampFrom := (portAt s 1).iset, ramping := true, lockDrop := false }) 5 (wd (b2n byLock))
  have hnow : (handoverStart s byLock).now = s.now := (handoverStart_touches s byLock).now (by decide)
  exact ⟨(congrArg Ac.handover hac :), (congrArg Ac.ramping hac :), (congrArg Ac.acqual hac :),
    (congrArg Ac.lossAt hac :).trans hnow.symm, bitOf_of_eq_orBit (congrArg Ac.evt hac :) (by decide), (congrArg Ac.rampFrom hac :)⟩

/-- Reverse supply ends: the loop is to track, the grid watch is off, ENBUOY drops (R420, R421). -/
structure Reversed (s t : State) : Prop where
  reverse : t.ac.reverse = false
  grid : t.ac.grid = false
  pendForm : t.mains.pendForm = false
  evt : t.ac.evt = s.ac.evt

/-- What the end of reverse supply touches. -/
def revParts : List Part := .mains :: chargeParts

/-- The state in which ENBUOY drops at the end of reverse supply. -/
def revEnded (s : State) : State :=
  { s with mains := { s.mains with pendForm := false } }.modAc fun x => { x with reverse := false, grid := false, gdevAt := none }

theorem revEnded_touches (s : State) : Touches [.mains, .ac] s (revEnded s) :=
  .after (by decide) (modAc_touches _ _) ((mains_touches s _).mono (by decide))

theorem acRevstop_turns (s : State) : ∃ f, TurnsPort revParts 1 f s (acRevstop s) ∧ ∀ x, (f x).course = x.course := by
  obtain ⟨f, hf, hcourse⟩ := offeredEn_turns (revEnded s) 1 ((chRec (revEnded s) 1).isSome && (revEnded s).sys.ready) false
  exact ⟨f, .ofThen ((revEnded_touches s).mono (by decide)) rfl (by decide) hf, hcourse⟩

theorem acRevstop_ends (s : State) : Reversed s (acRevstop s) := by
  obtain ⟨f, hf, -⟩ := offeredEn_turns (revEnded s) 1 ((chRec (revEnded s) 1).isSome && (revEnded s).sys.ready) false
  have hac : (acRevstop s).ac.course = (revEnded s).ac.course := offeredEn_course (revEnded s) 1 _ false
  have hmains : (acRevstop s).mains = (revEnded s).mains := hf.touches.agree .mains (by decide)
  exact ⟨(congrArg Ac.reverse hac :), (congrArg Ac.grid hac :), (congrArg Mains.pendForm hmains :), (congrArg Ac.evt hac :)⟩

/-- An answer to a command changes of the AC port the register of answers alone. -/
theorem chAnswer_ac (s : State) (port st : Nat) : (chAnswer s port st).ac = { s.ac with cmdStat := wd (st * 2 ^ 24 + port) } := by
  unfold chAnswer
  split <;> rfl

/-- Reverse supply as it starts: the loop is to go to FORM, qualification and grid watch are off (R420). -/
def revBegun (s : State) : State :=
  { s with mains := { s.mains with pendForm := true } }.modAc fun x =>
    { x with reverse := true, revAt := s.now, acqual := false, qualAt := none, grid := false, gdevAt := none }

theorem revStart_refused {s : State} (h : revStatus s ≠ 0) : revStart s = chAnswer s 2 (revStatus s) := if_pos h

theorem revStart_starts {s : State} (h : revStatus s = 0) : revStart s = chAnswer (chOffer (revBegun s) 1) 2 0 :=
  if_neg (not_not.2 h)

theorem revBegun_touches (s : State) : Touches [.mains, .ac] s (revBegun s) :=
  .after (by decide) (modAc_touches _ _) ((mains_touches s _).mono (by decide))

theorem revStart_touches (s : State) : Touches (.acc :: revParts) s (revStart s) := by
  by_cases h : revStatus s = 0
  · obtain ⟨_, hf, -⟩ := chOffer_turns (revBegun s) 1
    rw [revStart_starts h]
    exact .after (by decide) (chAnswer_touches _ _ _) <| .after (by decide) hf.touches <| .mono (by decide) (revBegun_touches s)
  · rw [revStart_refused h]
    exact .mono (by decide) (chAnswer_touches _ _ _)

/-- The state at the end of the ramp, before ENBUOY drops: the HV port is in IDLE after a source loss (R418). -/
def rampEnded (s : State) : State :=
  ((s.advanceTo (s.ac.lossAt + acHramp s)).modPort 1 fun x => { x with phase := 0, lastEnd := 2 }).modAc fun x => { x with ramping := false }

theorem rampEnded_turns (s : State) :
    TurnsPort chargeParts 1 (fun x => { x with phase := 0, lastEnd := 2 }) (s.advanceTo (s.ac.lossAt + acHramp s)) (rampEnded s) :=
  ((modPort_turns _ 1 _).mono (by decide)).andThen (by decide) (modAc_touches _ _) rfl

/-- Settles O55: what a row makes of the AC port stands but for SUPP when its outputs are offered. -/
theorem acPortHandsOverAndFeedsBack : Obligations.AcPortHandsOverAndFeedsBack := by
  unfold Obligations.AcPortHandsOverAndFeedsBack
  intro s hinv
  have hp : 1 < s.ports.length := by rw [hinv.ports_length]; decide
  have timed (u : State) (n : Nat) (f : Ac → Ac) (hu : u = s.advanceTo n) : OnlyChanges [.now, .ac] s (u.modAc f) :=
    Touches.onlyChanges <| hu ▸ (modAc_touches (s.advanceTo n) f).afterTime (by decide) (by decide)
  refine ⟨fun tz hz => ?qualified, fun hacts => ⟨fun tl hl => ?lowAmplitude, fun hdrop => ?lostLock⟩,
    fun hhand => ⟨fun hramp => ?rampEnd, ?handoverEnd⟩, fun hw => ⟨?revstart, ?revstop⟩,
    fun hrev => ⟨fun hgrid => ?arm, fun tg hgrid hdev => ?grid⟩⟩
  case qualified =>
    have hexec : exec .acQualified s = .next ((s.advanceTo (tz + 2000 * msec)).modAc fun x => { x with acqual := true }) := by
      simp only [exec, execAcQualified, hz]
    exact ⟨_, hexec, rfl, rfl, timed _ _ _ rfl⟩
  case lowAmplitude =>
    have hexec : exec (.srclost false) s = .next (handoverStart (s.advanceTo (tl + acLossdet s)) false) := by
      simp only [exec, execSrclost, hl, Bool.false_eq_true, if_false]
      exact congrArg Host.Outcome.next (if_pos hacts)
    obtain ⟨h1, h2, h3, h4, h5, h6⟩ := handoverStart_starts (s.advanceTo (tl + acLossdet s)) false
    have ht := handoverStart_touches (s.advanceTo (tl + acLossdet s)) false
    exact ⟨_, hexec, ht.now (by decide), ⟨h1, h2, h3, h4, h5, h6⟩, (ht.afterTime (by decide) (by decide)).onlyChanges⟩
  case lostLock =>
    obtain ⟨h1, h2, h3, h4, h5, h6⟩ := handoverStart_starts s true
    have ht := handoverStart_touches s true
    exact ⟨_, congrArg Host.Outcome.next ((if_pos rfl).trans (if_pos (by rw [hdrop, hacts]; rfl))), ht.now (by decide),
      ⟨h1, h2, h3, h4, h5, h6⟩, (ht.mono (by decide)).onlyChanges⟩
  case rampEnd =>
    let u := rampEnded s
    obtain ⟨f, hf, hcourse⟩ := offeredEn_turns u 1 ((chRec u 1).isSome && u.sys.ready) false
    have hac := offeredEn_course u 1 ((chRec u 1).isSome && u.sys.ready) false
    have ht := (rampEnded_turns s).andTurns (List.Subset.refl _) hf
    have hown := hcourse { portAt s 1 with phase := 0, lastEnd := 2 }
    have hport : portAt _ 1 = f { portAt s 1 with phase := 0, lastEnd := 2 } := ht.portAt_eq hp
    rw [← hport] at hown
    exact ⟨_, congrArg Host.Outcome.next (if_neg (by rw [hhand, hramp]; decide)), ht.touches.now (by decide),
      (congrArg Port_.phase hown :), (congrArg Port_.lastEnd hown :), (congrArg Ac.ramping hac :), (congrArg Ac.handover hac :).trans hhand,
      congrArg Port_.phase (ht.portAt_other (by decide)), (ht.touches.afterTime (by decide) (by decide)).onlyChanges⟩
  case handoverEnd =>
    let u := (s.advanceTo (s.ac.lossAt + acHotime s)).modAc fun x => { x with handover := false }
    have hqual : (if acGood u then some u.now else none) = some u.now ∨ (if acGood u then some u.now else none) = none := by
      split <;> simp
    refine ⟨_, congrArg Host.Outcome.next (if_neg (by rw [hhand]; decide)), rfl, rfl, hqual, fun hlock => if_neg ?_, ?_⟩
    · rw [acGood_of_unlocked (s := u) hlock]
      decide
    · exact Touches.onlyChanges <| (Touches.after (by decide) (modAc_touches u _)
        (modAc_touches (s.advanceTo (s.ac.lossAt + acHotime s)) _)).afterTime (by decide) (by decide)
  case revstart =>
    refine ⟨_, congrArg Host.Outcome.next (writeGate_open hw _), ?_⟩
    have hframe := revStart_touches s
    by_cases h : revStatus s = 0
    · have hac := (congrArg Ac.course (chAnswer_ac (chOffer (revBegun s) 1) 2 0))
      have hcourse := chOffer_course (revBegun s) 1
      have hans := chAnswer_answers (chOffer (revBegun s) 1) 2 0
      obtain ⟨_, hf, -⟩ := chOffer_turns (revBegun s) 1
      have hmains : (chAnswer (chOffer (revBegun s) 1) 2 0).mains = (revBegun s).mains :=
        ((chAnswer_touches _ 2 0).agree .mains (by decide)).trans (hf.touches.agree .mains (by decide))
      rw [← revStart_starts h] at hac hans hmains
      dsimp only
      rw [h]
      exact ⟨hans.stat, fun _ => ⟨hans.ok rfl, (congrArg Ac.reverse hac :).trans (congrArg Ac.reverse hcourse :),
        (congrArg Ac.revAt hac :).trans (congrArg Ac.revAt hcourse :), (congrArg Ac.acqual hac :).trans (congrArg Ac.acqual hcourse :),
        (congrArg Ac.grid hac :).trans (congrArg Ac.grid hcourse :), (congrArg Mains.pendForm hmains :)⟩, fun k => absurd rfl k, (hframe.mono (by decide)).onlyChanges⟩
    · have hans := chAnswer_answers s 2 (revStatus s)
      have hac := chAnswer_ac s 2 (revStatus s)
      have ht := chAnswer_touches s 2 (revStatus s)
      rw [← revStart_refused h] at hans hac ht
      exact ⟨hans.stat, fun k => absurd k h, fun _ => ⟨hans.refused h, (congrArg Ac.reverse hac :), ht.agree .mains (by decide),
        ht.agree .ports (by decide)⟩, (hframe.mono (by decide)).onlyChanges⟩
  case revstop =>
    have hac := chAnswer_ac (acRevstop s) 2 0
    have hend := acRevstop_ends s
    obtain ⟨f, hf, hcourse⟩ := acRevstop_turns s
    have ht := chAnswer_turns (P := .acc :: revParts) (by decide) (hf.mono (by decide)) 2 0
    exact ⟨_, congrArg Host.Outcome.next (writeGate_open hw _), (chAnswer_answers _ 2 0).ok rfl,
      (congrArg Ac.reverse hac :).trans hend.reverse, (congrArg Ac.grid hac :).trans hend.grid,
      (congrArg Mains.pendForm ((chAnswer_touches _ 2 0).agree .mains (by decide))).trans hend.pendForm,
      (congrArg Port_.phase (ht.portAt_eq hp)).trans (Port_.course_phase (hcourse _)), (ht.touches.mono (by decide)).onlyChanges⟩
  case arm =>
    exact ⟨_, congrArg Host.Outcome.next (if_neg (by rw [hrev, hgrid]; decide)), rfl, rfl, timed _ _ _ rfl⟩
  case grid =>
    let u := acEvent (s.advanceTo (tg + acGdtime s)) 6 (wd ((s.mains.e % 65536).toNat * 65536 + (s.mains.fdev % 65536).toNat))
    have hexec : exec .grid s = .next (acRevstop u) := by
      simp only [exec, execGrid, hdev]
      exact congrArg Host.Outcome.next (if_neg (by rw [hrev, hgrid]; decide))
    have hend := acRevstop_ends u
    obtain ⟨f, hf, -⟩ := acRevstop_turns u
    have hu : u.ac.evt = orBit s.ac.evt 6 := congrArg Ac.evt (acEvent_ac (s.advanceTo (tg + acGdtime s)) 6 _)
    have ht : Touches revParts (s.advanceTo (tg + acGdtime s)) (acRevstop u) :=
      .trans (.mono (by decide) (acEvent_touches _ 6 _)) hf.touches
    exact ⟨_, hexec, ht.now (by decide), hend.reverse, hend.grid, hend.pendForm, bitOf_of_eq_orBit (hend.evt.trans hu) (by decide),
      (ht.afterTime (by decide) (by decide)).onlyChanges⟩

end Sys2Proof.Machine
end

section
namespace Sys2Proof.Machine

/-! ## Pre-drivers and actuators one at a time -/

theorem Inv.gd_length {s : State} (h : Inv s) : s.gd.length = 8 := (congrArg (fun l => nth l 23) h.2 :)

theorem Inv.gact_length {s : State} (h : Inv s) : s.gact.length = 3 := (congrArg (fun l => nth l 24) h.2 :)

theorem gd_touches (s : State) (v : List Gd) (h : v.length = s.gd.length) : Touches [.gd] s { s with gd := v } :=
  .of_update (fun p => by have k := p.agree_refl s; cases p <;> exact k) rfl rfl (by simp [shape, h])

theorem modGd_touches (s : State) (g : Nat) (f : Gd → Gd) : Touches [.gd] s (s.modGd g f) := gd_touches s _ (List.length_modify ..)

theorem modGd_turns (s : State) (g : Nat) (f : Gd → Gd) : Turns State.gd [.gd] g f s (s.modGd g f) := ⟨modGd_touches s g f, rfl⟩

theorem modAct_turns (s : State) (a : Nat) (f : Act → Act) : Turns State.gact [.gact] a f s (s.modAct a f) := ⟨modAct_touches s a f, rfl⟩

/-- What an actuator that exists becomes. -/
theorem Turns.act_eq {P : List Part} {a : Nat} {f : Act → Act} {s t : State} (h : Turns State.gact P a f s t) (hinv : Inv s)
    (ha : a < 3) : nth t.gact a = f (nth s.gact a) := h.own (ha.trans_eq hinv.gact_length.symm) _

/-- A pre-driver's state, in range, however it is read. -/
theorem gdAt_eq_nth {s : State} (h : Inv s) {g : Nat} (hg : g < 8) : gdAt s g = nth s.gd g := by
  have hlt : g < s.gd.length := hg.trans_eq h.gd_length.symm
  simp [gdAt, nth, hlt]

/-- An actuator on which a cause has been noted. -/
def Act.noted (cause : Nat) (x : Act) : Act := { x with evt := orBit x.evt cause }

/-- A cause noted stands in the events of its actuator. -/
theorem Turns.act_notes {P : List Part} {a cause : Nat} {s t : State} (h : Turns State.gact P a (Act.noted cause) s t) (hinv : Inv s)
    (ha : a < 3) (hc : cause < 32) : bitOf (nth t.gact a).evt cause = true :=
  bitOf_of_eq_orBit (congrArg Act.evt (h.act_eq hinv ha)) hc

theorem actCounted_turns (s : State) (a cause : Nat) (e : Ev) :
    Turns State.gact (traced [.gact]) a (Act.noted cause) s (countEvent (s.modAct a (Act.noted cause)) e) :=
  ((modAct_turns s a _).mono (by decide)).andThen (by decide) (countEvent_touches _ e) ((countEvent_touches _ e).agree .gact (by decide))

/-- An event of a pre-driver is noted on its actuator. -/
theorem gdEvent_turns (s : State) (g cause : Nat) (detail : Word) :
    Turns State.gact (traced [.gact]) (gxAct s g) (Act.noted cause) s (gdEvent s g cause detail) := actCounted_turns s _ cause _

theorem actEvent_turns (s : State) (a cause : Nat) (detail : Word) :
    Turns State.gact (traced [.gact]) a (Act.noted cause) s (actEvent s a cause detail) := actCounted_turns s a cause _

/-! ## Gates (R433, R434) -/

/-- Where the supervision holds a pre-driver off, neither of its gates is on. -/
theorem gates_off_of_held {s : State} {g : Nat} (h : gatesHeld s g = true) : gateHigh s g = false ∧ gateLow s g = false := by
  simp [gateHigh, gateLow, h]

/-- A gate that is on is that of a pre-driver in use. -/
theorem gxDrv_of_gate {s : State} {g : Nat} {high : Bool} (h : (if high then gateHigh s g else gateLow s g) = true) :
    (gxDrv s g).isSome = true := by
  cases high <;> simp [gateHigh, gateLow] at h <;> simp [h]

section records

variable {s t : State} (h : recsIn t = recsIn s)

include h

theorem gxDrv_congr (g : Nat) : gxDrv t g = gxDrv s g := by simp only [gxDrv, h]

theorem gxAct_congr (g : Nat) : gxAct t g = gxAct s g := by simp only [gxAct, gxDrv_congr h]

theorem gxChan_congr (g : Nat) : gxChan t g = gxChan s g := by simp only [gxChan, gxDrv_congr h]

theorem actDef_congr (a : Nat) : actDef t a = actDef s a := by simp only [actDef, h]

theorem actW_congr (a i : Nat) : actW t a i = actW s a i := by simp only [actW, actDef_congr h]

theorem actBldc_congr (a : Nat) : actBldc t a = actBldc s a := by simp only [actBldc, actW_congr h]

theorem actPosCh_congr (a : Nat) : actPosCh t a = actPosCh s a := by simp only [actPosCh, actW_congr h]

theorem actDrvs_congr (a : Nat) : actDrvs t a = actDrvs s a := by
  simp only [actDrvs, gxDrv_congr h, gxAct_congr h]

theorem actChans_congr (a : Nat) : actChans t a = actChans s a := by
  simp only [actChans, actDrvs_congr h, gxChan_congr h]

theorem actGroup_congr (a : Nat) : actGroup t a = actGroup s a := by
  simp only [actGroup, actChans_congr h, chanGrp_congr h]

end records

/-- A latch of one pre-driver in use holds off every gate of its actuator (R433). -/
theorem gatesHeld_of_vdsoc {s : State} {g k : Nat} (hg : g < 8) (hdrv : (gxDrv s g).isSome = true) (hlatch : (nth s.gd g).vdsoc = true)
    (hact : gxAct s k = gxAct s g) : gatesHeld s k = true := by
  have hmem : g ∈ actDrvs s (gxAct s g) := by simp [actDrvs, hg, hdrv]
  have hfault : actFaulty s (gxAct s g) = true := List.any_eq_true.2 ⟨g, hmem, hlatch⟩
  simp [gatesHeld, hact, hfault]

/-- VDSOC of a gate that is on (R433). -/
theorem vdsoc_runs {s : State} (hinv : Inv s) {gd : Fin 8} {high : Bool}
    (hon : (if high then gateHigh s gd.val else gateLow s gd.val) = true) :
    Runs (.vdsoc gd high) s fun t =>
      (nth t.gd gd.val).vdsoc = true ∧ (∀ k, k ≠ gd.val → nth t.gd k = nth s.gd k)
        ∧ (∀ g, gxAct s g = gxAct s gd.val → gateHigh t g = false ∧ gateLow t g = false)
        ∧ (gxAct s gd.val < 3 → bitOf (nth t.gact (gxAct s gd.val)).evt 1 = true) ∧ OnlyChanges (traced [.gd, .gact]) s t := by
  let u := s.modGd gd.val fun x => { x with vdsoc := true }
  have hu : Turns State.gd [.gd] gd.val (fun x => { x with vdsoc := true }) s u := modGd_turns s gd.val _
  have hev := gdEvent_turns u gd.val 1 (wd (b2n high))
  have ht := (hu.mono (P := traced [.gd, .gact]) (by decide)).andThen (by decide) hev.touches (hev.touches.agree .gd (by decide))
  have hrecs : recsIn (gdEvent u gd.val 1 (wd (b2n high))) = recsIn s := ht.touches.recsIn_eq (by decide)
  have hlatch : (nth (gdEvent u gd.val 1 (wd (b2n high))).gd gd.val).vdsoc = true :=
    congrArg Gd.vdsoc (ht.own (gd.isLt.trans_eq hinv.gd_length.symm) _)
  refine ⟨_, congrArg Host.Outcome.next (if_pos hon), hlatch, fun k hk => ht.other hk _, fun g hg => gates_off_of_held ?_,
    fun ha => ?_, ht.touches.onlyChanges⟩
  · exact gatesHeld_of_vdsoc gd.isLt (by rw [gxDrv_congr hrecs]; exact gxDrv_of_gate hon) hlatch
      (by rw [gxAct_congr hrecs, gxAct_congr hrecs, hg])
  · exact hev.act_notes (hu.touches.inv hinv) ha (by decide)

/-- BSUV of a resolved bootstrap in order, and its recovery (R433). -/
theorem bsuv_runs {s : State} (hinv : Inv s) {gd : Fin 8} (hres : (nth s.gd gd.val).uvUnres = false) :
    ((nth s.gd gd.val).uv = false →
        Runs (.bsuv gd) s fun t =>
          (nth t.gd gd.val).uv = true ∧ gateHigh t gd.val = false ∧ (∀ k, k ≠ gd.val → nth t.gd k = nth s.gd k)
            ∧ OnlyChanges (traced [.gd, .gact]) s t)
      ∧ Runs (.bootstrapRecovered gd) s fun t =>
        nth t.gd gd.val = { nth s.gd gd.val with uv := false } ∧ (∀ k, k ≠ gd.val → nth t.gd k = nth s.gd k) ∧ OnlyChanges [.gd] s t := by
  have hlen : gd.val < s.gd.length := gd.isLt.trans_eq hinv.gd_length.symm
  rw [← gdAt_eq_nth hinv gd.isLt] at hres
  refine ⟨fun huv => ?low, ?recovered⟩
  case low =>
    rw [← gdAt_eq_nth hinv gd.isLt] at huv
    let u := s.modGd gd.val fun y => { y with uv := true }
    have hu : Turns State.gd [.gd] gd.val (fun y => { y with uv := true }) s u := modGd_turns s gd.val _
    let v := if (gxDrv u gd.val).isSome then gdEvent u gd.val 2 0 else u
    have hv : Touches (traced [.gact]) u v := .ite_self (gdEvent_turns u gd.val 2 0).touches
    have ht := (hu.mono (P := traced [.gd, .gact]) (by decide)).andThen (by decide) hv (hv.agree .gd (by decide))
    have hlow : (nth v.gd gd.val).uv = true := congrArg Gd.uv (ht.own hlen _)
    refine ⟨v, congrArg Host.Outcome.next (if_neg (by rw [hres, huv]; decide)), hlow, ?_, fun k hk => ht.other hk _,
      ht.touches.onlyChanges⟩
    rw [← gdAt_eq_nth (ht.touches.inv hinv) gd.isLt] at hlow
    simp [gateHigh, hlow]
  case recovered =>
    have ht := modGd_turns s gd.val fun y => { y with uv := false }
    exact ⟨_, congrArg Host.Outcome.next (if_neg (by rw [hres]; decide)), ht.own hlen _, fun k hk => ht.other hk _,
      ht.touches.onlyChanges⟩

/-! ## The bridge supply (R433) -/

theorem bridgeBad_touches (s : State) (v : Bool) : Touches [.bridgeBad] s { s with bridgeBad := v } :=
  .of_update (fun p => by have k := p.agree_refl s; cases p <;> exact k) rfl rfl rfl

/-- One pre-driver counts SUPUV. -/
def supuvCounted (s : State) (g : Nat) : State := gdEvent s g 3 (wd (gxMode s g))

theorem supuvCounted_turns (s : State) (g : Nat) :
    Turns State.gact (traced [.gact]) (gxAct s g) (Act.noted 3) s (supuvCounted s g) := gdEvent_turns s g 3 _

theorem supuvCounted_touches (s : State) (l : List Nat) : Touches (traced [.gact]) s (l.foldl supuvCounted s) :=
  Touches.foldl (fun t g => (supuvCounted_turns t g).touches) l s

/-- An event of a pre-driver clears no bit of an actuator. -/
theorem supuvCounted_keeps {s : State} {a : Nat} (h : bitOf (nth s.gact a).evt 3 = true) (g : Nat) :
    bitOf (nth (supuvCounted s g).gact a).evt 3 = true := by
  have ht := supuvCounted_turns s g
  by_cases ha : a = gxAct s g
  · subst ha
    by_cases hlen : gxAct s g < s.gact.length
    · have hown : nth (supuvCounted s g).gact (gxAct s g) = Act.noted 3 (nth s.gact (gxAct s g)) := ht.own hlen _
      rw [hown]
      exact bitOf_orBit h 3
    · have hsame : nth (supuvCounted s g).gact (gxAct s g) = nth s.gact (gxAct s g) := by
        have hlen' : (supuvCounted s g).gact.length = s.gact.length := ht.length_eq
        simp [nth, List.getD_eq_getElem?_getD, List.getElem?_eq_none (Nat.not_lt.1 hlen), List.getElem?_eq_none (hlen' ▸ Nat.not_lt.1 hlen)]
      rwa [hsame]
  · have hother : nth (supuvCounted s g).gact a = nth s.gact a := ht.other ha _
    rwa [hother]

theorem supuvCounted_all_keep (l : List Nat) {s : State} {a : Nat} (h : bitOf (nth s.gact a).evt 3 = true) :
    bitOf (nth (l.foldl supuvCounted s).gact a).evt 3 = true := by
  induction l generalizing s with
  | nil => exact h
  | cons g l ih => exact ih (supuvCounted_keeps h g)

/-- Each pre-driver's count is noted on its actuator. -/
theorem supuvCounted_notes {l : List Nat} {s : State} (hinv : Inv s) {g : Nat} (hg : g ∈ l) (ha : gxAct s g < 3) :
    bitOf (nth (l.foldl supuvCounted s).gact (gxAct s g)).evt 3 = true := by
  induction l generalizing s with
  | nil => exact absurd hg List.not_mem_nil
  | cons k l ih =>
    have hk := supuvCounted_turns s k
    rw [List.foldl_cons]
    rcases List.mem_cons.1 hg with rfl | hg
    · exact supuvCounted_all_keep l (hk.act_notes hinv ha (by decide))
    · have hact : gxAct (supuvCounted s k) g = gxAct s g := gxAct_congr (hk.touches.recsIn_eq (by decide)) g
      rw [← hact]
      exact ih (hk.touches.inv hinv) hg (hact ▸ ha)

theorem supuvBridge_runs {s : State} (hinv : Inv s) (hres : s.bridgeUnres = false) (hok : s.bridgeBad = false) :
    Runs .supuvBridge s fun t =>
      t.bridgeBad = true ∧ (∀ g, gateHigh t g = false ∧ gateLow t g = false)
        ∧ (∀ g ∈ gdUsed s, gxAct s g < 3 → bitOf (nth t.gact (gxAct s g)).evt 3 = true) ∧ OnlyChanges (traced [.bridgeBad, .gact]) s t := by
  let u : State := { s with bridgeBad := true }
  have hu : Touches [.bridgeBad] s u := bridgeBad_touches s true
  have ht := supuvCounted_touches u (gdUsed s)
  have hbad : ((gdUsed s).foldl supuvCounted u).bridgeBad = true := ht.agree .bridgeBad (by decide)
  have hexec : exec .supuvBridge s = .next ((gdUsed s).foldl supuvCounted u) :=
    congrArg Host.Outcome.next (if_neg (by rw [hres, hok]; decide))
  exact ⟨_, hexec, hbad, fun g => gates_off_of_held (by simp only [gatesHeld, hbad, Bool.true_or]), fun g hg ha => supuvCounted_notes (hu.inv hinv) hg ha,
    Touches.onlyChanges <| .after (by decide) ht (.mono (by decide) hu)⟩

/-! ## GX_CLR (R442, R446) -/

/-- Whether a latch of the mask stays: its condition persists. -/
def gxStays (s : State) (mask : Nat) (present : Byte) (g : Nat) : Bool := hasBit mask g && (gdAt s g).vdsoc && hasBit present.toNat g

/-- The pre-drivers after a clear of a mask. -/
def gxCleared (s : State) (mask : Nat) (present : Byte) : State :=
  { s with gd := s.gd.mapIdx fun g x => if hasBit mask g && !gxStays s mask present g then { x with vdsoc := false } else x }

theorem gxClear_eq (s : State) (mask : Nat) (present : Byte) :
    gxClear s mask present = if (List.range 8).any (gxStays s mask present)
      then (gxCleared s mask present).useFree.refuse ((gxCleared s mask present).free.toNat % 256) else (gxCleared s mask present).ok [] := rfl

theorem gxClear_gd (s : State) (mask : Nat) (present : Byte) : (gxClear s mask present).gd = (gxCleared s mask present).gd := by
  rw [gxClear_eq]
  split <;> rfl

theorem gxCleared_touches (s : State) (mask : Nat) (present : Byte) : Touches [.gd] s (gxCleared s mask present) :=
  gd_touches s _ List.length_mapIdx

theorem gxClear_touches (s : State) (mask : Nat) (present : Byte) : Touches [.freeCtr, .acc, .gd] s (gxClear s mask present) := by
  rw [gxClear_eq]
  refine .ite (fun _ => ?_) fun _ => ?_
  · exact .after (by decide) (acc_touches _ _) <| .after (by decide) (useFree_touches _) <| .mono (by decide) (gxCleared_touches s mask present)
  · exact .after (by decide) (acc_touches _ _) <| .mono (by decide) (gxCleared_touches s mask present)

theorem gxCleared_at {s : State} (hinv : Inv s) (mask : Nat) (present : Byte) {g : Nat} (hg : g < 8) :
    nth (gxCleared s mask present).gd g
      = if hasBit mask g && !gxStays s mask present g then { nth s.gd g with vdsoc := false } else nth s.gd g := by
  have hlt : g < s.gd.length := hg.trans_eq hinv.gd_length.symm
  simp [gxCleared, nth, hlt]

theorem gxClr_runs {s : State} (hinv : Inv s) (mask present : Byte) (hw : WriteOpen s .cs) :
    let stay := fun (g : Nat) => hasBit mask.toNat g = true ∧ (nth s.gd g).vdsoc = true ∧ hasBit present.toNat g = true
    Runs (.gxClr mask present) s fun t =>
      ((∀ g, g < 8 → ¬ stay g) → Answered t 0 []) ∧ ((∃ g, g < 8 ∧ stay g) → t.acc.status = 4)
        ∧ (∀ g, g < 8 → (hasBit mask.toNat g = false ∨ stay g → nth t.gd g = nth s.gd g)
          ∧ (hasBit mask.toNat g = true → ¬ stay g → nth t.gd g = { nth s.gd g with vdsoc := false })) ∧ OnlyChanges [.freeCtr, .acc, .gd] s t := by
  intro stay
  have hstay (g : Nat) (hg : g < 8) : gxStays s mask.toNat present g = true ↔ stay g := by
    simp [gxStays, gdAt_eq_nth hinv hg, stay, and_assoc]
  refine ⟨gxClear s mask.toNat present, congrArg Host.Outcome.next (writeGate_open hw _), fun hnone => ?_, fun ⟨g, hg, hs⟩ => ?_,
    fun g hg => ⟨fun h => ?_, fun hm hs => ?_⟩, (gxClear_touches s mask.toNat present).onlyChanges⟩
  · have hany : ¬(List.range 8).any (gxStays s mask.toNat present) = true := by
      rw [List.any_eq_true]
      rintro ⟨g, hg, hs⟩
      exact hnone g (List.mem_range.1 hg) ((hstay g (List.mem_range.1 hg)).1 hs)
    rw [gxClear_eq, if_neg hany]
    rfl
  · have hany : (List.range 8).any (gxStays s mask.toNat present) = true :=
      List.any_eq_true.2 ⟨g, List.mem_range.2 hg, (hstay g hg).2 hs⟩
    rw [gxClear_eq, if_pos hany]
    rfl
  · rw [gxClear_gd, gxCleared_at hinv _ _ hg]
    rcases h with h | h
    · simp [h]
    · simp [(hstay g hg).2 h]
  · rw [gxClear_gd, gxCleared_at hinv _ _ hg, if_pos (by simpa [hm] using mt (hstay g hg).1 hs)]

end Sys2Proof.Machine
end

section
namespace Sys2Proof.Machine

/-! ## A duty shadow that FLOAT leaves (R247, R289) -/

section dash

variable (c : Chan) (m : ChanMode)

theorem edgeA_dash (e : SEdge) : (c.edgeA m e).dash = c.dash := by
  unfold Chan.edgeA
  split_ifs <;> rfl

theorem settle_dash (t : Nat) : (c.settle m t).dash = c.dash := by
  have hA (l : List SEdge) (x : Chan) : (l.foldl (fun c e => c.edgeA m e) x).dash = x.dash :=
    List.foldlRecOn l _ (motive := fun y : Chan => y.dash = x.dash) rfl fun y h e _ => (edgeA_dash y m e).trans h
  have hB (l : List SEdge) (x : Chan) : (l.foldl (fun c e => c.edgeB m e) x).dash = x.dash :=
    List.foldlRecOn l _ (motive := fun y : Chan => y.dash = x.dash) rfl fun y h e _ => h
  exact (hB _ _).trans (hA _ c)

theorem setFloat_dash (t : Nat) (v : Bool) : (c.setFloat m t v).dash = c.dash := by
  unfold Chan.setFloat
  split_ifs
  · rfl
  · exact settle_dash c m t
  · exact settle_dash c m t

end dash

/-! ## Walks over the channels of an actuator -/

/-- Two walks that do the same at every place the walk comes to. -/
theorem foldl_congr_along {α : Type} {P : List Part} {f g : State → α → State} (hg : ∀ t x, Touches P t (g t x)) {l : List α} {s : State}
    (h : ∀ t, ∀ x ∈ l, Touches P s t → f t x = g t x) : l.foldl f s = l.foldl g s := by
  induction l generalizing s with
  | nil => rfl
  | cons x l ih =>
    rw [List.foldl_cons, List.foldl_cons, h s x (.head _) (.refl P s)]
    exact ih fun t y hy ht => h t y (.tail _ hy) ((hg s x).trans ht)

theorem map_getD_range (l : List Nat) : ((List.range l.length).map fun k => l.getD k 0) = l := by
  refine List.ext_getElem (by simp) fun i _ hi => ?_
  simp [List.getElem?_eq_getElem hi]

/-- A walk over the places of a list is a walk over the list. -/
theorem foldl_range_getD (g : State → Nat → State) (l : List Nat) (s : State) :
    (List.range l.length).foldl (fun t k => g t (l.getD k 0)) s = l.foldl g s := by
  conv_rhs => rw [← map_getD_range l]
  rw [List.foldl_map]

/-! ## The duties of an actuator (R437) -/

section congr

variable {s t : State} (h : recsIn t = recsIn s) (hfb : t.fb = s.fb) {a : Nat}

include h hfb

theorem actPattern_congr (hd : actDrive t a = actDrive s a) : actPattern t a = actPattern s a := by
  simp only [actPattern, actPosCh_congr h, actBldc_congr h, actW_congr h, hfb, hd]

theorem gearDuty_congr (hd : actDrive t a = actDrive s a) (k : Nat) : gearDuty t a k = gearDuty s a k := by
  simp only [gearDuty, actPattern_congr h hfb hd, actBldc_congr h, actGroup_congr h, grpW_congr h, hd]

end congr

/-- The duty of a channel of an actuator is written to its shadow. -/
def gearWritten (a : Nat) (s : State) (c : Nat) : State :=
  s.modChan .cs c fun x => { x with dash := x.dash.write s.now (wi (gearDuty s a ((actChans s a).idxOf c))) }

theorem gearWritten_touches (a : Nat) (s : State) (c : Nat) : Touches [.pwmCs, .pwmDs] s (gearWritten a s c) := modChan_touches s .cs c _

theorem gearWritten_other (a : Nat) (s : State) (c k : Nat) (hk : k ≠ c) :
    nth ((gearWritten a s c).pwm .cs).chans k = nth (s.pwm .cs).chans k := modChan_other s .cs hk _

/-- What touches the channels alone leaves the duties to be written. -/
theorem Touches.gearDuty_eq {s t : State} (h : Touches [.pwmCs, .pwmDs] s t) (a k : Nat) : gearDuty t a k = gearDuty s a k :=
  gearDuty_congr (h.recsIn_eq (by decide)) (h.agree .fb (by decide))
    (by rw [actDrive, actDrive, show t.gact = s.gact from h.agree .gact (by decide)]) k

/-- The walk of GEAR_DUTY_UPDATE is a walk over the actuator's channels. -/
theorem gearWalk_eq {s : State} {a : Nat} (hnd : (actChans s a).Nodup) :
    (List.range (actChans s a).length).foldl (fun s k =>
        s.modChan .cs ((actChans s a).getD k 0) fun c => { c with dash := c.dash.write s.now (wi (gearDuty s a k)) }) s
      = (actChans s a).foldl (gearWritten a) s := by
  rw [← foldl_range_getD (gearWritten a) (actChans s a)]
  refine foldl_congr_along (P := [.pwmCs, .pwmDs]) (fun t k => gearWritten_touches a t _) fun t k hk ht => ?_
  have hk : k < (actChans s a).length := List.mem_range.1 hk
  have hplace : (actChans s a).idxOf ((actChans s a).getD k 0) = k := by
    rw [List.getD_eq_getElem _ _ hk]
    exact hnd.idxOf_getElem k hk
  rw [gearWritten, actChans_congr (ht.recsIn_eq (by decide)), hplace]

/-- What FLOAT makes of an actuator's own state (R437, R438). -/
def actShown (s : State) (a : Nat) : State :=
  s.modAct a fun x => { x with pattern := actPattern s a, float := actBldc s a && actPattern s a == 7 }

/-- FLOAT of the k-th channel of an actuator whose pattern is p. -/
def actFloats (s : State) (a p k : Nat) : State :=
  s.modChan .cs ((actChans s a).getD k 0) fun x =>
    x.setFloat (chanMode s .cs ((actChans s a).getD k 0)) (now16 s) (actBldc s a && (p = 7 || patFloat p = k))

theorem actFloat_eq (s : State) (a : Nat) :
    actFloat s a = (List.range (actChans (actShown s a) a).length).foldl (fun t k => actFloats t a (actPattern s a) k) (actShown s a) := rfl

theorem actFloats_touches (s : State) (a p k : Nat) : Touches [.pwmCs, .pwmDs] s (actFloats s a p k) := modChan_touches s .cs _ _

theorem actShown_turns (s : State) (a : Nat) :
    Turns State.gact [.gact] a (fun x => { x with pattern := actPattern s a, float := actBldc s a && actPattern s a == 7 }) s (actShown s a) :=
  modAct_turns s a _

/-- FLOAT leaves every duty shadow. -/
theorem actFloat_dash (s : State) (a c : Nat) : (nth ((actFloat s a).pwm .cs).chans c).dash = (nth (s.pwm .cs).chans c).dash := by
  have hkeep : Retains (fun x : Chan => x.dash) (fun _ : Grp => ()) (actShown s a) (actFloat s a) :=
    Retains.foldl (fun t k => modChan_retains t .cs _ fun x => setFloat_dash x _ _ _) _ _
  exact hkeep.chan .cs c

/-- FLOAT leaves the channels of other legs. -/
theorem actFloat_other {s : State} {a c : Nat} (hc : c ∉ actChans s a) :
    nth ((actFloat s a).pwm .cs).chans c = nth (s.pwm .cs).chans c := by
  have hshown : actChans (actShown s a) a = actChans s a :=
    actChans_congr ((actShown_turns s a).touches.recsIn_eq (by decide)) a
  have hwalk : ∀ t, Touches [.pwmCs, .pwmDs] (actShown s a) t → ∀ k ∈ List.range (actChans (actShown s a) a).length,
      nth ((actFloats t a (actPattern s a) k).pwm .cs).chans c = nth (t.pwm .cs).chans c := by
    intro t ht k hk
    have hmem : (actChans t a).getD k 0 ∈ actChans s a := by
      rw [← hshown, actChans_congr (ht.recsIn_eq (by decide)), List.getD_eq_getElem _ _ (List.mem_range.1 hk)]
      exact List.getElem_mem _
    exact modChan_other t .cs (fun h : c = (actChans t a).getD k 0 => hc (h.symm ▸ hmem)) _
  exact (List.foldlRecOn _ _ (motive := fun t => Touches [.pwmCs, .pwmDs] (actShown s a) t ∧ nth (t.pwm .cs).chans c = nth (s.pwm .cs).chans c)
    ⟨.refl _ _, rfl⟩ fun t ⟨ht, hsame⟩ k hk => ⟨ht.trans (actFloats_touches t a _ k), (hwalk t ht k hk).trans hsame⟩).2

theorem actFloat_pattern {s : State} (hinv : Inv s) {a : Nat} (ha : a < 3) :
    (nth (actFloat s a).gact a).pattern = actPattern s a ∧ actDrive (actFloat s a) a = actDrive s a := by
  have hfold : Touches [.pwmCs, .pwmDs] (actShown s a) (actFloat s a) := Touches.foldl (fun t k => actFloats_touches t a _ k) _ _
  have hgact : (actFloat s a).gact = (actShown s a).gact := hfold.agree .gact (by decide)
  have hown := (actShown_turns s a).act_eq hinv ha
  rw [actDrive, actDrive, hgact, hown]
  exact ⟨rfl, rfl⟩

/-- The state of an actuator whose duties are written. -/
def gearUpdated (s : State) (a : Nat) : State := (actChans (actFloat s a) a).foldl (gearWritten a) (actFloat s a)

theorem gearUpdated_touches (s : State) (a : Nat) : Touches [.gact, .pwmCs, .pwmDs] s (gearUpdated s a) :=
  .after (by decide) (Touches.foldl (gearWritten_touches a) _ _) (actFloat_touches s a)

theorem actFloat_chans (s : State) (a : Nat) : actChans (actFloat s a) a = actChans s a :=
  actChans_congr ((actFloat_touches s a).recsIn_eq (by decide)) a

theorem actChans_lt {s : State} {a c : Nat} (hc : c ∈ actChans s a) : c < 16 := by
  obtain ⟨g, -, rfl⟩ := List.mem_map.1 hc
  exact Nat.mod_lt _ (by decide)

theorem gearWritten_dash {s : State} {c : Nat} (hc : c < (s.pwm .cs).chans.length) (a : Nat) :
    (nth ((gearWritten a s c).pwm .cs).chans c).dash
      = (nth (s.pwm .cs).chans c).dash.write s.now (wi (gearDuty s a ((actChans s a).idxOf c))) :=
  congrArg Chan.dash (modChan_own s .cs hc _)

/-- Each channel's duty shadow is written once, with the duty the state before all of them gives. -/
theorem gearUpdated_written {s : State} (hinv : Inv s) {a c : Nat} (ha : a < 3) (hnd : (actChans s a).Nodup) (hc : c ∈ actChans s a) :
    (nth ((gearUpdated s a).pwm .cs).chans c).dash
      = (nth (s.pwm .cs).chans c).dash.write s.now (wi (gearDuty s a ((actChans s a).idxOf c))) := by
  have hfloat := actFloat_touches s a
  have hchans := actFloat_chans s a
  have hnd' : (actChans (actFloat s a) a).Nodup := by rwa [hchans]
  have hc' : c ∈ actChans (actFloat s a) a := by rwa [hchans]
  obtain ⟨t, ht, hsame, hown⟩ := foldl_chan_own (d := .cs) (gearWritten_other a) (gearWritten_touches a) hnd' hc' (actFloat s a)
  have hlt : c < (t.pwm .cs).chans.length := ((ht.inv (hfloat.inv hinv)).chans_length .cs).symm ▸ actChans_lt hc
  have hduty (k : Nat) : gearDuty t a k = gearDuty s a k := (ht.gearDuty_eq a k).trans <|
    gearDuty_congr (hfloat.recsIn_eq (by decide)) (hfloat.agree .fb (by decide)) (actFloat_pattern hinv ha).2 k
  have hnow : t.now = s.now := (ht.now (by decide)).trans (hfloat.now (by decide))
  have hchansT : actChans t a = actChans s a := (actChans_congr (ht.recsIn_eq (by decide)) a).trans hchans
  rw [gearUpdated, hown, gearWritten_dash hlt, hchansT, hduty, hnow, hsame, actFloat_dash]

theorem gearUpdated_other {s : State} {a c : Nat} (hc : c ∉ actChans s a) :
    nth ((gearUpdated s a).pwm .cs).chans c = nth (s.pwm .cs).chans c := by
  have hc' : c ∉ actChans (actFloat s a) a := by rwa [actFloat_chans]
  rw [gearUpdated, foldl_chan_other (d := .cs) (gearWritten_other a) hc', actFloat_other hc]

theorem pwm_cs (s : State) : s.pwm .cs = s.pwmCs := rfl

theorem gearDutyUpdate_runs {s : State} (hinv : Inv s) {a : Fin 3} {u : Nat} (hdef : (actDef s a.val).isSome = true)
    (hready : s.sys.ready = true) (hu : gearUpdate s a.val = some u) (hnd : (actChans s a.val).Nodup) :
    Runs (.gearDutyUpdate a) s fun t =>
      t.now = max s.now (u - 3) ∧ (nth t.gact a.val).pattern = actPattern s a.val
        ∧ (∀ k, k < (actChans s a.val).length →
          let c := (actChans s a.val).getD k 0
          (nth t.pwmCs.chans c).dash = (nth s.pwmCs.chans c).dash.write t.now (wi (gearDuty s a.val k)))
        ∧ (∀ c, c ∉ actChans s a.val → nth t.pwmCs.chans c = nth s.pwmCs.chans c) ∧ OnlyChanges [.now, .pwmCs, .pwmDs, .gact] s t := by
  let v := s.advanceTo (u - 3)
  have hv : Inv v := (advanceTo_touches s (u - 3)).inv hinv
  have hexec : exec (.gearDutyUpdate a) s = .next (gearUpdated v a.val) := by
    have hbar : ¬((actDef s a.val).isNone || !s.sys.ready) = true := by
      rw [hready, Option.isNone_eq_false_iff.2 hdef]
      decide
    have hnd' : (actChans (actFloat v a.val) a.val).Nodup := by
      rw [actFloat_chans]
      exact hnd
    have hwalk := gearWalk_eq hnd'
    simp only [exec, execGearDutyUpdate, if_neg hbar, hu]
    exact congrArg Host.Outcome.next hwalk
  have ht := gearUpdated_touches v a.val
  have hnow : (gearUpdated v a.val).now = v.now := ht.now (by decide)
  have hgact : (gearUpdated v a.val).gact = (actFloat v a.val).gact :=
    (Touches.foldl (gearWritten_touches a.val) _ (actFloat v a.val)).agree .gact (by decide)
  have hother (c : Nat) (hc : c ∉ actChans v a.val) : nth (gearUpdated v a.val).pwmCs.chans c = nth v.pwmCs.chans c := by
    rw [← pwm_cs, ← pwm_cs, gearUpdated_other hc]
  refine ⟨_, hexec, hnow, ?_, fun k hk => ?_, hother, (ht.afterTime (by decide) (by decide)).onlyChanges⟩
  · rw [hgact]
    exact (actFloat_pattern hv a.isLt).1
  · have hmem : (actChans s a.val).getD k 0 ∈ actChans s a.val := by
      rw [List.getD_eq_getElem _ _ hk]
      exact List.getElem_mem _
    have hplace : (actChans s a.val).idxOf ((actChans s a.val).getD k 0) = k := by
      rw [List.getD_eq_getElem _ _ hk]
      exact hnd.idxOf_getElem k hk
    have hdash := gearUpdated_written hv a.isLt hnd hmem
    rw [pwm_cs, pwm_cs, show actChans v a.val = actChans s a.val from rfl, hplace] at hdash
    rw [hnow]
    exact hdash

/-! ## OVERCUR and STALL (R439) -/

theorem overcur_runs {s : State} (hinv : Inv s) {a : Fin 3} {tl : Nat} (hlim : (nth s.gact a.val).limAt = some tl)
    (hfirst : (nth s.gact a.val).ocDone = false) :
    Runs (.overcur a) s fun t =>
      t.now = max s.now (tl + fld (actW s a.val 3) 15 0 * msec) ∧ (nth t.gact a.val).ocDone = true ∧ bitOf (nth t.gact a.val).evt 4 = true
        ∧ (∀ k, k ≠ a.val → nth t.gact k = nth s.gact k) ∧ OnlyChanges (traced [.now, .gact]) s t := by
  let v := s.advanceTo (tl + fld (actW s a.val 3) 15 0 * msec)
  have hexec : ∃ w, exec (.overcur a) s = .next (actEvent (v.modAct a.val fun x => { x with ocDone := true }) a.val 4 w) := by
    refine ⟨wi (satS 32 (mantOf (viewNow v .cs (fld (actW v a.val 1) 8 0)).rat (-8))), ?_⟩
    simp only [exec, execOvercur, hlim, hfirst]
    rfl
  obtain ⟨w, hexec⟩ := hexec
  have ht := ((modAct_turns v a.val fun x => { x with ocDone := true }).mono (P := traced [.gact]) (by decide)).andTurns (by decide)
    (actEvent_turns _ a.val 4 w)
  have hown := ht.act_eq ((advanceTo_touches s _).inv hinv) a.isLt
  exact ⟨_, hexec, ht.touches.now (by decide), (congrArg Act.ocDone hown :), bitOf_of_eq_orBit (congrArg Act.evt hown :) (by decide),
    fun k hk => ht.other hk _, (ht.touches.afterTime (by decide) (by decide)).onlyChanges⟩

theorem stall_runs {s : State} (hinv : Inv s) {a : Fin 3} (hdef : (actDef s a.val).isSome = true)
    (hmoves : (nth s.gact a.val).stalled = false) (hdrive : fld (actW s a.val 2) 15 0 ≤ (nth s.gact a.val).drive.toInt.natAbs) :
    Runs (.stall a) s fun t =>
      t.now = max s.now (max (max (nth s.gact a.val).posAt (nth s.gact a.val).driveAt) (s.t0.getD 0) + fld (actW s a.val 2) 31 16 * msec)
        ∧ actDrive t a.val = 0 ∧ (nth t.gact a.val).stalled = true ∧ bitOf (nth t.gact a.val).evt 5 = true
        ∧ (∀ k, k ≠ a.val → nth t.gact k = nth s.gact k) ∧ OnlyChanges (traced [.now, .gact]) s t := by
  let v := s.advanceTo (max (max (nth s.gact a.val).posAt (nth s.gact a.val).driveAt) (s.t0.getD 0) + fld (actW s a.val 2) 31 16 * msec)
  have hbar : ¬((actDef s a.val).isNone || (nth s.gact a.val).stalled
      || decide ((nth s.gact a.val).drive.toInt.natAbs < fld (actW s a.val 2) 15 0)) = true := by
    rw [hmoves, Option.isNone_eq_false_iff.2 hdef]
    simpa using hdrive
  have ht := ((modAct_turns v a.val fun y => { y with stalled := true, sawZero := false }).mono (P := traced [.gact]) (by decide)).andTurns
    (by decide) (actEvent_turns _ a.val 5 (nth v.fb (actPosCh v a.val)).pos)
  have hown := ht.act_eq ((advanceTo_touches s _).inv hinv) a.isLt
  exact ⟨_, congrArg Host.Outcome.next (if_neg hbar), ht.touches.now (by decide), if_pos (congrArg Act.stalled hown :),
    (congrArg Act.stalled hown :), bitOf_of_eq_orBit (congrArg Act.evt hown :) (by decide), fun k hk => ht.other hk _,
    (ht.touches.afterTime (by decide) (by decide)).onlyChanges⟩

/-- Settles O56: each row turns pre-drivers or actuators, and its gates follow from what holds them off. -/
theorem preDriversAndActuatorsAreSupervised : Obligations.PreDriversAndActuatorsAreSupervised := by
  unfold Obligations.PreDriversAndActuatorsAreSupervised
  intro s hinv
  refine ⟨fun gd high hon => vdsoc_runs hinv hon, fun gd hres => bsuv_runs hinv hres,
    fun hres => ⟨fun hok => supuvBridge_runs hinv hres hok, ?inRange⟩, fun mask present hw => gxClr_runs hinv mask present hw,
    fun a u hdef hready hu hnd => gearDutyUpdate_runs hinv hdef hready hu hnd, fun a tl hlim hfirst => overcur_runs hinv hlim hfirst,
    fun a hdef hmoves hdrive => stall_runs hinv hdef hmoves hdrive⟩
  case inRange =>
    exact ⟨_, congrArg Host.Outcome.next (if_neg (by rw [hres]; decide)), rfl, (bridgeBad_touches s false).onlyChanges⟩

end Sys2Proof.Machine
end

section
namespace Sys2Proof.Machine

/-- Legs 1 and 2 belong to the image; leg 1 has a delay of each of its four kinds and no baseline, and a FENCEREC dates its
minimum pulse. -/
def edgeBesideUndatedLeg : State :=
  { State.reset with
    dsLoaded := true
    img := { State.reset.img with recs := [⟨sPOWER, 0x10, [1, 0]⟩, ⟨sPOWER, 0x10, [2, 0]⟩] }
    lamp := { State.reset.lamp with
      legs := upd State.reset.lamp.legs 1 fun x => { x with hOn := [1], hOff := [1], lOn := [1], lOff := [1] }
      fences := [⟨4, 1, 0, none, none, false⟩] } }

/-- The edge of leg 2 takes the baseline of leg 1. -/
theorem edgeBesideUndatedLeg_takes :
    Runs (.switchingDelayEdge 2 true false 77) edgeBesideUndatedLeg fun t => (legDelay t 1).base.isSome = true :=
  ⟨_, rfl, by decide +kernel⟩

/-- Refutes O57: an edge of one leg takes the baselines that wait for a valid measurement (R461), so a leg other than its
own, measured and without a baseline, is given one. -/
theorem not_channelsSampleThrottleAndAge : ¬ Obligations.ChannelsSampleThrottleAndAge := by
  unfold Obligations.ChannelsSampleThrottleAndAge
  intro h
  obtain ⟨-, -, -, hedge, -⟩ := h edgeBesideUndatedLeg ⟨by decide +kernel, by decide +kernel⟩
  obtain ⟨t, he, -, -, -, -, hother, -⟩ := hedge 2 true false 77 (by decide +kernel) (by decide +kernel)
  obtain ⟨u, hu, hbase⟩ := edgeBesideUndatedLeg_takes
  obtain rfl : t = u := Host.Outcome.next.inj (he.symm.trans hu)
  rw [hother 1 (by decide)] at hbase
  exact absurd hbase (by decide +kernel)

end Sys2Proof.Machine
end

section
namespace Sys2Proof.Machine

/-! ## What an operation makes of one CAN controller -/

theorem Inv.can_length {s : State} (h : Inv s) : s.can.length = 3 := (congrArg (fun l => nth l 26) h.2 :)

/-- Controller n turns by f, and beside it nothing but the named parts. -/
abbrev TurnsCan (P : List Part) (n : Nat) (f : Can → Can) (s t : State) : Prop := Turns State.can P n f s t

/-- Every controller but n stays. -/
def OtherCans (n : Nat) (s t : State) : Prop := ∀ k, k ≠ n → canAt t k = canAt s k

/-- Every transmit buffer of controller n but b stays. -/
def OtherBufs (n b : Nat) (s t : State) : Prop := ∀ k, k ≠ b → txAt t n k = txAt s n k

section
variable {P : List Part} {n : Nat} {f : Can → Can} {s t : State}

theorem Turns.canAt_eq (h : TurnsCan P n f s t) (hn : n < s.can.length) : canAt t n = f (canAt s n) := h.own hn _

theorem Turns.otherCans (h : TurnsCan P n f s t) : OtherCans n s t := fun _ hk => h.other hk _

end

theorem modCan_turns (s : State) (n : Nat) (f : Can → Can) : TurnsCan [.can] n f s (s.modCan n f) :=
  ⟨modCan_touches s n f, rfl⟩

theorem Touches.cnW_eq {P : List Part} {s t : State} (h : Touches P s t) (hP : .img ∉ P ∧ .csLoaded ∉ P ∧ .dsLoaded ∉ P) :
    cnW t = cnW s := by
  unfold cnW cnCfg
  rw [h.recsIn_eq hP]

theorem Touches.cnBit_eq {P : List Part} {s t : State} (h : Touches P s t) (hP : .img ∉ P ∧ .csLoaded ∉ P ∧ .dsLoaded ∉ P) :
    cnBit t = cnBit s := by
  unfold cnBit
  rw [h.cnW_eq hP]

theorem Touches.cnOf_eq {P : List Part} {s t : State} (h : Touches P s t) (hP : .img ∉ P ∧ .csLoaded ∉ P ∧ .dsLoaded ∉ P) :
    cnOf t = cnOf s := by
  unfold cnOf
  rw [h.recsIn_eq hP]

theorem Touches.firstFilter_eq {P : List Part} {s t : State} (h : Touches P s t)
    (hP : .img ∉ P ∧ .csLoaded ∉ P ∧ .dsLoaded ∉ P) : firstFilter t = firstFilter s := by
  unfold firstFilter
  rw [h.cnOf_eq hP]

theorem Touches.timeRole_eq {P : List Part} {s t : State} (h : Touches P s t)
    (hP : .img ∉ P ∧ .csLoaded ∉ P ∧ .dsLoaded ∉ P) : timeRole t = timeRole s := by
  unfold timeRole
  rw [h.recsIn_eq hP]

/-! ## One transmit buffer -/

/-- Buffer b of a controller turns by g. -/
def Can.withTx (b : Nat) (g : TxBuf → TxBuf) (x : Can) : Can := { x with tx := upd x.tx b g }

theorem modTx_turns (s : State) (n b : Nat) (g : TxBuf → TxBuf) : TurnsCan [.can] n (Can.withTx b g) s (s.modTx n b g) :=
  modCan_turns s n _

section
variable {P : List Part} {n b : Nat} {f : Can → Can} {g : TxBuf → TxBuf} {s t : State}

theorem Turns.txAt_eq (h : TurnsCan P n f s t) (hn : n < s.can.length) : txAt t n b = nth (f (canAt s n)).tx b := by
  rw [txAt, h.canAt_eq hn]

/-- The buffer that has turned. -/
theorem Turns.buffer (h : TurnsCan P n f s t) (hn : n < s.can.length) (hf : ∀ x, (f x).tx = upd x.tx b g)
    (hb : b < (canAt s n).tx.length) : txAt t n b = g (txAt s n b) := by
  rw [h.txAt_eq hn, hf, nth_upd _ hb, txAt]

theorem Turns.otherBufs (h : TurnsCan P n f s t) (hn : n < s.can.length) (hf : ∀ x, (f x).tx = upd x.tx b g) :
    OtherBufs n b s t := by
  intro k hk
  rw [h.txAt_eq hn, hf, nth_upd_other _ hk, txAt]

end

/-- The buffer that goes first is one of the controller's three. -/
theorem arbChoice_lt {s : State} {n b : Nat} (h : arbChoice s n = some b) : b < 3 := by
  have hps : ∀ k ∈ [0, 1, 2].filter fun b => (txAt s n b).status == 1, k < 3 := fun k hk => by
    have hmem := List.mem_of_mem_filter hk
    simp at hmem
    omega
  unfold arbChoice at h
  dsimp only at h
  split at h
  · exact hps b (List.mem_of_head? h)
  · refine List.foldlRecOn (motive := fun a => ∀ x, a = some x → x < 3) _ _ (by simp)
      (fun a ha k hk x hx => ?_) b h
    split at hx
    next y =>
      split at hx
      · exact Option.some.inj hx ▸ hps k hk
      · exact ha x hx
    next => exact Option.some.inj hx ▸ hps k hk

theorem sendingBuf_lt {s : State} {n b : Nat} (h : sendingBuf s n = some b) : b < 3 := by
  have hmem := List.mem_of_find?_eq_some h
  simp at hmem
  omega

/-! ## The transmit side (R479 to R482, R488 to R491) -/

/-- A controller but for its transmit side. -/
def Can.bus (x : Can) : Can := { x with tx := [], devq := [], devRef := false }

/-- Network time but for what it keeps of the reference message sent last (R491). -/
def Net.clock (x : Net) : Net := { x with prevSof := 0, prevOk := false }

/-- From s to t controller n changes in its transmit side alone, and network time in the message sent last. -/
structure Transmits (n : Nat) (s t : State) : Prop where
  turns : ∃ f, TurnsCan [.freeCtr, .can, .net] n f s t ∧ ∀ x, (f x).bus = x.bus
  clock : t.net.clock = s.net.clock

namespace Transmits

variable {n : Nat} {s t u : State}

theorem refl (n : Nat) (s : State) : Transmits n s s := ⟨⟨id, .refl _ _ n s, fun _ => rfl⟩, rfl⟩

theorem trans (h : Transmits n s t) (k : Transmits n t u) : Transmits n s u := by
  obtain ⟨f, hf, hfb⟩ := h.turns
  obtain ⟨g, hg, hgb⟩ := k.turns
  exact ⟨⟨g ∘ f, hf.andTurns (List.Subset.refl _) hg, fun x => (hgb _).trans (hfb x)⟩, k.clock.trans h.clock⟩

theorem modCan (s : State) (n : Nat) {f : Can → Can} (hf : ∀ x, (f x).bus = x.bus) : Transmits n s (s.modCan n f) :=
  ⟨⟨f, (modCan_turns s n f).mono (by decide), hf⟩, rfl⟩

theorem modTx (s : State) (n b : Nat) (g : TxBuf → TxBuf) : Transmits n s (s.modTx n b g) := modCan s n fun _ => rfl

theorem of_touches (h : Touches [.freeCtr, .net] s t) (hnet : t.net.clock = s.net.clock) : Transmits n s t :=
  ⟨⟨id, (h.mono (by decide)).turns (h.agree .can (by decide)) n, fun _ => rfl⟩, hnet⟩

/-- What network time keeps of the message sent last is set. -/
theorem net (s : State) (n : Nat) {v : Net} (h : v.clock = s.net.clock) : Transmits n s { s with net := v } :=
  of_touches ((net_touches s v).mono (by decide)) h

theorem netIf {c : Prop} [Decidable c] {v : Net} (h : v.clock = s.net.clock) :
    Transmits n s (if c then { s with net := v } else s) := by
  split
  · exact net s n h
  · exact refl n s

theorem ite {c : Prop} [Decidable c] (h : Transmits n s t) (k : Transmits n s u) : Transmits n s (if c then t else u) := by
  split
  · exact h
  · exact k

theorem foldl {α : Type} {f : State → α → State} (hf : ∀ t x, Transmits n t (f t x)) (l : List α) (s : State) :
    Transmits n s (l.foldl f s) := by
  induction l generalizing s with
  | nil => exact refl n s
  | cons x l ih => exact (hf s x).trans (ih _)

theorem touches (h : Transmits n s t) : Touches [.freeCtr, .can, .net] s t := by
  obtain ⟨_, hf, -⟩ := h.turns
  exact hf.touches

end Transmits

theorem devLoad_transmits (s : State) (n : Nat) : Transmits n s (devLoad s n) := by
  refine .ite (.refl n s) ?_
  split
  next => exact .refl n s
  next isRef bs rest _ =>
    refine .trans (.modCan s n (f := fun x => { x with devq := rest, devRef := isRef }) fun _ => rfl) (.ite ?_ ?_)
    · exact .trans (.of_touches (refFrame_touches _ n (ofLe bs)) rfl) (.modTx _ n 2 _)
    · exact .trans (.of_touches ((useFree_touches _).mono (by decide)) rfl) (.modTx _ n 2 _)

theorem txEnd_transmits (s : State) (n b status : Nat) : Transmits n s (txEnd s n b status) := by
  unfold txEnd
  dsimp only
  refine .trans (.modTx s n b _) (.ite (.refl n _)
    (.trans (.trans ?noted (.modCan _ n (f := fun x => { x with devRef := false }) fun _ => rfl)) (devLoad_transmits _ n)))
  case noted => exact .netIf rfl

/-- A host buffer ends in a status, stamped where its frame was sent (R481). -/
theorem txEnd_host {s : State} {n b : Nat} (status : Nat) (h : isDevBuf s n b = false) :
    txEnd s n b status
      = s.modTx n b fun x => { x with status := status, ts := if status = 3 || status = 4 then (canAt s n).sofN else x.ts } := by
  simp only [txEnd, h, Bool.not_false, if_true]

theorem txCancelBuf_transmits (s : State) (n b : Nat) : Transmits n s (txCancelBuf s n b) :=
  .ite (txEnd_transmits s n b 5) (.ite (.modTx s n b _) (.refl n s))

/-! ## Events and error states (R483, R496) -/

/-- A controller on which a cause has been noted. -/
def Can.noted (cause : Nat) (x : Can) : Can := { x with evt := orBit x.evt cause }

theorem canEvent_turns (s : State) (n cause : Nat) (detail : Word) :
    TurnsCan (traced [.can]) n (Can.noted cause) s (canEvent s n cause detail) :=
  ((modCan_turns s n _).mono (by decide)).andThen (by decide) (countEvent_touches _ _) ((countEvent_touches _ _).agree .can (by decide))

theorem canLevel_eq (tec rec : Nat) : canLevel tec rec = if 127 < tec ∨ 127 < rec then 3 else 2 := by
  simp [canLevel]

/-- New counters give a controller its state, and may count an entry into error-passive (R483). -/
theorem canCounters_turns (s : State) (n tec rec : Nat) :
    ∃ f, TurnsCan (traced [.can]) n f s (canCounters s n tec rec)
      ∧ ∀ x, f x = { x with tec := tec, rec_ := rec, state := canLevel tec rec, evt := (f x).evt } := by
  have hset := (modCan_turns s n fun x => { x with tec := tec, rec_ := rec, state := canLevel tec rec }).mono
    (P := traced [.can]) (by decide)
  unfold canCounters
  dsimp only
  split
  · exact ⟨_, hset.andTurns (List.Subset.refl _) (canEvent_turns _ n 2 _), fun _ => rfl⟩
  · exact ⟨_, hset, fun _ => rfl⟩

end Sys2Proof.Machine
end

section
namespace Sys2Proof.Machine

/-! ## The rows of the controllers' buffers and error states -/

/-- The state in which a host buffer ends SENT or CANCELLED-SENT. -/
theorem frameSent_turns {s : State} {n b : Nat} (hhost : isDevBuf s n b = false) (status : Nat)
    (hsent : status = 3 ∨ status = 4) (tec rec : Nat) :
    ∃ f, TurnsCan (traced [.can]) n f s (txEnd (canCounters s n tec rec) n b status)
      ∧ ∀ x, f x = { x with tec := tec, rec_ := rec, state := canLevel tec rec, evt := (f x).evt
                            tx := upd x.tx b fun y => { y with status := status, ts := (canAt (canCounters s n tec rec) n).sofN } } := by
  obtain ⟨f, hf, hcount⟩ := canCounters_turns s n tec rec
  have hhost' : isDevBuf (canCounters s n tec rec) n b = false := by
    rw [← hhost, isDevBuf, isDevBuf, cnDevtx, cnDevtx, hf.touches.cnBit_eq (by decide)]
  have hstamp : (decide (status = 3) || decide (status = 4)) = true := by simpa using hsent
  simp only [txEnd_host status hhost', hstamp, if_true]
  refine ⟨_, hf.andTurns (by decide) (modTx_turns _ n b _), fun x => ?_⟩
  rw [Function.comp_apply, Can.withTx, hcount]

/-- What bus-off leaves of a controller's frames before the counters are set (R483). -/
def busOffFrames (s : State) (n : Nat) : State :=
  let s := match sendingBuf s n with
    | some b => if (txAt s n b).cancel then txEnd s n b 5 else s.modTx n b fun x => { x with status := 1, retx := min 255 (x.retx + 1) }
    | none => s
  if cnBit s n 16 then [0, 1, 2].foldl (fun s b => if (txAt s n b).status = 1 then txEnd s n b 6 else s) s else s

theorem busOffFrames_transmits (s : State) (n : Nat) : Transmits n s (busOffFrames s n) := by
  unfold busOffFrames
  refine .trans ?_ (.ite (.foldl (fun t b => .ite (txEnd_transmits t n b 6) (.refl n t)) _ _) (.refl n _))
  split
  · exact .ite (txEnd_transmits s n _ 5) (.modTx s n _ _)
  · exact .refl n s

/-- A controller as it goes bus-off, to hold or to recover. -/
def Can.off (hold : Bool) (tec rec : Nat) (x : Can) : Can :=
  { x with tec := tec, rec_ := rec, state := if hold then 4 else 5, boWait := hold, boCnt := min 65535 (x.boCnt + 1) }

theorem busOff_eq (s : State) (n tec rec : Nat) :
    busOff s n tec rec
      = (let u := (busOffFrames s n).modCan n (Can.off (cnBit (busOffFrames s n) n 15) tec rec)
        canEvent u n 1 (wd (canAt u n).boCnt)) := rfl

/-- Bus-off holds or recovers, and counts its occurrence. -/
theorem busOff_turns (s : State) (n tec rec : Nat) :
    ∃ f, TurnsCan (traced [.can, .net]) n f s (busOff s n tec rec)
      ∧ ∀ x, (f x).bus = (Can.off (cnBit s n 15) tec rec x.bus).noted 1 := by
  have htx := busOffFrames_transmits s n
  have hbit := congrFun (congrFun (htx.touches.cnBit_eq (by decide)) n) 15
  obtain ⟨f, hf, hbus⟩ := htx.turns
  rw [busOff_eq, hbit]
  exact ⟨_, ((hf.mono (by decide)).andTurns (by decide) (modCan_turns _ n _)).andTurns (by decide) (canEvent_turns _ n 1 _),
    fun x => congrArg (fun y => (Can.off (cnBit s n 15) tec rec y).noted 1) (hbus x)⟩

/-- The SENDING frame after an error below bus-off, or after arbitration lost (R482). -/
def errorFrames (s : State) (n : Nat) (tx : Bool) : State :=
  match (if tx then sendingBuf s n else none) with
  | some b => if (txAt s n b).cancel then txEnd s n b 5 else s.modTx n b fun t => { t with retx := min 255 (t.retx + 1) }
  | none => s

theorem errorFrames_transmits (s : State) (n : Nat) (tx : Bool) : Transmits n s (errorFrames s n tx) := by
  unfold errorFrames
  split
  · exact .ite (txEnd_transmits s n _ 5) (.modTx s n _ _)
  · exact .refl n s

/-- A controller after a bus error, by what the standard gives for it (R483). -/
structure Erred (arbLost hold : Bool) (tec rec : Nat) (x y : Can) : Prop where
  lost : arbLost = true → y.tec = x.tec ∧ y.rec_ = x.rec_ ∧ y.state = x.state
  counted : arbLost = false → y.tec = tec ∧ y.rec_ = rec
  level : arbLost = false → tec ≤ 255 → (y.state = 3 ↔ 127 < tec ∨ 127 < rec) ∧ y.boCnt = x.boCnt
  off : arbLost = false → 255 < tec → y.state = (if hold then 4 else 5) ∧ y.boCnt = min 65535 (x.boCnt + 1) ∧ bitOf y.evt 1 = true
  fifo : y.fifo = x.fifo

theorem canLevel_passive (tec rec : Nat) : canLevel tec rec = 3 ↔ 127 < tec ∨ 127 < rec := by
  rw [canLevel_eq]
  split <;> simp_all

theorem busError_turns (n : Fin 3) (tx arbLost : Bool) (tec rec : BitVec 16) (s : State)
    (hstate : (canAt s n).state = 2 ∨ (canAt s n).state = 3) :
    ∃ t f, execCanBusError n tx arbLost tec rec s = .next t ∧ TurnsCan (traced [.can, .net]) n f s t
      ∧ ∀ x, Erred arbLost (cnBit s n 15) tec.toNat rec.toNat x (f x) := by
  have hexec : execCanBusError n tx arbLost tec rec s = .next (
      if !arbLost && 255 < tec.toNat then busOff s n tec.toNat rec.toNat
      else if arbLost then errorFrames s n (tx || arbLost)
      else canCounters (errorFrames s n (tx || arbLost)) n tec.toNat rec.toNat) :=
    congrArg Host.Outcome.next (if_neg (by simpa [← or_iff_not_imp_left] using hstate))
  obtain ⟨f, hf, hbus⟩ := (errorFrames_transmits s n (tx || arbLost)).turns
  rw [hexec]
  cases arbLost
  case true =>
    refine ⟨_, f, rfl, hf.mono (by decide), fun x => ?_⟩
    have h := hbus x
    exact ⟨fun _ => ⟨(congrArg Can.tec h :), (congrArg Can.rec_ h :), (congrArg Can.state h :)⟩, nofun, nofun, nofun,
      (congrArg Can.fifo h :)⟩
  case false =>
    by_cases hoff : 255 < tec.toNat
    · obtain ⟨g, hg, hoffed⟩ := busOff_turns s n tec.toNat rec.toNat
      refine ⟨_, g, congrArg Host.Outcome.next (if_pos (by simpa using hoff)), hg, fun x => ?_⟩
      have h := hoffed x
      exact ⟨nofun, fun _ => ⟨(congrArg Can.tec h :), (congrArg Can.rec_ h :)⟩, fun _ hle => absurd hoff (not_lt.2 hle),
        fun _ _ => ⟨(congrArg Can.state h :), (congrArg Can.boCnt h :), bitOf_of_eq_orBit (congrArg Can.evt h :) (by decide)⟩,
        (congrArg Can.fifo h :)⟩
    · obtain ⟨g, hg, hcount⟩ := canCounters_turns (errorFrames s n (tx || false)) n tec.toNat rec.toNat
      refine ⟨_, _, congrArg Host.Outcome.next (if_neg (by simpa using hoff)), (hf.mono (by decide)).andTurns (by decide) hg,
        fun x => ?_⟩
      have h := hcount (f x)
      have hbo : (g (f x)).boCnt = (f x).boCnt := (congrArg Can.boCnt h :)
      have hfifo : (g (f x)).fifo = (f x).fifo := (congrArg Can.fifo h :)
      have hlevel : (g (f x)).state = canLevel tec.toNat rec.toNat := (congrArg Can.state h :)
      exact ⟨nofun, fun _ => ⟨(congrArg Can.tec h :), (congrArg Can.rec_ h :)⟩,
        fun _ _ => ⟨(iff_of_eq (congrArg (· = 3) hlevel)).trans (canLevel_passive _ _),
          hbo.trans (congrArg Can.boCnt (hbus x) :)⟩,
        fun _ hlt => absurd hlt hoff, hfifo.trans (congrArg Can.fifo (hbus x) :)⟩

end Sys2Proof.Machine
end

section
namespace Sys2Proof.Machine

/-! ## Commands to a controller (R479, R482, R485) -/

theorem ok_turns {P : List Part} {n : Nat} {f : Can → Can} {s t : State} (h : TurnsCan P n f s t) (data : List Word) :
    TurnsCan (.acc :: P) n f s (t.ok data) :=
  (h.mono (List.subset_cons_self _ _)).andThen (Q := [.acc]) (by simp) (acc_touches t _) rfl

/-- A refused command touches the answer alone. -/
theorem refuse_touches (s : State) (ucode : Nat) : Touches [.acc] s (s.refuse ucode) := acc_touches s _

/-- A buffer after TX_CANCEL. -/
def TxBuf.cancelled (x : TxBuf) : TxBuf :=
  if x.status = 1 then { x with status := 5 } else if x.status = 2 then { x with cancel := true } else x

/-- A host buffer is cancelled at once while it is PENDING, and when its frame ends while it is SENDING (R482). -/
theorem txCancelBuf_turns {s : State} {n b : Nat} (h : isDevBuf s n b = false) :
    ∃ f g, TurnsCan [.can] n f s (txCancelBuf s n b) ∧ (∀ x, (f x).tx = upd x.tx b g)
      ∧ g (txAt s n b) = (txAt s n b).cancelled := by
  unfold txCancelBuf TxBuf.cancelled
  split
  · rw [txEnd_host 5 h]
    exact ⟨_, _, modTx_turns s n b _, fun _ => rfl, rfl⟩
  · split
    · exact ⟨_, _, modTx_turns s n b _, fun _ => rfl, rfl⟩
    · exact ⟨id, id, .refl _ _ n s, fun x => (List.modify_id b x.tx).symm, rfl⟩

/-- A buffer after a write of its header, DLC or data word. -/
def TxBuf.written (off : Nat) (v : Word) (x : TxBuf) : TxBuf :=
  if off = 0 then { x with hdr := v }
  else if off = 4 then { x with dlc := v &&& 0xF }
  else { x with data := x.data.set ((off - 0x20) / 4) v }

/-- A controller after RECOVER. -/
def Can.recovering (x : Can) : Can := if x.state = 4 ∧ x.boWait = true then { x with state := 5, boWait := false } else x

theorem canRecover_turns (s : State) (n : Nat) : TurnsCan [.acc, .can] n Can.recovering s (canRecover s n) := by
  have hf : (fun x : Can => if x.state = 4 && x.boWait then { x with state := 5, boWait := false } else x) = Can.recovering := by
    funext x
    simp [Can.recovering]
  unfold canRecover
  rw [hf]
  exact ok_turns (modCan_turns s n _) []

section
variable {s : State} {n b : Nat} (hn : n < s.can.length) (hb : b < (canAt s n).tx.length)

/-- What a command that only a free host buffer takes makes of it. -/
structure TakesHost (n b : Nat) (g : TxBuf → TxBuf) (s t : State) : Prop where
  device : isDevBuf s n b = true → Refused t 0x20 ∧ t.can = s.can
  busy : isDevBuf s n b = false → txBusy s n b = true → Refused t 0x21 ∧ t.can = s.can
  free : isDevBuf s n b = false → txBusy s n b = false → Answered t 0 [] ∧ txAt t n b = g (txAt s n b)
  bufs : OtherBufs n b s t
  cans : OtherCans n s t
  frame : OnlyChanges [.acc, .can] s t

include hn hb in
/-- The gates of a buffer: the device buffer and a busy one refuse (R479). -/
theorem takesHost (g : TxBuf → TxBuf) :
    TakesHost n b g s (if isDevBuf s n b then s.refuse 0x20 else if txBusy s n b then s.refuse 0x21 else (s.modTx n b g).ok []) := by
  cases hdev : isDevBuf s n b
  case true =>
    exact ⟨fun _ => ⟨rfl, rfl⟩, fun h => by simp [hdev] at h, fun h => by simp [hdev] at h, fun _ _ => rfl, fun _ _ => rfl,
      ((refuse_touches s _).mono (by decide)).onlyChanges⟩
  case false =>
    cases hbusy : txBusy s n b
    case true =>
      exact ⟨fun h => by simp [hdev] at h, fun _ _ => ⟨rfl, rfl⟩, fun _ h => by simp [hbusy] at h, fun _ _ => rfl, fun _ _ => rfl,
        ((refuse_touches s _).mono (by decide)).onlyChanges⟩
    case false =>
      have ht := ok_turns (modTx_turns s n b g) []
      exact ⟨fun h => by simp [hdev] at h, fun _ h => by simp [hbusy] at h, fun _ _ => ⟨rfl, ht.buffer hn (fun _ => rfl) hb⟩,
        ht.otherBufs hn fun _ => rfl, ht.otherCans, ht.touches.onlyChanges⟩

end

/-- Settles O58: by the turn of one controller that each row makes. -/
theorem canBuffersAndErrorStates : Obligations.CanBuffersAndErrorStates := by
  unfold Obligations.CanBuffersAndErrorStates
  intro n s hinv htx
  have hn : n.val < s.can.length := by rw [hinv.can_length]; exact n.isLt
  have hbuf {b : Nat} (hb : b < 3) : b < (canAt s n).tx.length := by rw [htx]; exact hb
  dsimp only
  refine ⟨?integrated, ?arbitration, ?sent, ?error, ?recovered, fun hopen =>
    ⟨fun buf => ⟨?request, ?cancel, ?write⟩, ?pop, ?flush, ?recover⟩⟩
  case integrated =>
    intro hstate hrx
    have ht := modCan_turns s n fun y => { y with state := canLevel y.tec y.rec_ }
    refine ⟨_, congrArg Host.Outcome.next (if_pos (by simp [hstate, hrx])), ?_, ht.otherCans, ht.touches.onlyChanges⟩
    rw [ht.canAt_eq hn, canLevel_eq]
  case arbitration =>
    intro hstate hlisten hnone
    have hbar : ¬(!((canAt s n).state = 2 || (canAt s n).state = 3) || cnListen s n) = true := by
      simpa [hlisten, ← or_iff_not_imp_left] using hstate
    cases hchoice : arbChoice s n with
    | none =>
      exact ⟨s, congrArg Host.Outcome.next ((if_neg hbar).trans (by simp only [hnone, hchoice])), nofun, fun _ => rfl,
        fun _ _ => rfl, (Touches.refl _ s).onlyChanges⟩
    | some b =>
      have ht := (modCan_turns s n fun y => { y with sofN := (netNs s s.now).toNat }).andTurns (List.Subset.refl _)
        (modTx_turns _ n b fun t => { t with status := 2 })
      refine ⟨_, congrArg Host.Outcome.next ((if_neg hbar).trans (by simp only [hnone, hchoice])), fun b' hb' => ?_, nofun, ht.otherCans, ht.touches.onlyChanges⟩
      obtain rfl := Option.some.inj hb'
      have hb := arbChoice_lt hchoice
      exact ⟨hb, congrArg TxBuf.status (ht.buffer hn (fun _ => rfl) (hbuf hb)), congrArg Can.sofN (ht.canAt_eq hn),
        ht.otherBufs hn fun _ => rfl⟩
  case sent =>
    intro b hsending hhost
    obtain ⟨g, hg, hcount⟩ := canCounters_turns s n ((canAt s n).tec - 1) (canAt s n).rec_
    have hcan := (hg.canAt_eq hn).trans (hcount _)
    have hcancel : (txAt (canCounters s n ((canAt s n).tec - 1) (canAt s n).rec_) n b).cancel = (txAt s n b).cancel := by
      rw [txAt, hcan, txAt]
    obtain ⟨f, ht, hf⟩ := frameSent_turns hhost (if (txAt s n b).cancel then 4 else 3) (by split <;> simp)
      ((canAt s n).tec - 1) (canAt s n).rec_
    have htx' (x : Can) := (congrArg Can.tx (hf x) :)
    have hown := (ht.canAt_eq hn).trans (hf _)
    have hbuffer := ht.buffer hn htx' (hbuf (sendingBuf_lt hsending))
    refine ⟨_, ?_, (congrArg TxBuf.status hbuffer :), (congrArg TxBuf.ts hbuffer).trans (congrArg Can.sofN hcan :),
      (congrArg Can.tec hown :), (congrArg Can.rec_ hown :), ht.otherBufs hn htx', ht.otherCans,
      (ht.touches.mono (by decide)).onlyChanges⟩
    simp only [exec, execCanFrameSent, hsending, hcancel]
  case error =>
    intro tx arbLost tec rec hstate
    obtain ⟨t, f, he, ht, herr⟩ := busError_turns n tx arbLost tec rec s hstate
    obtain ⟨hlost, hcounted, hlevel, hoff, hfifo⟩ := herr (canAt s n)
    rw [← ht.canAt_eq hn] at hlost hcounted hlevel hoff hfifo
    exact ⟨t, he, hlost, hcounted, hlevel, hoff, hfifo, ht.otherCans, ht.touches.onlyChanges⟩
  case recovered =>
    intro hstate
    have ht := modCan_turns s n fun x => { x with state := 2, tec := 0, rec_ := 0, boWait := false }
    exact ⟨_, congrArg Host.Outcome.next (if_pos hstate), ht.canAt_eq hn, ht.otherCans, ht.touches.onlyChanges⟩
  case request =>
    obtain ⟨hdev, hbusy, hfree, hbufs, hcans, hframe⟩ :=
      takesHost hn (hbuf buf.isLt) fun x => { x with status := 1, cancel := false, retx := 0 }
    exact ⟨_, congrArg Host.Outcome.next (writeGate_open hopen _), hdev, hbusy, hfree, hbufs, hcans, hframe⟩
  case cancel =>
    refine ⟨_, congrArg Host.Outcome.next (writeGate_open hopen _), ?_⟩
    unfold txCancelCmd
    cases hdev : isDevBuf s n buf
    case true =>
      exact ⟨fun _ => ⟨rfl, rfl⟩, nofun, nofun, fun _ _ => rfl, ((refuse_touches s _).mono (by decide)).onlyChanges⟩
    case false =>
      obtain ⟨f, g, hf, htx', hg⟩ := txCancelBuf_turns hdev
      have ht := ok_turns hf []
      exact ⟨nofun, fun _ => ⟨rfl, (ht.buffer hn htx' (hbuf buf.isLt)).trans hg⟩, fun _ => ht.otherBufs hn htx', ht.otherCans,
        (ht.touches.mono (by decide)).onlyChanges⟩
  case write =>
    intro offset value hoff
    obtain ⟨hdev, hbusy, hfree, hbufs, hcans, hframe⟩ := takesHost hn (hbuf buf.isLt) (TxBuf.written offset value)
    exact ⟨_, congrArg Host.Outcome.next ((if_pos hoff).trans (writeGate_open hopen _)), hdev, hbusy, hfree, hbufs, hcans, hframe⟩
  case pop =>
    have ht := ok_turns (modCan_turns s n fun x => { x with fifo := x.fifo.tail }) []
    exact ⟨_, congrArg Host.Outcome.next (writeGate_open hopen _), rfl, ht.canAt_eq hn, ht.otherCans, ht.touches.onlyChanges⟩
  case flush =>
    have ht := ok_turns (modCan_turns s n fun x => { x with fifo := [] }) []
    exact ⟨_, congrArg Host.Outcome.next (writeGate_open hopen _), rfl, ht.canAt_eq hn, ht.otherCans, ht.touches.onlyChanges⟩
  case recover =>
    have ht := canRecover_turns s n
    exact ⟨_, congrArg Host.Outcome.next (writeGate_open hopen _), rfl, ht.canAt_eq hn, ht.otherCans, ht.touches.onlyChanges⟩

end Sys2Proof.Machine
end

section
namespace Sys2Proof.Machine

/-! ## A controller receives a frame (R484, R485) -/

theorem offerAll_touches (s : State) (src inst : Nat) (m : Int) : Touches offerParts s (offerAll s src inst m) :=
  .foldl (fun t n => offerInt_touches t n m) _ s

/-- What the signals of a frame touch: the buoys they are offered to, and the controller's events. -/
def signalParts : List Part := .can :: offerParts

/-- One signal of a frame: offered to its buoys, or counted where the frame cannot hold it. -/
def signalStep (n : Nat) (data : List Byte) (s : State) (w : List Word) : State :=
  match sigValue (wat w 1) data with
  | some v => offerAll s 2 (fld (wat w 0) 7 0) v
  | none => canEvent s n 6 (wd (fld (wat w 0) 7 0))

theorem offerSignals_eq (s : State) (n f : Nat) (data : List Byte) :
    offerSignals s n f data = (cnSigs s n f).foldl (signalStep n data) s := rfl

theorem signalStep_turns (n : Nat) (data : List Byte) (s : State) (w : List Word) :
    ∃ g, TurnsCan signalParts n g s (signalStep n data s w) ∧ ∀ x, g x = { x with evt := (g x).evt } := by
  unfold signalStep
  cases sigValue (wat w 1) data with
  | none => exact ⟨_, (canEvent_turns s n 6 _).mono (by decide), fun _ => rfl⟩
  | some v =>
    have ht := offerAll_touches s 2 (fld (wat w 0) 7 0) v
    exact ⟨id, (ht.mono (by decide)).turns (ht.agree .can (by decide)) n, fun _ => rfl⟩

/-- The signals of a frame change of its controller the events alone (R486). -/
theorem signals_turns (n : Nat) (data : List Byte) (ws : List (List Word)) (s : State) :
    ∃ g, TurnsCan signalParts n g s (ws.foldl (signalStep n data) s) ∧ ∀ x, g x = { x with evt := (g x).evt } := by
  induction ws generalizing s with
  | nil => exact ⟨id, .refl _ _ n s, fun _ => rfl⟩
  | cons w ws ih =>
    obtain ⟨g, hg, hge⟩ := signalStep_turns n data s w
    obtain ⟨k, hk, hke⟩ := ih (signalStep n data s w)
    refine ⟨k ∘ g, hg.andTurns (List.Subset.refl _) hk, fun x => ?_⟩
    rw [Function.comp_apply, hke, hge]

/-- A frame that finds room is last in the FIFO; one that finds it full is lost and counted (R485). -/
structure InFifo (r : RxFrame) (x y : Can) : Prop where
  room : x.fifo.length < 64 → y.fifo = x.fifo ++ [r] ∧ y.lost = x.lost
  full : 64 ≤ x.fifo.length → y.fifo = x.fifo ∧ y.lost = satInc16 x.lost ∧ bitOf y.evt 3 = true
  rest : y = { x with fifo := y.fifo, lost := y.lost, evt := y.evt }

theorem fifoPut_turns {s : State} {n : Nat} (r : RxFrame) :
    ∃ g, TurnsCan (traced [.can]) n g s (fifoPut s n r) ∧ InFifo r (canAt s n) (g (canAt s n)) := by
  by_cases h : (canAt s n).fifo.length < 64
  · rw [fifoPut, if_pos h]
    exact ⟨_, (modCan_turns s n _).mono (by decide), fun _ => ⟨rfl, rfl⟩, fun hfull => absurd h (not_lt.2 hfull), rfl⟩
  · rw [fifoPut, if_neg h]
    exact ⟨_, ((modCan_turns s n fun x => { x with lost := satInc16 x.lost }).mono (by decide)).andTurns (List.Subset.refl _)
      (canEvent_turns _ n 3 _), fun hroom => absurd hroom h, fun _ => ⟨rfl, rfl, bitOf_of_eq_orBit rfl (by decide)⟩, rfl⟩

theorem filterFrame_dropped {s : State} {n : Nat} {fr : CanFrame} (h : firstFilter s n fr = none) (ts : Nat) :
    filterFrame s n fr ts = s := by
  simp only [filterFrame, h]

/-- An unprotected frame that its filter stores goes to the FIFO after its signals. -/
theorem filterFrame_stored {s : State} {n f : Nat} {fr : CanFrame} {w : List Word} (h : firstFilter s n fr = some (f, w))
    (hprot : cnOf s 3 n f = none) (hstore : bitOf (wat w 0) 8 = true) (ts : Nat) :
    filterFrame s n fr ts
      = fifoPut (if bitOf (wat w 0) 9 && true && !fr.rtr then offerSignals s n f fr.data else s) n
          { frame := fr, filter := f, protFail := false, ts := ts } := by
  simp only [filterFrame, h, hprot, hstore, if_true, Bool.not_true]

theorem filterFrame_turns {s : State} {n f : Nat} {fr : CanFrame} {w : List Word} (hn : n < s.can.length)
    (h : firstFilter s n fr = some (f, w)) (hprot : cnOf s 3 n f = none) (hstore : bitOf (wat w 0) 8 = true) (ts : Nat) :
    ∃ g, TurnsCan signalParts n g s (filterFrame s n fr ts)
      ∧ InFifo { frame := fr, filter := f, protFail := false, ts := ts } (canAt s n) (g (canAt s n)) := by
  have hsig : ∃ g, TurnsCan signalParts n g s (if bitOf (wat w 0) 9 && true && !fr.rtr then offerSignals s n f fr.data else s)
      ∧ ∀ x, g x = { x with evt := (g x).evt } := by
    split
    · exact signals_turns n fr.data (cnSigs s n f) s
    · exact ⟨id, .refl _ _ n s, fun _ => rfl⟩
  obtain ⟨g, hg, hge⟩ := hsig
  rw [filterFrame_stored h hprot hstore]
  obtain ⟨k, hk, hroom, hfull, hrest⟩ :=
    fifoPut_turns (s := if bitOf (wat w 0) 9 && true && !fr.rtr then offerSignals s n f fr.data else s) (n := n)
      { frame := fr, filter := f, protFail := false, ts := ts }
  have hcan := (hg.canAt_eq hn).trans (hge _)
  refine ⟨k ∘ g, hg.andTurns (by decide) hk, ?_⟩
  rw [Function.comp_apply, ← hg.canAt_eq hn]
  rw [hcan] at hroom hfull hrest ⊢
  exact ⟨hroom, hfull, hrest⟩

/-- What a received frame may touch, but for the safety message and network time. -/
def receptionParts : List Part :=
  traced [.buoys, .beamsCs, .beamsDs, .lhCs, .lhDs, .pwmCs, .pwmDs, .mach, .candle, .prot, .wr, .conv, .ac, .gact, .temp, .lamp,
    .can, .net]

/-- The counters after a frame received without error: REC falls, TEC and the transmit buffers stay (R483). -/
structure Counted (n : Nat) (s t : State) : Prop where
  low : (canAt s n).rec_ ≤ 127 → (canAt t n).rec_ = (canAt s n).rec_ - 1
  high : 127 < (canAt s n).rec_ → 119 ≤ (canAt t n).rec_ ∧ (canAt t n).rec_ ≤ 127
  tec : (canAt t n).tec = (canAt s n).tec
  tx : (canAt t n).tx = (canAt s n).tx
  others : ∀ k, k ≠ n → canAt t k = canAt s k
  frame : OnlyChanges receptionParts s t

/-- The state in which a received frame is routed: its reception has been counted. -/
def received (s : State) (n : Nat) : State := canCounters s.useFree n (canAt s n).tec (recAfter s (canAt s n).rec_)

theorem received_turns (s : State) (n : Nat) : ∃ f, TurnsCan (traced [.can]) n f s (received s n)
    ∧ ∀ x, f x = { x with tec := (canAt s n).tec, rec_ := recAfter s (canAt s n).rec_
                          state := canLevel (canAt s n).tec (recAfter s (canAt s n).rec_), evt := (f x).evt } := by
  obtain ⟨f, hf, hset⟩ := canCounters_turns s.useFree n (canAt s n).tec (recAfter s (canAt s n).rec_)
  exact ⟨f, .ofThen ((useFree_touches s).mono (by decide)) rfl (List.Subset.refl _) hf, hset⟩

theorem recAfter_low {s : State} {r : Nat} (h : r ≤ 127) : recAfter s r = r - 1 := if_neg (not_lt.2 h)

theorem recAfter_high {s : State} {r : Nat} (h : 127 < r) : 119 ≤ recAfter s r ∧ recAfter s r ≤ 127 := by
  rw [recAfter, if_pos h]
  omega

/-- What becomes of the frame leaves the counters. -/
theorem counted_of {s t : State} {n : Nat} {g : Can → Can} (hn : n < s.can.length)
    (hg : TurnsCan receptionParts n g (received s n) t)
    (hrest : ∀ x, x = canAt (received s n) n → (g x).tec = x.tec ∧ (g x).rec_ = x.rec_ ∧ (g x).tx = x.tx) : Counted n s t := by
  obtain ⟨f, hf, hset⟩ := received_turns s n
  have hlen : n < (received s n).can.length := by rwa [hf.length_eq]
  have hmid := (hf.canAt_eq hn).trans (hset _)
  obtain ⟨htec, hrec, htx⟩ := hrest _ rfl
  rw [← hg.canAt_eq hlen] at htec hrec htx
  have hrec' : (canAt t n).rec_ = recAfter s (canAt s n).rec_ := hrec.trans (congrArg Can.rec_ hmid :)
  refine ⟨fun h => hrec'.trans (recAfter_low h), fun h => ?_, htec.trans (congrArg Can.tec hmid :),
    htx.trans (congrArg Can.tx hmid :), fun k hk => (hg.otherCans k hk).trans (hf.otherCans k hk),
    (Touches.trans (hf.touches.mono (by decide)) hg.touches).onlyChanges⟩
  rw [hrec']
  exact recAfter_high h

/-! ## Network time (R490 to R492) -/

theorem nettimeRate_touches (s : State) : Touches beamParts s (nettimeRate s) := by
  refine .foldl (fun t b => ?_) _ s
  split
  · exact setAnchor_touches t .cs b _
  · exact .refl _ t

theorem nettimeStep_touches (s : State) : Touches (traced beamParts) s (nettimeStep s) :=
  .foldl (fun t b => .ite_self (directUpdate_touches t b)) _ s

end Sys2Proof.Machine
end

section
namespace Sys2Proof.Machine

/-! ## The reference message and the device queue (R489, R491) -/

/-- A controller whose device queue starts with reference message q, in the place of the one before it. -/
def Can.withRef (q : Byte) (x : Can) : Can := { x with devq := (true, [q]) :: x.devq.filter fun e => !e.1 }

/-- The state in which message q is at the front of the device queue. -/
def refFront (s : State) (n : Nat) (q : Byte) : State :=
  State.modCan (if (canAt s n).devq.any (·.1) then { s with net := { s.net with prevOk := false } } else s) n (Can.withRef q)

theorem refQueue_eq (s : State) (n : Nat) (q : Byte) :
    refQueue s n q = devLoad (if (canAt s n).devRef && txBusy (refFront s n q) n 2 then txCancelBuf (refFront s n q) n 2
      else refFront s n q) n := rfl

theorem refFront_transmits (s : State) (n : Nat) (q : Byte) : Transmits n s (refFront s n q) := by
  refine .trans ?noted (.modCan _ n (f := Can.withRef q) fun _ => rfl)
  case noted => exact .netIf rfl

theorem refFront_can (s : State) (n : Nat) (q : Byte) : (refFront s n q).can = upd s.can n (Can.withRef q) := by
  rw [refFront, State.modCan_new, apply_ite State.can, ite_self]

theorem refQueue_transmits (s : State) (n : Nat) (q : Byte) : Transmits n s (refQueue s n q) := by
  rw [refQueue_eq]
  exact .trans ((refFront_transmits s n q).trans (.ite (txCancelBuf_transmits _ n 2) (.refl n _))) (devLoad_transmits _ n)

/-- A reference message at the head of the device queue goes into a free device buffer. -/
structure Pending (w : Word) (b : TxBuf) : Prop where
  status : b.status = 1
  dlc : b.dlc = 9
  ident : fld b.hdr 29 0 = fld w 29 0

/-- The flags above an identifier leave it. -/
theorem ident_of_flags (c : Bool) (w : Word) : fld (wd (atBit c 31 + 2 ^ 30 + fld w 29 0)) 29 0 = fld w 29 0 := by
  have hlt := fld_lt w 29 0
  unfold fld wd atBit at *
  cases c
  · simp at *
  · simp at *
    omega

theorem devLoad_pending {s : State} {n : Nat} {bs : List Byte} {rest : List (Bool × List Byte)} (hn : n < s.can.length)
    (htx : 2 < (canAt s n).tx.length) (hdev : cnDevtx s n = true) (hfree : txBusy s n 2 = false)
    (hq : (canAt s n).devq = (true, bs) :: rest) : Pending (cnW s n 5) (txAt (devLoad s n) n 2) := by
  have heq : devLoad s n = (refFrame (s.modCan n fun x => { x with devq := rest, devRef := true }) n (ofLe bs)).1.modTx n 2 fun b =>
      { b with
        hdr := (refFrame (s.modCan n fun x => { x with devq := rest, devRef := true }) n (ofLe bs)).2.1, dlc := 9
        data := txWords (refFrame (s.modCan n fun x => { x with devq := rest, devRef := true }) n (ofLe bs)).2.2
        status := 1, cancel := false, retx := 0 } := by
    simp only [devLoad, hdev, hfree, hq]
    rfl
  have hpop := modCan_turns s n fun x => { x with devq := rest, devRef := true }
  have hturn := (hpop.mono (P := [.freeCtr, .can, .net]) (by decide)).andThen (by decide)
    (refFrame_touches (s.modCan n fun x => { x with devq := rest, devRef := true }) n (ofLe bs)) rfl
  have hbuf := (hturn.andTurns (by decide) (modTx_turns _ n 2 fun b =>
      { b with
        hdr := (refFrame (s.modCan n fun x => { x with devq := rest, devRef := true }) n (ofLe bs)).2.1, dlc := 9
        data := txWords (refFrame (s.modCan n fun x => { x with devq := rest, devRef := true }) n (ofLe bs)).2.2
        status := 1, cancel := false, retx := 0 })).buffer hn (fun _ => rfl) htx
  rw [← heq] at hbuf
  exact ⟨(congrArg TxBuf.status hbuf :), (congrArg TxBuf.dlc hbuf :),
    (congrArg (fun b => fld b.hdr 29 0) hbuf).trans (ident_of_flags _ _)⟩

/-- With the device buffer free the message queued takes it at once. -/
theorem refQueue_pending {s : State} {n : Nat} (q : Byte) (hn : n < s.can.length) (htx : 2 < (canAt s n).tx.length)
    (hdev : cnDevtx s n = true) (hfree : txBusy s n 2 = false) : Pending (cnW s n 5) (txAt (refQueue s n q) n 2) := by
  have htr := (refFront_transmits s n q).touches
  have hcan : canAt (refFront s n q) n = (canAt s n).withRef q := by
    rw [canAt, refFront_can]
    simp [upd, canAt, hn]
  have hbusy : txBusy (refFront s n q) n 2 = false := by
    rw [txBusy, txAt, hcan]
    exact hfree
  have hbits := htr.cnBit_eq (by decide)
  rw [refQueue_eq, if_neg (by simp [hbusy]), ← htr.cnW_eq (by decide)]
  refine devLoad_pending (bs := [q]) (rest := (canAt s n).devq.filter fun e => !e.1) ?_ ?_ ?_ hbusy ?_
  · rwa [refFront_can, upd, List.length_modify]
  · rw [hcan]
    exact htx
  · rw [cnDevtx, hbits]
    exact hdev
  · rw [hcan]
    rfl

end Sys2Proof.Machine
end

section
namespace Sys2Proof.Machine

/-! ## The rows of reception and network time -/

theorem wrFrameIn_touches (s : State) (f : List Byte) (p : FramePath) : Touches [.wr] s (wrFrameIn s f p) :=
  modWr_touches s _ rfl

/-- The safety message's place among the frames that wait for the Watch Room (R368, R488). -/
theorem safetyOnCan_joins {s : State} (hup : s.sys.keeperUp = true) (hrun : s.kp.restarting = false) (n : Nat) (fr : CanFrame) :
    safetyOnCan s n fr
      = wrFrameIn s (if fr.fdf && decide (fr.dlc.val = 15) then fr.data.take 52 else fr.data) (.can n) :=
  if_neg (by simp [hup, hrun])

section
variable {s : State} {n : Fin 3} {frame : CanFrame} (sofAgo : Nat)
  (hstate : (canAt s n).state = 2 ∨ (canAt s n).state = 3) (hfd : (frame.fdf && !cnFden s n) = false)

/-- Whether a frame is the safety message of a controller (R488). -/
def safetyId (s : State) (n : Nat) (fr : CanFrame) : Bool :=
  bitOf (cnW s n 9) 31 && idMatch fr (bitOf (cnW s n 9) 29) (fld (cnW s n 9) 28 0)

include hstate hfd in
/-- A frame that a controller can take is routed once its reception has been counted (R484). -/
theorem frameReceived_routes :
    execCanFrameReceived n frame sofAgo s = .next (
      if safetyId s n frame then safetyOnCan (received s n) n frame
      else filterFrame (if timeRole s = (n.val, 2) && idMatch frame (bitOf (cnW s n 5) 29) (fld (cnW s n 5) 28 0) then
          refReceived (received s n) n frame (netNs s (s.now - sofAgo)).toNat else received s n) n frame
        (netNs s (s.now - sofAgo)).toNat) := by
  have hbar : ¬(!((canAt s n).state = 2 || (canAt s n).state = 3) || (frame.fdf && !cnFden s n)) = true := by
    simpa [hfd, ← or_iff_not_imp_left] using hstate
  obtain ⟨_, hf, -⟩ := received_turns s n
  have hcn := hf.touches.cnW_eq (by decide)
  have hrole := hf.touches.timeRole_eq (by decide)
  refine congrArg Host.Outcome.next ((if_neg hbar).trans ?_)
  rw [safetyId, ← hcn, ← hrole]
  rfl

end

/-- The safety message goes to the Watch Room and leaves its controller as the reception left it. -/
theorem safetyOnCan_counted {s : State} {n : Nat} (hn : n < s.can.length) (hup : s.sys.keeperUp = true)
    (hrun : s.kp.restarting = false) (fr : CanFrame) :
    (canAt (safetyOnCan (received s n) n fr) n).fifo = (canAt s n).fifo ∧ Counted n s (safetyOnCan (received s n) n fr)
      ∧ (safetyOnCan (received s n) n fr).wr.frames
        = s.wr.frames ++ [⟨if fr.fdf && decide (fr.dlc.val = 15) then fr.data.take 52 else fr.data, .can n⟩] := by
  obtain ⟨f, hf, hset⟩ := received_turns s n
  have hsys : { (received s n).sys with sysEvt := 0 } = { s.sys with sysEvt := 0 } := hf.touches.agree .sys (by decide)
  have hkp : { (received s n).kp with seqNo := 0, early := [] } = { s.kp with seqNo := 0, early := [] } :=
    hf.touches.agree .kp (by decide)
  have hwr : { (received s n).wr with inbox := [] } = { s.wr with inbox := [] } := hf.touches.agree .wr (by decide)
  rw [safetyOnCan_joins ((congrArg Sys.keeperUp hsys).trans hup) ((congrArg Keeper.restarting hkp).trans hrun)]
  refine ⟨(congrArg Can.fifo ((hf.canAt_eq hn).trans (hset _)) :), ?_, congrArg (· ++ _) (congrArg Wr.frames hwr :)⟩
  exact counted_of hn (((wrFrameIn_touches _ _ _).mono (by decide)).turns rfl n) fun _ _ => ⟨rfl, rfl, rfl⟩

/-- A frame that its filter stores unprotected is last in the FIFO, or lost. -/
theorem filterFrame_counted {s : State} {n f : Nat} {fr : CanFrame} {w : List Word} (hn : n < s.can.length)
    (hfilter : firstFilter s n fr = some (f, w)) (hprot : cnOf s 3 n f = none) (hstore : bitOf (wat w 0) 8 = true) (ts : Nat) :
    let t := filterFrame (received s n) n fr ts
    ((canAt s n).fifo.length < 64 →
        (canAt t n).fifo = (canAt s n).fifo ++ [{ frame := fr, filter := f, protFail := false, ts := ts }]
          ∧ (canAt t n).lost = (canAt s n).lost)
      ∧ (64 ≤ (canAt s n).fifo.length →
        (canAt t n).fifo = (canAt s n).fifo ∧ (canAt t n).lost = satInc16 (canAt s n).lost ∧ bitOf (canAt t n).evt 3 = true)
      ∧ Counted n s t := by
  intro t
  obtain ⟨c, hc, hset⟩ := received_turns s n
  have hlen : n < (received s n).can.length := by rwa [hc.length_eq]
  rw [← hc.touches.firstFilter_eq (by decide)] at hfilter
  rw [← hc.touches.cnOf_eq (by decide)] at hprot
  obtain ⟨g, hg, hroom, hfull, hrest⟩ := filterFrame_turns hlen hfilter hprot hstore ts
  have hcan := (hc.canAt_eq hn).trans (hset _)
  have hfifo : (canAt (received s n) n).fifo = (canAt s n).fifo := (congrArg Can.fifo hcan :)
  have hlost : (canAt (received s n) n).lost = (canAt s n).lost := (congrArg Can.lost hcan :)
  rw [← hg.canAt_eq hlen, hfifo, hlost] at hroom hfull
  refine ⟨hroom, hfull, counted_of hn (hg.mono (by decide)) ?_⟩
  rintro _ rfl
  exact ⟨(congrArg Can.tec hrest :), (congrArg Can.rec_ hrest :), (congrArg Can.tx hrest :)⟩

/-- A frame that no filter matches is dropped once it has been counted. -/
theorem filterFrame_drops {s : State} {n : Nat} {fr : CanFrame} (hn : n < s.can.length) (hfilter : firstFilter s n fr = none)
    (ts : Nat) : (canAt (filterFrame (received s n) n fr ts) n).fifo = (canAt s n).fifo
      ∧ Counted n s (filterFrame (received s n) n fr ts) := by
  obtain ⟨c, hc, hset⟩ := received_turns s n
  rw [← hc.touches.firstFilter_eq (by decide)] at hfilter
  rw [filterFrame_dropped hfilter]
  exact ⟨(congrArg Can.fifo ((hc.canAt_eq hn).trans (hset _)) :),
    counted_of hn (.refl _ _ n _) fun _ _ => ⟨rfl, rfl, rfl⟩⟩

/-- A master's state when its next reference message is due (R491). -/
def refDue (s : State) (n : Nat) : State :=
  let u := s.advanceTo ((if s.net.refAt = 0 then s.t0.getD 0 else s.net.refAt) + refPeriod s n)
  { u with net := { u.net with refAt := u.now, seq := u.net.seq + 1 } }

theorem refDue_touches (s : State) (n : Nat) : Touches [.now, .net] s (refDue s n) :=
  .trans ((advanceTo_touches s _).mono (by decide)) ((net_touches _ _).mono (by decide))

theorem referenceMessageDue_exec {s : State} {n : Nat} (hrole : timeRole s = (n, 1)) (hready : s.sys.ready = true) :
    execReferenceMessageDue s = .next (refQueue (refDue s n) n (s.net.seq + 1)) := by
  simp only [execReferenceMessageDue, hrole, hready, ne_eq, not_true_eq_false, decide_false, Bool.not_true, Bool.or_self,
    Bool.false_eq_true, if_false]
  rfl

/-- The state in which hold-over without sync is noted (R492). -/
def heldOver (s : State) : State := { s with net := { s.net.withSync false s.now with holdover := true } }

/-- A follower's state when it has gone without a valid evaluation for too long (R492). -/
def ntLost (s : State) (n : Nat) : State :=
  heldOver (s.advanceTo ((if s.net.evalAt = 0 then s.t0.getD 0 else s.net.evalAt) + fld (cnW s n 6) 15 8 * refPeriod s n))

theorem ntLost_touches (s : State) (n : Nat) : Touches [.now, .net] s (ntLost s n) :=
  .trans ((advanceTo_touches s _).mono (by decide)) ((net_touches _ _).mono (by decide))

theorem ntloss_exec {s : State} {n : Nat} (hrole : timeRole s = (n, 2)) (hready : s.sys.ready = true)
    (hhold : s.net.holdover = false) :
    execNtloss s = .next (staleCheck (canEvent (ntLost s n) n 7 (wi (satS 32 (ntLost s n).net.err)))) := by
  simp only [execNtloss, hrole, hready, hhold, ne_eq, not_true_eq_false, decide_false, Bool.not_true, Bool.or_self,
    Bool.false_eq_true, if_false]
  rfl

/-- A follower's time anchored at the cycle a slew ends in, without a slew. -/
def slewEnded (s : State) : State :=
  { netAnchor s with net := { (netAnchor s).net with slew := 0, slewAt := none } }

theorem slewEnded_touches (s : State) : Touches [.net] s (slewEnded s) :=
  .trans (net_touches s _) (net_touches (netAnchor s) _)

/-- A master's time set to a value, before the steps of the beams that run on it. -/
def netSetTo (s : State) (v : Word) : State :=
  { s with net := { s.net with ofs := ((v.toNat * 2 ^ 32 + s.net.setLo.toNat : Nat) : Int) - localNs s s.now } }

theorem netSet_master {s : State} (h : (timeRole s).2 = 1) (v : Word) :
    netSet s v = canEvent (nettimeStep (netSetTo s v)) (timeRole (nettimeStep (netSetTo s v))).1 8 0 := if_pos h

theorem netSet_follower {s : State} (h : (timeRole s).2 ≠ 1) (v : Word) : netSet s v = s := if_neg h

/-- What the setting of network time touches: the beams that run on it, and the master's events. -/
def netSetParts : List Part := traced (beamParts ++ [.can, .net])

theorem netSet_touches (s : State) (v : Word) : Touches netSetParts s (netSet s v) := by
  by_cases h : (timeRole s).2 = 1
  · rw [netSet_master h]
    exact .after (by decide) (canEvent_turns _ _ 8 0).touches <| .after (by decide) (nettimeStep_touches _) <|
      (net_touches s _).mono (by decide)
  · rw [netSet_follower h]
    exact .refl _ s

theorem netSet_net {s : State} (h : (timeRole s).2 = 1) (v : Word) : (netSet s v).net = (netSetTo s v).net := by
  rw [netSet_master h]
  exact ((canEvent_turns _ _ 8 0).touches.agree .net (by decide)).trans ((nettimeStep_touches _).agree .net (by decide))

/-- Settles O59: a received frame is counted and then routed, and each row of network time by what it sets. -/
theorem canReceivesAndKeepsNetworkTime : Obligations.CanReceivesAndKeepsNetworkTime := by
  unfold Obligations.CanReceivesAndKeepsNetworkTime
  intro s hinv
  have hlen : s.can.length = 3 := hinv.can_length
  refine ⟨fun n frame sofAgo => ?received, ?due, ?loss, ?slewEnd, ?set, ?read⟩
  case received =>
    intro x safe counted hstate hfd
    have hn : n.val < s.can.length := by rw [hlen]; exact n.isLt
    have hexec := frameReceived_routes (frame := frame) sofAgo hstate hfd
    have hcounted {t : State} (h : Counted n s t) : counted t := ⟨h.low, h.high, h.tec, h.tx, h.others, h.frame⟩
    refine ⟨fun hsafe hup hrun => ?_, fun hsafe hrole => ?_⟩
    · obtain ⟨hfifo, hc, hframes⟩ := safetyOnCan_counted hn hup hrun frame
      exact ⟨_, hexec.trans (congrArg Host.Outcome.next (if_pos hsafe)), hfifo, hcounted hc, hframes⟩
    · have hno : ¬(decide (timeRole s = (n.val, 2)) && idMatch frame (bitOf (cnW s n 5) 29) (fld (cnW s n 5) 28 0)) = true := by
        simpa [← imp_iff_not_or] using hrole
      have hroute := hexec.trans (congrArg Host.Outcome.next
        ((if_neg (show ¬safetyId s n frame = true from by rw [show safetyId s n frame = false from hsafe]; decide)).trans
          (by rw [if_neg hno])))
      refine ⟨fun hfilter => ?_, fun f w hfilter hprot hstore => ?_⟩
      · obtain ⟨hfifo, hc⟩ := filterFrame_drops hn hfilter (netNs s (s.now - sofAgo)).toNat
        exact ⟨_, hroute, hfifo, hcounted hc⟩
      · obtain ⟨hroom, hfull, hc⟩ := filterFrame_counted hn hfilter hprot hstore (netNs s (s.now - sofAgo)).toNat
        exact ⟨_, hroute, hroom, hfull, hcounted hc⟩
  case due =>
    intro n hrole hready
    have htr := refQueue_transmits (refDue s n) n (s.net.seq + 1)
    have hnow := htr.touches.now (by decide)
    refine ⟨_, referenceMessageDue_exec hrole hready, hnow, (congrArg Net.refAt htr.clock :).trans hnow.symm,
      (congrArg Net.seq htr.clock :), fun hn htx hdev hfree => ?_,
      (Touches.after (by decide) htr.touches ((refDue_touches s n).mono (by decide))).onlyChanges⟩
    obtain ⟨hstatus, hdlc, hident⟩ := refQueue_pending (s := refDue s n) (s.net.seq + 1)
      (show n < s.can.length by rwa [hlen]) (show 2 < (canAt s n).tx.length by rw [htx]; decide) hdev hfree
    exact ⟨hstatus, hdlc, hident⟩
  case loss =>
    intro n hrole hready hhold
    have hev := canEvent_turns (ntLost s n) n 7 (wi (satS 32 (ntLost s n).net.err))
    have hstale := staleCheck_touches (canEvent (ntLost s n) n 7 (wi (satS 32 (ntLost s n).net.err)))
    have hnow := (hstale.now (by decide)).trans (hev.touches.now (by decide))
    refine ⟨_, ntloss_exec hrole hready hhold, hnow, ?_, fun hn => ?_,
      (Touches.after (by decide) hstale <| .after (by decide) hev.touches <| (ntLost_touches s n).mono (by decide)).onlyChanges⟩
    · rw [hstale.agree .net (by decide), hev.touches.agree .net (by decide), hnow]
      rfl
    · rw [canAt, hstale.agree .can (by decide)]
      exact bitOf_of_eq_orBit (congrArg Can.evt (hev.canAt_eq (show n < s.can.length by rwa [hlen]))) (by decide)
  case slewEnd =>
    intro tz hslew
    have hexec : execSlewEnd s = .next (nettimeRate (slewEnded (s.advanceTo tz))) := by
      simp only [execSlewEnd, hslew]
      rfl
    have hrate := nettimeRate_touches (slewEnded (s.advanceTo tz))
    have hnow := hrate.now (by decide)
    have hnet := hrate.agree .net (by decide)
    refine ⟨_, hexec, hnow, (congrArg Net.slew hnet :), (congrArg Net.slewAt hnet :), (congrArg Net.anchorT hnet :).trans hnow.symm,
      (congrArg Net.r hnet :), fun hanchor => ?_,
      (Touches.after (by decide) hrate <| .after (by decide) (slewEnded_touches _) <|
        (advanceTo_touches s tz).mono (by decide)).onlyChanges⟩
    rw [hnow]
    exact (congrArg Net.anchorN hnet).trans (if_neg hanchor)
  case set =>
    intro value hopen
    refine ⟨_, congrArg Host.Outcome.next (writeGate_open hopen _), rfl, fun hmaster => ?_, fun hfollower => ?_,
      (Touches.after (by decide) (acc_touches _ _) ((netSet_touches s value).mono (by decide))).onlyChanges⟩
    · rw [show ((netSet s value).ok []).net = (netSetTo s value).net from netSet_net hmaster value]
      exact add_sub_cancel _ _
    · rw [netSet_follower hfollower]
      rfl
  case read =>
    intro hopen
    exact ⟨_, congrArg Host.Outcome.next (regGate_open hopen _), rfl, rfl,
      (Touches.trans ((net_touches s _).mono (by decide)) ((acc_touches _ _).mono (by decide))).onlyChanges⟩

end Sys2Proof.Machine
end

section
namespace Sys2Proof.Machine

/-! ## The events of the host interface (R525, R526) -/

theorem dsEvent_host (s : State) (code : BitVec 16) (elem wc unit mac kind : Nat) (detail : Word) :
    (dsEvent s code elem wc unit mac kind detail).host = s.host := by
  unfold dsEvent
  split <;> rfl

theorem release_host (s : State) (c : Ctr) : (release s c).host = s.host := by
  unfold release
  split
  · rfl
  · exact dsEvent_host ..

theorem logAppend_host (s : State) (w : List Word) : (logAppend s w).host = s.host := by
  unfold logAppend
  dsimp only
  split
  · split <;> rfl
  · rfl

theorem declare_host (s : State) (e : Ev) (wc : Nat) : (declare s e wc).host = s.host := by
  unfold declare
  split
  · exact logAppend_host _ _
  · exact dsEvent_host ..

theorem countOnce_host (s : State) (e : Ev) : (countOnce s e).host = s.host := by
  unfold countOnce
  dsimp only
  split
  · have hrel : (if ((((ctrOf s e.key).getD (freshCtr s e)).roll s.now).retime s.now e.w e.n).releases then
        release s ((((ctrOf s e.key).getD (freshCtr s e)).roll s.now).retime s.now e.w e.n) else s).host = s.host := by
      split
      · exact release_host _ _
      · rfl
    split
    · exact (declare_host _ _ _).trans hrel
    · exact hrel
  · rfl

/-- A counted event clears no bit of HC_EVT. -/
theorem countEvent_hostEvt {s : State} {i : Nat} (h : bitOf s.host.evt i = true) (e : Ev) :
    bitOf (countEvent s e).host.evt i = true := by
  have hone : bitOf (countOnce s e).host.evt i = true := by rwa [countOnce_host]
  unfold countEvent logWatch
  split
  · rw [countOnce_host]
    exact bitOf_orBit hone 5
  · split
    · rw [countOnce_host]
      exact hone
    · exact hone

/-! ## The arrival of a frame that is heard (R502) -/

/-- The state in which a heard frame is handed on. -/
def heardState (s : State) (q : Req) (ty : Nat) (pay : List Byte) : State :=
  setAlive (if reqStream q == .broadcast && pbOpen s then sendPb s (reqFrame q ty pay) else s) (reqStream q) q.alive

theorem arrive_eq_heardState {s : State} {q : Req} {ty : Nat} {pay : List Byte} (h : Heard s q ty pay) :
    arrive s q ty pay = (heardState s q ty pay, true) := by
  obtain ⟨-, -, -, -, hcoding, hcrc, hlen, henum, hme, halive⟩ := h
  obtain ⟨o, ho⟩ := forward_eq s (reqStream q == .broadcast && pbOpen s) (reqFrame q ty pay)
  unfold arrive heardState
  rw [if_neg (by simp [hcoding, hcrc])]
  dsimp only
  rw [ho]
  refine (if_neg (not_not.2 hlen)).trans <| (if_neg ?_).trans <| (if_neg ?_).trans (if_neg ?_)
  · exact fun k => Bool.false_ne_true (henum.symm.trans k)
  · exact fun k => by simp at k; exact Bool.false_ne_true (k.symm.trans hme)
  · exact fun k => k halive

/-- What the arrival of a frame leaves of the host interface. -/
theorem setAlive_rest (s : State) (m : Stream) (a : Byte) :
    ∃ x y z, setAlive s m a = { s with host := { s.host with aliveSpi := x, alivePa := y, aliveBc := z } } := by
  cases m <;> exact ⟨_, _, _, rfl⟩

/-- A heard request is handed on in a state that differs in the host interface alone, with the address as it was. -/
theorem arrive_unqueue {s : State} {q : Req} {ty : Nat} {pay : List Byte} (h : Heard s q ty pay) :
    ∃ u, HeardIn s u ∧ u.host.addr = s.host.addr ∧ arrive (unqueue s q ty pay) q ty pay = (u, true) := by
  obtain ⟨r, hr⟩ := unqueue_eq s q ty pay
  obtain ⟨o, ho⟩ := forward_eq { s with host := { s.host with reqs := r } }
    (reqStream q == .broadcast && pbOpen { s with host := { s.host with reqs := r } }) (reqFrame q ty pay)
  obtain ⟨x, y, z, hz⟩ := setAlive_rest { s with host := { s.host with reqs := r, outPbq := o } } (reqStream q) q.alive
  have harr : arrive (unqueue s q ty pay) q ty pay
      = ({ s with host := { s.host with reqs := r, outPbq := o, aliveSpi := x, alivePa := y, aliveBc := z } }, true) := by
    rw [hr, arrive_eq_heardState (s := { s with host := { s.host with reqs := r } }) h, heardState, ho, hz]
  refine ⟨_, ?hears, ?addr, harr⟩
  case hears => exact ⟨_, rfl, rfl, rfl⟩
  case addr => rfl

/-- A request that is heard and not barred does what it asks for. -/
theorem requestDo_heard {s : State} {q : Req} {ty : Nat} {pay : List Byte} (h : Heard s q ty pay) :
    ∃ u, HeardIn s u ∧ u.host.addr = s.host.addr
      ∧ ∀ (bar : State → Option Ans) (f : State → State), bar u = none → requestDo s q ty pay bar f = f u := by
  obtain ⟨u, hu, haddr, harr⟩ := arrive_unqueue h
  obtain ⟨hup, hrun, hport, hroom, -⟩ := h
  refine ⟨u, hu, haddr, fun bar f hbar => ?_⟩
  have hrunU : u.kp.restarting = false := by
    obtain ⟨g, rfl, -⟩ := hu
    exact hrun
  unfold requestDo
  rw [if_neg (by simp [hup, hport]), if_neg (by simp [hroom]), harr]
  simp [handDo, hrunU, hbar]

theorem respond_addr (s : State) (q : Req) (ty : Nat) (a : Ans) : (respond s q ty a).host.addr = s.host.addr := by
  unfold respond
  dsimp only
  split <;> rfl

/-! ## The chain (R501, R511, R512) -/

theorem linkIsUp_set (s : State) (p : Port) (v : Bool) : linkIsUp (setLinkUp s p v) p = v := by cases p <;> rfl

theorem setLinkUp_touches (s : State) (p : Port) (v : Bool) : Touches [.host] s (setLinkUp s p v) := by
  cases p <;> exact host_touches s _ rfl

/-- A port's link is as it was before an event is counted. -/
theorem hcCount_link (s : State) (cause inst : Nat) (detail : Word) (p : Port) :
    linkIsUp (hcCount s cause inst detail) p = linkIsUp s p := by
  have hhost : { (hcCount s cause inst detail).host with evt := 0 } = { s.host with evt := 0 } :=
    (countEvent_touches _ _).agree .host (by decide)
  cases p
  · exact (congrArg HostIf.paUp hhost :)
  · exact (congrArg HostIf.pbUp hhost :)

theorem hcCount_touches (s : State) (cause inst : Nat) (detail : Word) : Touches trace s (hcCount s cause inst detail) :=
  .after (by decide) (countEvent_touches _ _) ((hostEvt_touches s _).mono (by decide))

/-- An event of the host interface sets its bit. -/
theorem hcCount_evt {s : State} {cause : Nat} (h : cause < 32) (inst : Nat) (detail : Word) :
    bitOf (hcCount s cause inst detail).host.evt cause = true :=
  countEvent_hostEvt (s := { s with host := { s.host with evt := orBit s.host.evt cause } }) (bitOf_of_eq_orBit rfl h) _

/-- Settles O18: an unassigned device takes its address once the frame is heard, and the other rows are one update each. -/
theorem chainTakesAnAddressAndForwards : Obligations.ChainTakesAnAddressAndForwards := by
  unfold Obligations.ChainTakesAnAddressAndForwards
  refine ⟨?enum, ?fromPb, ?fromPa, ?up, ?down⟩
  case enum =>
    intro q addr s h hbar haddr hnone
    obtain ⟨u, hu, huaddr, hdo⟩ := requestDo_heard h
    have hans : (if 63 < addr.toNat then (u, lenAns)
        else if u.host.addr.isSome then (u, refuseAns 2)
        else ({ u with host := { u.host with addr := some addr, aliveSpi := none, alivePa := none, aliveBc := none } },
          { status := 0, data := [u.wr.uid0, u.wr.uid1, 0x906400C0] }))
        = ({ u with host := { u.host with addr := some addr, aliveSpi := none, alivePa := none, aliveBc := none } },
          { status := 0, data := [u.wr.uid0, u.wr.uid1, 0x906400C0] }) := by
      rw [if_neg (not_lt.2 haddr), if_neg (by simp [huaddr, hnone])]
    have hhost := host_touches u
      { u.host with addr := some addr, aliveSpi := none, alivePa := none, aliveBc := none } rfl
    have hsent := respond_answered ({ u with host := { u.host with addr := some addr, aliveSpi := none, alivePa := none, aliveBc := none } })
      q tENUM { status := 0, data := [u.wr.uid0, u.wr.uid1, 0x906400C0] }
    refine ⟨_, congrArg Host.Outcome.next ((hdo _ _ hbar).trans (by simp only [hans])), ?_, respond_addr _ _ _ _,
      (Touches.after (by decide) hsent.touches <| .after (by decide) hhost <| hu.touches.mono (by decide)).onlyChanges⟩
    obtain ⟨g, rfl, -⟩ := hu
    exact hsent.replied
  case fromPb =>
    intro frame s hup hon hcrc hdst
    exact ⟨_, congrArg Host.Outcome.next <| (if_neg (by simp [hup])).trans <| (if_neg (by simp [hon])).trans <|
      (if_neg (by simp [hcrc])).trans (if_neg hdst), rfl,
      (host_touches s { s.host with outPaq := s.host.outPaq ++ [frame] } rfl).onlyChanges⟩
  case fromPa =>
    intro frame s hup hon hcrc hme hgoes hopen
    refine ⟨_, ?_, rfl, (host_touches s { s.host with outPbq := s.host.outPbq ++ [frame] } rfl).onlyChanges⟩
    simp [exec, execFrameForward, hup, hon, hcrc, hme, hgoes, hopen, sendPb]
  case up =>
    intro port s hreset hon
    exact ⟨_, congrArg Host.Outcome.next (if_neg (by simp [hreset, hon])), linkIsUp_set s port true,
      (setLinkUp_touches s port true).onlyChanges⟩
  case down =>
    intro port s hup
    exact ⟨_, congrArg Host.Outcome.next (if_neg (by simp [hup])), (hcCount_link _ _ _ _ port).trans (linkIsUp_set s port false),
      hcCount_evt (by decide) _ _,
      (Touches.after (by decide) (hcCount_touches _ _ _ _) ((setLinkUp_touches s port false).mono (by decide))).onlyChanges⟩

/-! ## The host SPI (R510) -/

/-- Settles O19: each row is one update of the host interface. -/
theorem spiQueuesFourRequestsAndFourResponses : Obligations.SpiQueuesFourRequestsAndFourResponses := by
  unfold Obligations.SpiQueuesFourRequestsAndFourResponses
  intro s hon
  have hbar : ¬(!spiOn s) = true := by simp [hon]
  refine ⟨fun frame complete => ?send, fun f fs hresps => ?recv, fun hresps => ?recvNone, ?status⟩
  case send =>
    by_cases hdrop : (!complete || decide (frame.length < 12) || decide (4 ≤ s.host.reqs.length)) = true
    · refine ⟨_, congrArg Host.Outcome.next ((if_neg hbar).trans (if_pos hdrop)), fun hc hlen hroom => ?_, fun _ => rfl,
        (host_touches s { s.host with spiDisc := true } rfl).onlyChanges⟩
      simp [hc] at hdrop
      omega
    · refine ⟨_, congrArg Host.Outcome.next ((if_neg hbar).trans (if_neg hdrop)), fun _ _ _ => rfl, fun h => absurd ?_ hdrop,
        (host_touches s { s.host with reqs := s.host.reqs ++ [frame], spiDisc := false } rfl).onlyChanges⟩
      simpa [or_assoc] using h
  case recv =>
    refine ⟨({ s with host := { s.host with resps := fs } } : State).ok
      (wd (ofLe ((f.drop 6).take 2)) :: f.map fun b : Byte => b.setWidth 32), ?_, rfl, rfl,
      (Touches.after (by decide) (acc_touches _ _) ((host_touches s { s.host with resps := fs } rfl).mono (by decide))).onlyChanges⟩
    simp [exec, execSpiRecv, hon, hresps]
  case recvNone =>
    refine ⟨s.ok [0], ?_, rfl, (acc_touches s _).onlyChanges⟩
    simp [exec, execSpiRecv, hon, hresps]
  case status =>
    refine ⟨_, congrArg Host.Outcome.next (if_neg hbar), ⟨rfl, ?_⟩, (acc_touches s _).onlyChanges⟩
    show bitOf (wd _) 2 = _ ∧ bitOf (wd _) 1 = _ ∧ bitOf (wd _) 0 = _ ∧ fld (wd _) 31 3 = 0
    generalize s.host.spiDisc = disc
    generalize decide (4 ≤ s.host.reqs.length) = full
    generalize s.host.resps.isEmpty = none
    revert disc full none
    decide

end Sys2Proof.Machine
end

section
namespace Sys2Proof.Machine

/-! ## The Keeper (R515, R516, R526, R529) -/

/-- The Keeper after an event has been counted, but for the fault log's number and early records. -/
theorem kpCount_kp (s : State) (cause : Nat) (detail : Word) :
    { (kpCount s cause detail).kp with seqNo := 0, early := [] }
      = { s.kp with evt := orBit s.kp.evt cause, seqNo := 0, early := [] } := (countEvent_touches _ _).agree .kp (by decide)

theorem kpCount_touches (s : State) (cause : Nat) (detail : Word) : Touches (traced [.kp]) s (kpCount s cause detail) :=
  .after (by decide) (countEvent_touches _ _) ((kp_touches s { s.kp with evt := orBit s.kp.evt cause } ⟨rfl, rfl⟩).mono (by decide))

/-- A restart of the Keeper: requests in flight are gone (R515). -/
def keeperRestarts (u : State) : State :=
  { u with
    kp := { u.kp with restarting := true, restarts := u.kp.restarts + 1, queue := [] }
    host := { u.host with reqs := [] }
    sys := { u.sys with rstCause := orBit u.sys.rstCause 6 } }

theorem keeperRestarts_touches (u : State) : Touches [.sys, .host, .kp] u (keeperRestarts u) :=
  .of_update (fun p => by have k := p.agree_refl u; cases p <;> exact k) rfl rfl rfl

/-- What the load of the last 10 ms makes of the Keeper (R516). -/
def Keeper.loaded (x : Keeper) (now u : Nat) : Keeper :=
  { x with
    u := u
    peak := max x.peak u
    loadAt := now
    defer3 := decide (90 < u) || (x.defer3 && decide (80 < u))
    shed2 := decide (98 < u) || (x.shed2 && decide (95 < u)) }

/-- The state in which the load has been noted, a millisecond after the last. -/
def loadNoted (s : State) (u : Nat) : State :=
  let t := s.advanceTo (s.kp.loadAt + msec)
  { t with kp := s.kp.loaded t.now u }

theorem loadNoted_touches (s : State) (u : Nat) : Touches [.now, .kp] s (loadNoted s u) :=
  .after (by decide) (kp_touches _ (s.kp.loaded (s.advanceTo (s.kp.loadAt + msec)).now u) ⟨rfl, rfl⟩)
    ((advanceTo_touches s _).mono (by decide))

/-- The load is noted, and the shedding of class 2 counted as it begins. -/
def loadShed (s : State) (u : Nat) : State :=
  if !s.kp.shed2 && decide (98 < u) then kpCount (loadNoted s u) 2 (wd u) else loadNoted s u

theorem loadShed_touches (s : State) (u : Nat) : Touches (traced [.now, .kp]) s (loadShed s u) := by
  have hnoted := (loadNoted_touches s u).mono (P := traced [.now, .kp]) (by decide)
  exact .ite (fun _ => .after (by decide) (kpCount_touches _ 2 _) hnoted) fun _ => hnoted

/-- Of the Keeper, the count of the shedding changes its events and the fault log's number alone. -/
theorem loadShed_kp (s : State) (u : Nat) :
    { (loadShed s u).kp with evt := 0, seqNo := 0, early := [] } = { (loadNoted s u).kp with evt := 0, seqNo := 0, early := [] } := by
  unfold loadShed
  split
  · exact congrArg (fun x : Keeper => { x with evt := 0 }) (kpCount_kp (loadNoted s u) 2 (wd u))
  · rfl

/-- The deferral of class 3 and the shedding of class 2 change at their thresholds and stay between them. -/
theorem hysteresis {on : Bool} {v lo hi u : Nat} (hlh : lo ≤ hi) (hhi : hi < 100) (hv : v = min 100 u) :
    (hi < u → (decide (hi < v) || (on && decide (lo < v))) = true)
      ∧ (u ≤ lo → (decide (hi < v) || (on && decide (lo < v))) = false)
      ∧ (lo < u → u ≤ hi → (decide (hi < v) || (on && decide (lo < v))) = on) := by
  refine ⟨fun h => ?_, fun h => ?_, fun h h' => ?_⟩
  · simp; omega
  · simp; omega
  · simp [show ¬hi < v by omega, show lo < v by omega]

/-- Settles O20: each row is an update of the Keeper, with its event counted where it has one. -/
theorem keeperRestartsAndShedsByItsLoad : Obligations.KeeperRestartsAndShedsByItsLoad := by
  unfold Obligations.KeeperRestartsAndShedsByItsLoad
  refine ⟨?lockstep, ?complete, ?load, ?read⟩
  case lockstep =>
    intro s hup hrun
    have hcount := kpCount_touches s 1 0
    have hkp := kpCount_kp s 1 0
    have hsys : { (kpCount s 1 0).sys with sysEvt := 0 } = { s.sys with sysEvt := 0 } := hcount.agree .sys (by decide)
    refine ⟨keeperRestarts (kpCount s 1 0), congrArg Host.Outcome.next (if_neg (by simp [hup, hrun])), rfl,
      congrArg (· + 1) (congrArg Keeper.restarts hkp :), rfl, rfl, ?_, bitOf_of_eq_orBit (congrArg Keeper.evt hkp :) (by decide),
      (Touches.after (by decide) (keeperRestarts_touches _) (hcount.mono (by decide))).onlyChanges⟩
    exact congrArg (fun x : Sys => { x with rstCause := orBit x.rstCause 6, sysEvt := (kpCount s 1 0).sys.sysEvt }) hsys
  case complete =>
    intro s hrun
    exact ⟨_, congrArg Host.Outcome.next (if_pos hrun), rfl,
      (kp_touches s { s.kp with restarting := false } ⟨rfl, rfl⟩).onlyChanges⟩
  case load =>
    intro u s hup hrun
    have ht := loadShed_touches s (min 100 u)
    have hkp := loadShed_kp s (min 100 u)
    have hnow : (loadShed s (min 100 u)).now = max s.now (s.kp.loadAt + msec) := by
      unfold loadShed
      split
      · exact (kpCount_touches _ _ _).now (by decide)
      · rfl
    obtain ⟨hdefer, hserve, hkeep⟩ := hysteresis (on := s.kp.defer3) (lo := 80) (hi := 90) (by decide) (by decide)
      (Eq.refl (min 100 u))
    obtain ⟨hshed, hback, hstay⟩ := hysteresis (on := s.kp.shed2) (lo := 95) (hi := 98) (by decide) (by decide)
      (Eq.refl (min 100 u))
    have hd : (loadShed s (min 100 u)).kp.defer3 = _ := (congrArg Keeper.defer3 hkp :)
    have hs : (loadShed s (min 100 u)).kp.shed2 = _ := (congrArg Keeper.shed2 hkp :)
    refine ⟨loadShed s (min 100 u), congrArg Host.Outcome.next (if_neg (by simp [hup, hrun])), hnow,
      (congrArg Keeper.loadAt hkp).trans hnow.symm, (congrArg Keeper.u hkp :), (congrArg Keeper.peak hkp :),
      fun h => hd.trans (hdefer h), fun h => hd.trans (hserve h), fun h h' => hd.trans (hkeep h h'),
      fun h => hs.trans (hshed h), fun h => hs.trans (hback h), fun h h' => hs.trans (hstay h h'), fun h hopen => ?_,
      ht.onlyChanges⟩
    have henter : (!s.kp.shed2 && decide (98 < min 100 u)) = true := by simp [hopen]; omega
    rw [loadShed, if_pos henter]
    exact bitOf_of_eq_orBit (congrArg Keeper.evt (kpCount_kp (loadNoted s (min 100 u)) 2 _) :) (by decide)
  case read =>
    intro s hopen
    exact ⟨_, congrArg Host.Outcome.next (regGate_open hopen _), rfl, rfl,
      (Touches.after (by decide) (acc_touches _ _) ((kp_touches s { s.kp with peak := s.kp.u } ⟨rfl, rfl⟩).mono (by decide))).onlyChanges⟩

end Sys2Proof.Machine
end

section
namespace Sys2Proof.Machine

/-! ## Words and bytes of memory (R6) -/

/-- Whole words spelled before others. -/
theorem wordsOf_append (n m : Nat) {bs : List Byte} (h : bs.length = 4 * n) (cs : List Byte) :
    wordsOf (n + m) (bs ++ cs) = wordsOf n bs ++ wordsOf m cs := by
  induction n generalizing bs with
  | zero =>
    obtain rfl := List.eq_nil_of_length_eq_zero h
    rw [Nat.zero_add, wordsOf, List.nil_append, List.nil_append]
  | succ n ih =>
    have hle : 4 ≤ bs.length := by omega
    rw [Nat.succ_add, wordsOf, wordsOf, List.take_append_of_le_length hle, List.drop_append_of_le_length hle,
      ih (by rw [List.length_drop]; omega), List.cons_append]

theorem memGetBytes_append (m : List Host.Cell) (a n k : Nat) :
    memGetBytes m a (n + k) = memGetBytes m a n ++ memGetBytes m (a + n) k := by
  simp only [memGetBytes, List.range_add, List.map_append, List.map_map, Function.comp_def, Nat.add_assoc]

theorem wordsOf_length (n : Nat) (bs : List Byte) : (wordsOf n bs).length = n := by
  induction n generalizing bs with
  | zero => rfl
  | succ n ih => rw [wordsOf, List.length_cons, ih]

/-- The words that bytes of memory spell are the words of memory. -/
theorem wordsOf_memGetBytes (m : List Host.Cell) (n a : Nat) :
    wordsOf n (memGetBytes m a (4 * n)) = (List.range n).map fun j => memWord m (a + 4 * j) := by
  induction n generalizing a with
  | zero => rfl
  | succ n ih =>
    have hone : wordsOf 1 (memGetBytes m a 4) = [memWord m a] := by
      rw [wordsOf, List.take_of_length_le (memGetBytes_length m a 4).le]
      rfl
    rw [show 4 * (n + 1) = 4 + 4 * n by omega, memGetBytes_append, Nat.add_comm n 1,
      wordsOf_append 1 n (memGetBytes_length m a 4), hone, ih, List.range_add, List.map_append, List.map_map]
    simp [Function.comp_def, Nat.mul_add, Nat.add_assoc]

/-- Records of eight words, one after the other. -/
theorem wordsOf_records {α : Type} (g : α → List Byte) (hg : ∀ k, (g k).length = 32) (l : List α) :
    wordsOf (8 * l.length) (l.flatMap g) = l.flatMap fun k => wordsOf 8 (g k) := by
  induction l with
  | nil => rfl
  | cons k l ih =>
    rw [List.length_cons, Nat.mul_add, Nat.add_comm, List.flatMap_cons, List.flatMap_cons, wordsOf_append 8 _ (hg k), ih]

/-! ## Reading the fault log (R521) -/

theorem storeRead_length (s : State) (a n : Nat) : (storeRead s a n).2.1.length = n := by
  unfold storeRead
  split
  next h => exact h.symm
  next => simp

/-- With no stored bit flipped no word is in error. -/
theorem wordState_clean {s : State} (h : s.nv.flips = []) (w : Nat) : wordState s w = 0 := by
  simp [wordState, h]

theorem codeScan_clean {s : State} (h : s.nv.flips = []) (ws : List Nat) {st : Nat} (hst : st ≠ 0) (cause w n : Nat) :
    ws.foldl (fun s x => if wordState s x = st then nvEvent s cause w n else s) s = s := by
  induction ws with
  | nil => rfl
  | cons x ws ih => rw [List.foldl_cons, if_neg (by rw [wordState_clean h]; exact hst.symm), ih]

/-- Above the boot area a store with no stored bit flipped reads as its memory, and nothing is counted. -/
theorem storeRead_clean {s : State} (h : s.nv.flips = []) {a : Nat} (ha : storeBase + 0x10000 ≤ a) (n : Nat) :
    storeRead s a n = (s, memGetBytes s.mem a n, none) := by
  have hstate := wordState_clean h
  have hbyte (i : Nat) : storeByte s (a + i) = memGet s.mem (a + i) := if_neg (by simp; omega)
  unfold storeRead
  split
  next hn => subst hn; rfl
  next =>
    dsimp only
    rw [codeScan_clean h _ (by decide), codeScan_clean h _ (by decide)]
    simp [hstate, hbyte, memGetBytes]

theorem logAddr_above_boot (i : Nat) : storeBase + 0x10000 ≤ logAddr i := by
  unfold logAddr
  omega

/-- One record read after those before it. -/
def logStep (lo : Nat) (r : State × List Byte) (k : Nat) : State × List Byte :=
  ((storeRead r.1 (logAddr (lo + k)) 32).1, r.2 ++ (storeRead r.1 (logAddr (lo + k)) 32).2.1)

theorem logReadAns_eq {s : State} {count : Nat} (h1 : 1 ≤ count) (h7 : count ≤ 7) (first : Nat) :
    logReadAns s first count =
      (let r := (List.range (min s.nv.logNext (first + count) - max first (logLowest s))).foldl
        (logStep (max first (logLowest s))) (s, [])
      (r.1, { status := 0, data := wd (logLowest s) :: wordsOf (r.2.length / 4) r.2 })) :=
  if_neg (by simp; omega)

theorem logSteps_touches (lo : Nat) (l : List Nat) (r : State × List Byte) : Touches trace r.1 (l.foldl (logStep lo) r).1 := by
  induction l generalizing r with
  | nil => exact .refl _ _
  | cons k l ih => exact (storeRead_touches r.1 (logAddr (lo + k)) 32).trans (ih (logStep lo r k))

theorem logSteps_length (lo : Nat) (l : List Nat) (r : State × List Byte) :
    (l.foldl (logStep lo) r).2.length = r.2.length + 32 * l.length := by
  induction l generalizing r with
  | nil => rfl
  | cons k l ih =>
    rw [List.foldl_cons, ih, logStep, List.length_append, storeRead_length, List.length_cons]
    omega

theorem logSteps_clean {s : State} (h : s.nv.flips = []) (lo : Nat) (l : List Nat) (bs : List Byte) :
    l.foldl (logStep lo) (s, bs) = (s, bs ++ l.flatMap fun k => memGetBytes s.mem (logAddr (lo + k)) 32) := by
  induction l generalizing bs with
  | nil => simp
  | cons k l ih =>
    rw [List.foldl_cons, logStep, storeRead_clean h (logAddr_above_boot _), ih, List.flatMap_cons, List.append_assoc]

/-- The words of the records held among count from first on. -/
def logRecords (s : State) (first count : Nat) : List Word :=
  (List.range (min s.nv.logNext (first + count) - max first (logLowest s))).flatMap fun k =>
    (List.range 8).map fun j => memWord s.mem (logAddr (max first (logLowest s) + k) + 4 * j)

/-- What LOG_READ of 1 to 7 records comes to (R521). -/
theorem logReadAns_reads (s : State) {count : Nat} (h1 : 1 ≤ count) (h7 : count ≤ 7) (first : Nat) :
    ∃ v ws, logReadAns s first count = (v, { status := 0, data := wd (logLowest s) :: ws }) ∧ Touches trace s v
      ∧ (s.nv.flips = [] → ws = logRecords s first count)
      ∧ ws.length = 8 * (min s.nv.logNext (first + count) - max first (logLowest s)) := by
  have hlen := logSteps_length (max first (logLowest s))
    (List.range (min s.nv.logNext (first + count) - max first (logLowest s))) (s, [])
  rw [List.length_range, List.length_nil, Nat.zero_add] at hlen
  refine ⟨_, _, logReadAns_eq h1 h7 first, logSteps_touches _ _ (s, []), fun hflips => ?_, ?_⟩
  · rw [logSteps_clean hflips, List.nil_append, logRecords]
    have hbytes (k : Nat) := memGetBytes_length s.mem (logAddr (max first (logLowest s) + k)) 32
    have hrec := wordsOf_records (fun k => memGetBytes s.mem (logAddr (max first (logLowest s) + k)) 32) hbytes
      (List.range (min s.nv.logNext (first + count) - max first (logLowest s)))
    have hcount : ((List.range (min s.nv.logNext (first + count) - max first (logLowest s))).flatMap fun k =>
        memGetBytes s.mem (logAddr (max first (logLowest s) + k)) 32).length / 4
        = 8 * (List.range (min s.nv.logNext (first + count) - max first (logLowest s))).length := by
      rw [List.length_flatMap]
      simp [hbytes]
      omega
    rw [hcount, hrec]
    exact congrArg (fun g => List.flatMap g _) (funext fun k => wordsOf_memGetBytes s.mem 8 _)
  · rw [wordsOf_length, hlen]
    omega

/-- What a LOG_READ of 1 to 7 records is answered with. -/
def LogServed (s t : State) (first count : Nat) : Prop :=
  ∃ ws : List Word, Replied t { status := 0, data := wd (logLowest s) :: ws } ∧ (s.nv.flips = [] → ws = logRecords s first count)
    ∧ ws.length = 8 * (min s.nv.logNext (first + count) - max first (logLowest s))

/-- A LOG_READ answered in a state leaves the queue of the requests that wait. -/
theorem logRead_answered (u : State) (q : Req) {count : Nat} (h1 : 1 ≤ count) (h7 : count ≤ 7) (first : Nat) :
    let t := respond (logReadAns u first count).1 q tCMD (logReadAns u first count).2
    LogServed u t first count ∧ t.kp.queue = u.kp.queue ∧ Touches (traced [.acc, .host]) u t := by
  intro t
  obtain ⟨v, ws, hans, hv, hclean, hlen⟩ := logReadAns_reads u h1 h7 first
  have ht : AnsweredFrom v t { status := 0, data := wd (logLowest u) :: ws } := by
    show AnsweredFrom v (respond (logReadAns u first count).1 q tCMD (logReadAns u first count).2) _
    rw [hans]
    exact respond_answered v q tCMD _
  have hall : Touches (traced [.acc, .host]) u t := .after (by decide) ht.touches (hv.mono (by decide))
  have hkp : { t.kp with seqNo := 0, early := [] } = { u.kp with seqNo := 0, early := [] } := hall.agree .kp (by decide)
  exact ⟨⟨ws, ht.replied, hclean, hlen⟩, (congrArg Keeper.queue hkp :), hall⟩

/-- Settles O21: by what reading the log comes to, once the request is heard or taken off the queue. -/
theorem faultLogAndSafetyFramesAreServed : Obligations.FaultLogAndSafetyFramesAreServed := by
  unfold Obligations.FaultLogAndSafetyFramesAreServed
  intro s records served
  refine ⟨fun q first count h hbar => ⟨fun hserve h1 h7 => ?read, fun hdefer => ?deferred⟩,
    fun d ds hq hserve hrun hup => ⟨fun hroom h1 h7 => ?serve, fun hfull => ?waits⟩, fun q frame h => ?safeFrame⟩
  case read =>
    obtain ⟨u, hu, -, harr⟩ := arrive_unqueue h
    obtain ⟨hserved, hqueue, ht⟩ := logRead_answered u q h1 h7 first.toNat
    have hall := (Touches.trans (hu.touches.mono (by decide)) ht).onlyChanges
    obtain ⟨hup, hrun, hport, hroom, -⟩ := h
    obtain ⟨g, rfl, -⟩ := hu
    refine ⟨_, ?_, hserved, hqueue, hall.mono (by decide)⟩
    have hbarU : logBar q { s with host := g } = none := hbar
    refine congrArg Host.Outcome.next ((if_neg (by simp [hup, hport, hroom])).trans ?_)
    rw [harr]
    exact (if_neg (by simp)).trans <| (if_neg (by simp [hserve])).trans <| (if_neg (by simp [hrun])).trans (by rw [hbarU])
  case deferred =>
    obtain ⟨u, hu, -, harr⟩ := arrive_unqueue h
    obtain ⟨hup, hrun, hport, hroom, -⟩ := h
    obtain ⟨g, rfl, hg, -⟩ := hu
    have hbarU : logBar q { s with host := g } = none := hbar
    refine ⟨_, ?_, rfl, (Touches.after (by decide) (kp_touches { s with host := g }
      { s.kp with queue := s.kp.queue ++ [⟨q, first, count⟩] } ⟨rfl, rfl⟩) ((host_touches s g hg).mono (by decide))).onlyChanges⟩
    refine congrArg Host.Outcome.next ((if_neg (by simp [hup, hport, hroom])).trans ?_)
    rw [harr]
    exact (if_neg (by simp)).trans (if_pos (by simp [hdefer, hrun, hbarU]))
  case serve =>
    obtain ⟨hserved, hqueue, ht⟩ := logRead_answered { s with kp := { s.kp with queue := ds } } d.req h1 h7 d.first.toNat
    refine ⟨_, ?_, hqueue, hserved,
      (Touches.trans ((kp_touches s { s.kp with queue := ds } ⟨rfl, rfl⟩).mono (by decide)) (ht.mono (by decide))).onlyChanges⟩
    simp only [exec, execDeferredRequestServe, hq]
    exact congrArg Host.Outcome.next (if_neg (by simp [hserve, hrun, hup, hroom]))
  case waits =>
    refine ⟨s, ?_, rfl⟩
    simp only [exec, execDeferredRequestServe, hq]
    exact congrArg Host.Outcome.next (if_pos (by rw [hfull, Bool.or_true]))
  case safeFrame =>
    obtain ⟨hheard, hbar⟩ := h
    obtain ⟨u, hu, -, hdo⟩ := requestDo_heard hheard
    obtain ⟨g, rfl, hg, -⟩ := hu
    exact ⟨_, congrArg Host.Outcome.next (hdo _ _ hbar), rfl,
      (Touches.after (by decide) (wrFrameIn_touches _ _ _) ((host_touches s g hg).mono (by decide))).onlyChanges⟩

end Sys2Proof.Machine
end

section
namespace Sys2Proof.Machine

/-! ## SYS_EVT clears no bit (R539) -/

/-- From s to t no bit of SYS_EVT is cleared. -/
def Alerts (s t : State) : Prop := ∀ i, bitOf s.sys.sysEvt i = true → bitOf t.sys.sysEvt i = true

namespace Alerts

variable {s t u : State}

theorem refl (s : State) : Alerts s s := fun _ h => h

theorem trans (h : Alerts s t) (k : Alerts t u) : Alerts s u := fun i hi => k i (h i hi)

theorem ite {c : Prop} [Decidable c] (h : Alerts s t) (k : Alerts s u) : Alerts s (if c then t else u) := by
  split
  · exact h
  · exact k

theorem foldl {α : Type} {f : State → α → State} (hf : ∀ t x, Alerts t (f t x)) (l : List α) (s : State) :
    Alerts s (l.foldl f s) := by
  induction l generalizing s with
  | nil => exact refl s
  | cons x l ih => exact (hf s x).trans (ih _)

end Alerts

/-- What does not touch SYS_EVT clears no bit of it. -/
theorem Touches.alerts {P : List Part} {s t : State} (h : Touches P s t) (hP : .sysEvt ∉ P) : Alerts s t := by
  have hevt : t.sys.sysEvt = s.sys.sysEvt := h.agree .sysEvt hP
  intro i hi
  rwa [hevt]

theorem logAppend_alerts (s : State) (w : List Word) : Alerts s (logAppend s w) := by
  intro i hi
  unfold logAppend
  dsimp only
  split
  · split <;> exact bitOf_orBit hi 3
  · exact bitOf_orBit hi 3

theorem declare_alerts (s : State) (e : Ev) (wc : Nat) : Alerts s (declare s e wc) := by
  unfold declare
  split
  · exact logAppend_alerts { s with kp := { s.kp with seqNo := s.kp.seqNo + 1 } } _
  · exact (dsEvent_touches ..).alerts (by decide)

theorem release_alerts (s : State) (c : Ctr) : Alerts s (release s c) := by
  unfold release
  split
  · exact (inbox_touches s _).alerts (by decide)
  · exact (dsEvent_touches ..).alerts (by decide)

theorem countOnce_alerts (s : State) (e : Ev) : Alerts s (countOnce s e) := by
  unfold countOnce
  dsimp only
  refine .ite (.trans ?released (.ite (declare_alerts _ e _) (.refl _))) (.refl s)
  case released =>
    intro i hi
    dsimp only
    split
    · exact release_alerts s _ i hi
    · exact hi

theorem countEvent_alerts (s : State) (e : Ev) : Alerts s (countEvent s e) := by
  unfold countEvent
  refine .trans (countOnce_alerts s e) ?_
  unfold logWatch
  refine .ite ?_ (.ite ?_ (.refl _))
  · exact .trans ((hostEvt_touches _ _).alerts (by decide)) (countOnce_alerts _ _)
  · exact .trans ((useFree_touches _).alerts (by decide)) (countOnce_alerts _ _)

theorem countFixed_alerts (s : State) (src d : Nat) : Alerts s (countFixed s src d) := .ite (.refl s) (countEvent_alerts s _)

theorem latchWith_alerts (s : State) (src suspect : Nat) {cnt : State → State} (hc : ∀ t, Alerts t (cnt t)) :
    Alerts s (latchWith s src suspect cnt) := by
  have hadded := (latchesAdded_touches s src suspect).alerts (by decide)
  have hseverity := (setSeverity_touches (latchesAdded s src suspect)).alerts (by decide)
  exact ((hadded.trans hseverity).trans (hc _)).trans (.ite (countFixed_alerts _ 0x54 src) (.refl _))

theorem latchFixed_alerts (s : State) (src detail : Nat) : Alerts s (latchFixed s src detail) :=
  .ite (latchWith_alerts s src 0 fun t => countFixed_alerts t src detail) (.refl s)

theorem latchComp_alerts (s : State) (src : Nat) (atPage0 : Bool) : Alerts s (latchComp s src atPage0) :=
  .ite (.refl s) (latchWith_alerts s src _ fun t => countEvent_alerts t _)

theorem compAsserts_alerts (s : State) (c : Comp) : Alerts s (compAsserts s c) := by
  unfold compAsserts
  split
  · exact ((cpEvtBit_touches s c 5).alerts (by decide)).trans (countEvent_alerts _ _)
  · exact .trans (.ite ((cpEvtBit_touches s c _).alerts (by decide)) (.refl s)) (latchComp_alerts _ _ false)

theorem setChop_alerts (s : State) : Alerts s (setChop s) := by
  unfold setChop
  refine .ite (.refl s) (.trans ?_ ((applyOverrides_touches _).alerts (by decide)))
  exact fun _ h => h

theorem ov1Change_alerts (s : State) (g : Nat) (active : Bool) : Alerts s (ov1Change s g active) := by
  unfold ov1Change
  refine .ite (.refl s) (.trans (.ite (.trans ?_ (latchFixed_alerts _ 0x53 _)) ?_) (setChop_alerts _))
  all_goals exact fun _ h => h

theorem limitHit_alerts (s : State) (g : Nat) : Alerts s (limitHit s g) :=
  .ite (.trans ((holdLow_touches s .ds (fld (cpW s 1 g 5) 13 8) false).alerts (by decide))
    (.foldl (fun t i => (modConv_touches t i _).alerts (by decide)) _ _)) (.refl s)

theorem liveAsserts_alerts (s : State) (c : Comp) : Alerts s (liveAsserts s c) := by
  unfold liveAsserts
  split
  · split
    · exact .ite (ov1Change_alerts s _ true) (.refl s)
    · exact latchFixed_alerts s 0x50 0
    · exact .ite (fun _ h => h) (.refl s)
    · exact limitHit_alerts s _
    · exact .foldl (fun t m => .ite ((chopCheck_touches t m).alerts (by decide)) (.refl t)) _ s
    · exact compAsserts_alerts s _
  · exact compAsserts_alerts s c

theorem liveUpdate_alerts (s : State) (c : Comp) : Alerts s (liveUpdate s c) := by
  unfold liveUpdate
  dsimp only
  refine .trans ((modComp_touches s c _).alerts (by decide)) (.ite (.refl _) (.ite (liveAsserts_alerts _ c) (.ite ?_ (.refl _))))
  obtain h | ⟨g, h⟩ := liveDeasserts_cases (modComp s c fun x => { x with live := liveNow s c }) c
  · rw [h]
    exact .refl _
  · rw [h]
    exact ov1Change_alerts _ g false

theorem liveAll_alerts (s : State) : Alerts s (liveAll s) := .foldl liveUpdate_alerts _ s

theorem liveAll_touches (s : State) : Touches assertParts s (liveAll s) := .foldl liveUpdate_touches _ s

/-! ## What a reset of a die touches (R533, R534) -/

theorem clearRam_wf {m : List Host.Cell} (d : Die) (h : Memory.wf m = true) : Memory.wf (clearRam m d) = true :=
  Memory.wf_memErase _ _ (Memory.wf_memErase _ _ (Memory.wf_memErase _ _ h))

/-- What the entry of the DS die into its boot state touches. -/
def dsBootParts : List Part :=
  [.mem, .sys, .x, .dsLoaded, .ctrs, .buoys, .beamsDs, .lhDs, .engDs, .pairDs, .pwmDs, .mach, .candle, .legs, .prot, .conv, .cvTick,
    .temp, .lamp, .ckDs, .log, .evq]

theorem dsBootIn_touches (s : State) : Touches dsBootParts s (dsBootIn s) where
  same p hp := by
    have k := p.agree_refl s
    cases p
    case mem | sys | x | dsLoaded | ctrs | buoys | beamsDs | lhDs | engDs | pairDs | pwmDs | mach | candle | legs | prot | conv
      | cvTick | temp | lamp | ckDs | log | evq => exact absurd hp (by decide)
    all_goals exact k
  time := Nat.le_refl _
  mem := clearRam_wf .ds
  size h := by
    simp only [shape, List.cons.injEq] at h
    simp [shape, dsBootIn, h]
    decide

end Sys2Proof.Machine
end

section
namespace Sys2Proof.Machine

/-! ## A reset of the CS die (R533) -/

/-- What a reset of the whole CS die keeps: the DS die's units, the store, and the time. -/
def csKept : List Part :=
  [.pending, .now, .freeCtr, .dsOfs, .fwRev, .nv, .dsLoaded, .beamsDs, .lhDs, .engDs, .pairDs, .pwmDs, .mach, .candle, .legs, .prot,
    .conv, .cvTick, .ckDs, .evq, .logNext]

theorem csResetFull_keeps (s : State) (cause : Nat) : Keeps csKept s (csResetFull s cause) := by
  intro p hp
  have k := p.agree_refl s
  cases p
  case pending | now | freeCtr | dsOfs | fwRev | nv | dsLoaded | beamsDs | lhDs | engDs | pairDs | pwmDs | mach | candle | legs | prot
    | conv | cvTick | ckDs | evq | logNext => exact k
  all_goals exact absurd hp (by decide)

namespace Keeps

variable {K P : List Part} {s t u : State}

theorem mono {L : List Part} (hL : L ⊆ K) (h : Keeps K s t) : Keeps L s t := fun p hp => h p (hL hp)

theorem trans (h : Keeps K s t) (k : Keeps K t u) : Keeps K s u := fun p hp => Part.agree_trans (h p hp) (k p hp)

/-- What touches none of the parts keeps them. -/
theorem of_touches (h : Touches P s t) (hP : ∀ p ∈ K, p ∉ P) : Keeps K s t := fun p hp => h.agree p (hP p hp)

/-- An operation outside the parts, before what keeps them. -/
theorem after (k : Keeps K t u) (h : Touches P s t) (hP : ∀ p ∈ K, p ∉ P) : Keeps K s u := (of_touches h hP).trans k

/-- An operation outside the parts, after what keeps them. -/
theorem andThen (h : Keeps K s t) (k : Touches P t u) (hP : ∀ p ∈ K, p ∉ P) : Keeps K s u := h.trans (of_touches k hP)

end Keeps

/-! ## Supplies (R530 to R532) -/

theorem sup_touches (s : State) (v : Supply) : Touches [.sup] s { s with sup := v } :=
  .of_update (fun p => by have k := p.agree_refl s; cases p <;> exact k) rfl rfl rfl

/-- A supply word with one bit set or cleared. -/
def supBit (code : Nat) (ok : Bool) (w : BitVec 12) : BitVec 12 :=
  if ok then w ||| BitVec.ofNat 12 (2 ^ code) else w &&& ~~~(BitVec.ofNat 12 (2 ^ code))

theorem setSupply_cs {s : State} {code : Nat} (h : code < 8) (ok : Bool) :
    setSupply s code ok = { s with sup := { s.sup with csOk := supBit code ok s.sup.csOk } } := if_pos h

theorem setSupply_ds {s : State} {code : Nat} (h : ¬code < 8) (ok : Bool) :
    setSupply s code ok = { s with sup := { s.sup with dsOk := supBit code ok s.sup.dsOk } } := if_neg h

theorem setSupply_touches (s : State) (code : Nat) (ok : Bool) : Touches [.sup] s (setSupply s code ok) := by
  by_cases h : code < 8
  · rw [setSupply_cs h]
    exact sup_touches s _
  · rw [setSupply_ds h]
    exact sup_touches s _

theorem supplyEvent_touches (s : State) (code : Nat) (isOver : Bool) (mv : BitVec 16) :
    Touches trace s (supplyEvent s code isOver mv) :=
  .after (by decide) (countEvent_touches _ _) ((sysEvt_touches s _).mono (by decide))

/-- A supply event sets SYS_EVT bit 4. -/
theorem supplyEvent_alerts (s : State) (code : Nat) (isOver : Bool) (mv : BitVec 16) :
    bitOf (supplyEvent s code isOver mv).sys.sysEvt 4 = true :=
  countEvent_alerts _ _ 4 (bitOf_of_eq_orBit rfl (by decide))

/-- What a power-on reset of the DS die touches. -/
def dsPorParts : List Part := .clk :: dsBootParts

theorem dsPorIn_touches (s : State) : Touches dsPorParts s (dsPorIn s) where
  same p hp := by
    have k := p.agree_refl s
    cases p
    case mem | sys | clk | x | dsLoaded | ctrs | buoys | beamsDs | lhDs | engDs | pairDs | pwmDs | mach | candle | legs | prot | conv
      | cvTick | temp | lamp | ckDs | log | evq => exact absurd hp (by decide)
    all_goals exact k
  time := Nat.le_refl _
  mem := clearRam_wf .ds
  size h := by
    simp only [shape, List.cons.injEq] at h
    simp [shape, dsPorIn, dsBootIn, h]
    decide

/-- A power-on reset of the DS die with its supplies gone (R532). -/
def dsSupplyGone (s : State) : State :=
  let u := dsPorIn (setSupply s 8 false)
  { u with sup := { u.sup with dsOk := 0 } }

theorem dsSupplyGone_touches (s : State) : Touches (.sup :: dsPorParts) s (dsSupplyGone s) := by
  refine .trans (.trans ?_ ((dsPorIn_touches (setSupply s 8 false)).mono (by decide))) ((sup_touches _ _).mono (by decide))
  rw [setSupply_ds (by decide)]
  exact (sup_touches s _).mono (by decide)

/-- The loss of VDS_CORE is counted where the CS die is awake and out of reset (R532, R547). -/
def dsSupplyLost (s : State) : State :=
  let u := dsSupplyGone s
  if u.sys.csReset || u.sys.asleep then u
  else countEvent { u with sys := { u.sys with rstCause := orBit u.sys.rstCause 5 } }
    (direct .cs 0 0 0 0 0x12 (wd (dsOutMask (dsPorIn (setSupply s 8 false)))))

theorem dsSupplyLost_touches (s : State) : Touches (traced (.sup :: dsPorParts)) s (dsSupplyLost s) := by
  have hgone := (dsSupplyGone_touches s).mono (P := traced (.sup :: dsPorParts)) (by decide)
  unfold dsSupplyLost
  exact .ite (fun _ => hgone) fun _ =>
    .after (by decide) (countEvent_touches _ _) <| .after (by decide) (sys_touches (dsSupplyGone s) _ rfl) hgone

/-- The parts of a DS die that is without its core supply. -/
structure DsGone (s t : State) : Prop where
  dsOk : t.sup.dsOk = 0
  csOk : t.sup.csOk = s.sup.csOk
  dsPor : t.sys.dsPor = true
  dsBoot : t.sys.dsBoot = true
  dsReady : t.sys.dsReady = false
  dsLoaded : t.dsLoaded = false
  dsLock : t.clk.dsLock = false

theorem dsSupplyLost_gone (s : State) : DsGone s (dsSupplyLost s) := by
  unfold dsSupplyLost
  dsimp only
  split
  · exact ⟨rfl, rfl, rfl, rfl, rfl, rfl, rfl⟩
  · have ht := countEvent_touches
      { dsSupplyGone s with sys := { (dsSupplyGone s).sys with rstCause := orBit (dsSupplyGone s).sys.rstCause 5 } }
      (direct .cs 0 0 0 0 0x12 (wd (dsOutMask (dsPorIn (setSupply s 8 false)))))
    have hsup := ht.agree .sup (by decide)
    have hsys := ht.agree .sys (by decide)
    have hloaded := ht.agree .dsLoaded (by decide)
    have hclk := ht.agree .clk (by decide)
    exact ⟨(congrArg Supply.dsOk hsup :), (congrArg Supply.csOk hsup :), (congrArg Sys.dsPor hsys :), (congrArg Sys.dsBoot hsys :),
      (congrArg Sys.dsReady hsys :), hloaded, (congrArg Clocks.dsLock hclk :)⟩

/-- What every comparator taken afresh touches, and a supply. -/
def supplyParts : List Part := traced [.sup, .lhCs, .lhDs, .pwmCs, .pwmDs, .candle, .legs, .prot, .conv, .temp, .lamp]

/-- VDS_ANA is back, and 100 µs pass until the comparators are believed (R532). -/
def anaTimed (u : State) : State :=
  { u with sup := { u.sup with since := u.sup.since.set 9 (u.now + 100 * usec) } }.advanceTo (u.now + 100 * usec)

theorem anaTimed_touches (u : State) : Touches [.now, .sup] u (anaTimed u) :=
  .after (by decide) (advanceTo_touches _ _) ((sup_touches u _).mono (by decide))

/-- VDS_ANA back in range, the comparators taken afresh. -/
def anaBack (u : State) : State := liveAll (anaTimed u)

/-- Settles O9: each row by the supply word it changes and the reset or the event that follows. -/
theorem suppliesStartAndStopTheDies : Obligations.SuppliesStartAndStopTheDies := by
  unfold Obligations.SuppliesStartAndStopTheDies
  refine ⟨?core, fun mv s => ⟨?vwkLow, ?vwkOver⟩, ?cs, ?dsCore, ?ds, ?csBack, ?dsBack⟩
  case core =>
    intro isOver mv s hok hawake
    refine ⟨csResetFull (setSupply s 0 false) 3, ?_, rfl, rfl, rfl, rfl, rfl, rfl, rfl,
      (csResetFull_keeps _ 3).after (setSupply_touches s 0 false) (by decide)⟩
    exact congrArg Host.Outcome.next <| (if_neg (by decide)).trans <| (if_pos (by decide)).trans <|
      (if_neg (by simp [hawake]; exact hok)).trans (if_pos rfl)
  case vwkLow =>
    refine ⟨_, congrArg Host.Outcome.next ((if_pos rfl).trans (if_neg (by decide))), rfl, rfl, rfl, rfl, rfl, fun p hp => ?_⟩
    fin_cases hp <;> rfl
  case vwkOver => exact ⟨s, congrArg Host.Outcome.next ((if_pos rfl).trans (if_pos rfl)), rfl⟩
  case cs =>
    intro code isOver mv s h1 h6 hok hawake
    have hexec : execSupplyOutOfRange code isOver mv s = .next (
        if s.sys.csReset then setSupply s code false else supplyEvent (setSupply s code false) code isOver mv) :=
      congrArg Host.Outcome.next <| (if_neg (by omega)).trans <| (if_pos (by omega)).trans <|
        (if_neg (by simp [hawake, hok])).trans (if_neg (by omega))
    have hset : (setSupply s code false).sup = { s.sup with csOk := s.sup.csOk &&& ~~~(BitVec.ofNat 12 (2 ^ code.val)) } := by
      rw [setSupply_cs (by omega)]
      rfl
    have hsup := setSupply_touches s code false
    have hsys : (setSupply s code false).sys = s.sys := by rw [setSupply_cs (by omega)]
    by_cases hreset : s.sys.csReset = true
    · rw [if_pos hreset] at hexec
      exact ⟨_, hexec, hset, fun h => by simp [hreset] at h, fun _ => hsys, (hsup.mono (by decide)).onlyChanges⟩
    · rw [if_neg hreset] at hexec
      have hev := supplyEvent_touches (setSupply s code false) code isOver mv
      exact ⟨_, hexec, (hev.agree .sup (by decide)).trans hset, fun _ => supplyEvent_alerts _ _ _ _, fun h => absurd h hreset,
        (Touches.after (by decide) hev (hsup.mono (by decide))).onlyChanges⟩
  case dsCore =>
    intro isOver mv s hpor hok
    obtain ⟨hdsOk, hcsOk, hdsPor, hboot, hready, hloaded, hlock⟩ := dsSupplyLost_gone s
    refine ⟨dsSupplyLost s, ?_, hdsOk, hcsOk, hdsPor, hboot, hready, hloaded, hlock,
      ((dsSupplyLost_touches s).mono (by decide)).onlyChanges⟩
    exact congrArg Host.Outcome.next <| (if_neg (by decide)).trans <| (if_neg (by decide)).trans <|
      (if_neg (by simp [hpor]; exact hok)).trans (if_pos rfl)
  case ds =>
    intro code isOver mv s h9 hpor hok
    have hexec : execSupplyOutOfRange code isOver mv s = .next (
        if code.val = 9 then liveAll (supplyEvent (setSupply s code false) code isOver mv)
        else supplyEvent (setSupply s code false) code isOver mv) :=
      congrArg Host.Outcome.next <| (if_neg (by omega)).trans <| (if_neg (by omega)).trans <|
        (if_neg (by simp [hpor, hok])).trans (if_neg (by omega))
    have hset : (setSupply s code false).sup = { s.sup with dsOk := s.sup.dsOk &&& ~~~(BitVec.ofNat 12 (2 ^ code.val)) } := by
      rw [setSupply_ds (by omega)]
      rfl
    have hev := supplyEvent_touches (setSupply s code false) code isOver mv
    have hone := Touches.after (P := supplyParts) (by decide) hev ((setSupply_touches s code false).mono (by decide))
    have hsup := (hev.agree .sup (by decide)).trans hset
    have halert := supplyEvent_alerts (setSupply s code false) code isOver mv
    by_cases hana : code.val = 9
    · rw [if_pos hana] at hexec
      have hlive := liveAll_touches (supplyEvent (setSupply s code false) code isOver mv)
      exact ⟨_, hexec, (hlive.agree .sup (by decide)).trans hsup, liveAll_alerts _ 4 halert,
        (Touches.after (by decide) hlive hone).onlyChanges⟩
    · rw [if_neg hana] at hexec
      exact ⟨_, hexec, hsup, halert, hone.onlyChanges⟩
  case csBack =>
    intro code s h1 h6 hout hawake hreset
    refine ⟨setSupply s code true, ?_, by rw [setSupply_cs (by omega)]; rfl, (setSupply_touches s code true).onlyChanges⟩
    have hlt : code.val < 8 := by omega
    have h0 : code.val ≠ 0 := by omega
    have h7 : code.val ≠ 7 := by omega
    have h8 : code.val ≠ 8 := by omega
    exact congrArg Host.Outcome.next ((if_neg (by
      simp only [h0, h7, h8, hlt, hreset, hawake, hout, if_true, decide_false, Bool.or_self, Bool.false_eq_true, not_false_eq_true])).trans
        (if_neg (by omega)))
  case dsBack =>
    intro code s h9 hout hpor
    have hnot : ¬code.val < 8 := by omega
    have h0 : code.val ≠ 0 := by omega
    have h7 : code.val ≠ 7 := by omega
    have h8 : code.val ≠ 8 := by omega
    have hexec : execSupplyBackInRange code s = .next (if code.val = 9 then anaBack (setSupply s code true) else setSupply s code true) :=
      congrArg Host.Outcome.next (if_neg (by
        simp only [h0, h7, h8, hnot, hpor, hout, if_false, decide_false, Bool.or_self, Bool.false_eq_true, not_false_eq_true]))
    have hone := (setSupply_touches s code true).mono (P := .now :: supplyParts) (by decide)
    have hsup : (setSupply s code true).sup = { s.sup with dsOk := s.sup.dsOk ||| BitVec.ofNat 12 (2 ^ code.val) } := by
      rw [setSupply_ds hnot]
      rfl
    have hnow : (setSupply s code true).now = s.now := (setSupply_touches s code true).now (by decide)
    by_cases hana : code.val = 9
    · rw [if_pos hana] at hexec
      have hlive := liveAll_touches (anaTimed (setSupply s code true))
      have htimed := anaTimed_touches (setSupply s code true)
      have hback : (anaBack (setSupply s code true)).sup = (anaTimed (setSupply s code true)).sup := hlive.agree .sup (by decide)
      refine ⟨_, hexec, ?_, ?_, ?_, (Touches.after (by decide) hlive <| .after (by decide) htimed hone).onlyChanges⟩
      · rw [hback]
        exact (congrArg Supply.dsOk hsup :)
      · rw [hback]
        exact (congrArg Supply.csOk hsup :)
      · rw [if_pos hana]
        refine (hlive.now (by decide)).trans ?_
        rw [← hnow]
        exact max_eq_right (Nat.le_add_right _ _)
    · rw [if_neg hana] at hexec
      exact ⟨_, hexec, (congrArg Supply.dsOk hsup :), (congrArg Supply.csOk hsup :), hnow.trans (if_neg hana).symm, hone.onlyChanges⟩

end Sys2Proof.Machine
end

section
namespace Sys2Proof.Machine

/-! ## Power-on (R219, R531, R537, R542) -/

/-- The CS die out of its reset: its supplies are in range, RESET_N is high and it is awake (R531, R533). -/
theorem csRelease_runs {s : State} (hreset : s.sys.csReset = true) (hsup : csSupplies s = true) (hpin : s.sys.resetLow = false)
    (hawake : s.sys.asleep = false) :
    csRelease s = { s with sys := { s.sys with csReset := false, step := 1, stepStart := s.now } } :=
  if_pos (by simp [hreset, hsup, hpin, hawake])

theorem csRelease_waits {s : State} (hpin : s.sys.resetLow = true) : csRelease s = s := if_neg (by simp [hpin])

theorem csRelease_touches (s : State) : Touches [.sys] s (csRelease s) := .ite_self (sys_touches s _ rfl)

/-- A pair's injection result (R219). -/
def Pair.injected (fails : List InjFail) (p : Nat) (x : Pair) : Pair :=
  match fails.find? fun f => f.pair.val == p && f.mask ≠ 0 with
  | some f => { x with injDone := true, injMask := f.mask, injWord := f.word.val, disabled := true }
  | none => if x.disabled then { x with injDone := true } else { x with injDone := true, injMask := 0, injWord := 0 }

theorem pairDs_touches (s : State) (v : List Pair) (h : v.length = s.pairDs.length) : Touches [.pairDs] s { s with pairDs := v } :=
  .of_update (fun p => by have k := p.agree_refl s; cases p <;> exact k) rfl rfl (by simp [shape, h])

theorem injTest_ds (s : State) (fails : List InjFail) :
    injTest s .ds fails = { s with pairDs := s.pairDs.mapIdx (Pair.injected fails) } := rfl

theorem injTestDs_touches (s : State) (fails : List InjFail) : Touches [.pairDs] s (injTest s .ds fails) :=
  pairDs_touches s _ List.length_mapIdx

theorem injected_done (fails : List InjFail) (p : Nat) (x : Pair) : (x.injected fails p).injDone = true := by
  unfold Pair.injected
  split
  · rfl
  · split <;> rfl

theorem injected_disabled {fails : List InjFail} {f : InjFail} (hf : f ∈ fails) (hmask : f.mask ≠ 0) (x : Pair) :
    (x.injected fails f.pair.val).disabled = true := by
  have hfound : (fails.find? fun g => g.pair.val == f.pair.val && g.mask ≠ 0).isSome = true := by
    rw [List.find?_isSome]
    exact ⟨f, hf, by simpa using hmask⟩
  obtain ⟨g, hg⟩ := Option.isSome_iff_exists.1 hfound
  unfold Pair.injected
  rw [hg]

/-- Settles O10: a power-on is two resets one after the other, and each release is one update. -/
theorem powerOnStartsBothDiesFromReset : Obligations.PowerOnStartsBothDiesFromReset := by
  unfold Obligations.PowerOnStartsBothDiesFromReset
  refine ⟨?power, ?releaseCs, ?releaseDs⟩
  case power =>
    intro s
    refine ⟨_, rfl, rfl, rfl, rfl, rfl, rfl, rfl, rfl, rfl, rfl, rfl, rfl, rfl, rfl, rfl, rfl, rfl, fun p hp => ?_⟩
    fin_cases hp <;> rfl
  case releaseCs =>
    intro inj s hreset hawake hvwk hcore
    have hexec : execPowerOnResetRelease .cs inj s
        = .next (csRelease { s with sup := { s.sup with csOk := 0xFF }, sys := { s.sys with validAt := s.now } }) :=
      congrArg Host.Outcome.next (if_neg (by simp only [hreset, hawake, hvwk, hcore]; decide))
    have hvalid : Touches [.sys, .sup] s { s with sup := { s.sup with csOk := 0xFF }, sys := { s.sys with validAt := s.now } } :=
      .after (by decide) (sys_touches { s with sup := { s.sup with csOk := 0xFF } } { s.sys with validAt := s.now } rfl)
        ((sup_touches s _).mono (by decide))
    have hframe := (Touches.after (by decide) (csRelease_touches _) hvalid).onlyChanges
    cases hpin : s.sys.resetLow with
    | true =>
      rw [csRelease_waits (s := { s with sup := { s.sup with csOk := 0xFF }, sys := { s.sys with validAt := s.now } }) hpin]
        at hexec hframe
      exact ⟨_, hexec, rfl, rfl, hreset, nofun, hframe⟩
    | false =>
      have hall : csSupplies { s with sup := { s.sup with csOk := 0xFF }, sys := { s.sys with validAt := s.now } } = true :=
        show (List.range 8).all (0xFF : BitVec 12).getLsbD = true by decide
      rw [csRelease_runs (s := { s with sup := { s.sup with csOk := 0xFF }, sys := { s.sys with validAt := s.now } })
        hreset hall hpin hawake] at hexec hframe
      exact ⟨_, hexec, rfl, rfl, rfl, fun _ => ⟨rfl, rfl⟩, hframe⟩
  case releaseDs =>
    intro inj s hpor
    refine ⟨_, congrArg Host.Outcome.next (if_neg (by simp [hpor])), rfl, rfl, List.length_mapIdx, fun p hp => ?_,
      fun f hf hlt hmask => ?_, ?_⟩
    · rw [injTest_ds] at hp
      obtain ⟨i, -, rfl⟩ := List.mem_mapIdx.1 hp
      exact injected_done inj i _
    · rw [injTest_ds, nth, List.getD_eq_getElem _ _ (by simpa using hlt), List.getElem_mapIdx]
      exact injected_disabled hf hmask _
    · have hsup := sup_touches s { s.sup with dsOk := 0xF00 }
      have hsys := sys_touches { s with sup := { s.sup with dsOk := 0xF00 } } { s.sys with dsPor := false, dsStartAt := s.now } rfl
      exact (Touches.after (by decide) (injTestDs_touches _ inj) <| .after (by decide) hsys (hsup.mono (by decide))).onlyChanges

/-! ## RESET_N and the boot state (R533, R534) -/

/-- Settles O11: a reset of the CS die through its pin, its release, and the DS die's entry into its boot state. -/
theorem resetPinAndBootStateRestartADie : Obligations.ResetPinAndBootStateRestartADie := by
  unfold Obligations.ResetPinAndBootStateRestartADie
  refine ⟨?low, ?rise, ?boot⟩
  case low =>
    intro s hawake hpin
    exact ⟨_, congrArg Host.Outcome.next (if_neg (by simp [hawake, hpin])), rfl, rfl, rfl, rfl, rfl, rfl, rfl, rfl, rfl, rfl,
      (csResetFull_keeps s 2).andThen (sys_touches _ _ rfl) (by decide)⟩
  case rise =>
    intro s hpin hres hreset hawake hall
    have hsup : (List.range 8).all s.sup.csOk.getLsbD = true :=
      List.all_eq_true.2 fun k hk => hall k (List.mem_range.1 hk)
    have hvalid : (if s.sys.csReset && s.sys.resetLow then s.now else s.sys.validAt) = s.now := by simp [hreset, hpin]
    have hexec : execResetNRise s = .next (csRelease { s with sys := { s.sys with
        resetLow := false, resetUnres := false, validAt := s.now } }) := by
      refine congrArg Host.Outcome.next ((if_neg (by simp [hpin, hres])).trans ?_)
      rw [resetHigh, hvalid]
    rw [csRelease_runs (s := { s with sys := { s.sys with resetLow := false, resetUnres := false, validAt := s.now } })
      hreset hsup rfl hawake] at hexec
    exact ⟨_, hexec, rfl, rfl, rfl, rfl, rfl, (sys_touches s { s.sys with
      resetLow := false, resetUnres := false, validAt := s.now, csReset := false, step := 1, stepStart := s.now } rfl).onlyChanges⟩
  case boot =>
    intro s hheld hcore hawake hpor
    refine ⟨dsBootIn s, congrArg Host.Outcome.next (if_pos ?_), rfl, rfl, rfl, rfl, rfl, rfl, (dsBootIn_touches s).onlyChanges⟩
    simpa [hawake, hpor, hcore] using hheld

end Sys2Proof.Machine
end

section
namespace Sys2Proof.Machine

/-! ## Sleep entry (R543) -/

/-- A device about to make the first step of its sleep entry, with the Watch Room in LOCKOUT and its record to be written. -/
def sleepInLockout : State :=
  { State.reset with
    sys := { State.reset.sys with sleepAcc := true, sleepStep := 1 }
    wr := { State.reset.wr with state := 3, par := List.replicate 8 0 ++ [8, 0, 0, 0] } }

/-- The first step writes the lockout record that is still due. -/
theorem sleepInLockout_records : Runs .sleepEntryStep sleepInLockout fun t => t.nv.lockRec = true := ⟨_, rfl, by decide +kernel⟩

/-- Refutes O13: at the first step of sleep entry a lockout record still due is written to the store, which the frame given for
that step leaves out. -/
theorem not_sleepIsEnteredInStepsAndEndsWithWake : ¬ Obligations.SleepIsEnteredInStepsAndEndsWithWake := by
  unfold Obligations.SleepIsEnteredInStepsAndEndsWithWake
  intro h
  obtain ⟨-, -, hfirst, -⟩ := h
  obtain ⟨t, he, -, -, -, -, hframe⟩ := hfirst sleepInLockout rfl rfl
  obtain ⟨u, hu, hrec⟩ := sleepInLockout_records
  obtain rfl : t = u := Host.Outcome.next.inj (he.symm.trans hu)
  have hnv : { t.nv with logNext := 0 } = { sleepInLockout.nv with logNext := 0 } := hframe .nv (by decide)
  exact absurd ((congrArg Nv.lockRec hnv :).symm.trans hrec) (by decide)

/-! ## Start-up step by step (R535 to R537) -/

/-- What was touched touches no event of the host interface that is as before. -/
theorem Touches.without_hostEvt {P : List Part} {s t : State} (h : Touches (.hostEvt :: P) s t) (hevt : t.host.evt = s.host.evt) :
    Touches P s t where
  same p hp := by
    rw [testBit_mask, decide_eq_false_iff_not] at hp
    by_cases k : p = .hostEvt
    · exact k ▸ hevt
    · exact h.agree p (by simp [k, hp])
  time := h.time
  mem := h.mem
  size := h.size

theorem flushOne_touches (s : State) (w : List Word) : Touches trace s (flushOne s w) := by
  refine .trans (logAppend_touches s w) (.ite (fun _ => ?_) fun _ => .refl _ _)
  exact .after (by decide) (countOnce_touches _ _) ((useFree_touches _).mono (by decide))

theorem flushOne_host (s : State) (w : List Word) : (flushOne s w).host = s.host := by
  unfold flushOne
  dsimp only
  split
  · exact (countOnce_host _ _).trans (logAppend_host s w)
  · exact logAppend_host s w

/-- The records of early events written leave the host interface. -/
theorem flush_host (ws : List (List Word)) (s : State) : (ws.foldl flushOne s).host = s.host := by
  induction ws generalizing s with
  | nil => rfl
  | cons w ws ih => exact (ih _).trans (flushOne_host s w)

/-- The Keeper as it starts, before the records of earlier events are written (R79, R509). -/
def keeperUp (s : State) (cnonce : Word) : State :=
  { s with
    sys := { s.sys with keeperUp := true }
    host := { s.host with cnonce := cnonce }
    kp := { s.kp with early := [], loadAt := s.now } }

theorem keeperUp_touches (s : State) (cnonce : Word) : Touches [.sys, .host, .kp, .kpLog] s (keeperUp s cnonce) :=
  .of_update (fun p => by have k := p.agree_refl s; cases p <;> exact k) rfl rfl rfl

theorem keeperStart_eq (s : State) (cnonce : Word) : keeperStart s cnonce = s.kp.early.foldl flushOne (keeperUp s cnonce) := rfl

/-- What the start of the Keeper touches. -/
def keeperStartParts : List Part :=
  [.freeCtr, .sys, .ctrs, .host, .kp, .log, .sysEvt, .evq, .logNext, .inbox, .kpLog]

theorem flushed_touches (s : State) (cnonce : Word) : Touches trace (keeperUp s cnonce) (keeperStart s cnonce) := by
  rw [keeperStart_eq]
  exact .foldl flushOne_touches _ _

theorem keeperStart_touches (s : State) (cnonce : Word) : Touches keeperStartParts s (keeperStart s cnonce) := by
  refine .without_hostEvt (.trans ((keeperUp_touches s cnonce).mono (by decide)) ((flushed_touches s cnonce).mono (by decide))) ?_
  rw [keeperStart_eq, flush_host]
  rfl

theorem toStep_touches (s : State) (k : Nat) : Touches [.sys] s (toStep s k) := sys_touches s _ rfl

theorem haltAt_touches (s : State) (k : Nat) : Touches [.sys, .sysEvt] s (haltAt s k) :=
  .of_update (fun p => by have k := p.agree_refl s; cases p <;> exact k) rfl rfl rfl

/-- The DS die in its boot state at the end of step 1, but in its power-on reset (R534). -/
def bootedDs (s : State) : State := if s.sys.dsPor then s else dsBootIn s

theorem bootedDs_touches (s : State) : Touches dsBootParts s (bootedDs s) := .ite (fun _ => .refl _ s) fun _ => dsBootIn_touches s

theorem bootedDs_now (s : State) : (bootedDs s).now = s.now := (bootedDs_touches s).now (by decide)

/-- The cycle that step 10 sets for T0, 1.0 to 1.1 ms ahead (R173). -/
def t0Set (s : State) (x : StepIn) : Nat := s.now + max 400000 (min 440000 x.t0Lead)

theorem t0Set_bounds (s : State) (x : StepIn) : s.now + 400000 ≤ t0Set s x ∧ t0Set s x ≤ s.now + 440000 := by
  unfold t0Set
  omega

/-- Both dies with the count of T0 (R173). -/
def t0Given (s : State) (x : StepIn) : State :=
  { s with
    t0 := some (t0Set s x)
    lhCs := { s.lhCs with p0time := countAt s .cs (t0Set s x) }
    lhDs := { s.lhDs with p0time := countAt s .cs (t0Set s x) } }

theorem t0Given_touches (s : State) (x : StepIn) : Touches [.t0, .lhCs, .lhDs] s (t0Given s x) :=
  .of_update (fun p => by have k := p.agree_refl s; cases p <;> exact k) rfl rfl rfl

/-- Settles O14: a start-up that is not barred makes its step, and each step is one update of the system unit after what it does. -/
theorem startUpStepsFollowOneAnother : Obligations.StartUpStepsFollowOneAnother := by
  unfold Obligations.StartUpStepsFollowOneAnother
  intro x s hreset hhalt hready hsleep
  have hbar : (s.sys.csReset || s.sys.halt || s.sys.ready || s.sys.sleepAcc) = false := by simp [hreset, hhalt, hready, hsleep]
  refine ⟨fun hk => ?crystal, fun hk hfw => ?keeper, fun hk hfw => ?failed, fun hk => ?training, fun hk hmiss => ?path,
    fun hk hmiss => ?pathLost, fun hk => ?timeZero, fun elapsed hlate => ?late⟩
  case crystal =>
    have hboot := bootedDs_touches s
    have hclk := clk_touches (bootedDs s) { (bootedDs s).clk with xtalOk := true, csLock := true }
    refine ⟨toStep { bootedDs s with clk := { (bootedDs s).clk with xtalOk := true, csLock := true } } 2, ?_, rfl, bootedDs_now s, rfl,
      rfl, (Touches.after (by decide) (toStep_touches _ 2) <| .after (by decide) hclk (hboot.mono (by decide))).onlyChanges⟩
    simp only [exec, execStartUpStepComplete, stepComplete, hbar, hk, Bool.false_eq_true, if_false]
    rfl
  case keeper =>
    have hflush := flushed_touches s x.cmdNonce
    have hsys : { (keeperStart s x.cmdNonce).sys with sysEvt := 0 } = { (keeperUp s x.cmdNonce).sys with sysEvt := 0 } :=
      hflush.agree .sys (by decide)
    have hhost : { (keeperStart s x.cmdNonce).host with evt := 0 } = { (keeperUp s x.cmdNonce).host with evt := 0 } :=
      hflush.agree .host (by decide)
    refine ⟨toStep (keeperStart s x.cmdNonce) 3, ?_, rfl, (congrArg Sys.keeperUp hsys :), (congrArg HostIf.cnonce hhost :),
      (Touches.after (by decide) (toStep_touches _ 3) (keeperStart_touches s x.cmdNonce)).onlyChanges⟩
    simp only [exec, execStartUpStepComplete, stepComplete, hbar, hk, hfw, Bool.false_eq_true, if_false, if_true]
  case failed =>
    have hsys := sys_touches s { s.sys with fwFail := true } rfl
    refine ⟨haltAt { s with sys := { s.sys with fwFail := true } } 2, ?_, rfl, rfl, rfl,
      (Touches.after (by decide) (haltAt_touches _ 2) (hsys.mono (by decide))).onlyChanges⟩
    simp only [exec, execStartUpStepComplete, stepComplete, hbar, hk, hfw, Bool.false_eq_true, if_false]
  case training =>
    refine ⟨if s.x.trained then toStep s 7 else s, ?_, ?_, (Touches.ite_self (toStep_touches s 7)).onlyChanges⟩
    · simp only [exec, execStartUpStepComplete, stepComplete, hbar, hk, Bool.false_eq_true, if_false]
    · split
      · rfl
      · exact hk
  case path =>
    refine ⟨toStep { s with sys := { s.sys with protPath := true } } 10, ?_, rfl, rfl,
      (sys_touches s { s.sys with protPath := true, step := 10, stepStart := s.now } rfl).onlyChanges⟩
    simp only [exec, execStartUpStepComplete, stepComplete, hbar, hk, step9, hmiss, Bool.false_eq_true, if_false]
  case pathLost =>
    obtain ⟨b, hb⟩ := Option.isSome_iff_exists.1 hmiss
    have hev := countEvent_touches s (direct .ds 0 0 0 0 0x15 (b.setWidth 32))
    refine ⟨haltAt (countEvent s (direct .ds 0 0 0 0 0x15 (b.setWidth 32))) 9, ?_, rfl, rfl,
      (Touches.after (by decide) (haltAt_touches _ 9) (hev.mono (by decide))).onlyChanges⟩
    simp only [exec, execStartUpStepComplete, stepComplete, hbar, hk, step9, hb, Bool.false_eq_true, if_false]
  case timeZero =>
    obtain ⟨hlo, hhi⟩ := t0Set_bounds s x
    refine ⟨toStep (t0Given s x) 11, ?_, rfl, ⟨t0Set s x, rfl, hlo, hhi, rfl, rfl⟩,
      (Touches.after (by decide) (toStep_touches _ 11) ((t0Given_touches s x).mono (by decide))).onlyChanges⟩
    simp only [exec, execStartUpStepComplete, stepComplete, hbar, hk, Bool.false_eq_true, if_false]
    rfl
  case late =>
    have htime := advanceTo_touches s (s.sys.stepStart + elapsed.toNat * usec)
    have hev := countEvent_touches (s.advanceTo (s.sys.stepStart + elapsed.toNat * usec)) (direct .cs 0 s.sys.step 0 0 0x14 elapsed)
    refine ⟨haltAt (countEvent (s.advanceTo (s.sys.stepStart + elapsed.toNat * usec)) (direct .cs 0 s.sys.step 0 0 0x14 elapsed))
      s.sys.step, congrArg Host.Outcome.next (if_neg (by simp [hreset, hhalt, hready]; omega)), rfl, rfl, hev.now (by decide),
      (Touches.after (by decide) (haltAt_touches _ _) <| .after (by decide) hev (htime.mono (by decide))).onlyChanges⟩

end Sys2Proof.Machine
end

section
namespace Sys2Proof.Machine

/-! ## What every operation keeps

An operation is sound where it leaves the queue, does not run time back and keeps the invariant. It is a weaker statement than
`Touches`, which names the parts an operation may change, and needs no such list to be carried along. -/

/-- From s to t the queue is as it was, time has not run back, and the invariant is kept. -/
structure Sound (s t : State) : Prop where
  queue : t.pending = s.pending
  time : s.now ≤ t.now
  inv : Inv s → Inv t

theorem Touches.sound {P : List Part} {s t : State} (h : Touches P s t) (hP : P.contains .pending = false) : Sound s t :=
  ⟨h.agree .pending (by simpa using hP), h.time, h.inv⟩

theorem Turns.sound {α : Type} {kind : State → List α} {P : List Part} {n : Nat} {f : α → α} {s t : State} (h : Turns kind P n f s t)
    (hP : P.contains .pending = false) : Sound s t := h.touches.sound hP

namespace Sound

variable {s t u : State} {α : Type}

theorem refl (s : State) : Sound s s := ⟨rfl, Nat.le_refl _, id⟩

theorem trans (h : Sound s t) (k : Sound t u) : Sound s u :=
  ⟨k.queue.trans h.queue, Nat.le_trans h.time k.time, k.inv ∘ h.inv⟩

/-- The same with the last operation first. -/
theorem after (k : Sound t u) (h : Sound s t) : Sound s u := h.trans k

/-- A record update that writes neither queue nor time nor memory and keeps the numbers of units. -/
theorem of_eq (hq : t.pending = s.pending) (hn : t.now = s.now) (hm : t.mem = s.mem) (hs : shape t = shape s) : Sound s t :=
  ⟨hq, Nat.le_of_eq hn.symm, fun h => ⟨hm ▸ h.1, hs.trans h.2⟩⟩

theorem ite {c : Prop} [Decidable c] (h : Sound s t) (k : Sound s u) : Sound s (if c then t else u) := by
  split
  · exact h
  · exact k

theorem ite_fst {c : Prop} [Decidable c] {x y : State × α} (h : Sound s x.1) (k : Sound s y.1) : Sound s (if c then x else y).1 := by
  split
  · exact h
  · exact k

theorem foldl {f : State → α → State} (hf : ∀ t x, Sound t (f t x)) (l : List α) (s : State) : Sound s (l.foldl f s) := by
  induction l generalizing s with
  | nil => exact .refl s
  | cons x l ih => exact (hf s x).trans (ih _)

/-- A fold that carries a value beside the state. -/
theorem foldl_fst {β : Type} {f : State × β → α → State × β} (hf : ∀ r x, Sound r.1 (f r x).1) (l : List α) (r : State × β) :
    Sound r.1 (l.foldl f r).1 := by
  induction l generalizing r with
  | nil => exact .refl _
  | cons x l ih => exact (hf r x).trans (ih _)

/-- What follows on a state and a value, said of the state alone. -/
theorem andThen {p : State × α} {f : State → α → State} (h : Sound s p.1) (k : ∀ t a, Sound t (f t a)) :
    Sound s (match p with | (t, a) => f t a) := h.trans (k p.1 p.2)

/-- An operation of the DS die alone. -/
theorem onDs (d : Die) (h : Sound s t) : Sound s (match d with | .ds => t | .cs => s) := by
  cases d with
  | cs => exact .refl s
  | ds => exact h

end Sound

/-- An outcome that is a next state, soundly reached. -/
def Safe (s : State) (o : Host.Outcome State Fault Refusal) : Prop := ∃ t, o = .next t ∧ Sound s t

theorem Safe.next {s t : State} (h : Sound s t) : Safe s (.next t) := ⟨t, rfl, h⟩

/-! ## State operations and the gates of the Keeper -/

theorem setPairs_sound (s : State) (d : Die) (v : List Pair) (h : v.length = (s.pairs d).length) : Sound s (s.setPairs d v) := by
  cases d with
  | cs => exact .of_eq rfl rfl rfl (by simp [shape, State.setPairs, h, State.pairs])
  | ds => exact .of_eq rfl rfl rfl (by simp [shape, State.setPairs, h, State.pairs])

theorem modFb_sound (s : State) (n : Nat) (f : Fb → Fb) : Sound s (s.modFb n f) :=
  .of_eq rfl rfl rfl (by simp [shape, State.modFb, upd])

theorem advanceTo_sound (s : State) (n : Nat) : Sound s (s.advanceTo n) := (advanceTo_touches s n).sound rfl

theorem useFree_sound (s : State) : Sound s s.useFree := (useFree_touches s).sound rfl

theorem answer_sound (s : State) (status ucode : Nat) (data : List Word) : Sound s (s.answer status ucode data) :=
  .of_eq rfl rfl rfl rfl

theorem ok_sound (s : State) (data : List Word) : Sound s (s.ok data) := answer_sound s 0 0 data

theorem refuse_sound (s : State) (ucode : Nat) : Sound s (s.refuse ucode) := (refuse_touches s ucode).sound rfl

theorem countEvent_sound (s : State) (e : Ev) : Sound s (countEvent s e) := (countEvent_touches s e).sound rfl

/-- A gated access is sound where the access is. -/
theorem regGate_sound (s : State) (d : Die) {f : State → State} (h : Sound s (f s)) : Sound s (regGate s d f) :=
  .ite (.refl s) (.ite (answer_sound ..) (.ite (answer_sound ..) h))

theorem writeGate_sound (s : State) (d : Die) {f : State → State} (h : Sound s (f s)) : Sound s (writeGate s d f) := by
  refine .ite (.refl s) ?_
  split
  · exact .ite (refuse_sound ..) (answer_sound ..)
  · exact regGate_sound s d h

/-! ## Updates of one unit -/

theorem modBeam_sound (s : State) (d : Die) (n : Nat) (f : Beam → Beam) : Sound s (s.modBeam d n f) := (modBeam_touches s d n f).sound rfl

theorem setLh_sound (s : State) (d : Die) (v : Lh) (h : v.lanes.length = (s.lh d).lanes.length) : Sound s (s.setLh d v) :=
  (setLh_touches s d v h).sound rfl

theorem modLane_sound (s : State) (d : Die) (n : Nat) (f : Lane → Lane) : Sound s (s.modLane d n f) := (modLane_touches s d n f).sound rfl

theorem modEng_sound (s : State) (d : Die) (n : Nat) (f : Eng → Eng) : Sound s (s.modEng d n f) := (modEng_touches s d n f).sound rfl

theorem modPair_sound (s : State) (d : Die) (n : Nat) (f : Pair → Pair) : Sound s (s.modPair d n f) := (modPair_touches s d n f).sound rfl

theorem modChan_sound (s : State) (d : Die) (n : Nat) (f : Chan → Chan) : Sound s (s.modChan d n f) := (modChan_touches s d n f).sound rfl

theorem modGrp_sound (s : State) (d : Die) (n : Nat) (f : Grp → Grp) : Sound s (s.modGrp d n f) := (modGrp_touches s d n f).sound rfl

theorem modMach_sound (s : State) (n : Nat) (f : Mach → Mach) : Sound s (s.modMach n f) := (modMach_touches s n f).sound rfl

theorem modCandle_sound (s : State) (n : Nat) (f : Candle → Candle) : Sound s (s.modCandle n f) := (modCandle_touches s n f).sound rfl

theorem modLeg_sound (s : State) (n : Nat) (f : Leg → Leg) : Sound s (s.modLeg n f) := (modLeg_touches s n f).sound rfl

theorem modConv_sound (s : State) (n : Nat) (f : Conv → Conv) : Sound s (s.modConv n f) := (modConv_touches s n f).sound rfl

theorem modPort_sound (s : State) (n : Nat) (f : Port_ → Port_) : Sound s (s.modPort n f) := (modPort_touches s n f).sound rfl

theorem modAc_sound (s : State) (f : Ac → Ac) : Sound s (s.modAc f) := (modAc_touches s f).sound rfl

theorem modAct_sound (s : State) (n : Nat) (f : Act → Act) : Sound s (s.modAct n f) := (modAct_touches s n f).sound rfl

theorem modGd_sound (s : State) (n : Nat) (f : Gd → Gd) : Sound s (s.modGd n f) := (modGd_touches s n f).sound rfl

theorem modTemp_sound (s : State) (n : Nat) (f : Temp → Temp) : Sound s (s.modTemp n f) := (modTemp_touches s n f).sound rfl

theorem modCan_sound (s : State) (n : Nat) (f : Can → Can) : Sound s (s.modCan n f) := (modCan_touches s n f).sound rfl

theorem modTx_sound (s : State) (n b : Nat) (f : TxBuf → TxBuf) : Sound s (s.modTx n b f) := modCan_sound s n _

theorem modCk_sound (s : State) (d : Die) (n : Nat) (f : Ck → Ck) : Sound s (s.modCk d n f) := (modCk_touches s d n f).sound rfl

theorem modLink_sound (s : State) (d : Die) (f : Link → Link) : Sound s (s.modLink d f) := (modLink_touches s d f).sound rfl

theorem modWr_sound (s : State) (f : Wr → Wr) : Sound s (s.modWr f) := .of_eq rfl rfl rfl rfl

theorem lamp_sound (s : State) (v : Lamp) : Sound s { s with lamp := v } := (lamp_touches s v).sound rfl

theorem nv_sound (s : State) (v : Nv) : Sound s { s with nv := v } := .of_eq rfl rfl rfl rfl

theorem sys_sound (s : State) (v : Sys) : Sound s { s with sys := v } := .of_eq rfl rfl rfl rfl

theorem im_sound (s : State) (v : ImgMgr) : Sound s { s with im := v } := (im_touches s v).sound rfl

theorem host_sound (s : State) (v : HostIf) : Sound s { s with host := v } := .of_eq rfl rfl rfl rfl

theorem kp_sound (s : State) (v : Keeper) : Sound s { s with kp := v } := .of_eq rfl rfl rfl rfl

theorem net_sound (s : State) (v : Net) : Sound s { s with net := v } := (net_touches s v).sound rfl

theorem clk_sound (s : State) (v : Clocks) : Sound s { s with clk := v } := (clk_touches s v).sound rfl

theorem sup_sound (s : State) (v : Supply) : Sound s { s with sup := v } := (sup_touches s v).sound rfl

/-- How many comparators and machines the protection unit has. -/
def protSizes (v : Prot) : List Nat := [v.trip.length, v.hard.length, v.gc.length, v.msafe.length]

/-- An update of the protection unit that keeps the number of comparators and machines. -/
theorem prot_sound (s : State) (v : Prot) (h : protSizes v = protSizes s.prot) : Sound s { s with prot := v } := by
  simp only [protSizes, List.cons.injEq] at h
  obtain ⟨ht, hh, hg, hm, -⟩ := h
  exact (prot_touches s v ht hh hg hm).sound rfl

end Sys2Proof.Machine
end

section
namespace Sys2Proof.Machine

/-! ## Buoys -/

theorem modBuoy_sound (s : State) (n : Nat) (f : Buoy → Buoy) : Sound s (s.modBuoy n f) := (modBuoy_touches s n f).sound rfl

theorem offer_sound (s : State) (n : Nat) (m e : Int) : Sound s (offer s n m e) := (offer_touches s n m e).sound rfl

theorem offerAll_sound (s : State) (src inst : Nat) (m : Int) : Sound s (offerAll s src inst m) := (offerAll_touches s src inst m).sound rfl

theorem byTouch_sound (s : State) (n : Nat) : Sound s (byTouch s n) := .ite (.refl s) (modBuoy_sound s n _)

theorem release_sound (s : State) (c : Ctr) : Sound s (release s c) := (release_touches s c).sound rfl

theorem ctrs_sound (s : State) (v : List Ctr) : Sound s { s with ctrs := v } := (ctrs_touches s v).sound rfl

theorem byRoll_sound (s : State) (n : Nat) : Sound s (byRoll s n) := by
  unfold byRoll
  split
  · exact .refl s
  · exact (ctrs_sound s _).trans (.ite ((release_sound _ _).trans (modBuoy_sound _ n _)) (.refl _))

theorem byEvent_sound (s : State) (n viol : Nat) (detail : Word) : Sound s (byEvent s n viol detail) :=
  (modBuoy_sound s n _).trans ((countEvent_sound _ _).trans (.ite (modBuoy_sound _ n _) (.refl _)))

theorem byFollow_sound (s : State) : Sound s (byFollow s) := (byFollow_touches s).sound rfl

theorem relBuoy_sound (s : State) (k : CtrKey) : Sound s (relBuoy s k) := .ite (modBuoy_sound s _ _) (.refl s)

theorem execBuoyUpdate_safe (b : Fin 512) (path : SrcPath) (m : Word) (e : Byte) (s : State) : Safe s (execBuoyUpdate b path m e s) :=
  .next (.ite (offer_sound ..) (.refl s))

theorem execBuoyTimeout_safe (b : Fin 512) (s : State) : Safe s (execBuoyTimeout b s) :=
  .next (.ite ((advanceTo_sound s _).trans <| (byRoll_sound _ _).trans <| (byTouch_sound _ _).trans <| (modBuoy_sound _ _ _).trans <|
    (byEvent_sound _ _ _ _).trans (byFollow_sound _)) (.refl s))

theorem execByWexpWrite_safe (b : Fin 512) (e : Byte) (s : State) : Safe s (execByWexpWrite b e s) :=
  .next (writeGate_sound s .cs (.ite ((offer_sound ..).trans (ok_sound _ _)) (refuse_sound s _)))

theorem execMirrorStale_safe (b : Fin 256) (s : State) : Safe s (execMirrorStale b s) :=
  .next (.ite ((advanceTo_sound s _).trans <| (modBuoy_sound _ _ _).trans (byFollow_sound _)) (.refl s))

theorem execWindowBinRollover_safe (k : CtrKey) (s : State) : Safe s (execWindowBinRollover k s) := by
  refine .next ?_
  split
  · exact .refl s
  · exact (advanceTo_sound s _).trans <| (ctrs_sound _ _).trans <|
      .ite ((release_sound _ _).trans <| (relBuoy_sound _ _).trans (byFollow_sound _)) (.refl _)

/-! ## Feedback -/

theorem staleCheck_sound (s : State) : Sound s (staleCheck s) := (staleCheck_touches s).sound rfl

theorem fbEvent_sound (s : State) (c cause elem : Nat) (detail : Word) : Sound s (fbEvent s c cause elem detail) :=
  (modFb_sound s c _).trans (countEvent_sound _ _)

theorem speedEdge_sound (s : State) (c te : Nat) (n : Int) : Sound s (speedEdge s c te n) :=
  (modFb_sound s c _).trans (modFb_sound _ c _)

theorem fbSetAngle_sound (s : State) (c : Nat) : Sound s (fbSetAngle s c) := modFb_sound s c _

theorem posCount_sound (s : State) (c : Nat) : Sound s (posCount s c) := (posCount_touches s c).sound rfl

theorem fbOffer_sound (s : State) (c : Nat) (items : List Nat) : Sound s (fbOffer s c items) :=
  .foldl (fun t _ => offerAll_sound t 1 _ _) items s

theorem indexCheck_sound (s : State) (c : Nat) : Sound s (indexCheck s c) :=
  (modFb_sound s c _).trans (.ite (modFb_sound _ c _) (fbEvent_sound ..))

theorem encEdge_sound (s : State) (c new : Nat) (n : Int) (z : Bool) : Sound s (encEdge s c new n z) :=
  Sound.trans (.ite (modFb_sound s c _) (.ite (modFb_sound s c _) ((modFb_sound s c _).trans (.ite (indexCheck_sound _ c) (.refl _))))) <|
    (speedEdge_sound _ c _ n).trans (fbSetAngle_sound _ c)

theorem toothLost_sound (s : State) (c index : Nat) : Sound s (toothLost s c index) :=
  (modFb_sound s c _).trans (fbEvent_sound ..)

theorem toothCount_sound (s : State) (c te k idx : Nat) (x : ToothCase) (fwd : Bool) : Sound s (toothCount s c te k idx x fwd) :=
  (modFb_sound s c _).trans <| (speedEdge_sound _ c te _).trans (fbSetAngle_sound _ c)

theorem hallStep_sound (s : State) (c sec : Nat) : Sound s (hallStep s c sec) :=
  .ite (modFb_sound s c _) <| .ite (.refl s) <| .ite
    ((modFb_sound s c _).trans <| (speedEdge_sound ..).trans <| (fbSetAngle_sound _ c).trans (posCount_sound _ c))
    ((modFb_sound s c _).trans (fbEvent_sound ..))

theorem hallTake_sound (s : State) (c code : Nat) : Sound s (hallTake s c code) :=
  (modFb_sound s c _).trans <| .ite (.refl _) <| Sound.trans
    (.ite (.ite (.refl _) ((modFb_sound _ c _).trans (fbEvent_sound ..))) ((modFb_sound _ c _).trans (hallStep_sound ..))) <|
    (modFb_sound _ c _).trans <| ((actHallStep_touches _ c).sound rfl).trans (staleCheck_sound _)

theorem tickSpeed_sound (s : State) (c : Nat) : Sound s (tickSpeed s c) :=
  .ite (.refl s) <| .ite (modFb_sound s c _) <| .ite (modFb_sound s c _) (.refl s)

/-- An event that is counted once. -/
theorem fbCountedOnce_sound (s : State) (c cause : Nat) (detail : Word) (f : Fb → Fb) (b : Bool) :
    Sound s (if b then (fbEvent s c cause 0 detail).modFb c f else s) :=
  .ite ((fbEvent_sound ..).trans (modFb_sound _ c f)) (.refl s)

theorem resolverEvents_sound (s : State) (c : Nat) (excAmp : BitVec 16) : Sound s (resolverEvents s c excAmp) :=
  .ite (.refl s) <| (fbCountedOnce_sound s c 1 _ _ _).trans <| (fbCountedOnce_sound _ c 2 _ _ _).trans (fbCountedOnce_sound _ c 3 _ _ _)

theorem fbControl_sound (s : State) (c : Nat) (v : Word) : Sound s (fbControl s c v) :=
  Sound.trans (.ite ((modFb_sound s c _).trans <| (fbSetAngle_sound ..).trans (staleCheck_sound _)) (.refl s)) <|
    .ite ((modFb_sound _ c _).trans (staleCheck_sound _)) (.refl _)

theorem execEncoderEdge_safe (ch : Fin 4) (a b z : Bool) (s : State) : Safe s (execEncoderEdge ch a b z s) :=
  .next <| (modFb_sound s _ _).trans <| .ite (.refl _) <| .ite
    ((modFb_sound _ _ _).trans <| (fbEvent_sound ..).trans (staleCheck_sound _))
    ((encEdge_sound ..).trans <| (posCount_sound ..).trans (staleCheck_sound _))

theorem execWireLevelChange_safe (ch : Fin 4) (line : Fin 3) (same level : Bool) (s : State) :
    Safe s (execWireLevelChange ch line same level s) :=
  .next <| .ite (modFb_sound s _ _) <| (modFb_sound s _ _).trans <| .ite ((modFb_sound _ _ _).trans (staleCheck_sound _)) (.refl _)

theorem execWiredis_safe (ch : Fin 4) (line : Fin 3) (s : State) : Safe s (execWiredis ch line s) :=
  .next <| .ite ((advanceTo_sound s _).trans <| (modFb_sound _ _ _).trans <| (fbEvent_sound ..).trans (staleCheck_sound _)) (.refl s)

theorem execArm_safe (ch : Fin 12) (s : State) : Safe s (execArm ch s) :=
  .next <| writeGate_sound s .cs <| .ite
    ((modFb_sound s _ _).trans <| (fbSetAngle_sound ..).trans <| (staleCheck_sound _).trans (ok_sound _ _)) (ok_sound s _)

theorem execResync_safe (ch : Fin 12) (s : State) : Safe s (execResync ch s) :=
  .next <| writeGate_sound s .cs <| .ite ((modFb_sound s _ _).trans <| (staleCheck_sound _).trans (ok_sound _ _)) (ok_sound s _)

theorem execUnres_safe (ch : Fin 12) (s : State) : Safe s (execUnres ch s) :=
  .next <| .ite ((advanceTo_sound s _).trans <| (modFb_sound _ _ _).trans <|
    .foldl (fun t l => .ite (fbEvent_sound t _ _ l _) (.refl t)) _ _) (.refl s)

theorem execToothEdge_safe (ch : Fin 2) (dirLevel : Bool) (s : State) : Safe s (execToothEdge ch dirLevel s) := by
  have hcounted (t : State) (te k idx : Nat) (x : ToothCase) (fwd : Bool) :
      Sound t (staleCheck (posCount (toothCount t (6 + ch.val) te k idx x fwd) (6 + ch.val))) :=
    (toothCount_sound ..).trans <| (posCount_sound ..).trans (staleCheck_sound _)
  exact .next <| .ite (.refl s) <| .ite
    ((modFb_sound s _ _).trans <| .ite ((toothLost_sound ..).trans (staleCheck_sound _)) <| .ite (.refl _)
      ((modFb_sound _ _ _).trans <| (fbSetAngle_sound ..).trans (staleCheck_sound _))) <| .ite
    (Sound.trans (.ite (toothLost_sound ..) (modFb_sound s _ _)) (hcounted ..))
    (Sound.trans (.ite (toothLost_sound ..) (.refl s)) (hcounted ..))

theorem execHallCodeChange_safe (g : Fin 2) (code : Fin 8) (s : State) : Safe s (execHallCodeChange g code s) :=
  .next (hallTake_sound ..)

theorem execStandstill_safe (ch : Fin 12) (s : State) : Safe s (execStandstill ch s) :=
  .next <| .ite ((advanceTo_sound s _).trans <| (modFb_sound _ _ _).trans (staleCheck_sound _)) (.refl s)

theorem fbTick_sound (s : State) (v : Nat) : Sound s { s with fbTick := v } := .of_eq rfl rfl rfl rfl

theorem execFeedbackTick_safe (s : State) : Safe s (execFeedbackTick s) :=
  .next <| .ite ((advanceTo_sound s _).trans <| (fbTick_sound _ _).trans <| .foldl (fun t c =>
    .ite ((tickSpeed_sound t c).trans (.ite (.refl _) (fbOffer_sound ..))) (.refl t)) _ _) (.refl s)

theorem execResolverUpdate_safe (ch : Fin 2) (sinD cosD excAmp : BitVec 16) (excSeen : Bool) (s : State) :
    Safe s (execResolverUpdate ch sinD cosD excAmp excSeen s) :=
  .next <| .ite ((advanceTo_sound s _).trans <| Sound.trans (.ite (useFree_sound _) (.refl _)) <| (modFb_sound _ _ _).trans <|
    (modFb_sound _ _ _).trans <| (resolverEvents_sound ..).trans (staleCheck_sound _)) (.refl s)

theorem execSsiRequest_safe (ch : Fin 2) (dataHigh : Bool) (s : State) : Safe s (execSsiRequest ch dataHigh s) :=
  .next <| .ite ((advanceTo_sound s _).trans <| (modFb_sound _ _ _).trans <| .ite (.refl _) <| .ite (fbEvent_sound ..) (modFb_sound _ _ _))
    (.refl s)

theorem execSsiFrameComplete_safe (ch : Fin 2) (bits : List Bool) (s : State) : Safe s (execSsiFrameComplete ch bits s) :=
  .next <| .ite ((advanceTo_sound s _).trans <| .ite
    ((modFb_sound _ _ _).trans <| (fbOffer_sound ..).trans (staleCheck_sound _))
    ((modFb_sound _ _ _).trans <| (fbEvent_sound ..).trans <| (fbOffer_sound ..).trans (staleCheck_sound _))) (.refl s)

end Sys2Proof.Machine
end

section
namespace Sys2Proof.Machine

/-! ## Beams -/

theorem leaveStale_sound (s : State) (b : Nat) : Sound s (leaveStale s b) := (leaveStale_touches s b).sound rfl

theorem updAnchor_sound (s : State) (d : Die) (b : Nat) (a : Anchor) : Sound s (updAnchor s d b a) := (updAnchor_touches s d b a).sound rfl

theorem stalePolicy_sound (s : State) (d : Die) (b : Nat) : Sound s (stalePolicy s d b) := (stalePolicy_touches s d b).sound rfl

theorem directUpdate_sound (s : State) (b : Nat) : Sound s (directUpdate s b) := (directUpdate_touches s b).sound rfl

theorem setAnchor_sound (s : State) (d : Die) (b : Nat) (a : Anchor) : Sound s (setAnchor s d b a) := (setAnchor_touches s d b a).sound rfl

theorem bmEvent_sound (s : State) (d : Die) (b cause : Nat) (detail : Word) : Sound s (bmEvent s d b cause detail) :=
  (bmEvent_touches s d b cause detail).sound rfl

theorem sourceUpdate_sound (s : State) (b : Nat) (phase speed t0 : Word) (lim : Option Nat) :
    Sound s (sourceUpdate s b phase speed t0 lim) :=
  (modBeam_sound s _ b _).trans <| (leaveStale_sound _ b).trans <| ((jumpCheck_touches _ b _ _).sound rfl).trans <|
    (modBeam_sound _ _ b _).trans <| (updAnchor_sound _ _ b _).trans (.ite (stalePolicy_sound _ _ b) (.refl _))

theorem speedOnly_sound (s : State) (b : Nat) (speed : Word) : Sound s (speedOnly s b speed) :=
  (modBeam_sound s _ b _).trans <| (leaveStale_sound _ b).trans <| (modBeam_sound _ _ b _).trans <|
    (updAnchor_sound _ _ b _).trans (.ite (stalePolicy_sound _ _ b) (.refl _))

theorem fbSourceUpdate_sound (s : State) (b : Nat) : Sound s (fbSourceUpdate s b) :=
  .ite (.ite (speedOnly_sound s b _) (.refl s)) ((sourceUpdate_sound s b _ _ _ _).trans (modBeam_sound _ _ b _))

theorem reanchorOn_sound (s : State) (d : Die) (b : Nat) : Sound s (reanchorOn s d b) := by
  unfold reanchorOn
  split
  · exact .refl s
  · exact .ite (.ite (directUpdate_sound s b) (.refl s)) (.ite (setAnchor_sound s d b _) (.refl s))

theorem bmLatch_sound (s : State) (d : Die) (b : Nat) : Sound s (bmLatch s d b) := modBeam_sound s d b _

theorem acWatch_sound (s : State) (lost : Bool) : Sound s (acWatch s lost) := (acWatch_touches s lost).sound rfl

theorem execBeamSourceUpdate_safe (beam : Fin 8) (s : State) : Safe s (execBeamSourceUpdate beam s) := by
  refine .next (.ite (.refl s) (Sound.trans ?_ (staleCheck_sound _)))
  split
  · exact fbSourceUpdate_sound ..
  · exact sourceUpdate_sound ..
  · exact directUpdate_sound ..

theorem execBeamReanchor_safe (beam : Fin 8) (s : State) : Safe s (execBeamReanchor beam s) := by
  refine .next (.ite (.refl s) ?_)
  split
  · exact .refl s
  · exact (advanceTo_sound s _).trans <| (reanchorOn_sound ..).trans (reanchorOn_sound ..)

theorem execBeamStaleTimeout_safe (beam : Fin 8) (s : State) : Safe s (execBeamStaleTimeout beam s) :=
  .next <| .ite ((advanceTo_sound s _).trans (staleCheck_sound _)) (.refl s)

theorem execMainsPllUpdate_safe (s : State) : Safe s (execMainsPllUpdate s) := by
  refine .next ?_
  split
  · exact .refl s
  · exact .ite (.refl s) <| (advanceTo_sound s _).trans <| ((mains_touches _ _).sound rfl).trans <|
      Sound.trans (.ite (bmEvent_sound ..) (.refl _)) <| (staleCheck_sound _).trans (acWatch_sound _ _)

theorem execBmphaseRead_safe (die : Die) (beam : Fin 8) (s : State) : Safe s (execBmphaseRead die beam s) :=
  .next <| regGate_sound s die ((bmLatch_sound ..).trans (ok_sound _ _))

/-! ## Engines -/

theorem engEvent_sound (s : State) (d : Die) (e cause : Nat) (detail : Word) : Sound s (engEvent s d e cause detail) :=
  (modEng_sound s d e _).trans (countEvent_sound _ _)

theorem pairFixed_sound (s : State) (d : Die) (p cause : Nat) (detail : Word) : Sound s (pairFixed s d p cause detail) :=
  (modPair_sound s d p _).trans (countEvent_sound _ _)

theorem dsSingle_sound (s : State) (e : Ev) : Sound s (dsSingle s e) := (dsSingle_touches s e).sound rfl

theorem misEvent_sound (s : State) (d : Die) (p : Nat) (detail : Word) : Sound s (misEvent s d p detail) :=
  (modPair_sound s d p _).trans <| (countEvent_sound _ _).trans (.onDs d (dsSingle_sound _ _))

theorem mismatch_sound (s : State) (d : Die) (p point word : Nat) (unusable : Bool) : Sound s (mismatch s d p point word unusable) :=
  (modPair_sound s d p _).trans <| (misEvent_sound ..).trans <|
    .ite ((modEng_sound ..).trans <| (modEng_sound ..).trans (pairFixed_sound ..)) (.refl _)

theorem takeStaged_sound (s : State) (d : Die) (e : Nat) : Sound s (takeStaged s d e) := (takeStaged_touches s d e).sound rfl

theorem stagedDue_sound (s : State) (d : Die) (p : Nat) : Sound s (stagedDue s d p) :=
  .foldl (fun t e => .ite (takeStaged_sound t d e) (.refl t)) _ s

theorem stagedBoundary_sound (s : State) (d : Die) (l : Nat) : Sound s (stagedBoundary s d l) := (stagedBoundary_touches s d l).sound rfl

theorem restorePair_sound (s : State) (d : Die) (p : Nat) (usable : Bool) : Sound s (restorePair s d p usable) :=
  (modEng_sound ..).trans (modEng_sound ..)

theorem copyTwin_sound (s : State) (d : Die) (p : Nat) : Sound s (copyTwin s d p) := modEng_sound ..

theorem mergeEnd_sound (s : State) (d : Die) (p : Nat) (upset : Option Upset) : Sound s (mergeEnd s d p upset) := by
  refine (copyTwin_sound s d p).trans <| .ite (modPair_sound ..) <| .after (pairFixed_sound ..) <| .after (modPair_sound ..) ?_
  split
  · exact misEvent_sound ..
  · exact .refl _

/-- A pair whose checkpoint is read back (R222). -/
theorem restored_sound (s : State) (d : Die) (p : Nat) (f : Pair → Pair) (usable : Bool) :
    Sound s (restorePair (stagedDue (s.modPair d p f) d p) d p usable) :=
  (modPair_sound ..).trans <| (stagedDue_sound ..).trans (restorePair_sound ..)

theorem execRestoreComplete_safe (die : Die) (pair : Fin 8) (upset : Option Upset) (s : State) :
    Safe s (execRestoreComplete die pair upset s) := by
  refine .next <| .ite (.refl s) <| .after (setLh_sound _ die _ (by simp)) ?_
  split
  · exact .after (.ite (mismatch_sound ..) (.refl _)) <| (advanceTo_sound s _).trans (restored_sound ..)
  · exact (advanceTo_sound s _).trans (restored_sound ..)

/-! ## Lanes -/

theorem lanesDue_sound (s : State) (d : Die) : Sound s (lanesDue s d) :=
  .foldl (fun t l => .ite ((stagedBoundary_sound t d l).trans (modLane_sound ..)) (.refl t)) _ s

theorem laneEvent_sound (s : State) (d : Die) (l cause : Nat) (detail : Word) : Sound s (laneEvent s d l cause detail) :=
  (modLane_sound ..).trans (countEvent_sound _ _)

theorem overrun_sound (s : State) (d : Die) (l : Nat) (detail : Word) : Sound s (overrun s d l detail) :=
  (modLane_sound s d l _).trans <| (laneEvent_sound ..).trans (.onDs d (dsSingle_sound _ _))

theorem leaveWindow_sound (s : State) (d : Die) (x : InFl) : Sound s (leaveWindow s d x) :=
  (setLh_sound s d _ (by rfl)).trans <| (modLane_sound ..).trans (setLh_sound _ d _ (by rfl))

theorem takeUnit_sound (s v : State) (d : Die) (e : Entry) : Sound s (takeUnit s v d e) := (takeUnit_takes s v d e).1.sound rfl

theorem acceptNow_sound (s : State) (d : Die) (x : InFl) (codes : List (BitVec 16)) : Sound s (acceptNow s d x codes) :=
  (takeUnit_sound ..).trans (setLh_sound _ d _ (by rfl))

theorem enterWindow_sound (s : State) (d : Die) (l : Nat) (x : InFl) (codes : List (BitVec 16)) :
    Sound s (enterWindow s d l x codes) :=
  Sound.trans ((setLh_sound s d _ (by rfl)).trans (modLane_sound ..)) <| .ite (.refl _) <| .ite (acceptNow_sound ..) (.refl _)

theorem issueAt_sound (s : State) (d : Die) (l t : Nat) (codes : List (BitVec 16)) : Sound s (issueAt s d l t codes) :=
  .after (.ite (laneEvent_sound ..) <| .ite (laneEvent_sound ..) <| .ite (.refl _) (enterWindow_sound ..)) <|
    .after (setLh_sound _ d _ (by rfl)) <| .after (modLane_sound ..) <| .after (lanesDue_sound _ d) <|
    .after (.ite (.refl _) (.ite (modLane_sound ..) (overrun_sound ..))) (advanceTo_sound s _)

theorem issueEntry_sound (d : Die) (l op fn : Nat) (codes : List (BitVec 16)) (s : State) :
    Sound s (issueEntry d l op fn codes s) := by
  refine .ite (.refl s) ?_
  split
  · exact .refl s
  · exact issueAt_sound ..

theorem execEntryAccept_safe (die : Die) (codes : List (BitVec 16)) (s : State) : Safe s (execEntryAccept die codes s) := by
  refine .next ?_
  split
  · exact .refl s
  · exact (advanceTo_sound s _).trans <| (lanesDue_sound ..).trans (acceptNow_sound ..)

theorem lhRequest_sound (s : State) (d : Die) (l p : Nat) : Sound s (lhRequest s d l p) :=
  .ite (answer_sound ..) <| .ite ((modLane_sound ..).trans (ok_sound ..)) ((modLane_sound ..).trans (refuse_sound ..))

theorem lhCancel_sound (s : State) (d : Die) (l : Nat) : Sound s (lhCancel s d l) := by
  refine .ite (answer_sound ..) ?_
  dsimp only
  split
  · exact .ite (.ite ((modLane_sound ..).trans (ok_sound ..)) ((modLane_sound ..).trans (ok_sound ..))) (ok_sound ..)
  · exact ok_sound ..

theorem drainEnd_sound (s : State) (d : Die) (l : Nat) : Sound s (drainEnd s d l) :=
  .ite (Sound.trans (.foldl (fun t p => modPair_sound t d p _) _ s) (modLane_sound ..))
    (Sound.trans (.foldl (fun t p => (splitPair_touches t d p).sound rfl) _ s) (modLane_sound ..))

theorem swapNow_sound (s : State) (d : Die) (l : Nat) (r : SwapReq) : Sound s (swapNow s d l r) := by
  obtain ⟨_, _, hturn⟩ := swapNow_turns s d l r
  exact hturn.touches.sound rfl

theorem execLhSwapRequest_safe (die : Die) (lane : Fin 4) (page : Fin 16) (s : State) : Safe s (execLhSwapRequest die lane page s) :=
  .next (writeGate_sound s die (lhRequest_sound ..))

theorem execLhSwapCancel_safe (die : Die) (lane : Fin 4) (s : State) : Safe s (execLhSwapCancel die lane s) :=
  .next (writeGate_sound s die (lhCancel_sound ..))

theorem execPageSwap_safe (die : Die) (lane : Fin 4) (s : State) : Safe s (execPageSwap die lane s) := by
  refine .next ?_
  dsimp only
  split
  · exact .ite (.refl s) ((advanceTo_sound s _).trans (swapNow_sound ..))
  · exact .refl s

theorem execDrainComplete_safe (die : Die) (lane : Fin 4) (s : State) : Safe s (execDrainComplete die lane s) :=
  .next <| .ite (.refl s) ((advanceTo_sound s _).trans (drainEnd_sound ..))

theorem execMergeCopyComplete_safe (die : Die) (lane : Fin 4) (pair : Fin 8) (upset : Option Upset) (s : State) :
    Safe s (execMergeCopyComplete die lane pair upset s) :=
  .next <| .ite (.refl s) <| (advanceTo_sound s _).trans <| (mergeEnd_sound ..).trans (modLane_sound ..)

theorem pdbgWrite_sound (s : State) (d : Die) (p : Nat) (v : Word) : Sound s (pdbgWrite s d p v) :=
  .ite (answer_sound ..) ((modPair_sound ..).trans (ok_sound ..))

theorem execLePdbgWrite_safe (die : Die) (pair : Fin 8) (value : Word) (s : State) : Safe s (execLePdbgWrite die pair value s) :=
  .next (writeGate_sound s die (pdbgWrite_sound ..))

theorem execEngineHalt_safe (die : Die) (engine : Fin 16) (s : State) : Safe s (execEngineHalt die engine s) :=
  .next <| .ite (.refl s) <| (modPair_sound s die _ _).trans <| .ite ((modPair_sound ..).trans (pairFixed_sound ..)) (.refl _)

theorem trcLow_sound (s : State) (d : Die) : Sound s (trcLow s d).1 := by
  unfold trcLow
  split
  · exact setLh_sound s d _ rfl
  · exact .refl s

theorem trcHigh_sound (s : State) (d : Die) : Sound s (trcHigh s d).1 := setLh_sound s d _ rfl

theorem execTraceReadLow_safe (die : Die) (s : State) : Safe s (execTraceReadLow die s) :=
  .next <| regGate_sound s die ((trcLow_sound s die).trans (ok_sound ..))

theorem execTraceReadHigh_safe (die : Die) (s : State) : Safe s (execTraceReadHigh die s) :=
  .next <| regGate_sound s die ((trcHigh_sound s die).trans (ok_sound ..))

end Sys2Proof.Machine
end

section
namespace Sys2Proof.Machine

/-! ## Destinations of a lane entry -/

theorem wfEvent_sound (s : State) (m cause elem : Nat) (detail : Word) : Sound s (wfEvent s m cause elem detail) :=
  (wfEvent_touches s m cause elem detail).sound rfl

theorem powerBalance_sound (s : State) (m : Nat) : Sound s (powerBalance s m) :=
  .ite (.refl s) <| .after (.ite (wfEvent_sound ..) (.refl _)) (modMach_sound s m _)

theorem notePeaks_sound (s : State) (m st : Nat) : Sound s (notePeaks s m st) := .ite (modMach_sound s m _) (.refl s)

theorem ibWritten_sound (s : State) (m st : Nat) (th : Word) : Sound s (ibWritten s m st th) :=
  .after (.ite (powerBalance_sound _ m) (.refl _)) <| .after (notePeaks_sound _ m st) (modMach_sound s m _)

theorem waveWrite_sound (s : State) (m item : Nat) (v : Int) (th : Word) : Sound s (waveWrite s m item v th) := by
  have hset (f : Mach → Mach) := modMach_sound s m f
  unfold waveWrite
  split
  case h_4 | h_5 => exact (hset _).trans (modMach_sound _ m _)
  case h_11 | h_13 => exact (hset _).trans (ibWritten_sound _ m _ th)
  case h_14 => exact .refl s
  all_goals exact hset _

theorem gearWrite_sound (s : State) (a item : Nat) (v : Int) : Sound s (gearWrite s a item v) := by
  unfold gearWrite
  split
  case h_3 => exact .refl s
  all_goals exact modAct_sound s a _

theorem protWrite_sound (s : State) (item n : Nat) (v : Int) : Sound s (protWrite s item n v) := by
  unfold protWrite
  dsimp only
  split
  · exact prot_sound s _ (by simp [protSizes, upd])
  · exact prot_sound s _ (by simp [protSizes, upd])
  · exact prot_sound s _ (by simp [protSizes, upd])
  · exact prot_sound s _ (by simp [protSizes, upd])
  · exact .refl s

theorem pwmWrite_sound (s : State) (d : Die) (item n : Nat) (v0 : Int) : Sound s (pwmWrite s d item n v0) := by
  unfold pwmWrite
  dsimp only
  split
  case h_4 => exact modGrp_sound s d n _
  case h_5 => exact .refl s
  all_goals exact modChan_sound s d n _

theorem laneSat_sound (s : State) (d : Die) (l : Nat) (sat : Bool) : Sound s (laneSat s d l sat) := .ite (modLane_sound ..) (.refl s)

theorem writeRef_sound (s : State) (d : Die) (l r : Nat) (q : Rat) (th : Word) : Sound s (writeRef s d l r q th) := by
  refine .ite ((laneSat_sound ..).trans (modLane_sound ..)) (.trans (laneSat_sound s d l (satHits 32 (mantOf q (destExp s d r)))) ?_)
  split
  · exact .ite (offer_sound ..) (.refl _)
  · exact modEng_sound ..
  · exact pwmWrite_sound ..
  · exact (waveWrite_sound ..).trans ((stepPattern_touches _ _).sound rfl)
  · exact protWrite_sound ..
  · exact .ite (modConv_sound ..) (.ite (modConv_sound ..) (.refl _))
  · exact gearWrite_sound ..
  · exact .refl _

/-! ## Entries retire -/

theorem offerInt_sound (s : State) (n : Nat) (m : Int) : Sound s (offerInt s n m) := (offerInt_touches s n m).sound rfl

theorem retireRead_sound (s : State) (d : Die) (l : Nat) (e : Entry) (v : List Int) : Sound s (retireRead s d l e v) := by
  unfold retireRead
  split
  · exact .refl s
  · exact .after (.foldl (fun t ⟨_, _⟩ => .ite (.refl t) (writeRef_sound ..)) _ _) <|
      .ite (.refl s) ((offerInt_sound ..).trans (modBuoy_sound ..))

/-- Every engine of a list changed alike. -/
theorem modEngAll_sound (s : State) (d : Die) (ks : List Nat) (f : Nat → Eng → Eng) :
    Sound s (ks.foldl (fun s j => s.modEng d j (f j)) s) := .foldl (fun t j => modEng_sound t d j (f j)) ks s

theorem retireRun_sound (s : State) (d : Die) (e : Entry) (v : List Int) (upset : Option Upset) :
    Sound s (retireRun s d e v upset) := by
  have hfree (t : State) : Sound t ((engSet s d (engOf e)).foldl (fun s j => s.modEng d j fun x => { x with busy := false }) t) :=
    modEngAll_sound t d _ _
  unfold retireRun
  dsimp only
  split
  · exact (hfree s).trans <| (mismatch_sound ..).trans (stagedDue_sound ..)
  · refine .after (stagedDue_sound ..) <| .after (.ite (engEvent_sound ..) (.refl _)) ?_
    have hdone := (modEngAll_sound s d (engSet s d (engOf e)) fun j _ =>
      (runEval (nth (s.engs d) j) (iexp s d j) (oexp s d j) (v.take 8) (v.getD 8 0 != 0) (v.getD 9 0 != 0)).eng).trans (hfree _)
    split
    · exact .after (engEvent_sound ..) <| .after (.ite (modPair_sound ..) (.refl _)) hdone
    · exact .after (.ite (modPair_sound ..) (.refl _)) hdone

theorem retireLoad_sound (s : State) (d : Die) (e : Entry) (v : List Int) (upset : Option Upset) :
    Sound s (retireLoad s d e v upset) := by
  unfold retireLoad
  dsimp only
  split
  · exact (modEngAll_sound ..).trans (mismatch_sound ..)
  · exact (modEngAll_sound ..).trans <| (modEngAll_sound ..).trans (stagedDue_sound ..)

theorem retireSnap_sound (s : State) (d : Die) (e : Entry) (upset : Option Upset) : Sound s (retireSnap s d e upset) := by
  unfold retireSnap
  dsimp only
  split
  · exact (modEngAll_sound ..).trans (mismatch_sound ..)
  · exact (modEngAll_sound ..).trans <| ((writeCkpt_touches ..).sound rfl).trans (stagedDue_sound ..)

theorem retireSample_sound (s : State) (d : Die) (x : InFl) : Sound s (retireSample s d x) := setLh_sound s d _ (by rfl)

theorem retireCommit_sound (s : State) (d : Die) (e : Entry) : Sound s (retireCommit s d e) :=
  .foldl (fun t _ => .ite (modChan_sound t d _ _) (.refl t)) _ s

theorem ckStart_sound (s : State) (d : Die) (n : Nat) : Sound s (ckStart s d n) := modCk_sound s d n _

theorem retireScan_sound (s : State) (d : Die) (x : InFl) : Sound s (retireScan s d x) :=
  .ite (laneEvent_sound ..) (.ite (ckStart_sound ..) (.refl s))

theorem retireMark_sound (s : State) (d : Die) (x : InFl) : Sound s (retireMark s d x) :=
  .ite (setLh_sound s d _ (by rfl)) (setLh_sound s d _ (by rfl))

theorem retireSignal_sound (s : State) (d : Die) (e : Entry) : Sound s (retireSignal s d e) := by
  refine .ite (.ite (setLh_sound s d _ (by rfl)) (setLh_sound s d _ (by rfl))) ?_
  cases d with
  | cs => exact (wrSignal_touches s _).sound rfl
  | ds => exact (dsEvent_touches ..).sound rfl

theorem retireEffect_sound (s : State) (d : Die) (x : InFl) (upset : Option Upset) : Sound s (retireEffect s d x upset) := by
  refine .ite (retireSample_sound ..) <| .ite (retireRead_sound ..) <| .ite (retireRun_sound ..) <| .ite (retireLoad_sound ..) <|
    .ite (retireSnap_sound ..) <| .ite (retireCommit_sound ..) <| .ite (retireScan_sound ..) <| .ite (retireMark_sound ..) <|
    .ite (retireSignal_sound ..) ?_
  split
  · exact writeRef_sound ..
  · exact .refl s

theorem execEntryRetire_safe (die : Die) (upset : Option Upset) (s : State) : Safe s (execEntryRetire die upset s) := by
  refine .next ?_
  split
  · exact .refl s
  · exact (advanceTo_sound s _).trans <| (lanesDue_sound ..).trans <| (retireEffect_sound ..).trans (leaveWindow_sound ..)

/-! ## Carriers, legs and the commutation pattern -/

theorem unlock_sound (s : State) (d : Die) (g reason : Nat) : Sound s (unlock s d g reason) := (unlock_touches ..).sound rfl

theorem unlockLost_sound (s : State) (d : Die) (g : Nat) : Sound s (unlockLost s d g) := by
  refine .ite ?_ (.refl s)
  split
  · exact unlock_sound ..
  · exact (advanceTo_sound s _).trans (unlock_sound ..)

theorem execCarrierBoundary_safe (die : Die) (group : Fin 16) (s : State) : Safe s (execCarrierBoundary die group s) :=
  .next <| .ite (.after ((boundaryAt_transfer_touches ..).sound rfl) <| .after (advanceTo_sound ..) (unlockLost_sound ..)) (.refl s)

theorem driveFirst_sound (s : State) (d : Die) (c t : Nat) : Sound s (driveFirst s d c t) := (driveFirst_touches s d c t).sound rfl

theorem execCarrierMidpoint_safe (die : Die) (group : Fin 16) (s : State) : Safe s (execCarrierMidpoint die group s) := by
  refine .next <| .ite ?_ (.refl s)
  have hdriven (u b cut : Nat) (l : List Nat) : Sound s (l.foldl (fun s c => driveFirst s die c b)
      (midTransfer (s.advanceTo u) die group.val cut)) :=
    .after (.foldl (fun t c => driveFirst_sound t die c b) _ _) <| (advanceTo_sound s u).trans ((midTransfer_touches ..).sound rfl)
  dsimp only
  split
  · exact (hdriven ..).trans ((machUpdate_touches ..).sound rfl)
  · exact hdriven ..

theorem execCarrierUnlock_safe (die : Die) (group : Fin 16) (s : State) : Safe s (execCarrierUnlock die group s) :=
  .next <| .ite (unlockLost_sound ..) (.refl s)

theorem replanLeg_sound (s : State) (c t : Nat) : Sound s (replanLeg s c t) := (replanLeg_touches s c t).sound rfl

theorem startHalf_sound (s : State) (d : Die) (c : Nat) (h : Half) : Sound s (startHalf s d c h) := by
  have hstarted (r : HalfRef) (f : Chan → Chan) := ((noteHalf_touches s d c r).sound rfl).trans (modChan_sound _ d c f)
  cases d with
  | cs => exact hstarted ..
  | ds => exact (hstarted _ _).trans <| (modLeg_sound ..).trans (.foldl (fun t b => replanLeg_sound t c b) _ _)

theorem execChannelHalfStart_safe (die : Die) (ch : Fin 48) (second : Bool) (s : State) :
    Safe s (execChannelHalfStart die ch second s) := by
  refine .next ?_
  dsimp only
  split
  · exact .refl s
  · exact .ite (.refl s) ((advanceTo_sound s _).trans (startHalf_sound ..))

theorem execIntlk_safe (die : Die) (ch : Fin 48) (s : State) : Safe s (execIntlk die ch s) := by
  refine .next <| .ite (.refl s) ?_
  split
  · exact .refl s
  · exact .after (countEvent_sound ..) <| .after (modChan_sound ..) (advanceTo_sound s _)

theorem execWaveDutyUpdate_safe (m : Fin 2) (s : State) : Safe s (execWaveDutyUpdate m s) := by
  refine .next <| .ite (.refl s) ?_
  split
  · exact .refl s
  · exact .after (.foldl (fun t c => (writeLeg_touches t _ _ _ _ c).sound rfl) _ _) <| .after (modMach_sound ..) (advanceTo_sound s _)

theorem execLegStepEdge_safe (ch : Fin 48) (s : State) : Safe s (execLegStepEdge ch s) := by
  refine .next <| .ite (.refl s) ?_
  dsimp only
  split
  · exact .refl s
  · exact .after (.ite (.refl _) ((modLeg_sound ..).trans (replanLeg_sound ..))) <| .after (modLeg_sound ..) (advanceTo_sound s _)

theorem execElectricalTurnEnd_safe (m : Fin 2) (s : State) : Safe s (execElectricalTurnEnd m s) := by
  refine .next <| .ite (.refl s) ?_
  dsimp only
  split
  · exact .refl s
  · exact (advanceTo_sound s _).trans <| ((turnEnd_touches ..).sound rfl).trans (modMach_sound ..)

theorem setPattern_sound (s : State) (m p : Nat) : Sound s (setPattern s m p) := (setPattern_touches s m p).sound rfl

theorem execCandleCommutate_safe (m : Fin 2) (s : State) : Safe s (execCandleCommutate m s) := by
  refine .next ?_
  dsimp only
  split
  · exact .refl s
  · exact (advanceTo_sound s _).trans (.ite (modCandle_sound ..) ((setPattern_sound ..).trans (modCandle_sound ..)))

theorem execCatchTimeout_safe (m : Fin 2) (s : State) : Safe s (execCatchTimeout m s) :=
  .next <| .ite (.refl s) <| .ite
    (.ite (.refl s) <| (advanceTo_sound s _).trans <| (setPattern_sound ..).trans (modCandle_sound ..)) <|
    .ite ((advanceTo_sound s _).trans <| (modCandle_sound ..).trans <|
      .ite ((setPattern_sound ..).trans (modCandle_sound ..)) (.refl _)) (.refl s)

theorem execCandto_safe (m : Fin 2) (s : State) : Safe s (execCandto m s) :=
  .next <| .ite (.refl s) <| (advanceTo_sound s _).trans <| (wfEvent_sound ..).trans <| (setPattern_sound ..).trans (modCandle_sound ..)

theorem execSubexp_safe (m : Fin 2) (s : State) : Safe s (execSubexp m s) :=
  .next <| .ite (.refl s) <| .after (wfEvent_sound ..) <| .after (modMach_sound ..) (advanceTo_sound s _)

/-! ## Converters -/

theorem convTicked_sound (s : State) (n : Nat) (v : List Conv) (h : v.length = s.conv.length) :
    Sound s { s with cvTick := n, conv := v } := .of_eq rfl rfl rfl (by simp [shape, h])

theorem execRefrUpdate_safe (s : State) : Safe s (execRefrUpdate s) :=
  .next <| .ite (.refl s) <| (advanceTo_sound s _).trans (convTicked_sound _ _ _ (by simp))

theorem execHiccupExpiry_safe (i : Fin 4) (s : State) : Safe s (execHiccupExpiry i s) :=
  .next <| .ite (.refl s) <| .after ((cvTransit_touches ..).sound rfl) <| .after (advanceTo_sound ..) <| .after (modConv_sound ..)
    (advanceTo_sound s _)

theorem execRetryCountReset_safe (i : Fin 4) (s : State) : Safe s (execRetryCountReset i s) :=
  .next <| .ite (.refl s) <| .after (modConv_sound ..) (advanceTo_sound s _)

theorem execTelemetryWindowEnd_safe (i : Fin 4) (s : State) : Safe s (execTelemetryWindowEnd i s) :=
  .next <| .ite (.refl s) <| .after (modConv_sound ..) (advanceTo_sound s _)

theorem extremeRead_sound (s : State) (i : Nat) (x : Extreme) : Sound s (extremeRead s i x).1 := modConv_sound ..

theorem execTelemetryExtremeRead_safe (i : Fin 4) (x : Extreme) (s : State) : Safe s (execTelemetryExtremeRead i x s) :=
  .next <| regGate_sound s .ds ((extremeRead_sound ..).trans (ok_sound ..))

end Sys2Proof.Machine
end

section
namespace Sys2Proof.Machine

/-! ## The crossing and its clocks -/

theorem judgeAll_sound (s : State) (start : Nat) (ack : Option Byte) : Sound s (judgeAll s start ack) := (judgeAll_touches s start ack).sound rfl

theorem xEvent_sound (s : State) (d : Die) (inst cause : Nat) : Sound s (xEvent s d inst cause) := countEvent_sound ..

theorem lossEnter_sound (s : State) (d : Die) (cause : Nat) : Sound s (lossEnter s d cause) :=
  (modLink_sound s d _).trans ((lossEnter_touches s d cause).sound rfl)

theorem execSuperframeSend_safe (die : Die) (s : State) : Safe s (execSuperframeSend die s) := by
  have hset (t : State) (f : Link → Link) : Sound t { t.modLink die f with freeCtr := (t.modLink die f).freeCtr + 200 } :=
    (modLink_sound t die f).trans ((freeCtr_touches ..).sound rfl)
  refine .next <| .ite (.refl s) ?_
  cases die with
  | cs => exact (advanceTo_sound s _).trans <| (lamp_sound _ _).trans (hset _ _)
  | ds =>
    exact (advanceTo_sound s _).trans <| (lamp_sound _ _).trans <| (judgeAll_sound ..).trans <|
      ((dsControl_touches _).sound rfl).trans (hset _ _)

theorem execXloss_safe (die : Die) (s : State) : Safe s (execXloss die s) :=
  .next <| .ite (.refl s) ((advanceTo_sound s _).trans (lossEnter_sound ..))

theorem execSuperframeReceived_safe (die : Die) (frame : List Byte) (viol : Option (Fin 4)) (s : State) :
    Safe s (execSuperframeReceived die frame viol s) := by
  have hjudged (t : State) (n : Nat) : Sound t (if die == .ds then judgeAll t n none else t) := .ite (judgeAll_sound ..) (.refl t)
  have harrived (n : Nat) (f : Link → Link) := (advanceTo_sound s n).trans (modLink_sound _ die f)
  exact .next <| .ite (.refl s) <| .ite
    (.after ((sfReject_touches ..).sound rfl) <| .after (modLink_sound ..) <| .after (hjudged ..) (harrived ..)) <| .ite
    (.after ((sfAccept_touches ..).sound rfl) (harrived ..)) <| .ite (.after (hjudged ..) (harrived ..)) <|
    .after (.ite (xEvent_sound ..) (lossEnter_sound ..)) <| .after (modLink_sound ..) <| .after (hjudged ..) (harrived ..)

theorem execSnapshotAdopt_safe (die : Die) (beam : Fin 8) (s : State) : Safe s (execSnapshotAdopt die beam s) := by
  refine .next ?_
  dsimp only
  split
  · exact .refl s
  · exact (advanceTo_sound s _).trans <| (modLink_sound ..).trans <| .ite (.refl _) <|
      (setAnchor_sound ..).trans <| (modBeam_sound ..).trans ((posCheck_touches _).sound rfl)

theorem haltAt_sound (s : State) (k : Nat) : Sound s (haltAt s k) := (haltAt_touches s k).sound rfl

/-- Both links of the crossing start (R19). -/
theorem trained_sound (s : State) (ofs : Word) (c : Clocks) (v : Crossing) : Sound s { s with dsOfs := ofs, clk := c, x := v } :=
  .of_eq rfl rfl rfl rfl

theorem crossing_sound (s : State) (v : Crossing) : Sound s { s with x := v } := (x_touches s v).sound rfl

theorem execCrossingTraining_safe (ok : Bool) (align : Fin 3) (s : State) : Safe s (execCrossingTraining ok align s) :=
  .next <| .ite (.refl s) <| (advanceTo_sound s _).trans <| .ite (trained_sound ..) <|
    (crossing_sound _ _).trans (.ite ((xEvent_sound ..).trans (haltAt_sound ..)) (.refl _))

theorem execSafetyMessageSend_safe (die : Die) (s : State) : Safe s (execSafetyMessageSend die s) :=
  .next <| .ite (.refl s) <| .after (modLink_sound ..) (advanceTo_sound s _)

theorem execSafetyMessageReceived_safe (die : Die) (b0 b1 b2 b3 : Byte) (s : State) :
    Safe s (execSafetyMessageReceived die b0 b1 b2 b3 s) := by
  have hheard (n : Nat) (f g : Link → Link) := ((advanceTo_sound s n).trans (modLink_sound _ die f)).trans (modLink_sound _ die g)
  refine .next <| .ite (.refl s) ?_
  dsimp only
  split
  · cases die with
    | cs => exact .after ((dsReportTake_touches ..).sound rfl) (hheard ..)
    | ds => exact .after ((wrCmdApply_touches ..).sound rfl) (hheard ..)
  · exact .after (countEvent_sound ..) (hheard ..)

theorem latchPlain_sound (s : State) (src : Nat) {cnt : State → State} (h : ∀ t, Touches protParts t (cnt t)) :
    Sound s (latchPlain s src cnt) := (latchPlain_touches (List.Subset.refl _) s src h).sound rfl

theorem counted_touches (s : State) (e : Ev) : Touches protParts s (countEvent s e) := (countEvent_touches s e).mono (by decide)

theorem execSloss_safe (die : Die) (s : State) : Safe s (execSloss die s) := by
  have hlost (n : Nat) (f : Link → Link) := (advanceTo_sound s n).trans (modLink_sound _ die f)
  refine .next <| .ite (.refl s) ?_
  cases die with
  | cs => exact .after (xEvent_sound ..) (hlost ..)
  | ds => exact .after (latchPlain_sound _ _ fun t => counted_touches t _) (hlost ..)

theorem execPllul_safe (die : Die) (s : State) : Safe s (execPllul die s) := by
  refine .next ?_
  cases die with
  | cs => exact .ite (.refl s) ((clk_sound s _).trans (countEvent_sound ..))
  | ds => exact .ite (.refl s) ((clk_sound s _).trans (latchPlain_sound _ _ fun t => counted_touches t _))

theorem execXtal_safe (s : State) : Safe s (execXtal s) := .next <| .ite (.refl s) ((clk_sound s _).trans (countEvent_sound ..))

theorem execWrclkWindow_safe (cnt : Nat) (s : State) : Safe s (execWrclkWindow cnt s) :=
  .next <| .ite (.refl s) <| (advanceTo_sound s _).trans <| (clk_sound _ _).trans <| .ite
    ((countEvent_sound ..).trans (.ite (clk_sound _ _) (.refl _))) (.refl _)

theorem execPllRelock_safe (die : Die) (s : State) : Safe s (execPllRelock die s) := by
  refine .next ?_
  cases die with
  | cs => exact .ite (.refl s) (clk_sound s _)
  | ds => exact .ite (.refl s) (clk_sound s _)

theorem execCrystalRestored_safe (s : State) : Safe s (execCrystalRestored s) := .next <| .ite (.refl s) (clk_sound s _)

/-! ## Protection -/

theorem modComp_sound (s : State) (c : Comp) (f : CompSt → CompSt) : Sound s (modComp s c f) := (modComp_touches s c f).sound rfl

theorem liveUpdate_sound (s : State) (c : Comp) : Sound s (liveUpdate s c) := (liveUpdate_touches s c).sound rfl

theorem compInput_sound (s : State) (c : Comp) (asserted : Bool) : Sound s (compInput s c asserted) :=
  (modComp_sound ..).trans (liveUpdate_sound ..)

theorem execComparatorLevelChange_safe (c : Comp) (asserted : Bool) (s : State) : Safe s (execComparatorLevelChange c asserted s) :=
  .next (compInput_sound ..)

theorem execBlankingEnd_safe (c : Comp) (s : State) : Safe s (execBlankingEnd c s) :=
  .next <| .ite (.refl s) <| (advanceTo_sound s _).trans <| .ite (.refl _) ((modComp_sound ..).trans (liveUpdate_sound ..))

theorem latchFixed_sound (s : State) (src detail : Nat) : Sound s (latchFixed s src detail) := (latchFixed_touches s src detail).sound rfl

theorem setChop_sound (s : State) : Sound s (setChop s) := (setChop_touches s).sound rfl

theorem chopFault_sound (s : State) (why : Nat) : Sound s (chopFault s why) :=
  .after (setChop_sound _) <| .after (.ite (latchFixed_sound ..) (.refl _)) (latchFixed_sound s _ _)

theorem execChopf_safe (s : State) : Safe s (execChopf s) :=
  .next <| .ite (.refl s) <| .ite (.ite (.refl s) ((advanceTo_sound s _).trans (chopFault_sound ..))) <|
    .ite ((advanceTo_sound s _).trans (chopFault_sound ..)) (.refl s)

theorem applyOverrides_sound (s : State) : Sound s (applyOverrides s) := (applyOverrides_touches s).sound rfl

theorem execSpeedRuleTick_safe (s : State) : Safe s (execSpeedRuleTick s) :=
  .next <| (advanceTo_sound s _).trans <| (prot_sound _ _ (by simp [protSizes])).trans <|
    (applyOverrides_sound _).trans ((checkOpp_touches ..).sound rfl)

theorem execSpeedRuleHysteresisEnd_safe (m : Fin 2) (s : State) : Safe s (execSpeedRuleHysteresisEnd m s) := by
  refine .next ?_
  dsimp only
  split
  · exact .refl s
  · exact .ite (.refl s) <| (advanceTo_sound s _).trans <| .ite
      ((prot_sound _ _ (by simp [protSizes, upd])).trans (applyOverrides_sound _)) (prot_sound _ _ (by simp [protSizes, upd]))

theorem cvEnter_sound (s : State) (i st : Nat) : Sound s (cvEnter s i st) := (cvEnter_touches s i st).sound rfl

theorem afterClear_sound (s : State) (src : Nat) : Sound s (afterClear s src) := by
  refine .ite ((modMach_sound ..).trans (prot_sound _ _ (by simp [protSizes, upd]))) ?_
  split
  · exact .ite (.ite (cvEnter_sound ..) ((cvOff_touches ..).sound rfl)) (.refl s)
  · exact .ite (setChop_sound s) (.refl s)

theorem clearOne_sound (s : State) (src : Nat) : Sound s (clearOne s src) :=
  (prot_sound s _ (by rfl)).trans <| (afterClear_sound ..).trans ((setSeverity_touches _).sound rfl)

theorem clrStat_sound (s : State) (v : Word) : Sound s { s with prot := { s.prot with clrStat := v } } := prot_sound s _ rfl

theorem clearAnswer_sound (s : State) (st src : Nat) : Sound s (clearAnswer s st src) :=
  (clrStat_sound s _).trans (.ite (ok_sound ..) (refuse_sound ..))

theorem clearAll_sound (s : State) : Sound s (clearAll s).1 :=
  .foldl_fst (fun ⟨t, _⟩ _ => .ite_fst (clearOne_sound ..) (.refl t)) _ (s, none)

theorem clearAllAnswer_sound (s : State) : Sound s (match clearAll s with
    | (s, some (st, src)) => clearAnswer s st src
    | (s, none) => clearAnswer s.useFree 0 (s.free.toNat % 256)) := by
  have hall := clearAll_sound s
  split
  · next h => exact .trans (by rwa [h] at hall) (clearAnswer_sound ..)
  · next h => exact .trans (by rwa [h] at hall) ((useFree_sound _).trans (clearAnswer_sound ..))

theorem clearGiven_sound (s : State) (src : Nat) :
    Sound s (clearAnswer (if clearStatus s src = 0 then clearOne s src else s) (clearStatus s src) src) :=
  .after (clearAnswer_sound ..) (.ite (clearOne_sound ..) (.refl s))

theorem ptClear_sound (s : State) (v : Word) : Sound s (ptClear s v) := .ite (clearAllAnswer_sound s) (clearGiven_sound ..)

theorem execPtClr_safe (src : Byte) (s : State) : Safe s (execPtClr src s) := .next (writeGate_sound s .ds (clearGiven_sound ..))

theorem execPtClrAll_safe (s : State) : Safe s (execPtClrAll s) := .next (writeGate_sound s .ds (clearAllAnswer_sound s))

theorem execPtLogReadLow_safe (s : State) : Safe s (execPtLogReadLow s) := by
  refine .next (regGate_sound s .ds ?_)
  split
  · exact (prot_sound s _ (by rfl)).trans (ok_sound ..)
  · exact (prot_sound s _ (by rfl)).trans (ok_sound ..)

theorem execPtLogReadHigh_safe (s : State) : Safe s (execPtLogReadHigh s) :=
  .next (regGate_sound s .ds ((prot_sound s _ (by rfl)).trans (ok_sound ..)))

end Sys2Proof.Machine
end

section
namespace Sys2Proof.Machine

/-! ## The Watch Room -/

theorem modCt_sound (s : State) (n : Nat) (f : Contactor → Contactor) : Sound s (s.modCt n f) := modWr_sound s _

theorem wrFixed_sound (s : State) (inst unit elem cause : Nat) (detail : Word) : Sound s (wrFixed s inst unit elem cause detail) :=
  (wrFixed_stays ..).touches.sound rfl

theorem wdEvent_sound (s : State) (why : Nat) : Sound s (wdEvent s why) := (wdEvent_stays s why).touches.sound rfl

theorem wrStep1_sound (s : State) : Sound s (wrStep1 s) := (wrStep1_stays s).touches.sound rfl

theorem wrCommand_sound (s : State) : Sound s (wrCommand s) := (wrCommand_touches s).sound rfl

theorem ctWatch_sound (s : State) (n : Nat) : Sound s (ctWatch s n) := (ctWatch_commands s n).touches.sound rfl

theorem ctCheck_sound (s : State) (n : Nat) : Sound s (ctCheck s n) := (ctCheck_commands s n).touches.sound rfl

theorem ctDropout_sound (s : State) (n : Nat) : Sound s (ctDropout s n) := by
  obtain ⟨_, hdrop⟩ := ctDropout_turns s n
  exact hdrop.stays.touches.sound rfl

theorem wrEvaluate_sound (s : State) : Sound s (wrEvaluate s) :=
  .ite (((frameTaken_touches s).sound rfl).trans ((wrActs_judged _).touches.sound rfl)) (.refl s)

theorem wrFrameIn_sound (s : State) (f : List Byte) (p : FramePath) : Sound s (wrFrameIn s f p) := modWr_sound s _

theorem frameOfType_sound (s : State) (ty : Nat) (f : List Byte) : Sound s (frameOfType s ty f) :=
  .ite (.refl s) ((wrFrameIn_sound ..).trans (wrEvaluate_sound _))

theorem sfEvent_sound (s : State) (cause : Nat) (detail : Word) : Sound s (sfEvent s cause detail) := (sfEvent_touches ..).sound rfl

theorem wdRestart_sound (s : State) (next : Byte) : Sound s (wdRestart s next) := (wdRestart_touches s next).sound rfl

theorem wdKick_sound (s : State) (value : Word) (next : Byte) : Sound s (wdKick s value next) :=
  .after (wdRestart_sound ..) <| .after (.ite (wdEvent_sound ..) (.refl _)) (.ite (wdEvent_sound ..) (.refl s))

theorem execContactorSettleEnd_safe (n : Fin 6) (s : State) : Safe s (execContactorSettleEnd n s) := by
  refine .next ?_
  split
  · exact .refl s
  · exact (advanceTo_sound s _).trans <| (modCt_sound ..).trans (.ite ((ctWatch_sound ..).trans (ctCheck_sound ..)) (.refl _))

theorem execContactorDropout_safe (n : Fin 6) (s : State) : Safe s (execContactorDropout n s) := by
  refine .next <| .ite (.refl s) <| .trans (ctWatch_sound s n.val) ?_
  dsimp only
  split
  · exact .refl _
  · exact (advanceTo_sound _ _).trans (ctDropout_sound ..)

theorem execContactorCheckStart_safe (s : State) : Safe s (execContactorCheckStart s) := by
  refine .next ?_
  split
  · exact .refl s
  · exact .ite (.refl s) <| .after (.foldl (fun t n => .after (ctCheck_sound _ n) <| .after (ctWatch_sound _ n) <|
      .ite (wrFixed_sound ..) (.refl t)) _ _) <| (advanceTo_sound s _).trans (modWr_sound ..)

theorem execDegexp_safe (s : State) : Safe s (execDegexp s) := by
  refine .next ?_
  split
  · exact .refl s
  · exact .ite (.refl s) <| (advanceTo_sound s _).trans <| (wrStep1_sound _).trans <| ((closeFaults_touches _).sound rfl).trans <|
      .ite (.refl _) <| .ite ((modWr_sound ..).trans (wrCommand_sound _)) <|
      (wrFixed_sound ..).trans <| ((enterLockout_touches ..).sound rfl).trans (wrCommand_sound _)

theorem execLockoutContactorOpen_safe (s : State) : Safe s (execLockoutContactorOpen s) :=
  .next <| .ite (.refl s) <| (advanceTo_sound s _).trans <| (modWr_sound ..).trans ((ctOpenAll_touches _).sound rfl)

theorem execResetArmLapse_safe (s : State) : Safe s (execResetArmLapse s) := by
  refine .next ?_
  split
  · exact .refl s
  · exact (advanceTo_sound s _).trans (modWr_sound ..)

theorem execSbcrcCheck_safe (s : State) : Safe s (execSbcrcCheck s) :=
  .next <| .ite (.refl s) <| (advanceTo_sound s _).trans <| (modWr_sound ..).trans (.ite (wrFixed_sound ..) (.refl _))

theorem execRwsDeny_safe (offset : BitVec 24) (s : State) : Safe s (execRwsDeny offset s) :=
  .next (writeGate_sound s .cs ((sfEvent_sound ..).trans (refuse_sound ..)))

theorem execWrWdkickWrite_safe (value : Word) (next : Byte) (s : State) : Safe s (execWrWdkickWrite value next s) :=
  .next (writeGate_sound s .cs ((wdKick_sound ..).trans (ok_sound ..)))

theorem execWdogTimeout_safe (next : Byte) (s : State) : Safe s (execWdogTimeout next s) :=
  .next <| .ite (.refl s) <| .after (wdRestart_sound ..) <| .after (wdEvent_sound ..) (advanceTo_sound s _)

/-! ## The lamplighter -/

theorem laEvent_sound (s : State) (inst unit elem cause : Nat) (detail : Word) : Sound s (laEvent s inst unit elem cause detail) :=
  (laEvent_touches ..).sound rfl

theorem lampLog_sound (s : State) (code q i : Nat) (old new : Word) : Sound s (lampLog s code q i old new) := (lampLog_touches ..).sound rfl

theorem lampRead_sound (s : State) (i : Nat) : Sound s (lampRead s i).1 := (storeRead_touches s (lampAddr i) 32).sound rfl

theorem legBase_sound (s : State) (c : Nat) : Sound s (legBase s c) := lamp_sound s _

theorem lampNv_sound (s : State) (l : Lamp) (v : Nv) : Sound s { s with lamp := l, nv := v } := .of_eq rfl rfl rfl rfl

theorem takeBase_sound (s : State) (f : Fence) : Sound s (takeBase s f) := by
  unfold takeBase
  split
  · exact .after (.ite ((useFree_sound _).trans (lampLog_sound ..)) (lampLog_sound ..)) <| .after (lampNv_sound _ _ _) <|
      .ite (.foldl legBase_sound _ s) (.refl s)
  · exact .refl s

theorem takeBases_sound (s : State) (q : Nat → Bool) : Sound s (takeBases s q) := .foldl takeBase_sound _ s

theorem pathSlow_sound (s : State) : Sound s (pathSlow s) :=
  .after (.ite (laEvent_sound ..) (.refl _)) (.ite (laEvent_sound ..) (.refl s))

theorem slackMeasured_sound (s : State) (cs ds : BitVec 16) : Sound s (slackMeasured s cs ds) := by
  unfold slackMeasured
  exact (lamp_sound s _).trans <| (pathSlow_sound _).trans (takeBases_sound ..)

theorem baseImage_sound (s : State) : Sound s (baseImage s) := .ite (.refl s) (nv_sound s _)

theorem lampScan_sound (s : State) : Sound s (lampScan s).1 := by
  refine .foldl_fst (fun ⟨t, rs⟩ i => ?_) _ (s, [])
  have hread := lampRead_sound t i
  rcases h : lampRead t i with ⟨u, r⟩
  rw [h] at hread
  simp only [h]
  exact hread.trans (.ite_fst (.refl u) (laEvent_sound ..))

theorem lampTemp_sound (s : State) (l : Lamp) (v : List Temp) (h : v.length = s.temp.length) : Sound s { s with lamp := l, temp := v } :=
  (lampTemp_touches s l v h).sound rfl

theorem lampStart_sound (s : State) : Sound s (lampStart s) := by
  have hscan := lampScan_sound s
  unfold lampStart
  rcases h : lampScan s with ⟨u, rs⟩
  rw [h] at hscan
  exact .after (.foldl (fun t (f : Fence) => (fenceApply_touches t f.qty f.inst f.value).sound rfl) _ _) <|
    .after (lampTemp_sound _ _ _ (by simp)) hscan

theorem thEvent_sound (s : State) (c cause : Nat) (r : Int) : Sound s (thEvent s c cause r) :=
  (modTemp_sound ..).trans (countEvent_sound ..)

theorem thSample_sound (s : State) (c : Nat) (code : BitVec 16) : Sound s (thSample s c code) :=
  .after (.ite (thEvent_sound ..) (.refl _)) <| .after (.ite (thEvent_sound ..) (.refl _)) <|
    .after (.ite (thEvent_sound ..) (.refl _)) (modTemp_sound s c _)

theorem temp_sound (s : State) (v : List Temp) (h : v.length = s.temp.length) : Sound s { s with temp := v } :=
  .of_eq rfl rfl rfl (by simp [shape, h])

theorem conv_sound (s : State) (v : List Conv) (h : v.length = s.conv.length) : Sound s { s with conv := v } :=
  .of_eq rfl rfl rfl (by simp [shape, h])

theorem thAmbient_sound (s : State) (c : Nat) : Sound s (thAmbient s c) := .ite (.refl s) (temp_sound s _ (by simp))

theorem thPass_sound (s : State) (c : Nat) : Sound s (thPass s c) :=
  .ite (.refl s) <| .after (offerAll_sound ..) (conv_sound s _ (by simp))

theorem ampMeasured_sound (s : State) : Sound s (ampMeasured s) := by
  refine .trans (baseImage_sound s) (.foldl (fun t r => .ite (.refl t) ?_) _ _)
  rcases hbase : t.nv.resBase.getD r none with _ | b <;> simp only [State.modFb_rest, State.modFb_new, hbase]
  · exact .of_eq rfl rfl rfl (by simp [shape, upd])
  · exact .after (.ite (laEvent_sound ..) (.refl _)) (.of_eq rfl rfl rfl (by simp [shape, upd]))

theorem execTemperatureSample_safe (c : Fin 28) (code : BitVec 16) (s : State) : Safe s (execTemperatureSample c code s) :=
  .next <| .ite (.refl s) <| (advanceTo_sound s _).trans <| (thSample_sound ..).trans <| (thAmbient_sound ..).trans (thPass_sound ..)

theorem execThrottleUpdate_safe (s : State) : Safe s (execThrottleUpdate s) :=
  .next <| .ite (.refl s) <| (advanceTo_sound s _).trans <| (temp_sound _ _ (by simp)).trans <| (lamp_sound _ _).trans <|
    .ite (.refl _) <| (lamp_sound _ _).trans (.ite (offer_sound ..) (.refl _))

theorem execLampMeasurement_safe (x : LampMeas) (s : State) : Safe s (execLampMeasurement x s) := by
  refine .next <| .ite (.refl s) ?_
  cases x with
  | slack cs ds => exact (advanceTo_sound s _).trans <| (lamp_sound _ _).trans (slackMeasured_sound ..)
  | amplitude => exact (advanceTo_sound s _).trans <| (lamp_sound _ _).trans (ampMeasured_sound _)

theorem execSwitchingDelayEdge_safe (ch : Fin 48) (high turnOn : Bool) (delay : BitVec 16) (s : State) :
    Safe s (execSwitchingDelayEdge ch high turnOn delay s) :=
  .next <| .ite (.refl s) <| (lamp_sound s _).trans (takeBases_sound ..)

theorem execCoolingCurveStart_safe (c : Fin 28) (s : State) : Safe s (execCoolingCurveStart c s) := by
  refine .next ?_
  split
  · exact .ite (.refl s) <| (advanceTo_sound s _).trans (.ite (.refl _) (modTemp_sound ..))
  · exact .refl s

theorem execCoolingCurveEnd_safe (c : Fin 28) (s : State) : Safe s (execCoolingCurveEnd c s) := by
  have hended (n : Nat) (f : Temp → Temp) := (advanceTo_sound s n).trans (modTemp_sound _ c f)
  refine .next ?_
  dsimp only
  split
  · exact .refl s
  · split
    · exact hended ..
    · exact .after (takeBases_sound ..) <| .after (.ite (nv_sound _ _) (.refl _)) <| .after (modTemp_sound ..) <|
        .after (baseImage_sound _) (hended ..)

theorem execReplanTarget_safe (s : State) : Safe s (execReplanTarget s) :=
  .next <| .ite (.refl s) <| (advanceTo_sound s _).trans <| (lamp_sound _ _).trans (lamp_sound _ _)

theorem laFreeze_sound (s : State) (v : Word) : Sound s (laFreeze s v) := (lamp_sound s _).trans (ok_sound ..)

theorem execLaFreezeWrite_safe (value : Word) (s : State) : Safe s (execLaFreezeWrite value s) :=
  .next (writeGate_sound s .cs (laFreeze_sound ..))

end Sys2Proof.Machine
end

section
namespace Sys2Proof.Machine

/-! ## CAN and network time -/

theorem canEvent_sound (s : State) (n cause : Nat) (detail : Word) : Sound s (canEvent s n cause detail) :=
  (canEvent_turns s n cause detail).touches.sound rfl

theorem canCounters_sound (s : State) (n tec rec : Nat) : Sound s (canCounters s n tec rec) := by
  obtain ⟨_, hturn, -⟩ := canCounters_turns s n tec rec
  exact hturn.touches.sound rfl

theorem busOff_sound (s : State) (n tec rec : Nat) : Sound s (busOff s n tec rec) := by
  obtain ⟨_, hturn, -⟩ := busOff_turns s n tec rec
  exact hturn.touches.sound rfl

theorem txEnd_sound (s : State) (n b status : Nat) : Sound s (txEnd s n b status) := (txEnd_transmits s n b status).touches.sound rfl

theorem offerSignals_sound (s : State) (n f : Nat) (data : List Byte) : Sound s (offerSignals s n f data) := by
  refine .foldl (fun t w => ?_) _ s
  dsimp only
  split
  · exact offerAll_sound ..
  · exact canEvent_sound ..

theorem fifoPut_sound (s : State) (n : Nat) (r : RxFrame) : Sound s (fifoPut s n r) :=
  .ite (modCan_sound ..) ((modCan_sound s n _).trans (canEvent_sound ..))

theorem protCheck_sound (s : State) (n f : Nat) (w : List Word) (data : List Byte) : Sound s (protCheck s n f w data).1 := by
  have hbad (cause : Nat) (d : Word) :
      Sound s (canEvent (s.useFree.modCan n fun x => { x with alive := x.alive.set f none }) n cause d) :=
    (useFree_sound s).trans <| (modCan_sound ..).trans (canEvent_sound ..)
  exact .ite_fst (hbad ..) <| .ite_fst (.ite_fst (modCan_sound ..) (hbad ..)) (.refl s)

/-- What the protection of a filter makes of a frame (R484). -/
theorem filterChecked_sound (s : State) (n f : Nat) (fr : CanFrame) (o : Option (List Word)) : Sound s (match o with
    | some p => if fr.rtr then (s, true) else protCheck s n f p fr.data
    | none => (s, true)).1 := by
  cases o with
  | none => exact .refl s
  | some p => exact .ite_fst (.refl s) (protCheck_sound ..)

theorem filterFrame_sound (s : State) (n : Nat) (fr : CanFrame) (ts : Nat) : Sound s (filterFrame s n fr ts) := by
  unfold filterFrame
  split
  · exact .refl s
  · next f w _ =>
    have hchecked := filterChecked_sound s n f fr (cnOf s 3 n f)
    exact .after (.ite (fifoPut_sound ..) (.refl _)) <| .after (.ite (offerSignals_sound ..) (.refl _)) hchecked

theorem safetyOnCan_sound (s : State) (n : Nat) (fr : CanFrame) : Sound s (safetyOnCan s n fr) :=
  .ite (.refl s) (wrFrameIn_sound ..)

theorem netAnchor_sound (s : State) : Sound s (netAnchor s) := net_sound s _

theorem nettimeStep_sound (s : State) : Sound s (nettimeStep s) := (nettimeStep_touches s).sound rfl

theorem nettimeRate_sound (s : State) : Sound s (nettimeRate s) := (nettimeRate_touches s).sound rfl

theorem followEval_sound (s : State) (n : Nat) (e : Int) : Sound s (followEval s n e) := by
  refine (netAnchor_sound s).trans <| (net_sound (netAnchor s) { (netAnchor s).net with err := e, evalAt := s.now, holdover := false }).trans ?_
  exact .ite ((net_sound _ _).trans <| (nettimeStep_sound _).trans <| (staleCheck_sound _).trans (canEvent_sound ..))
    ((net_sound _ _).trans <| (nettimeRate_sound _).trans (staleCheck_sound _))

theorem refReceived_sound (s : State) (n : Nat) (fr : CanFrame) (ts : Nat) : Sound s (refReceived s n fr ts) := by
  refine .ite (.refl s) <| .after (net_sound _ _) ?_
  split
  · exact .ite (followEval_sound ..) (.refl s)
  · exact .refl s

theorem txRequest_sound (s : State) (n b : Nat) : Sound s (txRequest s n b) :=
  .ite (refuse_sound ..) <| .ite (refuse_sound ..) ((modTx_sound ..).trans (ok_sound ..))

theorem txCancelCmd_sound (s : State) (n b : Nat) : Sound s (txCancelCmd s n b) :=
  .ite (refuse_sound ..) (((txCancelBuf_transmits s n b).touches.sound rfl).trans (ok_sound ..))

theorem txWrite_sound (s : State) (n b off : Nat) (v : Word) : Sound s (txWrite s n b off v) :=
  .ite (refuse_sound ..) <| .ite (refuse_sound ..) ((modTx_sound ..).trans (ok_sound ..))

theorem canPop_sound (s : State) (n : Nat) : Sound s (canPop s n) := (modCan_sound ..).trans (ok_sound ..)

theorem canFlush_sound (s : State) (n : Nat) : Sound s (canFlush s n) := (modCan_sound ..).trans (ok_sound ..)

theorem canRecover_sound (s : State) (n : Nat) : Sound s (canRecover s n) := (modCan_sound ..).trans (ok_sound ..)

theorem ntloRead_sound (s : State) : Sound s (ntloRead s).1 := net_sound s _

theorem netSet_sound (s : State) (v : Word) : Sound s (netSet s v) := (netSet_touches s v).sound rfl

theorem execCanIntegrationEnd_safe (n : Fin 3) (s : State) : Safe s (execCanIntegrationEnd n s) :=
  .next (.ite (modCan_sound ..) (.refl s))

theorem execCanArbitration_safe (n : Fin 3) (s : State) : Safe s (execCanArbitration n s) := by
  refine .next <| .ite (.refl s) ?_
  dsimp only
  split
  · exact modCan_sound ..
  · split
    · exact (modCan_sound ..).trans (modTx_sound ..)
    · exact .refl s

theorem execCanFrameSent_safe (n : Fin 3) (s : State) : Safe s (execCanFrameSent n s) := by
  refine .next ?_
  split
  · exact .refl s
  · exact .after (txEnd_sound ..) (canCounters_sound ..)

theorem execCanBusError_safe (n : Fin 3) (tx arbLost : Bool) (tec rec : BitVec 16) (s : State) :
    Safe s (execCanBusError n tx arbLost tec rec s) := by
  refine .next <| .ite (.refl s) <| .ite (busOff_sound ..) <| .after (.ite (.refl _) (canCounters_sound ..)) ?_
  split
  · exact .ite (txEnd_sound ..) (modTx_sound ..)
  · exact .refl s

theorem execBusOffRecoveryEnd_safe (n : Fin 3) (s : State) : Safe s (execBusOffRecoveryEnd n s) :=
  .next (.ite (modCan_sound ..) (.refl s))

theorem execCanFrameReceived_safe (n : Fin 3) (frame : CanFrame) (sofAgo : Nat) (s : State) :
    Safe s (execCanFrameReceived n frame sofAgo s) :=
  .next <| .ite (.refl s) <| (useFree_sound s).trans <| (canCounters_sound ..).trans <| .ite (safetyOnCan_sound ..) <|
    .after (filterFrame_sound ..) (.ite (refReceived_sound ..) (.refl _))

theorem execTxReq_safe (n buf : Fin 3) (s : State) : Safe s (execTxReq n buf s) := .next (writeGate_sound s .cs (txRequest_sound ..))

theorem execTxCancel_safe (n buf : Fin 3) (s : State) : Safe s (execTxCancel n buf s) :=
  .next (writeGate_sound s .cs (txCancelCmd_sound ..))

theorem execTxBufferWrite_safe (n buf : Fin 3) (offset : Fin 96) (value : Word) (s : State) :
    Safe s (execTxBufferWrite n buf offset value s) := .next (.ite (writeGate_sound s .cs (txWrite_sound ..)) (.refl s))

theorem execPop_safe (n : Fin 3) (s : State) : Safe s (execPop n s) := .next (writeGate_sound s .cs (canPop_sound ..))

theorem execFlush_safe (n : Fin 3) (s : State) : Safe s (execFlush n s) := .next (writeGate_sound s .cs (canFlush_sound ..))

theorem execRecover_safe (n : Fin 3) (s : State) : Safe s (execRecover n s) := .next (writeGate_sound s .cs (canRecover_sound ..))

theorem execReferenceMessageDue_safe (s : State) : Safe s (execReferenceMessageDue s) :=
  .next <| .ite (.refl s) <| .after ((refQueue_transmits ..).touches.sound rfl) <| .after (net_sound _ _) (advanceTo_sound s _)

theorem execNtloss_safe (s : State) : Safe s (execNtloss s) :=
  .next <| .ite (.refl s) <| .after (staleCheck_sound _) <| .after (canEvent_sound ..) <| .after (net_sound _ _) (advanceTo_sound s _)

theorem execSlewEnd_safe (s : State) : Safe s (execSlewEnd s) := by
  refine .next ?_
  split
  · exact .after (nettimeRate_sound _) <| .after (net_sound _ _) <| .after (netAnchor_sound _) (advanceTo_sound s _)
  · exact .refl s

theorem execCnNtsethiWrite_safe (value : Word) (s : State) : Safe s (execCnNtsethiWrite value s) :=
  .next (writeGate_sound s .cs ((netSet_sound ..).trans (ok_sound ..)))

theorem execCnNtloRead_safe (s : State) : Safe s (execCnNtloRead s) :=
  .next (regGate_sound s .cs ((ntloRead_sound s).trans (ok_sound ..)))

/-! ## Charge ports -/

theorem chOffer_sound (s : State) (p : Nat) : Sound s (chOffer s p) := by
  obtain ⟨_, hturn, -⟩ := chOffer_turns s p
  exact hturn.touches.sound rfl

theorem chDrop_sound (s : State) (p : Nat) : Sound s (chDrop s p) := (chDrop_touches s p).sound rfl

theorem chEvent_sound (s : State) (p cause : Nat) (detail : Word) : Sound s (chEvent s p cause detail) :=
  (chEvent_turns s p cause detail).touches.sound rfl

theorem chFault_sound (s : State) (p cause : Nat) (detail : Word) : Sound s (chFault s p cause detail) := by
  obtain ⟨_, hturn, -⟩ := chFault_turns s p cause detail
  exact hturn.touches.sound rfl

theorem chTransit_sound (s : State) (p : Nat) : Sound s (chTransit s p) := by
  obtain ⟨_, hturn, -⟩ := chTransit_turns s p
  exact hturn.touches.sound rfl

theorem chDone_sound (s : State) (p : Nat) : Sound s (chDone s p) := by
  obtain ⟨_, hturn, -⟩ := chDone_turns s p
  exact hturn.touches.sound rfl

theorem chTimers_sound (s : State) (p : Nat) : Sound s (chTimers s p) := .ite (.refl s) (modPort_sound ..)

theorem chAnswer_sound (s : State) (port st : Nat) : Sound s (chAnswer s port st) := (chAnswer_touches s port st).sound rfl

theorem chStart_sound (s : State) (p : Nat) : Sound s (chStart s p) := by
  obtain ⟨_, hturn, -⟩ := chStart_turns s p
  exact hturn.touches.sound rfl

theorem chStop_sound (s : State) (p : Nat) : Sound s (chStop s p) := by
  obtain ⟨_, _, hturn, -⟩ := chStop_turns s p
  exact hturn.touches.sound rfl

theorem chClear_sound (s : State) (p : Nat) : Sound s (chClear s p) := by
  obtain ⟨_, _, hturn, -⟩ := chClear_turns s p
  exact hturn.touches.sound rfl

theorem acRevstop_sound (s : State) : Sound s (acRevstop s) := by
  obtain ⟨_, hturn, -⟩ := acRevstop_turns s
  exact hturn.touches.sound rfl

theorem revStart_sound (s : State) : Sound s (revStart s) := (revStart_touches s).sound rfl

theorem revStop_sound (s : State) : Sound s (revStop s) := (acRevstop_sound s).trans (chAnswer_sound ..)

theorem handoverStart_sound (s : State) (byLock : Bool) : Sound s (handoverStart s byLock) := (handoverStart_touches s byLock).sound rfl

theorem execChargeEvaluation_safe (p : Fin 2) (s : State) : Safe s (execChargeEvaluation p s) :=
  .next <| .ite (.refl s) <| (advanceTo_sound s _).trans <| (modPort_sound ..).trans <| (chTimers_sound ..).trans <|
    (chTransit_sound ..).trans (chOffer_sound ..)

theorem execPretmo_safe (p : Fin 2) (s : State) : Safe s (execPretmo p s) :=
  .next <| .ite (.refl s) <| (advanceTo_sound s _).trans <| (modPort_sound ..).trans (chFault_sound ..)

theorem execTotalTimerExpiry_safe (p : Fin 2) (s : State) : Safe s (execTotalTimerExpiry p s) :=
  .next <| .ite (.refl s) <| .ite (chDone_sound ..) <| .ite (chFault_sound ..) <| .ite (chFault_sound ..) <|
    (modPort_sound ..).trans <| (chEvent_sound ..).trans (chDrop_sound ..)

theorem execTerminationTimeout_safe (p : Fin 2) (s : State) : Safe s (execTerminationTimeout p s) :=
  .next (.ite (chDone_sound ..) (.refl s))

theorem execChargeStart_safe (p : Fin 2) (s : State) : Safe s (execChargeStart p s) := .next (writeGate_sound s .cs (chStart_sound ..))

theorem execChargeStop_safe (p : Fin 2) (s : State) : Safe s (execChargeStop p s) := .next (writeGate_sound s .cs (chStop_sound ..))

theorem execChargeClear_safe (p : Fin 2) (s : State) : Safe s (execChargeClear p s) := .next (writeGate_sound s .cs (chClear_sound ..))

theorem execRevstart_safe (s : State) : Safe s (execRevstart s) := .next (writeGate_sound s .cs (revStart_sound s))

theorem execRevstop_safe (s : State) : Safe s (execRevstop s) := .next (writeGate_sound s .cs (revStop_sound s))

theorem execAcQualified_safe (s : State) : Safe s (execAcQualified s) := by
  refine .next ?_
  split
  · exact (advanceTo_sound s _).trans (modAc_sound ..)
  · exact .refl s

theorem execSrclost_safe (byLock : Bool) (s : State) : Safe s (execSrclost byLock s) := by
  refine .next <| .ite (.ite (handoverStart_sound ..) (.refl s)) ?_
  split
  · exact (advanceTo_sound s _).trans (.ite (handoverStart_sound ..) (.refl _))
  · exact .refl s

theorem execHandoverRampEnd_safe (s : State) : Safe s (execHandoverRampEnd s) :=
  .next <| .ite (.refl s) <| (advanceTo_sound s _).trans <| (modPort_sound ..).trans <| (modAc_sound ..).trans <|
    .ite ((chOfferEn_turns ..).touches.sound rfl) (.refl _)

theorem execHandoverEnd_safe (s : State) : Safe s (execHandoverEnd s) :=
  .next <| .ite (.refl s) <| (advanceTo_sound s _).trans <| (modAc_sound ..).trans (modAc_sound ..)

theorem execGridWatchArm_safe (s : State) : Safe s (execGridWatchArm s) :=
  .next <| .ite (.refl s) <| (advanceTo_sound s _).trans (modAc_sound ..)

theorem execGrid_safe (s : State) : Safe s (execGrid s) := by
  refine .next ?_
  split
  · exact .ite (.refl s) <| (advanceTo_sound s _).trans <| ((acEvent_touches ..).sound rfl).trans (acRevstop_sound _)
  · exact .refl s

/-! ## Pre-drivers and actuators -/

theorem gdEvent_sound (s : State) (g cause : Nat) (detail : Word) : Sound s (gdEvent s g cause detail) :=
  (gdEvent_turns s g cause detail).touches.sound rfl

theorem actEvent_sound (s : State) (a cause : Nat) (detail : Word) : Sound s (actEvent s a cause detail) :=
  (actEvent_turns s a cause detail).touches.sound rfl

theorem bridge_sound (s : State) (unres bad : Bool) : Sound s { s with bridgeUnres := unres, bridgeBad := bad } :=
  .of_eq rfl rfl rfl rfl

theorem gxClear_sound (s : State) (mask : Nat) (present : Byte) : Sound s (gxClear s mask present) := (gxClear_touches ..).sound rfl

theorem execVdsoc_safe (gd : Fin 8) (high : Bool) (s : State) : Safe s (execVdsoc gd high s) :=
  .next (.ite ((modGd_sound ..).trans (gdEvent_sound ..)) (.refl s))

theorem execBsuv_safe (gd : Fin 8) (s : State) : Safe s (execBsuv gd s) :=
  .next <| .ite (.refl s) <| (modGd_sound ..).trans (.ite (gdEvent_sound ..) (.refl _))

theorem execBootstrapRecovered_safe (gd : Fin 8) (s : State) : Safe s (execBootstrapRecovered gd s) :=
  .next (.ite (.refl s) (modGd_sound ..))

theorem execSupuvBridge_safe (s : State) : Safe s (execSupuvBridge s) :=
  .next <| .ite (.refl s) <| .after (.foldl (fun t g => gdEvent_sound t g 3 _) _ _) (bridge_sound s s.bridgeUnres true)

theorem execBridgeSupplyInRange_safe (s : State) : Safe s (execBridgeSupplyInRange s) :=
  .next (.ite (.refl s) (bridge_sound s s.bridgeUnres false))

theorem execGxClr_safe (mask present : Byte) (s : State) : Safe s (execGxClr mask present s) :=
  .next (writeGate_sound s .cs (gxClear_sound ..))

theorem execGearDutyUpdate_safe (a : Fin 3) (s : State) : Safe s (execGearDutyUpdate a s) := by
  refine .next <| .ite (.refl s) ?_
  split
  · exact .refl s
  · exact .after (.foldl (fun t k => modChan_sound t .cs _ _) _ _) <| .after ((actFloat_touches ..).sound rfl) (advanceTo_sound s _)

theorem execOvercur_safe (a : Fin 3) (s : State) : Safe s (execOvercur a s) := by
  refine .next ?_
  split
  · exact .ite (.refl s) <| .after (actEvent_sound ..) <| .after (modAct_sound ..) (advanceTo_sound s _)
  · exact .refl s

theorem execStall_safe (a : Fin 3) (s : State) : Safe s (execStall a s) :=
  .next <| .ite (.refl s) <| .after (actEvent_sound ..) <| .after (modAct_sound ..) (advanceTo_sound s _)

end Sys2Proof.Machine
end

section
namespace Sys2Proof.Machine

/-! ## Register windows -/

/-- A register write that is served, or refused, leaves a state soundly reached. -/
structure SoundWrite (s : State) (o : Option Written) : Prop where
  of_mem : ∀ r ∈ o, Sound s r.1

namespace SoundWrite

variable {s t : State}

theorem none (s : State) : SoundWrite s none := ⟨fun _ h => absurd h (by simp)⟩

theorem some {st u : Nat} (h : Sound s t) : SoundWrite s (some (t, st, u)) := by
  refine ⟨fun r hr => ?_⟩
  obtain rfl : (t, st, u) = r := Option.mem_some.1 hr
  exact h

theorem ite {c : Prop} [Decidable c] {a b : Option Written} (h : SoundWrite s a) (k : SoundWrite s b) :
    SoundWrite s (if c then a else b) := by
  split
  · exact h
  · exact k

end SoundWrite

theorem byWrites_sound (s : State) (off : Nat) (v : Word) : SoundWrite s (byWrites s off v) := by
  unfold byWrites
  split
  · exact .some (modBuoy_sound ..)
  · exact .ite (.some (offer_sound ..)) (.some (.refl s))
  · exact .none s

theorem fbWrites_sound (s : State) (off : Nat) (v : Word) : SoundWrite s (fbWrites s off v) := by
  unfold fbWrites
  split
  · exact .some (fbControl_sound ..)
  · exact .some (modFb_sound ..)
  · exact .some (modFb_sound ..)
  · exact .none s

theorem bmReads_sound (s : State) (d : Die) (off : Nat) : Sound s (bmReads s d off) := by
  unfold bmReads
  split
  · exact bmLatch_sound ..
  · exact .refl s

theorem bmWrites_sound (s : State) (d : Die) (off : Nat) (v : Word) : SoundWrite s (bmWrites s d off v) := by
  unfold bmWrites
  split
  · exact .some (modBeam_sound ..)
  · exact .none s

theorem lhReads_sound (s : State) (d : Die) (off : Nat) : Sound s (lhReads s d off) :=
  .ite (trcLow_sound s d) (.ite (trcHigh_sound s d) (.refl s))

theorem lhWrites_sound (s : State) (d : Die) (off : Nat) (v : Word) : SoundWrite s (lhWrites s d off v) := by
  refine .ite (.some (setLh_sound s d _ (by rfl))) <| .ite (.some (setLh_sound s d _ (by rfl))) ?_
  split
  · exact .some (modLane_sound ..)
  · exact .some (.ite (lhCancel_sound ..) (lhRequest_sound ..))
  · exact .none s

theorem leWrites_sound (s : State) (d : Die) (off : Nat) (v : Word) : SoundWrite s (leWrites s d off v) := by
  unfold leWrites
  split
  · exact .some (modEng_sound ..)
  · split
    · exact .some (modPair_sound ..)
    · exact .some (pdbgWrite_sound ..)
    · exact .none s

theorem pwmWrites_sound (s : State) (d : Die) (off : Nat) (v : Word) : SoundWrite s (pwmWrites s d off v) := by
  unfold pwmWrites
  split
  · exact .some (modGrp_sound ..)
  · split
    · exact .some (modChan_sound ..)
    · exact .none s

theorem wfWrites_sound (s : State) (off : Nat) (v : Word) : SoundWrite s (wfWrites s off v) := by
  unfold wfWrites
  split
  · exact .some (modMach_sound ..)
  · exact .none s

theorem sleepRequest_sound (s : State) (v : Word) : Sound s (sleepRequest s v).1 := .ite_fst (sys_sound s _) (.refl s)

theorem sysWrites_sound (s : State) (off : Nat) (v : Word) : SoundWrite s (sysWrites s off v) := by
  unfold sysWrites
  split
  · exact .some (sys_sound s _)
  · exact .some (sys_sound s _)
  · exact .some (sys_sound s _)
  · exact .some (sleepRequest_sound s v)
  · exact .none s

theorem cnReads_sound (s : State) (n off : Nat) : Sound s (cnReads s n off) := by
  refine .ite (ntloRead_sound s) ?_
  split
  · exact .ite (.refl s) (modTx_sound ..)
  · exact .refl s

theorem cnControl_sound (s : State) (n : Nat) (v : Word) : Sound s (cnControl s n v) :=
  .after (.ite (canFlush_sound ..) (.refl _)) <| .after (.ite (canPop_sound ..) (.refl _)) (.ite (canRecover_sound ..) (.refl s))

theorem cnWrites_sound (s : State) (n off : Nat) (v : Word) : SoundWrite s (cnWrites s n off v) := by
  unfold cnWrites
  split
  · exact .some (modCan_sound ..)
  · exact .some (cnControl_sound ..)
  · exact .ite (.some (net_sound s _)) (.none s)
  · exact .ite (.some (netSet_sound s v)) (.none s)
  · split
    · exact .ite (.some (.ite (refuse_sound ..) (refuse_sound ..))) <| .ite (.some (txRequest_sound ..)) <|
        .ite (.some (txCancelCmd_sound ..)) (.some (.refl s))
    · exact .ite (.some (txWrite_sound ..)) (.none s)
    · exact .none s

theorem hcWrites_sound (s : State) (off : Nat) (v : Word) : SoundWrite s (hcWrites s off v) := .ite (.some (host_sound s _)) (.none s)

theorem kpReads_sound (s : State) (off : Nat) : Sound s (kpReads s off) := .ite (kp_sound s _) (.refl s)

theorem kpWrites_sound (s : State) (off : Nat) (v : Word) : SoundWrite s (kpWrites s off v) := .ite (.some (kp_sound s _)) (.none s)

theorem ckSetExp_sound (s : State) (d : Die) (n : Nat) (v : Word) : Sound s (ckSetExp s d n v) := modCk_sound ..

theorem ckCtrl_sound (s : State) (d : Die) (n : Nat) (v : Word) : Sound s (ckCtrl s d n v) := .ite (ckStart_sound ..) (.refl s)

theorem ckWrites_sound (s : State) (d : Die) (off : Nat) (v : Word) : SoundWrite s (ckWrites s d off v) := by
  unfold ckWrites
  split
  · exact .some (ckSetExp_sound ..)
  · exact .some (ckCtrl_sound ..)
  · exact .some (modCk_sound ..)
  · exact .none s

theorem cpWrites_sound (s : State) (off : Nat) (v : Word) : SoundWrite s (cpWrites s off v) := by
  unfold cpWrites
  split
  · exact .some (prot_sound s _ (by simp [protSizes, upd]))
  · split
    · exact .some (prot_sound s _ (by simp [protSizes, upd]))
    · exact .none s

theorem ptReads_sound (s : State) (off : Nat) : Sound s (ptReads s off) := .ite (prot_sound s _ (by rfl)) (.ite (prot_sound s _ (by rfl)) (.refl s))

theorem ptWrites_sound (s : State) (off : Nat) (v : Word) : SoundWrite s (ptWrites s off v) :=
  .ite (.some (ptClear_sound s v)) (.none s)

theorem wrRegWrites_sound (s : State) (off : Nat) (v : Word) (chal : Byte) : SoundWrite s (wrRegWrites s off v chal) := by
  unfold wrRegWrites
  split
  · exact .some (modWr_sound s fun w => { w with evt := w1c w.evt v })
  · exact .some (wdKick_sound ..)
  · exact .some (sfEvent_sound ..)
  · exact .some (sfEvent_sound ..)
  · exact .some (sfEvent_sound ..)
  · exact .some (sfEvent_sound ..)
  · exact .none s

theorem swReads_sound (s : State) (off : Nat) : Sound s (swReads s off) := by
  unfold swReads
  split
  case h_7 => exact .refl s
  all_goals exact extremeRead_sound ..

theorem swWrites_sound (s : State) (off : Nat) (v : Word) : SoundWrite s (swWrites s off v) := by
  unfold swWrites
  split
  · exact .some (modConv_sound ..)
  · exact .none s

theorem chCommand_sound (s : State) (p : Nat) (v : Word) : Sound s (chCommand s p v) := by
  unfold chCommand
  split
  · exact ok_sound ..
  · exact chStart_sound ..
  · exact chStop_sound ..
  · exact chClear_sound ..
  · exact chAnswer_sound ..

theorem acCommand_sound (s : State) (v : Word) : Sound s (acCommand s v) := by
  unfold acCommand
  split
  · exact ok_sound ..
  · exact revStart_sound s
  · exact revStop_sound s
  · exact chAnswer_sound ..

theorem chWrites_sound (s : State) (off : Nat) (v : Word) : SoundWrite s (chWrites s off v) := by
  refine .ite (.some (modAc_sound ..)) <| .ite (.some (acCommand_sound ..)) ?_
  split
  · exact .some (modPort_sound ..)
  · exact .some (chCommand_sound ..)
  · exact .none s

theorem gxWrites_sound (s : State) (off : Nat) (v : Word) (present : Byte) : SoundWrite s (gxWrites s off v present) := by
  refine .ite (.some (gxClear_sound ..)) ?_
  split
  · exact .some (modAct_sound ..)
  · exact .none s

theorem tsWrites_sound (s : State) (d : Die) (off : Nat) (v : Word) : SoundWrite s (tsWrites s d off v) := by
  unfold tsWrites
  split
  · exact .some (.ite (modTemp_sound ..) (.refl s))
  · exact .none s

theorem laWrites_sound (s : State) (off : Nat) (v : Word) : SoundWrite s (laWrites s off v) :=
  .ite (.some (laFreeze_sound s v)) <| .ite (.some (lamp_sound s _)) (.none s)

/-- A write served after a free value has been taken. -/
theorem SoundWrite.afterFree {s : State} {o : Option Written} (h : SoundWrite s.useFree o) : SoundWrite s o :=
  ⟨fun r hr => (useFree_sound s).trans (h.of_mem r hr)⟩

theorem windowActs_sound (s : State) (a : Nat) : Sound s (windowActs s a) := by
  unfold windowActs
  dsimp only
  split
  · exact kpReads_sound ..
  · exact cnReads_sound ..
  · exact bmReads_sound ..
  · exact .ite (lhReads_sound ..) (.refl s)
  · exact .ite (lhReads_sound ..) (bmReads_sound ..)
  · exact ptReads_sound ..
  · exact swReads_sound ..
  · exact .refl s

theorem windowWrite_sound (s : State) (a : Nat) (v : Word) : SoundWrite s (windowWrite s a v) := by
  unfold windowWrite
  dsimp only
  split
  · exact sysWrites_sound ..
  · exact .ite (.afterFree (wrRegWrites_sound ..)) (wrRegWrites_sound ..)
  · exact kpWrites_sound ..
  · exact .ite (cnWrites_sound ..) (.none s)
  · exact .ite (fbWrites_sound ..) (bmWrites_sound ..)
  · exact .ite (lhWrites_sound ..) (.ite (leWrites_sound ..) (.none s))
  · exact .ite (pwmWrites_sound ..) (.ite (.afterFree (gxWrites_sound ..)) (.ite (gxWrites_sound ..) (.none s)))
  · exact .ite (tsWrites_sound ..) (.none s)
  · exact chWrites_sound ..
  · exact ckWrites_sound ..
  · exact laWrites_sound ..
  · exact hcWrites_sound ..
  · exact byWrites_sound ..
  · exact .ite (lhWrites_sound ..) (bmWrites_sound ..)
  · exact leWrites_sound ..
  · exact pwmWrites_sound ..
  · exact cpWrites_sound ..
  · exact ptWrites_sound ..
  · exact .ite (tsWrites_sound ..) (.none s)
  · exact swWrites_sound ..
  · exact ckWrites_sound ..
  · exact wfWrites_sound ..
  · exact .none s

theorem storeRead_sound (s : State) (a n : Nat) : Sound s (storeRead s a n).1 := (storeRead_touches s a n).sound rfl

theorem regRead_sound (s : State) (a : Nat) : Sound s (regRead s a).1 := by
  refine .ite_fst (.refl s) <| .ite_fst (.refl s) <| .ite_fst (storeRead_sound s a 4) ?_
  split
  · exact .refl s
  · exact .ite_fst (.refl s) (windowActs_sound ..)

theorem regWrite_sound (s : State) (a : Nat) (v : Word) : Sound s (regWrite s a v).1 := by
  refine .ite_fst (.refl s) ?_
  have hwrite := windowWrite_sound s a v
  split
  · exact .refl s
  · next r hr => exact .ite_fst (.refl s) (hwrite.of_mem r hr)

theorem readWords_sound (n : Nat) (s : State) (a i : Nat) (ws : List Word) : Sound s (readWords n s a i ws).1 := by
  induction n generalizing s a i ws with
  | zero => exact .refl s
  | succ n ih => exact (regRead_sound s a).trans (.ite_fst (ih ..) (.refl _))

theorem writeWords_sound (vs : List Word) (s : State) (a i : Nat) : Sound s (writeWords vs s a i).1 := by
  induction vs generalizing s a i with
  | nil => exact .refl s
  | cons v vs ih => exact (regWrite_sound s a v).trans (.ite_fst (ih ..) (.refl _))

end Sys2Proof.Machine
end

section
namespace Sys2Proof.Machine

/-! ## The host interface -/

theorem setAlive_sound (s : State) (m : Stream) (a : Byte) : Sound s (setAlive s m a) := by
  cases m <;> exact host_sound s _

theorem hcErr_sound (s : State) (crc : Bool) : Sound s (hcErr s crc) := host_sound s _

theorem sendPb_sound (s : State) (f : List Byte) : Sound s (sendPb s f) := host_sound s _

theorem hcCount_sound (s : State) (cause inst : Nat) (detail : Word) : Sound s (hcCount s cause inst detail) :=
  (hcCount_touches s cause inst detail).sound rfl

theorem respond_sound (s : State) (q : Req) (ty : Nat) (a : Ans) : Sound s (respond s q ty a) := (respond_touches s q ty a).sound rfl

theorem unqueue_sound (s : State) (q : Req) (ty : Nat) (pay : List Byte) : Sound s (unqueue s q ty pay) := by
  unfold unqueue
  split
  · exact .ite (host_sound s _) (.refl s)
  · exact .refl s

/-- What a request that misses the alive check comes to. -/
theorem respondAliveBad_sound (s : State) (q : Req) (ty c inst : Nat) (w : Word) (a : Ans) :
    Sound s (respond (hcCount (hcErr s false) c inst w) q ty a) :=
  (hcErr_sound s false).trans <| (hcCount_sound ..).trans <| respond_sound ..

theorem arrive_sound (s : State) (q : Req) (ty : Nat) (pay : List Byte) : Sound s (arrive s q ty pay).1 := by
  refine .ite_fst ((hcErr_sound s true).trans (hcCount_sound ..)) ?_
  refine (Sound.ite (sendPb_sound s (reqFrame q ty pay)) (.refl s) :
    Sound s (if reqStream q == .broadcast && pbOpen s then sendPb s (reqFrame q ty pay) else s)).trans ?_
  generalize (if reqStream q == .broadcast && pbOpen s then sendPb s (reqFrame q ty pay) else s) = t
  exact .ite_fst (respond_sound ..) <| .ite_fst (sendPb_sound ..) <|
    .ite_fst (.ite (.refl t) (.ite (sendPb_sound ..) (respond_sound ..))) <|
    .ite_fst (respondAliveBad_sound ..) (setAlive_sound ..)

theorem handDo_sound {f : State → State} (hf : ∀ t, Sound t (f t)) (s : State) (q : Req) (ty : Nat) (bar : State → Option Ans) :
    Sound s (handDo s q ty bar f) := by
  refine .ite (.refl s) ?_
  split
  · exact respond_sound ..
  · exact hf s

/-- An answer sent for what an operation came to. -/
theorem answered_sound {f : State → State × Ans} (hf : ∀ t, Sound t (f t).1) (s : State) (q : Req) (ty : Nat) :
    Sound s (respond (f s).1 q ty (f s).2) := (hf s).trans (respond_sound ..)

theorem hand_sound {f : State → State × Ans} (hf : ∀ t, Sound t (f t).1) (s : State) (q : Req) (ty : Nat)
    (bar : State → Option Ans) : Sound s (hand s q ty bar f) :=
  handDo_sound (fun t => answered_sound hf t q ty) s q ty bar

/-- What follows the arrival of a frame, where it is passed on. -/
theorem arrived_sound {f : State → State} (hf : ∀ t, Sound t (f t)) (s : State) (q : Req) (ty : Nat) (pay : List Byte) :
    Sound s (if (arrive (unqueue s q ty pay) q ty pay).2 then f (arrive (unqueue s q ty pay) q ty pay).1
      else (arrive (unqueue s q ty pay) q ty pay).1) :=
  (unqueue_sound s q ty pay).trans <| (arrive_sound ..).trans <| .ite (hf _) (.refl _)

theorem requestDo_sound {f : State → State} (hf : ∀ t, Sound t (f t)) (s : State) (q : Req) (ty : Nat) (pay : List Byte)
    (bar : State → Option Ans) : Sound s (requestDo s q ty pay bar f) :=
  .ite (.refl s) <| .ite (.refl s) <| arrived_sound (fun t => handDo_sound hf t q ty bar) s q ty pay

theorem request_sound {f : State → State × Ans} (hf : ∀ t, Sound t (f t).1) (s : State) (q : Req) (ty : Nat) (pay : List Byte)
    (bar : State → Option Ans) : Sound s (request s q ty pay bar f) :=
  requestDo_sound (fun t => answered_sound hf t q ty) s q ty pay bar

theorem command_sound {f : State → State × Ans} (hf : ∀ t, Sound t (f t).1) (s : State) (q : Req) (code : Nat) (args : List Byte)
    (bcOk anyImage : Bool) (cls : Nat) : Sound s (command s q code args bcOk anyImage cls f) :=
  request_sound hf s q tCMD _ _

theorem execHostRead_safe (q : Req) (addr : Word) (count : BitVec 16) (s : State) : Safe s (execHostRead q addr count s) :=
  .next <| request_sound (fun t => .ite_fst (.refl t) (readWords_sound ..)) ..

theorem execHostWrite_safe (q : Req) (addr : Word) (words : List Word) (s : State) : Safe s (execHostWrite q addr words s) :=
  .next <| request_sound (fun t => .ite_fst (.refl t) (writeWords_sound ..)) ..

theorem execEnum_safe (q : Req) (addr : Byte) (s : State) : Safe s (execEnum q addr s) :=
  .next <| request_sound (fun t => .ite_fst (.refl t) <| .ite_fst (.refl t) (host_sound t _)) ..

theorem execFrameForward_safe (port : Port) (frame : List Byte) (s : State) : Safe s (execFrameForward port frame s) := by
  refine .next <| .ite (.refl s) ?_
  have hbad (inst : Nat) : Sound s (hcCount (hcErr s true) 1 inst 0) := (hcErr_sound s true).trans (hcCount_sound ..)
  cases port with
  | pb => exact .ite (.refl s) <| .ite (hbad 2) <| .ite (.refl s) (host_sound s _)
  | pa => exact .ite (.refl s) <| .ite (hbad 1) <| .ite (.refl s) <| .ite (sendPb_sound ..) (respond_sound ..)

theorem setLinkUp_sound (s : State) (p : Port) (v : Bool) : Sound s (setLinkUp s p v) := (setLinkUp_touches s p v).sound rfl

theorem execLinkUp_safe (port : Port) (s : State) : Safe s (execLinkUp port s) := .next <| .ite (.refl s) (setLinkUp_sound ..)

theorem execLinkDn_safe (port : Port) (s : State) : Safe s (execLinkDn port s) :=
  .next <| .ite (.refl s) <| (setLinkUp_sound s port false).trans (hcCount_sound ..)

theorem execSpiSend_safe (frame : List Byte) (complete : Bool) (s : State) : Safe s (execSpiSend frame complete s) :=
  .next <| .ite (.refl s) <| .ite (host_sound s _) (host_sound s _)

theorem execSpiRecv_safe (s : State) : Safe s (execSpiRecv s) := by
  refine .next <| .ite (.refl s) ?_
  split
  · exact ok_sound ..
  · exact (host_sound s _).trans (ok_sound ..)

theorem execSpiStatus_safe (s : State) : Safe s (execSpiStatus s) := .next <| .ite (.refl s) (ok_sound ..)

/-! ## The Keeper -/

theorem kpCount_sound (s : State) (cause : Nat) (detail : Word) : Sound s (kpCount s cause detail) := (kpCount_touches s cause detail).sound rfl

theorem execKlock_safe (s : State) : Safe s (execKlock s) :=
  .next <| .ite (.refl s) <| (kpCount_sound s 1 0).trans ((keeperRestarts_touches _).sound rfl)

theorem execKeeperRestartComplete_safe (s : State) : Safe s (execKeeperRestartComplete s) := .next <| .ite (kp_sound s _) (.refl s)

theorem execKeeperLoadUpdate_safe (u : Nat) (s : State) : Safe s (execKeeperLoadUpdate u s) :=
  .next <| .ite (.refl s) <| (advanceTo_sound s _).trans <| (kp_sound _ _).trans <| .ite (kpCount_sound ..) (.refl _)

theorem execKpLoadRead_safe (s : State) : Safe s (execKpLoadRead s) :=
  .next <| regGate_sound s .cs <| (kpReads_sound s 4).trans (ok_sound ..)

theorem logReadAns_sound (s : State) (first count : Nat) : Sound s (logReadAns s first count).1 :=
  .ite_fst (.refl s) ((logSteps_touches _ _ (s, [])).sound rfl)

theorem execLogRead_safe (q : Req) (first count : Word) (s : State) : Safe s (execLogRead q first count s) := by
  refine .next <| .ite (.refl s) <| (unqueue_sound s q tCMD _).trans <| (arrive_sound ..).trans <| .ite (.refl _) <|
    .ite (kp_sound _ _) (hand_sound (fun t => logReadAns_sound t _ _) ..)

theorem execDeferredRequestServe_safe (s : State) : Safe s (execDeferredRequestServe s) := by
  refine .next ?_
  split
  · exact .refl s
  · exact .ite (.refl s) <| (kp_sound s _).trans <| (logReadAns_sound ..).trans (respond_sound ..)

end Sys2Proof.Machine
end

section
namespace Sys2Proof.Machine

/-! ## Frames for the Watch Room -/

theorem execWatchRoomEvaluation_safe (s : State) : Safe s (execWatchRoomEvaluation s) := .next (wrEvaluate_sound s)

theorem execSafetyFrameWrite_safe (frame : List Byte) (s : State) : Safe s (execSafetyFrameWrite frame s) := .next (frameOfType_sound s 1 frame)

theorem execResetArm_safe (frame : List Byte) (s : State) : Safe s (execResetArm frame s) := .next (frameOfType_sound s 2 frame)

theorem execResetConfirm_safe (frame : List Byte) (s : State) : Safe s (execResetConfirm frame s) := .next (frameOfType_sound s 3 frame)

theorem execLabEnter_safe (frame : List Byte) (s : State) : Safe s (execLabEnter frame s) := .next (frameOfType_sound s 4 frame)

theorem execLabExit_safe (frame : List Byte) (s : State) : Safe s (execLabExit frame s) := .next (frameOfType_sound s 5 frame)

theorem execSfkey_safe (frame : List Byte) (s : State) : Safe s (execSfkey frame s) := .next (frameOfType_sound s 6 frame)

theorem execSafeFrame_safe (q : Req) (frame : List Byte) (s : State) : Safe s (execSafeFrame q frame s) :=
  .next <| requestDo_sound (fun t => wrFrameIn_sound t _ _) ..

/-! ## The store, slots and staging -/

theorem nvEvent_sound (s : State) (cause w n : Nat) : Sound s (nvEvent s cause w n) := (nvEvent_touches s cause w n).sound rfl

/-- Memory and the non-volatile data changed, the memory to one that is canonical where it was. -/
theorem memNv_sound (s : State) (m : List Host.Cell) (v : Nv) (hm : Memory.wf s.mem = true → Memory.wf m = true) :
    Sound s { s with mem := m, nv := v } := ⟨rfl, Nat.le_refl _, fun h => ⟨hm h.1, h.2⟩⟩

theorem storeWrite_sound (s : State) (a : Nat) (bs : List Byte) : Sound s (storeWrite s a bs).1 := (storeWrite_touches s a bs).sound rfl

theorem storeErase_sound (s : State) (a n : Nat) : Sound s (storeErase s a n).1 :=
  (memNv_sound s _ _ (Memory.wf_filter _)).trans <| .ite_fst (.refl _) (nvEvent_sound ..)

theorem bootWrite_sound (s : State) (f : BootArea → BootArea) : Sound s (bootWrite s f).1 := (bootWrite_touches s f).sound rfl

theorem bootSet_sound (s : State) (f : Boot → Boot) : Sound s (bootSet s f).1 := bootWrite_sound ..

theorem verifySlot_sound (s : State) (slot : Nat) : Sound s (verifySlot s slot).1 := (verifySlot_touches s slot).sound rfl

theorem f23_sound (s : State) (cause inst detail : Nat) : Sound s (f23 s cause inst detail) := (f23_touches s cause inst detail).sound rfl

theorem failed_sound (s : State) : Sound s (failed s).1 := useFree_sound s

/-- What a command that writes the boot area answers. -/
theorem bootAnswered_sound {s : State} {r : State × Bool} {u : State} {a : Ans} (hr : Sound s r.1) (hu : Sound r.1 u) :
    Sound s (if r.2 then (u, a) else failed r.1).1 := hr.trans <| .ite_fst hu (failed_sound _)

theorem imgWrite_sound (s : State) (off : Nat) (data : List Byte) : Sound s (imgWrite s off data).1 := by
  unfold imgWrite
  dsimp only
  refine .ite_fst (.refl s) ?_
  generalize hr : storeWrite s _ data = r
  have hwritten : Sound s r.1 := hr ▸ storeWrite_sound s _ data
  exact hwritten.trans <| (im_sound _ _).trans <| .ite_fst (.refl _) (failed_sound _)

theorem execImgWrite_safe (q : Req) (offset : Word) (data : List Byte) (s : State) : Safe s (execImgWrite q offset data s) :=
  .next <| command_sound (fun t => imgWrite_sound t _ _) ..

theorem execImgCheck_safe (q : Req) (s : State) : Safe s (execImgCheck q s) :=
  .next <| command_sound (fun t => by
    dsimp only
    generalize hr : verifySlot t _ = r
    have hverified : Sound t r.1 := hr ▸ verifySlot_sound t _
    exact hverified.trans (im_sound _ _)) ..

theorem execImgActivate_safe (q : Req) (slot : Word) (s : State) : Safe s (execImgActivate q slot s) :=
  .next <| command_sound (fun t => by
    dsimp only
    refine .ite_fst (.refl t) ?_
    generalize hr : bootSet t _ = r
    have hwritten : Sound t r.1 := hr ▸ bootSet_sound t _
    exact bootAnswered_sound hwritten (.refl _)) ..

theorem execStgWrite_safe (q : Req) (offset : Word) (data : List Byte) (s : State) : Safe s (execStgWrite q offset data s) :=
  .next <| command_sound (fun t => .ite_fst (.refl t) (im_sound t _)) ..

theorem stageHold_sound (s : State) (it : StageItem) : Sound s (stageHold s it) := (stageHold_touches s it).sound rfl

theorem stgApply_sound (s : State) : Sound s (stgApply s).1 := by
  refine (im_sound s { s.im with stageBuf := [] }).trans ?_
  unfold stgApply
  dsimp only
  split
  · exact f23_sound ..
  · split
    · exact f23_sound ..
    · exact (im_sound _ _).trans (.foldl stageHold_sound _ _)

theorem execStgApply_safe (q : Req) (s : State) : Safe s (execStgApply q s) := .next <| command_sound stgApply_sound ..

theorem pagePut_sound (s : State) (h : PageHdr) (bs : List Byte) : Sound s (pagePut s h bs) := (pagePut_touches s h bs).sound rfl

theorem stageDone_sound (s : State) : Sound s (stageDone s) :=
  (lanesDue_sound s .cs).trans <| (lanesDue_sound ..).trans <|
    (Sound.foldl (fun t _ => (modEng_sound t ..).trans <| .ite (.refl _) (im_sound _ _)) ..).trans (im_sound _ _)

theorem itemTaken_sound (s : State) (item : Nat) : Sound s (itemTaken s item) := (itemTaken_touches s item).sound rfl

theorem execStageLoadComplete_safe (item : Nat) (s : State) : Safe s (execStageLoadComplete item s) := by
  refine .next ?_
  split
  · exact .refl s
  · next it _ =>
    refine .ite (.refl s) <| (itemTaken_sound s item).trans <| (stageHold_sound _ it).trans ?_
    cases it with
    | page h bs => exact (pagePut_sound _ h bs).trans <| .ite (stageDone_sound _) (.refl _)
    | param d e ws => exact (im_sound _ _).trans <| .ite (stageDone_sound _) (.refl _)

/-! ## Keys and return -/

theorem newNonce_sound (s : State) (nonce : Word) : Sound s (newNonce s nonce) := (newNonce_touches s nonce).sound rfl

theorem keyEnrol_sound (s : State) (entry roles signer resv : Byte) (xy sig : List Byte) (nonce : Word) :
    Sound s (keyEnrol s entry roles signer resv xy sig nonce).1 := by
  unfold keyEnrol
  dsimp only
  refine .ite_fst (.refl s) <| .ite_fst (.refl s) <| .ite_fst (.refl s) <| .ite_fst (.refl s) ?_
  exact .ite_fst (.after (failed_sound _) (bootWrite_sound ..)) <|
    .ite (bootWrite_sound ..) (.after (newNonce_sound ..) (bootWrite_sound ..))

theorem execKeyEnrol_safe (q : Req) (entry roles signer resv : Byte) (xy sig : List Byte) (nonce : Word) (s : State) :
    Safe s (execKeyEnrol q entry roles signer resv xy sig nonce s) :=
  .next <| command_sound (fun t => keyEnrol_sound t ..) ..

theorem keyRevoke_sound (s : State) (entry signer : Byte) (resv sig : List Byte) (nonce : Word) :
    Sound s (keyRevoke s entry signer resv sig nonce).1 := by
  unfold keyRevoke
  dsimp only
  refine .ite_fst (.refl s) <| .ite_fst (.refl s) <| .ite_fst (.refl s) <| .ite_fst (.refl s) ?_
  generalize hr : bootWrite s _ = r
  have hwritten : Sound s r.1 := hr ▸ bootWrite_sound s _
  exact bootAnswered_sound hwritten (newNonce_sound ..)

theorem execKeyRevoke_safe (q : Req) (entry signer : Byte) (resv sig : List Byte) (nonce : Word) (s : State) :
    Safe s (execKeyRevoke q entry signer resv sig nonce s) :=
  .next <| command_sound (fun t => keyRevoke_sound t ..) ..

theorem returnRecord_sound (s : State) : Sound s (returnRecord s).1 := (returnRecord_touches s).sound rfl

/-- What a sealed device keeps of image manager, non-volatile data and Watch Room. -/
theorem sealed_sound (s : State) (i : ImgMgr) (n : Nv) (w : Wr) : Sound s { s with im := i, nv := n, wr := w } :=
  .of_eq rfl rfl rfl rfl

theorem sealDevice_sound (s : State) : Sound s (sealDevice s).1 := by
  unfold sealDevice
  dsimp only
  generalize hret : returnRecord s = q
  have hreturned : Sound s q.1 := hret ▸ returnRecord_sound s
  refine hreturned.trans ?_
  generalize hrec : storeWrite q.1 _ _ = r
  have hwritten : Sound q.1 r.1 := hrec ▸ storeWrite_sound ..
  refine hwritten.trans <| .ite_fst (.refl _) ?_
  generalize hfirst : storeErase r.1 _ _ = x
  have hslot0 : Sound r.1 x.1 := hfirst ▸ storeErase_sound ..
  refine hslot0.trans ?_
  generalize hsecond : storeErase x.1 _ _ = y
  have hslot1 : Sound x.1 y.1 := hsecond ▸ storeErase_sound ..
  exact hslot1.trans <| (sealed_sound ..).trans <| .ite_fst (.refl _) (bootWrite_sound ..)

theorem execSealForReturn_safe (q : Req) (signer : Byte) (resv sig : List Byte) (nonce : Word) (s : State) :
    Safe s (execSealForReturn q signer resv sig nonce s) :=
  .next <| command_sound (fun t => by
    dsimp only
    refine .ite_fst (.refl t) <| .ite_fst (.refl t) <| .ite_fst (.refl t) ?_
    generalize hr : sealDevice t = r
    have hsealed : Sound t r.1 := hr ▸ sealDevice_sound t
    exact bootAnswered_sound hsealed (newNonce_sound ..)) ..

theorem execSlotCheck_safe (s : State) : Safe s (execSlotCheck s) := .next <| .ite (.refl s) <| (kp_sound s _).trans (verifySlot_sound ..)

/-! ## Check values -/

theorem execCheckScanBackgroundStart_safe (die : Die) (ch : Fin 8) (s : State) : Safe s (execCheckScanBackgroundStart die ch s) :=
  .next <| .ite (.refl s) <| (advanceTo_sound s _).trans <| (modCk_sound ..).trans <| .ite (.refl _) (ckStart_sound ..)

theorem execCkCtrlStart_safe (die : Die) (ch : Fin 8) (s : State) : Safe s (execCkCtrlStart die ch s) :=
  .next <| writeGate_sound s die <| .ite (answer_sound ..) <| (ckCtrl_sound ..).trans (ok_sound ..)

theorem execCkExpWrite_safe (die : Die) (ch : Fin 8) (value : Word) (s : State) : Safe s (execCkExpWrite die ch value s) :=
  .next <| writeGate_sound s die <| .ite (answer_sound ..) <| (ckSetExp_sound ..).trans (ok_sound ..)

theorem ckEvent_sound (s : State) (d : Die) (n cause : Nat) (detail : Word) : Sound s (ckEvent s d n cause detail) :=
  (modCk_sound ..).trans (countEvent_sound _ _)

theorem scanTake_sound (s : State) (d : Die) (n : Nat) (r : Word) : Sound s (scanTake s d n r) :=
  (modCk_sound ..).trans <| .ite (.refl _) (ckEvent_sound ..)

/-- The bytes a scan reads, from the store or from RAM. -/
theorem scanRead_sound (s : State) (a n : Nat) :
    Sound s (if storeBase ≤ a then storeRead s a n else (s, memGetBytes s.mem a n, none)).1 :=
  .ite_fst (storeRead_sound s a n) (.refl s)

theorem execScanComplete_safe (die : Die) (ch : Fin 8) (unc : Option Word) (s : State) : Safe s (execScanComplete die ch unc s) := by
  refine .next <| .ite (.refl s) ?_
  dsimp only
  refine (scanRead_sound s (ckW s die ch 1).toNat (fld (ckW s die ch 2) 24 0)).trans ?_
  have hunc (t : State) (w : Word) :
      Sound t (ckEvent (t.modCk die ch fun x => { x with running := false }) die ch 2 w) :=
    (modCk_sound ..).trans (ckEvent_sound ..)
  generalize (if storeBase ≤ (ckW s die ch 1).toNat then _ else _ : State × List Byte × Option Nat) = r
  split
  · exact hunc ..
  · exact hunc ..
  · exact scanTake_sound ..

end Sys2Proof.Machine
end

section
namespace Sys2Proof.Machine

/-! ## Resets of the dies -/

theorem csUnitsReset_sound (s : State) : Sound s (csUnitsReset s) where
  queue := rfl
  time := Nat.le_refl _
  inv h := by
    obtain ⟨hmem, hshape⟩ := h
    refine ⟨clearRam_wf .cs hmem, ?_⟩
    simp only [shape, List.cons.injEq] at hshape
    simp [shape, csUnitsReset, hshape]
    decide

theorem csResetFull_sound (s : State) (cause : Nat) : Sound s (csResetFull s cause) :=
  (csUnitsReset_sound s).trans (.of_eq rfl rfl rfl rfl)

theorem dsBootIn_sound (s : State) : Sound s (dsBootIn s) := (dsBootIn_touches s).sound rfl

theorem dsPorIn_sound (s : State) : Sound s (dsPorIn s) := (dsPorIn_touches s).sound rfl

theorem csRelease_sound (s : State) : Sound s (csRelease s) := (csRelease_touches s).sound rfl

theorem setSupply_sound (s : State) (code : Nat) (ok : Bool) : Sound s (setSupply s code ok) := (setSupply_touches s code ok).sound rfl

theorem supplyEvent_sound (s : State) (code : Nat) (isOver : Bool) (mv : BitVec 16) : Sound s (supplyEvent s code isOver mv) :=
  (supplyEvent_touches s code isOver mv).sound rfl

theorem liveAll_sound (s : State) : Sound s (liveAll s) := (liveAll_touches s).sound rfl

/-- Supply and system unit changed together. -/
theorem supSys_sound (s : State) (v : Supply) (y : Sys) : Sound s { s with sup := v, sys := y } := .of_eq rfl rfl rfl rfl

theorem dsSupplyLost_sound (s : State) : Sound s (dsSupplyLost s) := (dsSupplyLost_touches s).sound rfl

theorem execSupplyOutOfRange_safe (code : Fin 12) (isOver : Bool) (mv : BitVec 16) (s : State) :
    Safe s (execSupplyOutOfRange code isOver mv s) := by
  refine .next <| .ite (.ite (.refl s) ?vwk) <| .ite (.ite (.refl s) <| .ite ?core <| .ite ?held ?noted) <|
    .ite (.refl s) <| .ite (dsSupplyLost_sound s) ?ds
  case vwk => exact .after (sup_sound _ _) <| .after (dsBootIn_sound _) (csResetFull_sound s 0)
  case core => exact (setSupply_sound s 0 false).trans (csResetFull_sound ..)
  case held => exact setSupply_sound ..
  case noted => exact (setSupply_sound ..).trans (supplyEvent_sound ..)
  case ds => exact (setSupply_sound s code.val false).trans <| (supplyEvent_sound ..).trans <| .ite (liveAll_sound _) (.refl _)

theorem execSupplyBackInRange_safe (code : Fin 12) (s : State) : Safe s (execSupplyBackInRange code s) :=
  .next <| .ite (.refl s) <| (setSupply_sound s code.val true).trans <|
    .ite ((sup_sound _ _).trans <| (advanceTo_sound _ _).trans (liveAll_sound _)) (.refl _)

theorem execVwkPowerOn_safe (s : State) : Safe s (execVwkPowerOn s) :=
  .next <| (dsPorIn_sound s).trans <| (csResetFull_sound _ 0).trans (supSys_sound ..)

theorem injTest_sound (s : State) (d : Die) (fails : List InjFail) : Sound s (injTest s d fails) := setPairs_sound s d _ (by simp)

theorem execPowerOnResetRelease_safe (die : Die) (inj : List InjFail) (s : State) : Safe s (execPowerOnResetRelease die inj s) := by
  refine .next ?_
  cases die with
  | cs => exact .ite (.refl s) <| (supSys_sound ..).trans (csRelease_sound _)
  | ds => exact .ite (.refl s) <| (supSys_sound ..).trans (injTest_sound ..)

theorem execResetNLow_safe (s : State) : Safe s (execResetNLow s) :=
  .next <| .ite (.refl s) <| (csResetFull_sound s 2).trans (sys_sound _ _)

theorem resetHigh_sound (s : State) : Sound s (resetHigh s) := (sys_sound s _).trans (csRelease_sound _)

theorem execResetNRise_safe (s : State) : Safe s (execResetNRise s) := .next <| .ite (.refl s) (resetHigh_sound s)

theorem execDsBootEntry_safe (s : State) : Safe s (execDsBootEntry s) := .next <| .ite (dsBootIn_sound s) (.refl s)

/-- Both dies are reset before SYS_RESTART puts back what it keeps. -/
theorem restartUnits_sound (s : State) (y : Sys) : Sound s (dsBootIn (csUnitsReset { s with sys := y })) :=
  (sys_sound s y).trans <| (csUnitsReset_sound _).trans (dsBootIn_sound _)

theorem restart_sound (s : State) : Sound s (restart s) := by
  have hunits := restartUnits_sound s { s.sys with rstCause := orBit s.sys.rstCause 4 }
  refine ⟨hunits.queue, hunits.time, fun h => ⟨(hunits.inv h).1, ?_⟩⟩
  have hshape := h.2
  have hreset := (hunits.inv h).2
  simp only [shape, List.cons.injEq] at hshape hreset
  simp [shape, restart, hshape, hreset]

theorem execSysRestart_safe (q : Req) (s : State) : Safe s (execSysRestart q s) :=
  .next <| command_sound (fun t => .ite_fst (restart_sound t) (.refl t)) ..

/-! ## Sleep and wake -/

theorem execSysSleep_safe (value : Word) (s : State) : Safe s (execSysSleep value s) :=
  .next <| writeGate_sound s .cs <| (sleepRequest_sound s value).trans <| .ite (ok_sound ..) (refuse_sound ..)

theorem wakeUp_sound (s : State) : Sound s (wakeUp s) := sys_sound s _

theorem sleepEnd_sound (s : State) : Sound s (sleepEnd s) :=
  (csResetFull_sound s 1).trans <| (supSys_sound ..).trans <| .ite (wakeUp_sound _) (.refl _)

/-- The first step of sleep entry, on channels, controllers and the lockout record. -/
theorem sleepFirst_sound (s : State) (f : Temp → Temp) (g : Can → Can) (v : Nv) :
    Sound s { s with temp := s.temp.map f, can := s.can.map g, nv := v } := .of_eq rfl rfl rfl (by simp [shape])

/-- The second step of sleep entry, on Watch Room and crossing. -/
theorem sleepSecond_sound (s : State) (w : Wr) (x : Crossing) : Sound s { s with wr := w, x := x } := .of_eq rfl rfl rfl rfl

theorem execSleepEntryStep_safe (s : State) : Safe s (execSleepEntryStep s) := by
  refine .next <| .ite (.refl s) ?_
  have hdue (n k : Nat) : Sound s { s.advanceTo n with sys := { (s.advanceTo n).sys with sleepStep := k } } :=
    (advanceTo_sound s n).trans (sys_sound _ _)
  refine .ite ?first <| .ite ?second ?third
  case first => exact .after (sleepFirst_sound ..) (hdue ..)
  case second => exact .after (sleepSecond_sound ..) <| .after (.ite (.refl _) (dsBootIn_sound _)) (hdue ..)
  case third => exact .after (sleepEnd_sound _) (hdue ..)

theorem execWake_safe (s : State) : Safe s (execWake s) := .next <| .ite (.refl s) <| (sys_sound s _).trans (wakeUp_sound _)

theorem wakeLevel_sound (s : State) (level : Bool) : Sound s (wakeLevel s level) := sys_sound s _

theorem execWakeLevelChange_safe (level : Bool) (s : State) : Safe s (execWakeLevelChange level s) :=
  .next <| .ite (.refl s) (wakeLevel_sound s level)

/-! ## Inputs that become resolved -/

theorem lineResolved_sound (s : State) (c l : Nat) (level : Bool) : Sound s (lineResolved s c l level) := modFb_sound s c _

theorem encResolved_sound (s : State) (c l : Nat) (level : Bool) : Sound s (encResolved s c l level) :=
  (lineResolved_sound s c l level).trans <| .ite ((modFb_sound ..).trans (staleCheck_sound _)) (.refl _)

theorem hallResolved_sound (s : State) (c l : Nat) (level : Bool) : Sound s (hallResolved s c l level) :=
  (lineResolved_sound s c l level).trans <| .ite (hallTake_sound ..) (.refl _)

theorem inputResolved_sound (s : State) (i : InputId) (level : Bool) : Sound s (inputResolved s i level) := by
  cases i with
  | encLine ch line => exact encResolved_sound ..
  | tooth ch => exact lineResolved_sound ..
  | hall g line => exact hallResolved_sound ..
  | ssi ch => exact lineResolved_sound ..
  | comparator c => exact compInput_sound ..
  | canRx n => exact .ite (modCan_sound ..) (.refl s)
  | contactor n => exact modCt_sound ..
  | bootstrap g => exact .ite (modGd_sound ..) (.refl s)
  | bridge => exact .ite (bridge_sound ..) (.refl s)
  | resetN => exact .ite (resetHigh_sound s) (.refl s)
  | wake => exact .ite (wakeLevel_sound s false) (.refl s)

theorem execInputResolved_safe (i : InputId) (level : Bool) (s : State) : Safe s (execInputResolved i level s) :=
  .next (inputResolved_sound s i level)

end Sys2Proof.Machine
end

section
namespace Sys2Proof.Machine

/-! ## Start-up -/

theorem toStep_sound (s : State) (k : Nat) : Sound s (toStep s k) := (toStep_touches s k).sound rfl

theorem keeperStart_sound (s : State) (cnonce : Word) : Sound s (keeperStart s cnonce) := (keeperStart_touches s cnonce).sound rfl

theorem readSlot_sound (s : State) (slot : Nat) : Sound s (readSlot s slot).1 := (readSlot_touches s slot).sound rfl

theorem codeEvents_sound (s : State) (lo hi : Nat) : Sound s (codeEvents s lo hi) :=
  .foldl (fun t _ => .ite (.refl t) <| .ite (nvEvent_sound ..) (nvEvent_sound ..)) _ s

/-! ### Step 3 -/

theorem trialRules_sound (s : State) : Sound s (trialRules s) :=
  (Sound.ite ((f23_sound ..).trans (bootSet_sound ..)) (.refl s)).trans <| .ite (bootSet_sound ..) (.refl _)

theorem selectSlot_sound (s : State) : Sound s (selectSlot s).1 := by
  unfold selectSlot
  dsimp only
  refine (trialRules_sound s).trans ?_
  generalize trialRules s = t
  generalize hfirst : verifySlot t _ = r
  have hr : Sound t r.1 := hfirst ▸ verifySlot_sound ..
  generalize hsecond : verifySlot r.1 _ = q
  have hq : Sound r.1 q.1 := hsecond ▸ verifySlot_sound ..
  split
  · exact hr
  · exact .ite_fst (hr.trans <| hq.trans (f23_sound ..)) (hr.trans <| hq.trans (f23_sound ..))

theorem otherSlot_sound (s : State) : Sound s (otherSlot s).1 := verifySlot_sound ..

/-- Parameter blocks written into a die's RAM. -/
theorem mem_sound (s : State) (m : List Host.Cell) (hm : Memory.wf s.mem = true → Memory.wf m = true) : Sound s { s with mem := m } :=
  ⟨rfl, Nat.le_refl _, fun h => ⟨hm h.1, h.2⟩⟩

theorem loadRam_sound (s : State) (d : Die) (b : List Byte) : Sound s (loadRam s d b) :=
  (Sound.foldl (fun t _ => pagePut_sound t ..) ..).trans <| .foldl (fun t _ => mem_sound t _ (Memory.wf_memPutWords _ _)) ..

theorem loadCks_sound (s : State) (d : Die) : Sound s (loadCks s d) := (setCks_touches s d _ (by simp)).sound rfl

theorem staleBuoys_sound (s : State) (d : Die) : Sound s (staleBuoys s d) := .of_eq rfl rfl rfl (by simp [shape, staleBuoys])

theorem pairsNone_sound (s : State) : Sound s (pairsNone s) :=
  (setPairs_sound s .cs _ (by simp)).trans (setPairs_sound _ .ds _ (List.length_map _))

/-- The image and what is loaded of it changed together. -/
theorem imageState_sound (s : State) (i : Image) (m : ImgMgr) (c d : Bool) :
    Sound s { s with csLoaded := c, dsLoaded := d, img := i, im := m } := .of_eq rfl rfl rfl rfl

theorem noImageAt_sound (s : State) (step : Nat) : Sound s (noImageAt s step) :=
  (pairsNone_sound s).trans <| (imageState_sound ..).trans (haltAt_sound ..)

/-- The image taken and its CS half loaded. -/
theorem imageLoadedCs_sound (s : State) (i : Image) (m : ImgMgr) (b : List Byte) :
    Sound s (toStep (staleBuoys (loadCks (loadRam { s with img := i, im := m, csLoaded := true } .cs b) .cs) .cs) 4) :=
  (imageState_sound s i m true s.dsLoaded).trans <| (loadRam_sound ..).trans <| (loadCks_sound ..).trans <|
    (staleBuoys_sound ..).trans (toStep_sound ..)

theorem step3_sound (s : State) : Sound s (step3 s) := by
  refine (codeEvents_sound s (storeBase / 8) ((storeBase + 0x10000) / 8)).trans ?_
  unfold step3
  dsimp only
  generalize codeEvents s _ _ = t
  refine (Sound.ite_fst (otherSlot_sound t) (selectSlot_sound t) :
    Sound t (if t.im.repeated then otherSlot t else selectSlot t).1).trans ?_
  generalize (if t.im.repeated then otherSlot t else selectSlot t) = r
  split
  · exact noImageAt_sound ..
  · exact imageLoadedCs_sound ..

/-! ### Steps 4 to 7 -/

theorem step4_sound (s : State) (x : StepIn) : Sound s (step4 s x) :=
  (modWr_sound s _).trans <| (clk_sound _ _).trans <| (Sound.ite (wrFixed_sound ..) (.refl _)).trans (toStep_sound ..)

theorem injEvents_sound (s : State) (d : Die) : Sound s (injEvents s d) := .foldl (fun t _ => pairFixed_sound t ..) _ s

theorem pairRefused_sound (s : State) (d : Die) (p step : Nat) : Sound s (pairRefused s d p step) :=
  (f23_sound s ..).trans <| .ite (noImageAt_sound ..) <| (pairsNone_sound _).trans <|
    (imageState_sound _ _ _ false _).trans (toStep_sound ..)

theorem pairModes_sound (s : State) (d : Die) : Sound s (pairModes s d) := setPairs_sound s d _ (by simp)

theorem step5_sound (s : State) (x : StepIn) : Sound s (step5 s x) := by
  refine (injTest_sound s .cs x.inj).trans <| (injEvents_sound _ .cs).trans ?_
  unfold step5
  dsimp only
  generalize injEvents _ .cs = t
  split
  · exact pairRefused_sound ..
  · exact (pairModes_sound ..).trans (toStep_sound ..)

/-- The DS units leave the boot state. -/
theorem dsUnits_sound (s : State) (y : Sys) (h : HostIf) : Sound s { s with dsLoaded := true, sys := y, host := h } :=
  .of_eq rfl rfl rfl rfl

/-- The DS half of the image loaded. -/
theorem imageLoadedDs_sound (s : State) (y : Sys) (h : HostIf) (b : List Byte) :
    Sound s (staleBuoys (loadCks (loadRam { s with dsLoaded := true, sys := y, host := h } .ds b) .ds) .ds) :=
  (dsUnits_sound s y h).trans <| (loadRam_sound ..).trans <| (loadCks_sound ..).trans (staleBuoys_sound ..)

theorem omux_sound (s : State) (l : List Word) : Sound s { s with prot := { s.prot with omux := l } } := prot_sound s _ rfl

theorem step7_sound (s : State) : Sound s (step7 s) := by
  refine (injEvents_sound s .ds).trans ?_
  unfold step7
  dsimp only
  generalize injEvents s .ds = t
  split
  · exact pairRefused_sound ..
  · refine .after (toStep_sound ..) <| .after (pairModes_sound ..) ?_
    have hloaded (y : Sys) (h : HostIf) (b : List Byte) := (readSlot_sound t t.img.runslot).trans (imageLoadedDs_sound _ y h b)
    split
    · exact (hloaded ..).trans (omux_sound ..)
    · exact hloaded ..

/-! ### Steps 8 to 10 -/

theorem loadThresholds_sound (s : State) : Sound s (loadThresholds s) :=
  prot_sound s _ (by simp [protSizes])

theorem adcCals_sound (s : State) (l : List (Die × Fin 8 × BitVec 16)) : Sound s (adcCals s l) :=
  .foldl (fun t _ => .ite (countEvent_sound _ _) (.refl t)) l s

theorem excCals_sound (s : State) (l : List (Fin 2 × BitVec 16)) : Sound s (excCals s l) := .foldl (fun t _ => modFb_sound t ..) l s

theorem step8_sound (s : State) (x : StepIn) : Sound s (step8 s x) :=
  (excCals_sound s x.excCal).trans <| (loadThresholds_sound _).trans <| (adcCals_sound ..).trans <|
    (Sound.foldl (fun t _ => .ite (thSample_sound t ..) (.refl t)) ..).trans <| (lampStart_sound _).trans <| (lamp_sound _ _).trans <|
    (Sound.ite (laEvent_sound ..) (.refl _)).trans <| (slackMeasured_sound ..).trans (toStep_sound ..)

theorem step9_sound (s : State) (x : StepIn) : Sound s (step9 s x) := by
  unfold step9
  split
  · exact (countEvent_sound s _).trans (haltAt_sound ..)
  · exact (sys_sound s _).trans (toStep_sound ..)

theorem step10_sound (s : State) (x : StepIn) : Sound s (step10 s x) :=
  ((t0Given_touches s x).sound rfl).trans (toStep_sound _ 11)

theorem stepComplete_sound (s : State) (x : StepIn) : Sound s (stepComplete s x) := by
  refine .ite (.refl s) ?_
  split
  · exact (Sound.ite (.refl s) (dsBootIn_sound s)).trans <| (clk_sound _ _).trans (toStep_sound ..)
  · exact .ite ((keeperStart_sound ..).trans (toStep_sound ..)) ((sys_sound s _).trans (haltAt_sound ..))
  · exact step3_sound s
  · exact step4_sound ..
  · exact step5_sound ..
  · exact .ite (toStep_sound ..) (.refl s)
  · exact .ite (.refl s) (step7_sound s)
  · exact .ite (step8_sound ..) (.refl s)
  · exact step9_sound ..
  · exact step10_sound ..
  · exact .refl s

theorem execStartUpStepComplete_safe (inp : StepIn) (s : State) : Safe s (execStartUpStepComplete inp s) := .next (stepComplete_sound s inp)

theorem execStepTmo_safe (elapsed : Word) (s : State) : Safe s (execStepTmo elapsed s) :=
  .next <| .ite (.refl s) <| (advanceTo_sound s _).trans <| (countEvent_sound _ _).trans (haltAt_sound ..)

theorem page0_sound (s : State) : Sound s (page0 s) := ((readied_touches s).sound rfl).trans ((page0_touches s).sound rfl)

theorem execPage0Start_safe (s : State) : Safe s (execPage0Start s) := by
  refine .next ?_
  split
  · exact .refl s
  · exact .ite (.refl s) <| (advanceTo_sound s _).trans (page0_sound _)

end Sys2Proof.Machine
end

section
namespace Sys2Proof.Machine

/-! ## Every command -/

/-- Every command ends in a next state, soundly reached: an entry of a lane by its issue, any other row by its own lemma. -/
theorem exec_safe (c : Instr) (s : State) : Safe s (exec c s) :=
  match c with
  | .superframeSend die => execSuperframeSend_safe die s
  | .superframeReceived die frame viol => execSuperframeReceived_safe die frame viol s
  | .snapshotAdopt die beam => execSnapshotAdopt_safe die beam s
  | .xloss die => execXloss_safe die s
  | .crossingTraining ok align => execCrossingTraining_safe ok align s
  | .safetyMessageSend die => execSafetyMessageSend_safe die s
  | .safetyMessageReceived die b0 b1 b2 b3 => execSafetyMessageReceived_safe die b0 b1 b2 b3 s
  | .sloss die => execSloss_safe die s
  | .pllul die => execPllul_safe die s
  | .xtal => execXtal_safe s
  | .wrclkWindow count => execWrclkWindow_safe count s
  | .vwkPowerOn => execVwkPowerOn_safe s
  | .powerOnResetRelease die inj => execPowerOnResetRelease_safe die inj s
  | .supplyOutOfRange code isOver mv => execSupplyOutOfRange_safe code isOver mv s
  | .resetNLow => execResetNLow_safe s
  | .dsBootEntry => execDsBootEntry_safe s
  | .startUpStepComplete inp => execStartUpStepComplete_safe inp s
  | .stepTmo elapsed => execStepTmo_safe elapsed s
  | .page0Start => execPage0Start_safe s
  | .slotCheck => execSlotCheck_safe s
  | .imgWrite q offset data => execImgWrite_safe q offset data s
  | .imgCheck q => execImgCheck_safe q s
  | .imgActivate q slot => execImgActivate_safe q slot s
  | .sysRestart q => execSysRestart_safe q s
  | .stgWrite q offset data => execStgWrite_safe q offset data s
  | .stgApply q => execStgApply_safe q s
  | .stageLoadComplete item => execStageLoadComplete_safe item s
  | .keyEnrol q entry roles signer resv xy sig nonce => execKeyEnrol_safe q entry roles signer resv xy sig nonce s
  | .keyRevoke q entry signer resv sig nonce => execKeyRevoke_safe q entry signer resv sig nonce s
  | .safeFrame q frame => execSafeFrame_safe q frame s
  | .logRead q first count => execLogRead_safe q first count s
  | .sealForReturn q signer resv sig nonce => execSealForReturn_safe q signer resv sig nonce s
  | .hostRead q addr count => execHostRead_safe q addr count s
  | .hostWrite q addr words => execHostWrite_safe q addr words s
  | .enum q addr => execEnum_safe q addr s
  | .frameForward port frame => execFrameForward_safe port frame s
  | .spiSend frame complete => execSpiSend_safe frame complete s
  | .spiRecv => execSpiRecv_safe s
  | .spiStatus => execSpiStatus_safe s
  | .linkUp port => execLinkUp_safe port s
  | .linkDn port => execLinkDn_safe port s
  | .klock => execKlock_safe s
  | .keeperRestartComplete => execKeeperRestartComplete_safe s
  | .keeperLoadUpdate u => execKeeperLoadUpdate_safe u s
  | .deferredRequestServe => execDeferredRequestServe_safe s
  | .kpLoadRead => execKpLoadRead_safe s
  | .buoyUpdate b path m e => execBuoyUpdate_safe b path m e s
  | .buoyTimeout b => execBuoyTimeout_safe b s
  | .byWexpWrite b e => execByWexpWrite_safe b e s
  | .mirrorStale b => execMirrorStale_safe b s
  | .windowBinRollover k => execWindowBinRollover_safe k s
  | .inputResolved k level => execInputResolved_safe k level s
  | .unres ch => execUnres_safe ch s
  | .encoderEdge ch a b z => execEncoderEdge_safe ch a b z s
  | .wireLevelChange ch line same level => execWireLevelChange_safe ch line same level s
  | .wiredis ch line => execWiredis_safe ch line s
  | .arm ch => execArm_safe ch s
  | .resync ch => execResync_safe ch s
  | .toothEdge ch dirLevel => execToothEdge_safe ch dirLevel s
  | .hallCodeChange g code => execHallCodeChange_safe g code s
  | .standstill ch => execStandstill_safe ch s
  | .feedbackTick => execFeedbackTick_safe s
  | .resolverUpdate ch sinD cosD excAmp excSeen => execResolverUpdate_safe ch sinD cosD excAmp excSeen s
  | .ssiRequest ch dataHigh => execSsiRequest_safe ch dataHigh s
  | .ssiFrameComplete ch bits => execSsiFrameComplete_safe ch bits s
  | .beamSourceUpdate beam => execBeamSourceUpdate_safe beam s
  | .beamReanchor beam => execBeamReanchor_safe beam s
  | .beamStaleTimeout beam => execBeamStaleTimeout_safe beam s
  | .mainsPllUpdate => execMainsPllUpdate_safe s
  | .bmphaseRead die beam => execBmphaseRead_safe die beam s
  | .nop _ _ => .next (issueEntry_sound ..)
  | .sample _ _ _ => .next (issueEntry_sound ..)
  | .read _ _ => .next (issueEntry_sound ..)
  | .move _ _ => .next (issueEntry_sound ..)
  | .run _ _ => .next (issueEntry_sound ..)
  | .load _ _ => .next (issueEntry_sound ..)
  | .write _ _ => .next (issueEntry_sound ..)
  | .blendRamp _ _ => .next (issueEntry_sound ..)
  | .blendMix _ _ => .next (issueEntry_sound ..)
  | .limitRange _ _ => .next (issueEntry_sound ..)
  | .limitSym _ _ => .next (issueEntry_sound ..)
  | .commit _ _ => .next (issueEntry_sound ..)
  | .scan _ _ => .next (issueEntry_sound ..)
  | .snap _ _ => .next (issueEntry_sound ..)
  | .fenceAll _ _ => .next (issueEntry_sound ..)
  | .fenceData _ _ => .next (issueEntry_sound ..)
  | .fenceOut _ _ => .next (issueEntry_sound ..)
  | .mark _ _ => .next (issueEntry_sound ..)
  | .signalKeeper _ _ => .next (issueEntry_sound ..)
  | .signalWatchRoom _ _ => .next (issueEntry_sound ..)
  | .entryAccept die codes => execEntryAccept_safe die codes s
  | .entryRetire die upset => execEntryRetire_safe die upset s
  | .restoreComplete die pair upset => execRestoreComplete_safe die pair upset s
  | .lhSwapRequest die lane page => execLhSwapRequest_safe die lane page s
  | .lhSwapCancel die lane => execLhSwapCancel_safe die lane s
  | .pageSwap die lane => execPageSwap_safe die lane s
  | .drainComplete die lane => execDrainComplete_safe die lane s
  | .mergeCopyComplete die lane pair upset => execMergeCopyComplete_safe die lane pair upset s
  | .traceReadLow die => execTraceReadLow_safe die s
  | .traceReadHigh die => execTraceReadHigh_safe die s
  | .lePdbgWrite die pair value => execLePdbgWrite_safe die pair value s
  | .engineHalt die engine => execEngineHalt_safe die engine s
  | .carrierBoundary die group => execCarrierBoundary_safe die group s
  | .carrierMidpoint die group => execCarrierMidpoint_safe die group s
  | .carrierUnlock die group => execCarrierUnlock_safe die group s
  | .channelHalfStart die ch second => execChannelHalfStart_safe die ch second s
  | .intlk die ch => execIntlk_safe die ch s
  | .waveDutyUpdate m => execWaveDutyUpdate_safe m s
  | .legStepEdge ch => execLegStepEdge_safe ch s
  | .electricalTurnEnd m => execElectricalTurnEnd_safe m s
  | .candleCommutate m => execCandleCommutate_safe m s
  | .catchTimeout m => execCatchTimeout_safe m s
  | .candto m => execCandto_safe m s
  | .subexp m => execSubexp_safe m s
  | .comparatorLevelChange c asserted => execComparatorLevelChange_safe c asserted s
  | .blankingEnd c => execBlankingEnd_safe c s
  | .chopf => execChopf_safe s
  | .speedRuleTick => execSpeedRuleTick_safe s
  | .speedRuleHysteresisEnd m => execSpeedRuleHysteresisEnd_safe m s
  | .ptClr src => execPtClr_safe src s
  | .ptClrAll => execPtClrAll_safe s
  | .ptLogReadLow => execPtLogReadLow_safe s
  | .ptLogReadHigh => execPtLogReadHigh_safe s
  | .watchRoomEvaluation => execWatchRoomEvaluation_safe s
  | .contactorSettleEnd n => execContactorSettleEnd_safe n s
  | .contactorDropout n => execContactorDropout_safe n s
  | .contactorCheckStart => execContactorCheckStart_safe s
  | .degexp => execDegexp_safe s
  | .lockoutContactorOpen => execLockoutContactorOpen_safe s
  | .resetArmLapse => execResetArmLapse_safe s
  | .sbcrcCheck => execSbcrcCheck_safe s
  | .safetyFrameWrite frame => execSafetyFrameWrite_safe frame s
  | .resetArm frame => execResetArm_safe frame s
  | .resetConfirm frame => execResetConfirm_safe frame s
  | .labEnter frame => execLabEnter_safe frame s
  | .labExit frame => execLabExit_safe frame s
  | .sfkey frame => execSfkey_safe frame s
  | .rwsDeny offset => execRwsDeny_safe offset s
  | .wrWdkickWrite value next => execWrWdkickWrite_safe value next s
  | .wdogTimeout next => execWdogTimeout_safe next s
  | .refrUpdate => execRefrUpdate_safe s
  | .hiccupExpiry k => execHiccupExpiry_safe k s
  | .retryCountReset k => execRetryCountReset_safe k s
  | .telemetryWindowEnd k => execTelemetryWindowEnd_safe k s
  | .telemetryExtremeRead k x => execTelemetryExtremeRead_safe k x s
  | .chargeEvaluation p => execChargeEvaluation_safe p s
  | .pretmo p => execPretmo_safe p s
  | .totalTimerExpiry p => execTotalTimerExpiry_safe p s
  | .terminationTimeout p => execTerminationTimeout_safe p s
  | .chargeStart p => execChargeStart_safe p s
  | .chargeStop p => execChargeStop_safe p s
  | .chargeClear p => execChargeClear_safe p s
  | .revstart => execRevstart_safe s
  | .revstop => execRevstop_safe s
  | .acQualified => execAcQualified_safe s
  | .srclost byLock => execSrclost_safe byLock s
  | .handoverRampEnd => execHandoverRampEnd_safe s
  | .handoverEnd => execHandoverEnd_safe s
  | .gridWatchArm => execGridWatchArm_safe s
  | .grid => execGrid_safe s
  | .gearDutyUpdate a => execGearDutyUpdate_safe a s
  | .overcur a => execOvercur_safe a s
  | .stall a => execStall_safe a s
  | .vdsoc gd high => execVdsoc_safe gd high s
  | .bsuv gd => execBsuv_safe gd s
  | .supuvBridge => execSupuvBridge_safe s
  | .gxClr mask present => execGxClr_safe mask present s
  | .temperatureSample c code => execTemperatureSample_safe c code s
  | .throttleUpdate => execThrottleUpdate_safe s
  | .lampMeasurement x => execLampMeasurement_safe x s
  | .switchingDelayEdge ch high turnOn delay => execSwitchingDelayEdge_safe ch high turnOn delay s
  | .coolingCurveStart c => execCoolingCurveStart_safe c s
  | .coolingCurveEnd c => execCoolingCurveEnd_safe c s
  | .replanTarget => execReplanTarget_safe s
  | .laFreezeWrite value => execLaFreezeWrite_safe value s
  | .canIntegrationEnd n => execCanIntegrationEnd_safe n s
  | .canArbitration n => execCanArbitration_safe n s
  | .canFrameSent n => execCanFrameSent_safe n s
  | .canBusError n tx arbLost tec rec => execCanBusError_safe n tx arbLost tec rec s
  | .busOffRecoveryEnd n => execBusOffRecoveryEnd_safe n s
  | .canFrameReceived n frame sofAgo => execCanFrameReceived_safe n frame sofAgo s
  | .txReq n buf => execTxReq_safe n buf s
  | .txCancel n buf => execTxCancel_safe n buf s
  | .txBufferWrite n buf offset value => execTxBufferWrite_safe n buf offset value s
  | .pop n => execPop_safe n s
  | .flush n => execFlush_safe n s
  | .recover n => execRecover_safe n s
  | .referenceMessageDue => execReferenceMessageDue_safe s
  | .ntloss => execNtloss_safe s
  | .slewEnd => execSlewEnd_safe s
  | .cnNtsethiWrite value => execCnNtsethiWrite_safe value s
  | .cnNtloRead => execCnNtloRead_safe s
  | .checkScanBackgroundStart die ch => execCheckScanBackgroundStart_safe die ch s
  | .ckCtrlStart die ch => execCkCtrlStart_safe die ch s
  | .scanComplete die ch unc => execScanComplete_safe die ch unc s
  | .ckExpWrite die ch value => execCkExpWrite_safe die ch value s
  | .sysSleep value => execSysSleep_safe value s
  | .sleepEntryStep => execSleepEntryStep_safe s
  | .wake => execWake_safe s
  | .supplyBackInRange code => execSupplyBackInRange_safe code s
  | .pllRelock die => execPllRelock_safe die s
  | .crystalRestored => execCrystalRestored_safe s
  | .bridgeSupplyInRange => execBridgeSupplyInRange_safe s
  | .bootstrapRecovered gd => execBootstrapRecovered_safe gd s
  | .wakeLevelChange level => execWakeLevelChange_safe level s
  | .resetNRise => execResetNRise_safe s

/-- Settles O4: every command's next state is soundly reached, which keeps the queue. -/
theorem commandsLeaveTheQueueAlone : Obligations.CommandsLeaveTheQueueAlone := by
  intro c s
  obtain ⟨t, ht, hsound⟩ := exec_safe c s
  exact ⟨t, ht, hsound.queue⟩

/-- A command taken off the queue leaves time, memory and units. -/
theorem pending_inv {s : State} (rest : List Instr) (h : Inv s) : Inv { s with pending := rest } := h

theorem idle_inv {s : State} (h : Inv s) : Inv (idle s) := h

/-- Settles O3: an idle step lets one cycle pass, any other step is a command, each of which is soundly reached. -/
theorem everyStepKeepsTheInvariant : Obligations.EveryStepKeepsTheInvariant := by
  intro s
  unfold step
  split
  case h_1 => exact ⟨idle s, rfl, Nat.le_succ s.now, idle_inv⟩
  case h_2 c rest _ =>
    obtain ⟨t, ht, hsound⟩ := exec_safe c { s with pending := rest }
    exact ⟨t, ht, hsound.time, hsound.inv ∘ pending_inv rest⟩

end Sys2Proof.Machine
end
